-- ==== Sys2Proof/Word.lean ====
section
/-! DEFINITION. The words, addresses and places of the module: the plain vocabulary every other file uses. -/

namespace Sys2Proof

/-- One byte of memory (R6). -/
abbrev Byte := BitVec 8
/-- A 64-bit word: a scalar register, a descriptor word (R6, R112). -/
abbrev Word := BitVec 64
/-- A 32-bit word: an instruction, a counter (R118, R137). -/
abbrev Word32 := BitVec 32
/-- A 48-bit physical address (R26). -/
abbrev Addr := BitVec 48

/-- A 12-bit initiator identifier (R442). -/
abbrev Init := BitVec 12

/-- A lea: lea `lea` of Meadow `die` (R17). -/
structure LeaId where
  die : Fin 4
  lea : Fin 16
  deriving DecidableEq, Repr

/-- A physical tile 0 to 16 of a lea (R28). -/
structure TileId where
  die : Fin 4
  lea : Fin 16
  tile : Fin 17
  deriving DecidableEq, Repr

/-- A thread slot of a physical tile (R111). -/
structure SlotId where
  die : Fin 4
  lea : Fin 16
  tile : Fin 17
  slot : Fin 8
  deriving DecidableEq, Repr

/-- The two Heaths (R17). -/
inductive Heath where
  | a
  | b
  deriving DecidableEq, Repr

end Sys2Proof
end

