-- ==== Sys2Proof/Syntax.lean ====
section
/-! DEFINITION. The commands the module takes: one constructor per row of spec/opcode_table.json, with what the sender
supplies. A tile instruction names the slot that issues it and its fields (R118 to R132); a register write names its
initiator (R442); an event names where it happens and what was met there. -/

namespace Sys2Proof

/-- What the error code of a memory finds in a read (R93 to R95, R326). -/
inductive Ecc where
  | clean
  | corrected
  | uncorrectable
  deriving DecidableEq, Repr

/-- The checker whose mismatch a tile reports to its lea (R99 to R102). -/
inductive Check where
  | residue
  | checksum
  | lane
  deriving DecidableEq, Repr

/-- What an engine met in its own hardware during its part of a command (R240, R314): nothing, a corrected or an
uncorrectable error of its buffers, or a mismatch of one of its checks, numbered as its MISMATCH register numbers them. -/
inductive EngineErr where
  | clean
  | corrected
  | uncorrectable
  | mismatch (check : Fin 4)
  deriving DecidableEq, Repr

/-- A port of a die link (R348): the die, 0 to 3 a Meadow, 4 the Vale, 5 and 6 the Heaths, and its port number. -/
structure PortId where
  die : Fin 7
  port : Fin 6
  deriving DecidableEq, Repr

/-- What the lane tests of one module find (R361): the data lanes that fail in its first run, those that fail again on
the repaired module are listed twice, and whether a redundant lane fails. -/
structure ModuleTest where
  lanes : List (Fin 64)
  redundant : Bool
  deriving DecidableEq, Repr

/-- The narrowest eye of a link (R368): its width, module and lane. -/
structure Eye where
  width : Byte
  module_ : Fin 8
  lane : Fin 64
  deriving DecidableEq, Repr

/-- The parameter block of a Heath (R448), as its signed image holds it. Tolerances and limits are in the units of the
table; QUEUE_ACTq is listed for q = 0 to 255, 0 where the list ends; CAN rates are in kbit/s and Mbit/s. -/
structure HeathParams where
  posTol : Nat
  spdTol : Nat
  objPosTol : Nat
  objSpdTol : Nat
  objBase1 : Nat
  objBase2 : Nat
  pairUs : Nat
  verdictUs : Nat
  acceptMaxMs : Nat
  fbDecel : Nat
  vmax : Nat
  amax : Nat
  alatmax : Nat
  clrThresh : Nat
  contTol : Nat
  objClear : Nat
  urgT1 : Nat
  urgT2 : Nat
  queueAct : List Nat
  outMac : Nat
  outEtype : Nat
  vehCanId : Nat
  logCanId : Nat
  canNominal : Nat
  canData : Nat
  deriving DecidableEq, Repr

/-- A check of the rotation of R441: an injection into a tile, a Glen engine or a Prairie engine with a TARGET value, or a
read of the test address of a stack's or a pool's firewall, which a faulty firewall admits. -/
inductive SelfTest where
  | tile (t : TileId) (target : Fin 8)
  | glen (l : LeaId) (target : Fin 8)
  | prairie (die : Fin 4) (target : Fin 8)
  | stack (die : Fin 4) (admitted : Bool)
  | pool (l : LeaId) (admitted : Bool)
  deriving DecidableEq, Repr

/-- What the lead finds out about a joiner (R521): its UID and COL_FABRIC_ID, whether it is MANAGER-ELIGIBLE, its preferred
address, whether its certificate chain and its CHALLENGE response verify, and its measurement registers M1 to M4. -/
structure AdmitReq where
  uid : Word
  fabric : Word
  eligible : Bool
  pref : Option (BitVec 12)
  attested : Bool
  meas : List (BitVec 256)
  deriving DecidableEq, Repr

/-- What a ROLE message says (R526): a role is granted, the receiver is the shadow of a target, or a shadow copies the
receiver, or no longer does. -/
inductive RoleGrant where
  | role
  | shadow (target : BitVec 12)
  | watched (shadow : BitVec 12)
  | unwatched (shadow : BitVec 12)
  deriving DecidableEq, Repr

/-- A RING message (R519): one that arrives on a port, or the entries that the management channel sends to the lead. -/
inductive RingMsg where
  | receive (p : Fin 4) (frame : List Byte)
  | send
  deriving DecidableEq, Repr

/-- A COMPARE message (R526): a frame's statuses and its poses, as positions X and Y in 1/8 mm, HEAD and SPEED, with the
parameter block of the sender's Heath; or the lead's finding, told to the shadow. -/
inductive CompareMsg where
  | summary (job : BitVec 16) (statuses : List Byte) (poses : List (Int × Int × Nat × Nat)) (tol : HeathParams)
  | outcome (agree : Bool)
  deriving DecidableEq, Repr


/-- A use of the debug network (R474): a scan chain shifted by some bits, or a memory instrument that reads bytes. -/
inductive ScanOp where
  | shift (chain n : Nat)
  | memory (addr : Addr) (n : Nat)
  deriving DecidableEq, Repr

/-- Who sends a request to a DRAM controller, and what the request carries (R155, R376): initiator, class and task. -/
structure DramUser where
  init : Init
  cls : Fin 8
  task : BitVec 12
  deriving DecidableEq, Repr

/-- A line read at a DRAM controller (R330, R377): who reads, the line, and whether the read arrives or, in its turn, is served. -/
structure DramReq where
  who : DramUser
  addr : Addr
  serve : Bool
  deriving DecidableEq, Repr

/-- A physical layer of a stack (R328): 0 to 7, or 8, the spare's. -/
structure DramLayer where
  die : Fin 4
  layer : Fin 9
  deriving DecidableEq, Repr

/-- What a camera port shows as a packet is stored (R391, R417): the free lines of its receive FIFO, and whether the link memory
gives an uncorrectable error. -/
structure CsiFifo where
  free : Fin 129
  linkErr : Bool
  deriving DecidableEq, Repr

/-- The commands: every row of the table of operations and events. -/
inductive Instr where
  /-- R41: A write of VAL_MODE_REQ with GO = 1 latches TARGET as a mode change request, or is refused with 0x02 while a request is
  pending. -/
  | modeRequest (init : Init) (value : Word32)
  /-- R41: Within 10 µs the scheduler core accepts or refuses the latched mode request, sets PENDING or REFUSAL, and clears GO. -/
  | modeRequestDecide
  /-- R41: At the next job boundary after acceptance, the new mode takes effect, PENDING clears and EVT_MODE_CHANGED is raised. -/
  | modeChangeApply
  /-- R41: When the current job has not ended 50 ms after acceptance, it is preempted and suspended, and the mode changes. -/
  | modeChangePreempt
  /-- R39: Port A has not trained 1 s after LOADED with HOST_CFG ATTACHED, so EFF_HOST stays 0 and EVT_HOST_MISSING is raised. -/
  | hostMissingTimeout
  /-- R119: Scalar register-register add, modulo 2^64. -/
  | add (t : SlotId) (rd rs1 rs2 : Fin 32)
  /-- R119: Scalar register-register subtract, modulo 2^64. -/
  | sub (t : SlotId) (rd rs1 rs2 : Fin 32)
  /-- R119: Scalar bitwise AND. -/
  | andRr (t : SlotId) (rd rs1 rs2 : Fin 32)
  /-- R119: Scalar bitwise OR. -/
  | orRr (t : SlotId) (rd rs1 rs2 : Fin 32)
  /-- R119: Scalar bitwise XOR. -/
  | xorRr (t : SlotId) (rd rs1 rs2 : Fin 32)
  /-- R119: Scalar shift left by rs2[5:0]. -/
  | sll (t : SlotId) (rd rs1 rs2 : Fin 32)
  /-- R119: Scalar shift right with zero fill. -/
  | srl (t : SlotId) (rd rs1 rs2 : Fin 32)
  /-- R119: Scalar shift right with sign fill. -/
  | sra (t : SlotId) (rd rs1 rs2 : Fin 32)
  /-- R119: Signed set-less-than. -/
  | slt (t : SlotId) (rd rs1 rs2 : Fin 32)
  /-- R119: Unsigned set-less-than. -/
  | sltu (t : SlotId) (rd rs1 rs2 : Fin 32)
  /-- R119: Low 64 bits of a product. -/
  | mul (t : SlotId) (rd rs1 rs2 : Fin 32)
  /-- R119: High 64 bits of the unsigned 128-bit product. -/
  | mulhu (t : SlotId) (rd rs1 rs2 : Fin 32)
  /-- R119: Signed minimum. -/
  | minRr (t : SlotId) (rd rs1 rs2 : Fin 32)
  /-- R119: Signed maximum. -/
  | maxRr (t : SlotId) (rd rs1 rs2 : Fin 32)
  /-- R119: Unsigned minimum. -/
  | minu (t : SlotId) (rd rs1 rs2 : Fin 32)
  /-- R119: Unsigned maximum. -/
  | maxu (t : SlotId) (rd rs1 rs2 : Fin 32)
  /-- R120: Add a sign-extended immediate. -/
  | addi (t : SlotId) (rd rs1 : Fin 32) (imm : BitVec 15)
  /-- R120: AND with an immediate. -/
  | andi (t : SlotId) (rd rs1 : Fin 32) (imm : BitVec 15)
  /-- R120: OR with an immediate. -/
  | ori (t : SlotId) (rd rs1 : Fin 32) (imm : BitVec 15)
  /-- R120: XOR with an immediate. -/
  | xori (t : SlotId) (rd rs1 : Fin 32) (imm : BitVec 15)
  /-- R120: Shift left by an immediate amount. -/
  | slli (t : SlotId) (rd rs1 : Fin 32) (sh : BitVec 6)
  /-- R120: Shift right by an immediate amount with zero fill. -/
  | srli (t : SlotId) (rd rs1 : Fin 32) (sh : BitVec 6)
  /-- R120: Shift right by an immediate amount with sign fill. -/
  | srai (t : SlotId) (rd rs1 : Fin 32) (sh : BitVec 6)
  /-- R120: Signed compare with an immediate. -/
  | slti (t : SlotId) (rd rs1 : Fin 32) (imm : BitVec 15)
  /-- R120: Shift left by 15 and OR in a zero-extended immediate. -/
  | shori (t : SlotId) (rd rs1 : Fin 32) (imm : BitVec 15)
  /-- R121: Load with sign extension, checked for alignment and firewall under R122. -/
  | ld (t : SlotId) (rt base : Fin 32) (sz : Fin 4) (imm : BitVec 12)
  /-- R121: Load with zero extension. -/
  | ldu (t : SlotId) (rt base : Fin 32) (sz : Fin 4) (imm : BitVec 12)
  /-- R121: Store the low SZ bytes of a register, subject to R135. -/
  | st (t : SlotId) (rt base : Fin 32) (sz : Fin 4) (imm : BitVec 12)
  /-- R121: Load 256 bytes into a vector register. -/
  | vld (t : SlotId) (vt : Fin 8) (base : Fin 32) (imm : BitVec 12)
  /-- R121: Store 256 bytes from a vector register. -/
  | vst (t : SlotId) (vt : Fin 8) (base : Fin 32) (imm : BitVec 12)
  /-- R123: An outstanding load, store or vector access is acknowledged, and its request slot frees. -/
  | memoryRequestAck (t : SlotId) (k : Fin 16) (ecc : Ecc)
  /-- R94: A corrected SRAM codeword is written back in the next free cycle of its bank. -/
  | sramCeWriteback (addr : Addr)
  /-- R96: The scrubber reads a tile or pool line in an idle bank cycle and writes back a corrected line. -/
  | sramScrubRead (addr : Addr) (ecc : Ecc)
  /-- R127: Queue the dense tensor steps of an output region into an accumulator set. -/
  | mma (t : SlotId) (da db : Fin 4) (set : Fin 2) (acc : Bool) (rs1 rs2 : Fin 32)
  /-- R127: Queue the 2:4 sparse tensor steps of an output region into an accumulator set. -/
  | mmas (t : SlotId) (da db : Fin 4) (set : Fin 2) (acc : Bool) (rs1 rs2 : Fin 32)
  /-- R128: Convert an accumulator set and write its region to tile SRAM or the lea pool. -/
  | drain (t : SlotId) (da : Fin 4) (set : Fin 2) (rs1 : Fin 32)
  /-- R81: The cells run one queued step of a slot, chosen round-robin among ready slots. -/
  | tensorStep (t : TileId) (ecc : Ecc)
  /-- R129: Vector add. -/
  | vadd (t : SlotId) (vd va vb : Fin 8) (fmt : Fin 16)
  /-- R129: Vector subtract. -/
  | vsub (t : SlotId) (vd va vb : Fin 8) (fmt : Fin 16)
  /-- R129: Vector multiply. -/
  | vmul (t : SlotId) (vd va vb : Fin 8) (fmt : Fin 16)
  /-- R129: Vector fused multiply-add, rounded once. -/
  | vfma (t : SlotId) (vd va vb vc : Fin 8) (fmt : Fin 16)
  /-- R129: Vector minimum. -/
  | vmin (t : SlotId) (vd va vb : Fin 8) (fmt : Fin 16)
  /-- R129: Vector maximum. -/
  | vmax (t : SlotId) (vd va vb : Fin 8) (fmt : Fin 16)
  /-- R129: Vector less-than compare. -/
  | vcmplt (t : SlotId) (vd va vb : Fin 8) (fmt : Fin 16)
  /-- R129: Vector equality compare. -/
  | vcmpeq (t : SlotId) (vd va vb : Fin 8) (fmt : Fin 16)
  /-- R131: Vector format conversion, with scale bytes for MX formats. -/
  | vcvt (t : SlotId) (vd va vc : Fin 8) (fmt fmt2 : Fin 16) (half : Bool)
  /-- R129: Vector e^x. -/
  | vexp (t : SlotId) (vd va : Fin 8) (fmt : Fin 16)
  /-- R129: Vector 2^x. -/
  | vexp2 (t : SlotId) (vd va : Fin 8) (fmt : Fin 16)
  /-- R129: Vector reciprocal square root. -/
  | vrsqrt (t : SlotId) (vd va : Fin 8) (fmt : Fin 16)
  /-- R276: Sixteen radix-4 complex FFT butterflies. -/
  | vbfly4 (t : SlotId) (vd va vb : Fin 8) (fmt : Fin 16)
  /-- R275: Pixel-axis max pooling under a VPOOL control word. -/
  | vpoolMax (t : SlotId) (vd va vb vc : Fin 8) (fmt : Fin 16)
  /-- R275: Pixel-axis average pooling under a VPOOL control word. -/
  | vpoolAvg (t : SlotId) (vd va vb vc : Fin 8) (fmt : Fin 16)
  /-- R275: Pixel shift or stride selection under a VPOOL control word. -/
  | vpoolSelect (t : SlotId) (vd va vb vc : Fin 8) (fmt : Fin 16)
  /-- R129: Fixed-tree sum of all lanes into lane 0. -/
  | vredsum (t : SlotId) (vd va : Fin 8) (fmt : Fin 16)
  /-- R129: Maximum of all lanes into lane 0. -/
  | vredmax (t : SlotId) (vd va : Fin 8) (fmt : Fin 16)
  /-- R129: Broadcast a converted scalar register into every lane. -/
  | vbcast (t : SlotId) (vd : Fin 8) (rs : Fin 32) (fmt : Fin 16)
  /-- R129: Extract lane 0, converted to INT64, into a scalar register. -/
  | vext (t : SlotId) (rd : Fin 32) (va : Fin 8) (fmt : Fin 16)
  /-- R132: Branch if equal. -/
  | beq (t : SlotId) (rs1 rs2 : Fin 32) (imm : BitVec 14)
  /-- R132: Branch if not equal. -/
  | bne (t : SlotId) (rs1 rs2 : Fin 32) (imm : BitVec 14)
  /-- R132: Branch if less, signed. -/
  | blt (t : SlotId) (rs1 rs2 : Fin 32) (imm : BitVec 14)
  /-- R132: Branch if greater or equal, signed. -/
  | bge (t : SlotId) (rs1 rs2 : Fin 32) (imm : BitVec 14)
  /-- R132: Branch if less, unsigned. -/
  | bltu (t : SlotId) (rs1 rs2 : Fin 32) (imm : BitVec 14)
  /-- R132: Branch if greater or equal, unsigned. -/
  | bgeu (t : SlotId) (rs1 rs2 : Fin 32) (imm : BitVec 14)
  /-- R132: Jump and link, PC-relative. -/
  | jal (t : SlotId) (rd : Fin 32) (imm : BitVec 19)
  /-- R132: Jump and link to a register target. -/
  | jalr (t : SlotId) (rd rs1 : Fin 32) (imm : BitVec 14)
  /-- R140: Post a value to a sync counter, applied on arrival or held until commit. -/
  | post (t : SlotId) (rs1 rs2 : Fin 32) (kind : Fin 4) (rel : Bool)
  /-- R140: A post that is applied on arrival reaches its counter on the target tile. -/
  | postArrive (k : Nat)
  /-- R143: Begin waiting for the issuing tile's counter C to reach a target, with a timeout. -/
  | wait (t : SlotId) (rd rs1 rs2 : Fin 32) (c : Fin 64) (acq : Bool)
  /-- R143: The counter reaches the target, so the wait completes with rd = 0x00. -/
  | waitArrival (t : SlotId) (k : Nat)
  /-- R143: The timeout expires without arrival, so the wait completes with rd = 0x07. -/
  | waitTimeout (t : SlotId) (k : Nat)
  /-- R147: Wait until every earlier access and copy of the slot is performed. -/
  | fenceRelease (t : SlotId)
  /-- R147: Hold later memory accesses of the slot until the fence has happened. -/
  | fenceAcquire (t : SlotId)
  /-- R147: Release and acquire together. -/
  | fenceFull (t : SlotId)
  /-- R145: Start a memory-to-memory copy that ends with a release post. -/
  | copy (t : SlotId) (rd rs1 rs2 : Fin 32) (c : Fin 64)
  /-- R145: A copy finishes and posts 1 to its counter with release ordering. -/
  | copyComplete (t : SlotId) (k : Fin 16) (ecc : Ecc)
  /-- R132: Load a command descriptor-table entry into a descriptor register. -/
  | tdld (t : SlotId) (dreg : Fin 4) (idx : Fin 64)
  /-- R133: Read an identity or time value by selector. -/
  | rdid (t : SlotId) (rd sel : Fin 32)
  /-- R136: Translate a logical tile to its SRAM window base for the current run. -/
  | ltaSram (t : SlotId) (rd rs1 : Fin 32)
  /-- R136: Translate a logical tile to its TIL block base for the current run. -/
  | ltaTil (t : SlotId) (rd rs1 : Fin 32)
  /-- R116: End the issuing thread. -/
  | exit (t : SlotId)
  /-- R118: A reserved format or operation ends the command with BAD_DESCRIPTOR. -/
  | reservedInstruction (t : SlotId) (w : Word32)
  /-- R116: Once an exited thread's requests are acknowledged and its steps are done, its slot frees and the tile-share may end. -/
  | threadSlotFree (t : SlotId)
  /-- R161: A waiting tile-share starts its TPT threads once TPT slots of its physical tile are free. -/
  | tileShareStart (list : Fin 3) (idx : BitVec 16) (ltile : Fin 1024)
  /-- R97: A write of LEA_SWAP.GO requests a swap of a logical tile, which is refused or begins. -/
  | leaSwap (init : Init) (l : LeaId) (value : Word32)
  /-- R97: Once the old tile's tile-shares end, LEA_MAPn moves to the free tile and the old tile starts CLEARING. -/
  | swapMap (l : LeaId)
  /-- R91: A tile finishes clearing its SRAM and becomes READY, and a swap's GO clears. -/
  | tileClearDone (t : TileId)
  /-- R102: A tile reports a checker mismatch to its lea, which kills the command and swaps the reporting tile out. -/
  | mismatchReport (t : SlotId) (check : Check)
  /-- R105: Arm an injection into the residue checker. -/
  | tilInjectResidue (init : Init) (t : TileId)
  /-- R105: Arm an injection into the checksum checker. -/
  | tilInjectChecksum (init : Init) (t : TileId)
  /-- R105: Arm an injection into the vector check lane. -/
  | tilInjectVector (init : Init) (t : TileId)
  /-- R105: Arm a single-bit SRAM check-bit injection. -/
  | tilInjectSramSingle (init : Init) (t : TileId)
  /-- R105: Arm a double-bit SRAM check-bit injection. -/
  | tilInjectSramDouble (init : Init) (t : TileId)
  /-- R105: No evaluation fires within 1 ms of arming, so the injection result is TIMEOUT. -/
  | tilInjectTimeout (t : TileId)
  /-- R109: Clear TIL_ECC_CE and TIL_ECC_UE. -/
  | tilCntClrEcc (init : Init) (t : TileId)
  /-- R109: Clear TIL_CHK_SKIP. -/
  | tilCntClrSkip (init : Init) (t : TileId)
  /-- R208: A JOB submission entry is consumed, and its descriptor is read, checked and queued. -/
  | job (set : Fin 4)
  /-- R208: Allocate a FREE context from an image and walk its tables. -/
  | ctxAlloc (set : Fin 4)
  /-- R208: Free a context that is not in use and release its tables. -/
  | ctxFree (set : Fin 4)
  /-- R208: Set a context's BLOCK bit. -/
  | ctxBlock (set : Fin 4)
  /-- R208: Clear a context's BLOCK bit. -/
  | ctxUnblock (set : Fin 4)
  /-- R208: Rewrite the software fields of a context that is not in use. -/
  | ctxWrite (set : Fin 4)
  /-- R208: Copy the authoritative descriptor of a context to memory. -/
  | ctxRead (set : Fin 4)
  /-- R208: Remove a queued or suspended job of the ring set, which ends with PREEMPTED. -/
  | jobCancel (set : Fin 4)
  /-- R203: When no job runs, the scheduler core starts the highest-priority admissible queued job and checks it under R152. -/
  | jobStart
  /-- R176: A suspended job resumes once its KIND is admitted and no higher-priority admissible job is queued or running. -/
  | jobResume
  /-- R154: The job time limit expires, its in-flight and waiting commands end with TIMEOUT, and the job ends. -/
  | jobTimeout (serial : Nat)
  /-- R161: Start a THREADS command: run its checks, select its map, swap in its contexts, make its take and launch its tile-shares. -/
  | threads (list : Fin 2) (idx : BitVec 16)
  /-- R233: Start a forward GLEN command that computes attention per item on its placed engines. -/
  | glenForward (list : Fin 2) (idx : BitVec 16)
  /-- R242: Start a backward GLEN command that computes dQ, dK and dV. -/
  | glenBackward (list : Fin 2) (idx : BitVec 16)
  /-- R243: Start a GLEN command that combines partial attention outputs. -/
  | glenCombine (list : Fin 2) (idx : BitVec 16)
  /-- R296: Start a PRAIRIE PUBLISH command, whose map publication is a deferred effect. -/
  | prairiePublish (list : Fin 2) (idx : BitVec 16)
  /-- R301: Run wavefront cost propagation over the current grid. -/
  | prairieWavefront (list : Fin 2) (idx : BitVec 16)
  /-- R307: Start a CHECK command that deals candidates to engines for collision checking. -/
  | prairieCheck (list : Fin 2) (idx : BitVec 16)
  /-- R307: An engine starts a batch of up to 128 candidates and records its epoch tags. -/
  | prairieBatch (list : Fin 2) (idx : BitVec 16) (die : Fin 4)
  /-- R309: After every engine's last batch, the lead engine ranks the valid candidates and selects rank 0. -/
  | prairieRanking (list : Fin 2) (idx : BitVec 16)
  /-- R185: Move source shards into destination layouts by logical offset. -/
  | collectiveReshard (list : Fin 2) (idx : BitVec 16)
  /-- R185: Reduce the participants' shards element-wise into every destination. -/
  | collectiveAllReduce (list : Fin 2) (idx : BitVec 16)
  /-- R185: Concatenate the participants' shards by rank into every destination. -/
  | collectiveAllGather (list : Fin 2) (idx : BitVec 16)
  /-- R185: Reduce the participants' shards and scatter the slices by rank. -/
  | collectiveReduceScatter (list : Fin 2) (idx : BitVec 16)
  /-- R531: Write a checkpoint image of DRAM ranges and, with CTX 1, of contexts. -/
  | checkpointSnapshot (list : Fin 2) (idx : BitVec 16)
  /-- R532: Restore DRAM ranges and contexts from a checked checkpoint image. -/
  | checkpointRestore (list : Fin 2) (idx : BitVec 16)
  /-- R217: Run the golden test on the named leas in a DIAG job. -/
  | golden (list : Fin 2) (idx : BitVec 16)
  /-- R282: Crop and bilinearly resize boxes into output matrices. -/
  | cropResize (list : Fin 2) (idx : BitVec 16)
  /-- R287: Pack a raw tensor into ZB64 segments and a length array. -/
  | zb64Pack (list : Fin 2) (idx : BitVec 16)
  /-- R287: Unpack ZB64 segments into a raw tensor. -/
  | zb64Unpack (list : Fin 2) (idx : BitVec 16)
  /-- R210: The scheduler core takes one record from the completion FIFO and records it for its command. -/
  | completionFifoRecord
  /-- R155: A command's time limit expires and enters the completion FIFO as a fault record. -/
  | commandTimeout (list : Fin 2) (idx : BitVec 16)
  /-- R166: With every tile-share and engine step ended, validation runs, COMMITTED is recorded, and buffers and deferred effects
  are applied. -/
  | commitPoint (list : Fin 2) (idx : BitVec 16)
  /-- R206: A waiting completion entry is written once the completion ring has room. -/
  | completionEntryWrite (set : Fin 4)
  /-- R196: A context changes between READY and BLOCKED within 2 µs of its cause. -/
  | contextReadiness (ctx : Fin 4096)
  /-- R199: A swap-in reads the primary or mirror descriptor and makes the context resident, or tears it down when both reads fail. -/
  | swapInComplete (ctx : Fin 4096)
  /-- R201: With no demand waiting, the scheduler core swaps in the oldest SWAPPED_READY context. -/
  | autonomousSwap
  /-- R215: An idle golden target is reserved and its golden run starts. -/
  | goldenReserve (l : LeaId)
  /-- R215: A golden run ends, its CRC is compared with REF_CRC, and the reservation ends. -/
  | goldenRunEnd (die : Fin 4) (lea : Fin 16) (diag : Bool)
  /-- R215: A golden run exceeds SLOT_US, counts as a mismatch, and its reservation ends. -/
  | goldenSlotTimeout (l : LeaId)
  /-- R205: A write of SQ_TAIL rings the doorbell, or sets ERROR for an index out of range. -/
  | sqTailDoorbell (init : Init) (set : Fin 4) (value : Word32)
  /-- R218: A write of RING_CTL.EN = 1 enables a ring set, or sets ERROR. -/
  | ringEnable (init : Init) (set : Fin 4) (value : Word32)
  /-- R219: A write of RING_CTL.EN = 0 stops consumption and drains the set's jobs. -/
  | ringDisable (init : Init) (set : Fin 4) (value : Word32)
  /-- R259: A PUBLISH request replaces a context's page tables after its GEN and MODS checks. -/
  | kvPublish (init : Init) (value : Word32)
  /-- R259: A publication that waited for appending commands proceeds. -/
  | kvPublishResume
  /-- R265: An EVICT request removes an unreferenced prefix node. -/
  | kvEvict (init : Init) (value : Word32)
  /-- R260: A retired table copy is released once its commands end, and EVT_KV_RETIRED is raised. -/
  | kvRetireRelease (root : Addr)
  /-- R256: Quarantined frames return to the free list once the commands in flight at the moment of release have ended. -/
  | kvQuarantineRelease (frame : Nat)
  /-- R297: A held map range is released once it is no longer current and its recording commands have ended. -/
  | prairieMapRelease (base : Addr)
  /-- R298: Invalidate an engine's grid and advance its epoch. -/
  | praInvalGrid (init : Init) (die : Fin 4)
  /-- R298: Invalidate an engine's voxel tree and advance its epoch. -/
  | praInvalVox (init : Init) (die : Fin 4)
  /-- R240: Arm an injection into the Glen score check. -/
  | glnInjectScore (init : Init) (l : LeaId)
  /-- R240: Arm an injection into the Glen value check. -/
  | glnInjectValue (init : Init) (l : LeaId)
  /-- R240: Arm a single-bit injection into the Glen row state. -/
  | glnInjectRowState (init : Init) (l : LeaId)
  /-- R105: No Glen detection within 1 ms of arming, so the result is TIMEOUT. -/
  | glnInjectTimeout (l : LeaId)
  /-- R247: Clear GLN_RAM_CE. -/
  | glnCntClrEcc (init : Init) (l : LeaId)
  /-- R247: Clear GLN_CHK_SKIP. -/
  | glnCntClrSkip (init : Init) (l : LeaId)
  /-- R247: Clear GLN_EMPTY_ROWS, GLN_PAGES_READ and GLN_ATTRIB. -/
  | glnCntClrUse (init : Init) (l : LeaId)
  /-- R314: Arm an injection into the wavefront comparator. -/
  | praInjectWavefront (init : Init) (die : Fin 4)
  /-- R314: Arm an injection into the disc and voxel comparator. -/
  | praInjectDisc (init : Init) (die : Fin 4)
  /-- R314: Arm a single-bit injection into a Prairie buffer. -/
  | praInjectBuffer (init : Init) (die : Fin 4)
  /-- R105: No Prairie detection within 1 ms of arming, so the result is TIMEOUT. -/
  | praInjectTimeout (die : Fin 4)
  /-- R316: Clear PRA_RAM_CE. -/
  | praCntClrEcc (init : Init) (die : Fin 4)
  /-- R316: Clear PRA_SUBST, PRA_STALE_FAIL and PRA_NO_CAND. -/
  | praCntClrUse (init : Init) (die : Fin 4)
  /-- R330: A DRAM controller serves a line read from its write queue or from the stack and decodes the codeword. -/
  | dramRead (req : DramReq) (act : Bool) (err : List (Fin 72 × Byte)) (cmdErr : Bool)
  /-- R329: A line write enters or merges into the write queue and is performed. -/
  | dramWrite (who : DramUser) (addr : Addr) (mask : BitVec 64) (data : List Byte)
  /-- R332: A partial write reads, merges and re-encodes its line, or is discarded and poisons the line. -/
  | dramReadModifyWrite (addr : Addr) (act : Bool) (err : List (Fin 72 × Byte)) (cmdErr : Bool)
  /-- R329: The controller drains queued writes to the stack. -/
  | dramWriteDrain (die : Fin 4) (pc : Fin 32) (acts : List (Fin 16 × Fin 4096))
  /-- R333: A pseudo-channel reaches its refresh due cycle, precharges, and receives REFab. -/
  | dramRefreshDue (die : Fin 4) (pc : Fin 32)
  /-- R334: The controller reads every layer temperature and may change refresh mode. -/
  | dramTempRead (die : Fin 4) (temps : List Byte)
  /-- R328: The patrol scrubber reads and handles one codeword in an idle cycle. -/
  | dramPatrolScrub (at_ : DramLayer) (off : BitVec 34) (err : List (Fin 72 × Byte)) (cmdErr : Bool)
  /-- R342: A pseudo-channel copies one unit of the retired layer to the spare layer. -/
  | migrationUnit (die : Fin 4) (pc : Fin 32) (errs : List (Fin 16 × List (Fin 72 × Byte) × Bool))
  /-- R338: The eye monitor updates CENTRE, WIDTH and DRIFT every 10 ms. -/
  | eyeMonitorUpdate (die : Fin 4) (pc : Fin 32) (group : Fin 5) (width drift : Byte)
  /-- R336: Stack training ends, and lanes are marked and pseudo-channels failed as found. -/
  | dramTrainingDone (die : Fin 4) (pass : Bool) (fails : List (Fin 32 × BitVec 36)) (eyes : List (Fin 32 × Fin 5 × Byte × Byte))
  /-- R343: A self-refresh request performs queued writes and puts the stack in self-refresh. -/
  | selfRefreshEntry (die : Fin 4)
  /-- R340: A write of DMC_RETIRE.GO requests retirement of a layer select. -/
  | dmcRetire (init : Init) (die : Fin 4) (value : Word32)
  /-- R345: Set the row-disturbance threshold; a write below 256 is discarded. -/
  | dmcRhThreshWrite (init : Init) (die : Fin 4) (value : Word32)
  /-- R345: Clear DMC_CE, DMC_UE and DMC_RH_REFRESH. -/
  | dmcCntClrErr (init : Init) (die : Fin 4)
  /-- R352: A DATA flit is checked by CRC and sequence, then accepted or discarded with a NAK. -/
  | flitData (p : PortId) (flit : List Byte)
  /-- R349: An IDLE flit supplies ACK and credits. -/
  | flitIdle (p : PortId) (flit : List Byte)
  /-- R353: A NAK makes the sender replay every unacknowledged flit. -/
  | flitNak (p : PortId) (flit : List Byte)
  /-- R353: 1,024 cycles pass without an ACK advance, so unacknowledged flits are replayed. -/
  | replayTimeout (p : PortId)
  /-- R355: A RETRAIN ends ACTIVE with replay when a module passes within 50 µs, and DOWN otherwise. -/
  | retrainEnd (p : PortId) (mods : List ModuleTest) (eye : Eye)
  /-- R351: A read of one 64-byte line. -/
  | rd (p : PortId)
  /-- R351: A write of one whole line. -/
  | wr (p : PortId)
  /-- R351: A partial write under a byte mask. -/
  | wrp (p : PortId)
  /-- R351: A read response with data or a status. -/
  | rdrsp (p : PortId)
  /-- R351: A write acknowledgement: the write is performed at its target. -/
  | wrack (p : PortId)
  /-- R351: A counter post carried over a die link. -/
  | fdlPost (p : PortId)
  /-- R351: A whole-line zero write. -/
  | zwr (p : PortId)
  /-- R351: A read of two consecutive lines. -/
  | rd2 (p : PortId)
  /-- R175: A die receives a kill for the listed tags, ends their tile-shares, abandons engine steps and drops unperformed writes. -/
  | kill (die : Fin 4)
  /-- R175: A die's drain report reaches the scheduler core. -/
  | drained (die : Fin 4)
  /-- R210: A completion-FIFO record travels from a Meadow to the Vale and enters the FIFO. -/
  | record (die : Fin 4)
  /-- R456: A Heath receives a fault report, checks its CRC and keeps it in its fault collection. -/
  | faultReport (h : Fin 2) (die : Fin 5) (bad : Bool)
  /-- R354: The partner asks for retraining, and the port enters RETRAIN. -/
  | ctrlRetrain (p : PortId)
  /-- R363: The partner announces its reset, and the port goes DOWN. -/
  | ctrlResetNotify (p : PortId)
  /-- R420: A cross frame on the via path, forwarded by the Vale to the other Heath. -/
  | xframe (h : Fin 2)
  /-- R459: A fault-record entry is delivered to a restarting die's restore registers. -/
  | restore (h : Fin 2) (die : Fin 5) (index : Fin 8192)
  /-- R363: No flit or training pattern arrives for 48 cycles, so the port goes DOWN and answers its outstanding requests with
  DIE_ABSENT. -/
  | linkRxTimeout (p : PortId)
  /-- R365: The scheduler core marks a die absent, clears its presence bits, raises EVT_DIE_DEPARTED and records kills. -/
  | dieMarkAbsent (die : Fin 7)
  /-- R366: At the first moment with no job running, a returned Meadow's links are sent REJOIN and the die rejoins. -/
  | dieRejoin (die : Fin 4)
  /-- R358: A capability record part is received, and negotiation runs once the record is complete. -/
  | cap (p : PortId) (part : Byte) (data : BitVec 48)
  /-- R358: The agreed-record CRC is compared, and the exchange is repeated or refused. -/
  | capAck (p : PortId) (crc : BitVec 16)
  /-- R355: A partner leaving reset sends HELLO, and a DOWN port enters NEGOTIATE. -/
  | hello (p : PortId) (id : Word32)
  /-- R356: A Heath requests a warm restart or cold reset of a die. -/
  | resetReq (p : PortId) (cold : Bool)
  /-- R356: A Meadow receives its power budget and allowed operating points. -/
  | pwrBudget (p : PortId)
  /-- R356: The Vale receives a Meadow's mean power and operating point. -/
  | pwrReport (p : PortId)
  /-- R366: A STANDBY link receives REJOIN and goes ACTIVE. -/
  | rejoin (p : PortId) (pos : Fin 16)
  /-- R364: A Meadow receives FENCE and takes its link to the named die DOWN. -/
  | fence (p : PortId) (pos : Fin 16)
  /-- R355: Training and lane tests end, with repairs, and the port goes to STANDBY or DISABLED. -/
  | linkTrainDone (p : PortId) (mods : List ModuleTest) (eye : Eye)
  /-- R368: Run pattern P1 through RETRAIN in SERVICE. -/
  | fdlTestP1 (init : Init) (p : PortId)
  /-- R368: Run pattern P2 through RETRAIN in SERVICE. -/
  | fdlTestP2 (init : Init) (p : PortId)
  /-- R368: Run pattern P3 at TRAIN length through RETRAIN in SERVICE. -/
  | fdlTestP3 (init : Init) (p : PortId)
  /-- R368: Clear FDL_RETRY, FDL_CRC_ERR and FDL_SB_DROP. -/
  | fdlCntClrErr (init : Init) (p : PortId)
  /-- R375: A new 10 µs regulation window starts, and class usage and capacity are reset. -/
  | flrWindowStart (die : Fin 5)
  /-- R380: A real-time master's slack crosses a threshold and its urgency level rises. -/
  | urgencyRise (die : Fin 7) (source : Fin 3) (slack : Nat)
  /-- R380: The slack stays above the threshold for 1 µs and the urgency level falls. -/
  | urgencyFall (die : Fin 7) (source : Fin 3) (slack : Nat)
  /-- R379: Set a class budget, applied from the next window; a class 7 value over its limit is discarded. -/
  | flrBudgetWrite (init : Init) (die q : Fin 5) (c : Fin 8) (value : Word32)
  /-- R387: Set the ingress urgency thresholds; a write with T2 not below T1 is discarded. -/
  | flrIqmUrgWrite (init : Init) (value : Word32)
  /-- R387: Clear FLR_C7_LAT_MAX and FLR_C7_LATE. -/
  | flrCntClrLat (init : Init) (die : Fin 5)
  /-- R387: Clear FLR_OVERc and FLR_TASK_LINESn. -/
  | flrCntClrOver (init : Init) (die : Fin 5)
  /-- R390: A camera long packet is checked, unpacked and stored into its queue's open stripe. -/
  | csiLongPacket (port : Fin 16) (vc : Fin 4) (dt : BitVec 6) (payload : List Byte) (hdr : Ecc) (crcOk overflow : Bool)
    (fifo : CsiFifo)
  /-- R390: A frame start opens a frame, and truncates an open one. -/
  | csiFrameStart (port : Fin 16) (vc : Fin 4) (num : BitVec 16) (hdr : Ecc)
  /-- R391: A frame end closes the frame's last stripe with EOF. -/
  | csiFrameEnd (port : Fin 16) (vc : Fin 4) (hdr : Ecc)
  /-- R389: Line start, line end and generic short packets are accepted and ignored. -/
  | csiShortPacketIgnored (port : Fin 16) (hdr : Ecc)
  /-- R409: No frame start arrives for FT_MS ms, so EVT_IQM_NO_FRAME is raised. -/
  | noFrameTimeout (q : Fin 256)
  /-- R394: A received Ethernet frame is classified and checked. -/
  | ethFrame (mac : Fin 4) (frame : List Byte) (overflow : Bool) (fifo : Fin 257) (lasted : Nat)
  /-- R407: A fault record for an overwritten taken item reaches the scheduler core, and the holding command ends. -/
  | queueOverwrittenRecord
  /-- R410: A replay line is written into a queue's aperture in REPLAY. -/
  | apertureWrite (init : Init) (q : Fin 256) (off : BitVec 12) (line : List Byte)
  /-- R399: An accepted write of a queue configuration register flushes the queue. -/
  | iqmQueueConfigWrite (init : Init) (q : Fin 256) (reg : Fin 5) (value : Word32)
  /-- R416: Clear the port counters, IQM_UNCLASS and IQM_UE. -/
  | iqmCntClrPort (init : Init)
  /-- R416: Clear the queue loss and error counters. -/
  | iqmCntClrQueue (init : Init)
  /-- R412: Each die's time base copy is realigned from the Vale every 1 µs. -/
  | timeBaseRealign (die : Fin 7)
  /-- R414: A Sync is timestamped, its residual computed and the time unit state updated. -/
  | ptpSync (twoStep : Bool) (seq : BitVec 16) (interval : BitVec 8) (origin : Nat) (correction : Int)
  /-- R413: A Follow_Up completes a two-step Sync. -/
  | ptpFollowUp (seq : BitVec 16) (origin : Nat) (correction : Int)
  /-- R413: The partner's Pdelay_Req is answered. -/
  | ptpPdelayReq (seq : BitVec 16)
  /-- R413: A Pdelay response updates the path delay and neighbour rate ratio. -/
  | ptpPdelayResp (seq : BitVec 16) (received sent : Nat)
  /-- R413: A Pdelay_Req is sent once per second. -/
  | ptpPdelayReqSend
  /-- R413: Announce and Signaling messages are discarded. -/
  | ptpAnnounceDiscard
  /-- R414: No Sync for four intervals moves the time unit to HOLDOVER or FREE_RUN. -/
  | ptpSyncTimeout
  /-- R414: HOLDOVER lasts HOLD_S seconds, and the time unit goes to FREE_RUN. -/
  | holdoverExpiry
  /-- R423: A Heath sends its output message, its log frame and a cross frame at its 250 µs slot. -/
  | heathSlot (h : Fin 2)
  /-- R420: A Heath sends a cross frame 125 µs after its slot. -/
  | crossFrameMidslot (h : Fin 2)
  /-- R420: A Heath receives a cross frame from its partner on either path. -/
  | crossFrame (h : Fin 2) (viaPath bad : Bool)
  /-- R427: No valid cross frame for 240 µs, so the partner is declared silent. -/
  | partnerSilent (h : Fin 2)
  /-- R425: A vehicle state frame arrives on CAN FD controller 0 and is checked. -/
  | vehicleStateFrame (h : Fin 2) (data : List Byte)
  /-- R429: A Heath receives a trajectory record, checks it and acknowledges it. -/
  | trajectoryRecord (h : Fin 2) (err : List (Fin 576 × Byte))
  /-- R429: The second channel's record misses PAIR_US, and the frame's outcome is NONE. -/
  | pairTimeout (h : Fin 2) (job : BitVec 16)
  /-- R433: A Heath finishes comparison or plausibility checks and decides its verdict and the frame outcome. -/
  | heathVerdict (h : Fin 2) (job : BitVec 16)
  /-- R433: The partner's verdict misses VERDICT_US, and the outcome is NONE. -/
  | verdictTimeout (h : Fin 2) (job : BitVec 16)
  /-- R435: The accepted trajectory exceeds ACCEPT_MAX_MS, and output turns to FALLBACK. -/
  | acceptStale (h : Fin 2)
  /-- R441: A Heath injects the next checker or reads a firewall test address in its rotation. -/
  | checkerSelfTest (h : Fin 2) (test : SelfTest)
  /-- R419: A lock-step mismatch, SRAM error, watchdog expiry or loopback difference makes the Heath stop its outputs. -/
  | heathFailSilent (h : Fin 2)
  /-- R447: A restarted Heath boots, compares parameter blocks and copies its partner's state. -/
  | heathBoot (h : Fin 2) (params : HeathParams)
  /-- R439: A Meadow lost to both Heaths sends no HELLO for 5 ms, so a warm restart is decided. -/
  | helloWaitTimeout (die : Fin 4)
  /-- R445: No RESET_NOTIFY by 100 µs, so the Heath asserts the Meadow's reset wire. -/
  | resetNotifyTimeout (die : Fin 4)
  /-- R445: A reset wire is released after its hold time. -/
  | resetWireRelease (die : Fin 5)
  /-- R455: A die's fault collector sends a heartbeat report every 10 ms. -/
  | collectorHeartbeat (die : Fin 5)
  /-- R455: No report from a die with a live link for 25 ms, so the die is declared hung. -/
  | dieHung (h : Fin 2) (die : Fin 5)
  /-- R460: At each 100 ms time base value a lea control core self-tests the free tile or swaps out the tile tested longest ago. -/
  | rotationStep (l : LeaId)
  /-- R461: A tile self-test ends in a pass or in retirement. -/
  | tileSelfTestDone (t : TileId) (pass : Bool)
  /-- R463: An SRAM row is remapped onto a spare row. -/
  | rowRepair (mac row : Nat) (bist : Bool)
  /-- R466: After losing an in-service tile with no free tile, the lea rebinds to 15 tiles or is lost. -/
  | leaRebind (l : LeaId)
  /-- R459: A Heath appends a fault-record entry to its flash, compacting when a half is full. -/
  | faultRecordWrite (h : Fin 2)
  /-- R459: A die gets no fault record within 20 ms and starts from its factory state. -/
  | faultRecordTimeout (die : Fin 5)
  /-- R464: The power controller measures monitor slack once per second. -/
  | ageingMeasure (die : Fin 7) (slacks : List (BitVec 16))
  /-- R464: The hourly mean slack is evaluated, and an ageing step may be taken. -/
  | ageingHourEval (die : Fin 7)
  /-- R559: FREEZE_N falls and stays low for 100 ns, requesting a freeze. -/
  | freezeNFall (lowNs : Option Nat)
  /-- R476: A security-core write of VAL_FREEZE.REQ in SERVICE requests a freeze through the Heaths. -/
  | valFreezeReq (init : Init) (value : Word32)
  /-- R475: A thaw request restarts the frozen domains in reverse order. -/
  | thaw
  /-- R561: The debug register access instrument issues a register request, or sets ERROR while disabled. -/
  | debugRegisterAccess (wr : Bool) (addr : Addr) (value : Word32)
  /-- R538: The main input rises into range. -/
  | mainInputInRange
  /-- R539: The main input leaves range, and the Vale and Meadows are reset. -/
  | mainInputOutOfRange
  /-- R538: The auxiliary input rises into range. -/
  | auxInputInRange
  /-- R539: The auxiliary input leaves range, and every Heath output stops. -/
  | auxInputOutOfRange
  /-- R536: An input exceeds its over-voltage threshold and is treated as out of range. -/
  | inputOvervoltage (aux : Bool)
  /-- R538: Each Heath leaves reset 12 ms after the auxiliary input comes into range. -/
  | heathResetRelease
  /-- R538: The Vale and Meadow resets are released 20 ms after both inputs are in range. -/
  | sequencerRelease
  /-- R558: RESET_N low for 1 µs puts the module in module reset. -/
  | resetNAssert (lowNs : Nat)
  /-- R558: The release of RESET_N starts the boot. -/
  | resetNRelease
  /-- R487: The Vale ROM checks the slots, chooses one, verifies its components and starts the security core. -/
  | romBoot (bad : List (Fin 2 × Fin 8 × Fin 2))
  /-- R488: The security core loads the Vale cores, extends measurements and applies the configuration block. -/
  | securityCoreStart
  /-- R488: Lea control cores are loaded once their Meadow's Vale link is in STANDBY. -/
  | leaCoreLoad (l : LeaId)
  /-- R498: M6 is extended with the Heath measurements, when readable or after 1 s. -/
  | heathMeasRead
  /-- R488: 10 s after LOADED, the running slot is written GOOD with TRIES 0. -/
  | bootSettle
  /-- R499: A processor's watchdog expires and the processor crashes. -/
  | fwWatchdogExpiry (code : BitVec 8)
  /-- R499: A processor takes an unhandled trap and crashes. -/
  | fwUnhandledTrap (code : BitVec 8)
  /-- R499: A processor's memory returns an uncorrectable error and the processor crashes. -/
  | fwMemoryUe (code : BitVec 8) (imem : Bool)
  /-- R500: A restarting processor returns to RUNNING, and the scheduler core drains its FIFO. -/
  | fwRestartDone (code : BitVec 8)
  /-- R495: SPDM GET_VERSION request. -/
  | getVersion (port : Fin 2) (req : List Byte)
  /-- R495: SPDM GET_CAPABILITIES request. -/
  | getCapabilities (port : Fin 2) (req : List Byte)
  /-- R495: SPDM NEGOTIATE_ALGORITHMS request. -/
  | negotiateAlgorithms (port : Fin 2) (req : List Byte)
  /-- R495: SPDM GET_DIGESTS request. -/
  | getDigests (port : Fin 2) (req : List Byte)
  /-- R495: SPDM GET_CERTIFICATE request for slot 0. -/
  | getCertificate (port : Fin 2) (req : List Byte)
  /-- R495: SPDM CHALLENGE, signed with the identity key. -/
  | challenge (port : Fin 2) (req : List Byte)
  /-- R496: SPDM GET_MEASUREMENTS returns measurement registers copied in one cycle. -/
  | getMeasurements (port : Fin 2) (req : List Byte)
  /-- R496: A DOE discovery data object on PCIe port A. -/
  | doeDiscovery (index : Byte)
  /-- R504: Write a Vale image into the non-running slot and mark it TRIAL. -/
  | stage (m : Fin 2) (readback : Bool)
  /-- R505: Restart the processors onto the staged slot's firmware without a module reset. -/
  | activate (m : Fin 2)
  /-- R506: Raise the anti-rollback counters to the running SVNs. -/
  | arbCommit (m : Fin 2)
  /-- R504: Stage a Heath image into each Heath's other slot. -/
  | heathStage (m : Fin 2) (readbackA readbackB : Bool)
  /-- R505: Reset Heath B and then Heath A onto their TRIAL slots. -/
  | heathActivate (m : Fin 2)
  /-- R503: Copy a flash range into DRAM. -/
  | flashRead (m : Fin 2)
  /-- R503: Copy the measurement log into DRAM. -/
  | logRead (m : Fin 2)
  /-- R503: Revoke a fused key slot. -/
  | revoke (m : Fin 2)
  /-- R511: A training Col port locks and receives a HELLO, and goes UP. -/
  | colLockAchieved (p : Fin 4)
  /-- R511: A Col port has no lock within 20 ms and goes DOWN. -/
  | colTrainingTimeout (p : Fin 4)
  /-- R511: Loss of lock for 1 µs, or 8 uncorrectable codewords in 1 ms, takes a Col port DOWN. -/
  | colLossOfLock (p : Fin 4) (unc : Nat)
  /-- R512: A Col lane fails, and the spare is brought in or the port is held. -/
  | colLaneFail (p : Fin 4) (lane : Fin 5)
  /-- R514: An axis bypass closes, and its ports become BYPASSED. -/
  | bypassClose (axis : Fin 2)
  /-- R514: An axis bypass opens, and its ports train again. -/
  | bypassOpen (axis : Fin 2)
  /-- R516: A remote read frame for this module. -/
  | colRd (p : Fin 4) (frame : List Byte)
  /-- R516: A remote read response frame. -/
  | colRdrsp (p : Fin 4) (frame : List Byte)
  /-- R516: A remote write frame. -/
  | colWr (p : Fin 4) (frame : List Byte)
  /-- R516: A remote write acknowledgement frame. -/
  | colWrack (p : Fin 4) (frame : List Byte)
  /-- R528: A collective partials frame, answered BUSY when its command has not started. -/
  | colColl (p : Fin 4) (frame : List Byte) (group serial : Word32) (member : Fin 256)
  /-- R513: A HELLO frame, checked for miswiring. -/
  | colHello (p : Fin 4) (frame : List Byte) (uid fabric : Word) (name : Fin 4) (address : Option (BitVec 12)) (lead : Option Word)
  /-- R524: A heartbeat frame from a port partner. -/
  | colHeartbeat (p : Fin 4) (frame : List Byte) (fec unc : Nat)
  /-- R518: A wrapped fabric key is received and installed. -/
  | colKey (p : Fin 4) (frame : List Byte) (idx : Fin 4) (wrapped : List Byte) (ecies : Bool)
  /-- R517: A frame for another module is forwarded by the routing table. -/
  | frameForward (p : Fin 4) (frame : List Byte)
  /-- R525: A manager's PROBE, answered with PROBE_RSP. -/
  | mgmtProbe (p : Fin 4) (frame : List Byte)
  /-- R525: A PROBE response reaches the manager, and the module is kept. -/
  | mgmtProbeRsp (p : Fin 4) (frame : List Byte)
  /-- R525: A manager receives SUSPECT and probes the module. -/
  | mgmtSuspect (p : Fin 4) (frame : List Byte) (who : BitVec 12) (cause : Fin 2)
  /-- R525: A VOTE EXPEL reaches the lead, and two votes expel the module. -/
  | mgmtVote (p : Fin 4) (frame : List Byte) (who : BitVec 12)
  /-- R523: The expelled module learns of its expulsion and rejoins. -/
  | mgmtExpel (p : Fin 4) (frame : List Byte)
  /-- R522: A route table part is written into the shadow bank. -/
  | mgmtRoute (p : Fin 4) (frame : List Byte) (epoch : Word32) (first : BitVec 12) (entries : List (BitVec 16)) (managers : List (BitVec 12 × Word))
  /-- R522: The shadow routing bank becomes current in one cycle, and expulsions are applied. -/
  | mgmtRouteCommit (p : Fin 4) (frame : List Byte) (epoch : Word32) (key : Fin 4)
  /-- R521: The lead checks a joiner over SPDM and admits or refuses it. -/
  | mgmtAdmitReq (p : Fin 4) (frame : List Byte) (req : AdmitReq)
  /-- R521: A joiner receives its admission or refusal. -/
  | mgmtAdmit (p : Fin 4) (frame : List Byte) (uid : Word) (address : BitVec 12)
  /-- R519: An SPDM message carried over the fabric. -/
  | mgmtSpdm (p : Fin 4) (frame : List Byte)
  /-- R519: Ring set 1 submission entries, or its completion and event entries sent to the lead manager. -/
  | mgmtRing (m : RingMsg)
  /-- R519: Replay lines for an ingress aperture. -/
  | mgmtAperture (p : Fin 4) (frame : List Byte)
  /-- R526: A role or a shadow target is granted. -/
  | mgmtRole (p : Fin 4) (frame : List Byte) (grant : RoleGrant)
  /-- R526: The lead compares the shadow and target frame summaries. -/
  | mgmtCompare (p : Fin 4) (frame : List Byte) (c : CompareMsg)
  /-- R520: A manager steps down. -/
  | mgmtResign (p : Fin 4) (frame : List Byte)
  /-- R520: A formation candidate frame is heard and forwarded. -/
  | mgmtCandidate (p : Fin 4) (frame : List Byte) (uid : Word)
  /-- R520: No lead is named for 20 ms, so a MANAGER-ELIGIBLE module sends CANDIDATE. -/
  | candidateWait
  /-- R520: 20 ms after candidacy, the lowest UID heard becomes lead. -/
  | formationElect
  /-- R521: A refused joiner asks again after 10 s. -/
  | admitRetry
  /-- R524: The Col hardware sends a HEARTBEAT on every UP port every 250 µs. -/
  | colHeartbeatSend
  /-- R524: No partner heartbeat for 1,000 µs, so SUSPECT is sent to the managers. -/
  | colHeartbeatMiss (p : Fin 4)
  /-- R525: No PROBE_RSP within 250 µs, so the manager votes EXPEL. -/
  | probeTimeout (who : BitVec 12)
  /-- R523: 4 ms of unauthenticated frames tell a module it has been expelled. -/
  | authFailExpulsion
  /-- R518: A fabric key is erased 100 ms after it stops being current. -/
  | keyErase (key : Fin 4)
  /-- R527: A remote request unanswered for 2 ms ends with DIE_ABSENT. -/
  | remoteTimeout (tag : BitVec 10)
  /-- R528: A COLL frame answered BUSY is sent again after 10 µs. -/
  | collRetry
  /-- R534: Clear COL_DROP, COL_AUTH_FAIL and the port counters. -/
  | colCntClrErr (init : Init)
  /-- R541: Every 1 ms the power-management core computes and sends Meadow budgets. -/
  | pwrBudgetCycle
  /-- R540: The Vale measures module input power every 10 µs. -/
  | powerMeasure (mainV mainI auxV auxI : BitVec 16)
  /-- R544: Every 1 µs the die power controller chooses the point as the lowest cap. -/
  | oppEvaluate (die : Fin 4) (mw : BitVec 20)
  /-- R547: A die reads its thermal sensors every 10 µs and sets or releases thermal caps. -/
  | thermalRead (die : Fin 7) (temps : List Byte)
  /-- R549: Coolant sensors are read every 10 ms and the coolant condition is checked. -/
  | coolantRead (inlet outlet : Byte)
  /-- R564: An inbound PCIe port A read through a BAR is checked and completed. -/
  | pcieInboundRead (addr : Word) (len : BitVec 13)
  /-- R564: An inbound PCIe port A posted write is checked and performed or discarded. -/
  | pcieInboundWrite (addr : Word) (data : List Byte)
  /-- R565: An MSI-X vector sends a message, at most one per 2 µs, after its entry is performed. -/
  | msixMessage (v : Fin 4)
  /-- R562: PERST_A_N holds port A alone in reset or releases it. -/
  | perstAChange (low : Bool)
  /-- R572: A PCIe port's link goes up or down. -/
  | pcieLinkChange (portB up : Bool) (speed : Fin 8) (width : Fin 16)
  /-- R566: A port B completion timeout fails the running checkpoint with DIE_ABSENT. -/
  | pcieCompletionTimeout (status : Word32)
  /-- R10: A write to a register without behaviour of its own, following its access code and the firewall. -/
  | registerWrite (init : Init) (addr : Addr) (value : Word)
  /-- R210: A Glen, Prairie, collective, CROP, golden or checkpoint engine finishes its part of a command and produces its
  completion record. -/
  | engineCompletion (list : Fin 2) (idx : BitVec 16) (die : Fin 4) (lea : Fin 16) (err : EngineErr)
  /-- R563: A host configuration read or write reaches PCIe port A and changes BARs, Memory Space Enable, Bus Master Enable or the
  D3hot state. -/
  | pcieConfigRequest (wr : Bool) (dword : Fin 1024) (be : BitVec 4) (value : Word32)
  /-- R566: A memory request from the downstream device arrives at port B and is completed with Unsupported Request. -/
  | portBInboundRequest
  /-- R416: A MAC's PCS block lock or FEC lock is gained or lost, changing IQM_ETH_STAT. -/
  | ethPcsLockChange (mac : Fin 4) (lock fec : Bool)
  /-- R567: A Heath's SGMII port brings its link up on a 1 Gb/s full-duplex partner control word, or loses it. -/
  | sgmiiLinkChange (h : Fin 2) (up gigabit full : Bool)
  /-- R354: A port that stops receiving flits and sees training patterns from its partner enters RETRAIN. -/
  | trainingPatternDetect (p : PortId)
  /-- R355: A die's PLLs lock after its reset is released, it sends HELLO on every port and its ports go from RESET to NEGOTIATE. -/
  | dieLeavesReset (die : Fin 7)
  /-- R366: A restarting Meadow finishes its self-test, state restore and stack zeroing or self-refresh exit, and its ring and Vale
  links held in TRAIN go to STANDBY. -/
  | meadowRestoreComplete (die : Fin 4) (badTiles : List (Fin 16 × Fin 17)) (badEngines : List (Fin 17))
  /-- R560: A Heath's partner has been silent for more than 1 s, so the replace cause HEATH is set and REPLACE_REQ_N is driven low. -/
  | heathSilentReplace (h : Fin 2)
  /-- R474: A scan chain or memory instrument of the IEEE 1687 network is shifted through the debug TAP to read out frozen state. -/
  | tapScanShift (op : ScanOp)
  deriving DecidableEq, Repr

end Sys2Proof
end

