-- ==== Sys2Proof/Decode.lean ====
section
/-! DEFINITION. The decoder and the encoder of the tile instruction words (R118 to R132), and the host's view of the
table of operations, whose rows carry no bits. -/

namespace Sys2Proof

/-- The field of `k` values whose lowest bit is bit `lo` of a word. -/
def fieldAt (k : Nat) [NeZero k] (w lo : Nat) : Fin k := Fin.ofNat k (w >>> lo)

/-- The bits `[lo+n-1:lo]` of a word. -/
def bitsAt (n w lo : Nat) : BitVec n := BitVec.ofNat n (w >>> lo)

/-- R119: the register–register instruction of a FUNC. -/
def decodeRr (t : SlotId) (func : Nat) (rd rs1 rs2 : Fin 32) : Option Instr :=
  match func with
  | 0x00 => some (.add t rd rs1 rs2)
  | 0x01 => some (.sub t rd rs1 rs2)
  | 0x02 => some (.andRr t rd rs1 rs2)
  | 0x03 => some (.orRr t rd rs1 rs2)
  | 0x04 => some (.xorRr t rd rs1 rs2)
  | 0x05 => some (.sll t rd rs1 rs2)
  | 0x06 => some (.srl t rd rs1 rs2)
  | 0x07 => some (.sra t rd rs1 rs2)
  | 0x08 => some (.slt t rd rs1 rs2)
  | 0x09 => some (.sltu t rd rs1 rs2)
  | 0x0A => some (.mul t rd rs1 rs2)
  | 0x0B => some (.mulhu t rd rs1 rs2)
  | 0x0C => some (.minRr t rd rs1 rs2)
  | 0x0D => some (.maxRr t rd rs1 rs2)
  | 0x0E => some (.minu t rd rs1 rs2)
  | 0x0F => some (.maxu t rd rs1 rs2)
  | _ => none

/-- R120: the immediate instruction of a FUNC; bits [14:6] of a shift immediate are reserved. -/
def decodeImm (t : SlotId) (func : Nat) (rd rs1 : Fin 32) (imm : BitVec 15) : Option Instr :=
  let sh : Option (BitVec 6) := if 64 ≤ imm.toNat then none else some (BitVec.ofNat 6 imm.toNat)
  match func with
  | 0x0 => some (.addi t rd rs1 imm)
  | 0x1 => some (.andi t rd rs1 imm)
  | 0x2 => some (.ori t rd rs1 imm)
  | 0x3 => some (.xori t rd rs1 imm)
  | 0x4 => sh.map (.slli t rd rs1)
  | 0x5 => sh.map (.srli t rd rs1)
  | 0x6 => sh.map (.srai t rd rs1)
  | 0x7 => some (.slti t rd rs1 imm)
  | 0x8 => some (.shori t rd rs1 imm)
  | _ => none

/-- R121: the memory instruction of an OP; any SZ the table does not allow is reserved. -/
def decodeMem (t : SlotId) (op sz : Nat) (rt base : Fin 32) (imm : BitVec 12) : Option Instr :=
  if op ≤ 2 then
    if h : sz < 4 then
      match op with
      | 0 => some (.ld t rt base ⟨sz, h⟩ imm)
      | 1 => some (.ldu t rt base ⟨sz, h⟩ imm)
      | _ => some (.st t rt base ⟨sz, h⟩ imm)
    else none
  else if sz = 4 then
    if hv : rt.val < 8 then
      match op with
      | 3 => some (.vld t ⟨rt.val, hv⟩ base imm)
      | 4 => some (.vst t ⟨rt.val, hv⟩ base imm)
      | _ => none
    else none
  else none

/-- R126: the tensor-issue instruction of a word. -/
def decodeTensor (t : SlotId) (w : Nat) : Option Instr :=
  let da := fieldAt 4 w 24
  let db := fieldAt 4 w 22
  let set := fieldAt 2 w 21
  let acc := w.testBit 20
  let rs1 := fieldAt 32 w 15
  let rs2 := fieldAt 32 w 10
  if w % 2 ^ 10 ≠ 0 then none
  else match (w >>> 26) % 8 with
  | 0 => some (.mma t da db set acc rs1 rs2)
  | 1 => some (.mmas t da db set acc rs1 rs2)
  | 2 => if db.val = 0 ∧ acc = false then some (.drain t da set rs1) else none
  | _ => none

/-- R129, R275, R276: the vector instruction of a word. FMT2 and HALF are reserved but for VCVT, and vc of VBFLY4 is
reserved. `pm` is the mode of the VPOOL control word in vc. -/
def decodeVector (pm : Fin 3) (t : SlotId) (w : Nat) : Option Instr :=
  let op := (w >>> 23) % 64
  let vd := fieldAt 8 w 20
  let va := fieldAt 8 w 17
  let vb := fieldAt 8 w 14
  let vc := fieldAt 8 w 11
  let fmt := fieldAt 16 w 7
  let fmt2 := fieldAt 16 w 3
  let half := w.testBit 2
  let rs := fieldAt 32 w 12
  if w % 4 ≠ 0 ∨ (op ≠ 8 ∧ (fmt2.val ≠ 0 ∨ half = true)) then none
  else match op with
  | 0x00 => some (.vadd t vd va vb fmt)
  | 0x01 => some (.vsub t vd va vb fmt)
  | 0x02 => some (.vmul t vd va vb fmt)
  | 0x03 => some (.vfma t vd va vb vc fmt)
  | 0x04 => some (.vmin t vd va vb fmt)
  | 0x05 => some (.vmax t vd va vb fmt)
  | 0x06 => some (.vcmplt t vd va vb fmt)
  | 0x07 => some (.vcmpeq t vd va vb fmt)
  | 0x08 => some (.vcvt t vd va vc fmt fmt2 half)
  | 0x09 => some (.vexp t vd va fmt)
  | 0x0A => some (.vexp2 t vd va fmt)
  | 0x0B => some (.vrsqrt t vd va fmt)
  | 0x0C => if vc.val = 0 then some (.vbfly4 t vd va vb fmt) else none
  | 0x0D => match pm with
    | 0 => some (.vpoolMax t vd va vb vc fmt)
    | 1 => some (.vpoolAvg t vd va vb vc fmt)
    | 2 => some (.vpoolSelect t vd va vb vc fmt)
  | 0x0E => some (.vredsum t vd va fmt)
  | 0x0F => some (.vredmax t vd va fmt)
  | 0x10 => some (.vbcast t vd rs fmt)
  | 0x11 => some (.vext t rs va fmt)
  | _ => none

/-- R132: the synchronisation or control instruction of a word. -/
def decodeSync (t : SlotId) (w : Nat) : Option Instr :=
  let a := fieldAt 32 w 19
  let b := fieldAt 32 w 14
  let c := fieldAt 32 w 9
  let imm := bitsAt 14 w 0
  let cnt := fieldAt 64 w 3
  match (w >>> 24) % 32 with
  | 0x00 => some (.beq t a b imm)
  | 0x01 => some (.bne t a b imm)
  | 0x02 => some (.blt t a b imm)
  | 0x03 => some (.bge t a b imm)
  | 0x04 => some (.bltu t a b imm)
  | 0x05 => some (.bgeu t a b imm)
  | 0x06 => some (.jal t a (bitsAt 19 w 0))
  | 0x07 => some (.jalr t a b imm)
  | 0x08 =>
    if w % 2 ^ 11 = 0 ∧ w.testBit 13 = false then some (.post t a b (fieldAt 4 w 12) (w.testBit 11)) else none
  | 0x09 => if w % 4 = 0 then some (.wait t a b c cnt (w.testBit 2)) else none
  | 0x0A =>
    if w % 2 ^ 22 ≠ 0 then none
    else match (w >>> 22) % 4 with
    | 1 => some (.fenceRelease t)
    | 2 => some (.fenceAcquire t)
    | 3 => some (.fenceFull t)
    | _ => none
  | 0x0B => if w % 8 = 0 then some (.copy t a b c cnt) else none
  | 0x0C => if w % 2 ^ 16 = 0 then some (.tdld t (fieldAt 4 w 22) (fieldAt 64 w 16)) else none
  | 0x0D => if w % 2 ^ 14 = 0 ∧ b.val ≤ 10 then some (.rdid t a b) else none
  | 0x0E =>
    if w % 2 ^ 12 ≠ 0 then none
    else match (w >>> 12) % 4 with
    | 0 => some (.ltaSram t a b)
    | 1 => some (.ltaTil t a b)
    | _ => none
  | 0x0F => if w % 2 ^ 24 = 0 then some (.exit t) else none
  | _ => none

/-- R118: the tile instruction that a 32-bit word spells for a slot; none where its format, its operation or a field is
reserved. -/
def decodeTile (pm : Fin 3) (t : SlotId) (w : Nat) : Option Instr :=
  match (w >>> 29) % 8 with
  | 0 => if w % 2 ^ 8 = 0 then decodeRr t ((w >>> 23) % 64) (fieldAt 32 w 18) (fieldAt 32 w 13) (fieldAt 32 w 8) else none
  | 1 => decodeImm t ((w >>> 25) % 16) (fieldAt 32 w 20) (fieldAt 32 w 15) (bitsAt 15 w 0)
  | 2 => decodeMem t ((w >>> 25) % 16) ((w >>> 12) % 8) (fieldAt 32 w 20) (fieldAt 32 w 15) (bitsAt 12 w 0)
  | 3 => decodeTensor t w
  | 4 => decodeVector pm t w
  | 5 => decodeSync t w
  | _ => none

/-- R119: a register–register word. -/
def wordRr (func : Nat) (rd rs1 rs2 : Fin 32) : Nat :=
  func * 2 ^ 23 + rd.val * 2 ^ 18 + rs1.val * 2 ^ 13 + rs2.val * 2 ^ 8

/-- R120: an immediate word. -/
def wordImm (func : Nat) (rd rs1 : Fin 32) (imm : Nat) : Nat :=
  1 * 2 ^ 29 + func * 2 ^ 25 + rd.val * 2 ^ 20 + rs1.val * 2 ^ 15 + imm

/-- R121: a memory word. -/
def wordMem (op rt : Nat) (base : Fin 32) (sz : Nat) (imm : BitVec 12) : Nat :=
  2 * 2 ^ 29 + op * 2 ^ 25 + rt * 2 ^ 20 + base.val * 2 ^ 15 + sz * 2 ^ 12 + imm.toNat

/-- R126: a tensor-issue word. -/
def wordTensor (op : Nat) (da db : Fin 4) (set : Fin 2) (acc : Bool) (rs1 rs2 : Fin 32) : Nat :=
  3 * 2 ^ 29 + op * 2 ^ 26 + da.val * 2 ^ 24 + db.val * 2 ^ 22 + set.val * 2 ^ 21 + acc.toNat * 2 ^ 20
    + rs1.val * 2 ^ 15 + rs2.val * 2 ^ 10

/-- R129: a vector word. -/
def wordVector (op : Nat) (vd va vb vc : Fin 8) (fmt fmt2 : Fin 16) (half : Bool) : Nat :=
  4 * 2 ^ 29 + op * 2 ^ 23 + vd.val * 2 ^ 20 + va.val * 2 ^ 17 + vb.val * 2 ^ 14 + vc.val * 2 ^ 11 + fmt.val * 2 ^ 7
    + fmt2.val * 2 ^ 3 + half.toNat * 2 ^ 2

/-- R129: a vector word with a scalar register in [16:12]. -/
def wordVecScalar (op : Nat) (vd va : Fin 8) (rs : Fin 32) (fmt : Fin 16) : Nat :=
  4 * 2 ^ 29 + op * 2 ^ 23 + vd.val * 2 ^ 20 + va.val * 2 ^ 17 + rs.val * 2 ^ 12 + fmt.val * 2 ^ 7

/-- R132: a synchronisation or control word. -/
def wordSync (op rest : Nat) : Nat := 5 * 2 ^ 29 + op * 2 ^ 24 + rest

/-- R132: a branch word. -/
def wordBranch (op : Nat) (rs1 rs2 : Fin 32) (imm : BitVec 14) : Nat :=
  wordSync op (rs1.val * 2 ^ 19 + rs2.val * 2 ^ 14 + imm.toNat)

/-- R118 to R132: the word of a tile instruction; none for a command that is no tile instruction, and for a POST of a
reserved KIND. -/
def encodeTile : Instr → Option Nat
  | .add _ rd a b => some (wordRr 0x00 rd a b)
  | .sub _ rd a b => some (wordRr 0x01 rd a b)
  | .andRr _ rd a b => some (wordRr 0x02 rd a b)
  | .orRr _ rd a b => some (wordRr 0x03 rd a b)
  | .xorRr _ rd a b => some (wordRr 0x04 rd a b)
  | .sll _ rd a b => some (wordRr 0x05 rd a b)
  | .srl _ rd a b => some (wordRr 0x06 rd a b)
  | .sra _ rd a b => some (wordRr 0x07 rd a b)
  | .slt _ rd a b => some (wordRr 0x08 rd a b)
  | .sltu _ rd a b => some (wordRr 0x09 rd a b)
  | .mul _ rd a b => some (wordRr 0x0A rd a b)
  | .mulhu _ rd a b => some (wordRr 0x0B rd a b)
  | .minRr _ rd a b => some (wordRr 0x0C rd a b)
  | .maxRr _ rd a b => some (wordRr 0x0D rd a b)
  | .minu _ rd a b => some (wordRr 0x0E rd a b)
  | .maxu _ rd a b => some (wordRr 0x0F rd a b)
  | .addi _ rd a i => some (wordImm 0x0 rd a i.toNat)
  | .andi _ rd a i => some (wordImm 0x1 rd a i.toNat)
  | .ori _ rd a i => some (wordImm 0x2 rd a i.toNat)
  | .xori _ rd a i => some (wordImm 0x3 rd a i.toNat)
  | .slli _ rd a sh => some (wordImm 0x4 rd a sh.toNat)
  | .srli _ rd a sh => some (wordImm 0x5 rd a sh.toNat)
  | .srai _ rd a sh => some (wordImm 0x6 rd a sh.toNat)
  | .slti _ rd a i => some (wordImm 0x7 rd a i.toNat)
  | .shori _ rd a i => some (wordImm 0x8 rd a i.toNat)
  | .ld _ rt b sz i => some (wordMem 0 rt.val b sz.val i)
  | .ldu _ rt b sz i => some (wordMem 1 rt.val b sz.val i)
  | .st _ rt b sz i => some (wordMem 2 rt.val b sz.val i)
  | .vld _ vt b i => some (wordMem 3 vt.val b 4 i)
  | .vst _ vt b i => some (wordMem 4 vt.val b 4 i)
  | .mma _ da db set acc a b => some (wordTensor 0 da db set acc a b)
  | .mmas _ da db set acc a b => some (wordTensor 1 da db set acc a b)
  | .drain _ da set a => some (wordTensor 2 da 0 set false a 0)
  | .vadd _ vd va vb f => some (wordVector 0x00 vd va vb 0 f 0 false)
  | .vsub _ vd va vb f => some (wordVector 0x01 vd va vb 0 f 0 false)
  | .vmul _ vd va vb f => some (wordVector 0x02 vd va vb 0 f 0 false)
  | .vfma _ vd va vb vc f => some (wordVector 0x03 vd va vb vc f 0 false)
  | .vmin _ vd va vb f => some (wordVector 0x04 vd va vb 0 f 0 false)
  | .vmax _ vd va vb f => some (wordVector 0x05 vd va vb 0 f 0 false)
  | .vcmplt _ vd va vb f => some (wordVector 0x06 vd va vb 0 f 0 false)
  | .vcmpeq _ vd va vb f => some (wordVector 0x07 vd va vb 0 f 0 false)
  | .vcvt _ vd va vc f f2 h => some (wordVector 0x08 vd va 0 vc f f2 h)
  | .vexp _ vd va f => some (wordVector 0x09 vd va 0 0 f 0 false)
  | .vexp2 _ vd va f => some (wordVector 0x0A vd va 0 0 f 0 false)
  | .vrsqrt _ vd va f => some (wordVector 0x0B vd va 0 0 f 0 false)
  | .vbfly4 _ vd va vb f => some (wordVector 0x0C vd va vb 0 f 0 false)
  | .vpoolMax _ vd va vb vc f => some (wordVector 0x0D vd va vb vc f 0 false)
  | .vpoolAvg _ vd va vb vc f => some (wordVector 0x0D vd va vb vc f 0 false)
  | .vpoolSelect _ vd va vb vc f => some (wordVector 0x0D vd va vb vc f 0 false)
  | .vredsum _ vd va f => some (wordVector 0x0E vd va 0 0 f 0 false)
  | .vredmax _ vd va f => some (wordVector 0x0F vd va 0 0 f 0 false)
  | .vbcast _ vd rs f => some (wordVecScalar 0x10 vd 0 rs f)
  | .vext _ rd va f => some (wordVecScalar 0x11 0 va rd f)
  | .beq _ a b i => some (wordBranch 0x00 a b i)
  | .bne _ a b i => some (wordBranch 0x01 a b i)
  | .blt _ a b i => some (wordBranch 0x02 a b i)
  | .bge _ a b i => some (wordBranch 0x03 a b i)
  | .bltu _ a b i => some (wordBranch 0x04 a b i)
  | .bgeu _ a b i => some (wordBranch 0x05 a b i)
  | .jal _ rd i => some (wordSync 0x06 (rd.val * 2 ^ 19 + i.toNat))
  | .jalr _ rd a i => some (wordBranch 0x07 rd a i)
  | .post _ a b k rel =>
    if k.val < 2 then some (wordSync 0x08 (a.val * 2 ^ 19 + b.val * 2 ^ 14 + k.val * 2 ^ 12 + rel.toNat * 2 ^ 11)) else none
  | .wait _ rd a b c acq =>
    some (wordSync 0x09 (rd.val * 2 ^ 19 + a.val * 2 ^ 14 + b.val * 2 ^ 9 + c.val * 2 ^ 3 + acq.toNat * 2 ^ 2))
  | .fenceRelease _ => some (wordSync 0x0A (1 * 2 ^ 22))
  | .fenceAcquire _ => some (wordSync 0x0A (2 * 2 ^ 22))
  | .fenceFull _ => some (wordSync 0x0A (3 * 2 ^ 22))
  | .copy _ rd a b c => some (wordSync 0x0B (rd.val * 2 ^ 19 + a.val * 2 ^ 14 + b.val * 2 ^ 9 + c.val * 2 ^ 3))
  | .tdld _ d i => some (wordSync 0x0C (d.val * 2 ^ 22 + i.val * 2 ^ 16))
  | .rdid _ rd sel => if sel.val ≤ 10 then some (wordSync 0x0D (rd.val * 2 ^ 19 + sel.val * 2 ^ 14)) else none
  | .ltaSram _ rd a => some (wordSync 0x0E (rd.val * 2 ^ 19 + a.val * 2 ^ 14))
  | .ltaTil _ rd a => some (wordSync 0x0E (rd.val * 2 ^ 19 + a.val * 2 ^ 14 + 1 * 2 ^ 12))
  | .exit _ => some (wordSync 0x0F 0)
  | _ => none

/-- The slot that issues a tile instruction; none for a command that is no tile instruction. -/
def tileSlot : Instr → Option SlotId
  | .add t _ _ _ => some t
  | .sub t _ _ _ => some t
  | .andRr t _ _ _ => some t
  | .orRr t _ _ _ => some t
  | .xorRr t _ _ _ => some t
  | .sll t _ _ _ => some t
  | .srl t _ _ _ => some t
  | .sra t _ _ _ => some t
  | .slt t _ _ _ => some t
  | .sltu t _ _ _ => some t
  | .mul t _ _ _ => some t
  | .mulhu t _ _ _ => some t
  | .minRr t _ _ _ => some t
  | .maxRr t _ _ _ => some t
  | .minu t _ _ _ => some t
  | .maxu t _ _ _ => some t
  | .addi t _ _ _ => some t
  | .andi t _ _ _ => some t
  | .ori t _ _ _ => some t
  | .xori t _ _ _ => some t
  | .slli t _ _ _ => some t
  | .srli t _ _ _ => some t
  | .srai t _ _ _ => some t
  | .slti t _ _ _ => some t
  | .shori t _ _ _ => some t
  | .ld t _ _ _ _ => some t
  | .ldu t _ _ _ _ => some t
  | .st t _ _ _ _ => some t
  | .vld t _ _ _ => some t
  | .vst t _ _ _ => some t
  | .mma t _ _ _ _ _ _ => some t
  | .mmas t _ _ _ _ _ _ => some t
  | .drain t _ _ _ => some t
  | .vadd t _ _ _ _ => some t
  | .vsub t _ _ _ _ => some t
  | .vmul t _ _ _ _ => some t
  | .vfma t _ _ _ _ _ => some t
  | .vmin t _ _ _ _ => some t
  | .vmax t _ _ _ _ => some t
  | .vcmplt t _ _ _ _ => some t
  | .vcmpeq t _ _ _ _ => some t
  | .vcvt t _ _ _ _ _ _ => some t
  | .vexp t _ _ _ => some t
  | .vexp2 t _ _ _ => some t
  | .vrsqrt t _ _ _ => some t
  | .vbfly4 t _ _ _ _ => some t
  | .vpoolMax t _ _ _ _ _ => some t
  | .vpoolAvg t _ _ _ _ _ => some t
  | .vpoolSelect t _ _ _ _ _ => some t
  | .vredsum t _ _ _ => some t
  | .vredmax t _ _ _ => some t
  | .vbcast t _ _ _ => some t
  | .vext t _ _ _ => some t
  | .beq t _ _ _ => some t
  | .bne t _ _ _ => some t
  | .blt t _ _ _ => some t
  | .bge t _ _ _ => some t
  | .bltu t _ _ _ => some t
  | .bgeu t _ _ _ => some t
  | .jal t _ _ => some t
  | .jalr t _ _ _ => some t
  | .post t _ _ _ _ => some t
  | .wait t _ _ _ _ _ => some t
  | .fenceRelease t => some t
  | .fenceAcquire t => some t
  | .fenceFull t => some t
  | .copy t _ _ _ _ => some t
  | .tdld t _ _ => some t
  | .rdid t _ _ => some t
  | .ltaSram t _ _ => some t
  | .ltaTil t _ _ => some t
  | .exit t => some t
  | _ => none

/-- The mode of the VPOOL control word that a VPOOL command stands for (R275). -/
def poolMode : Instr → Fin 3
  | .vpoolAvg _ _ _ _ _ _ => 1
  | .vpoolSelect _ _ _ _ _ _ => 2
  | _ => 0

/-- The command that a word of the table spells: no row of the table gives a bit. -/
def decodeTableWord (_nbits _w : Nat) : Option Instr := none

end Sys2Proof
end

