-- ==== Sys2Proof/Machine/Crc.lean ====
section
/-! DEFINITION. The cyclic redundancy checks of the spec: CRC-32C (R349), the CRC-32 of IEEE 802.3 (R408), and the CRC-16
of a capability record (R360). -/

namespace Sys2Proof.Machine

/-- One bit of a reflected 32-bit CRC with the reflected polynomial `p`. -/
def crcBit (p c : Nat) : Nat := if c % 2 = 1 then (c / 2) ^^^ p else c / 2

/-- One byte of a reflected 32-bit CRC. -/
def crcByte (p c : Nat) (b : Byte) : Nat :=
  crcBit p (crcBit p (crcBit p (crcBit p (crcBit p (crcBit p (crcBit p (crcBit p (c ^^^ b.toNat))))))))

/-- A reflected 32-bit CRC with initial value and final XOR all ones. -/
def crc32Of (p : Nat) (bs : List Byte) : Nat := bs.foldl (crcByte p) 0xFFFFFFFF ^^^ 0xFFFFFFFF

/-- R349: CRC-32C, polynomial 0x1EDC6F41, reflected. -/
def crc32c (bs : List Byte) : Nat := crc32Of 0x82F63B78 bs

/-- R408: the CRC-32 of IEEE 802.3, polynomial 0x04C11DB7, reflected. -/
def crc32 (bs : List Byte) : Nat := crc32Of 0xEDB88320 bs

/-- One bit of the CRC-16. -/
def crc16Bit (c : Nat) : Nat := if c / 0x8000 % 2 = 1 then ((c * 2) ^^^ 0x1021) % 0x10000 else c * 2 % 0x10000

/-- One byte of the CRC-16. -/
def crc16Byte (c : Nat) (b : Byte) : Nat :=
  crc16Bit (crc16Bit (crc16Bit (crc16Bit (crc16Bit (crc16Bit (crc16Bit (crc16Bit (c ^^^ b.toNat * 256))))))))

/-- R360: CRC-16, polynomial 0x1021, initial value 0xFFFF, no reflection. -/
def crc16 (bs : List Byte) : Nat := bs.foldl crc16Byte 0xFFFF

end Sys2Proof.Machine
end

