-- ==== Sys2Proof/Config.lean ====
section
/-! DEFINITION. What the spec leaves open: free values. Each is an opaque constant without a body, so that no proof can
see it and every statement holds whatever it is. A value that may differ from one time to the next is applied to the
counter `free` of the state; a value that depends on operands only is applied to them. -/

namespace Sys2Proof.Config

/-- A fresh free value, by the counter of the state and a number that says what it is used for. -/
opaque freeValue : Nat → Nat → Nat

/-- A free choice the spec leaves to the device, by the counter of the state and a number that says which. -/
opaque freeChoice : Nat → Nat → Bool

/-- Which of several conditions that hold together a device reports where the spec ranks none of them: a place in the
list of their codes. -/
opaque whichOf : List Nat → Nat

/-- R88: which of the results within the stated accuracy a special function gives: function, format code, operand. -/
opaque specialUlp : Nat → Nat → Nat → Nat

/-- R301, R307, R376: how many lines of the maps of a command a Prairie engine reads at the stack of a Meadow, which the spec does
not say. -/
opaque mapLines : Nat → Nat → Nat

/-- R69, R174: the draw with which a unit that holds no thread slot rounds an element, which the spec does not give, but for its
being the same in each run of a command: by job, list, list index and the element's address. -/
opaque engineDraw : Nat → Nat → Nat → Nat → Nat

/-- R129: the minimum or maximum of zeros of unlike sign in a floating-point format: the sign bit of the result. -/
opaque minMaxZeroSign : Nat → Nat → Bool

/-- R129, R130: the spec states no result of an INT16 operation that falls outside the format: the 16 bits it gives, by
the exact result, and whether it sets SAT. -/
opaque int16Beyond : Int → Nat × Bool

/-- R31: the byte that another module of the fabric answers for an address of its remote window, by the counter of the
state and the address. -/
opaque remoteByte : Nat → Nat → BitVec 8

/-- R492: the digest of the ROM's 64-byte record, whose layout and ROM version the spec does not give: by lifecycle, SEC_ARB,
KEYSLOT and the DEBUG flag. -/
opaque romRecord : Nat → Nat → Nat → Bool → Nat

/-- R492: the digest of a 64-byte runtime record, whose layout the spec does not give: by kind, processor or Heath, cause and
time base. -/
opaque runtimeRecord : Nat → Nat → Nat → Nat → Nat

/-- R493: the record type of a log entry, whose codes the spec does not give: by what is extended. -/
opaque logType : Nat → Nat

/-- R249: the order of the free list at reset, which the spec does not give: frames lie in it by the key this gives them. -/
opaque freeListKey : Nat → Nat

/-- R495: a field of an SPDM response for which the spec gives no value: by message and field. -/
opaque spdmField : Nat → Nat → Nat

/-- R518: the key that an ECIES message gives to the holder of a private key, none where its tag fails. The spec names the
algorithms and leaves the nonce, the salt and the layout open: by private key and message. -/
opaque eciesOpen : Nat → List (BitVec 8) → Option Nat

/-- R436: whether a coordinate or speed of a fallback that is not a whole number of units is rounded up, which the spec does not
say: by pose and by 0 X, 1 Y, 2 SPEED. -/
opaque fallbackUlp : Nat → Nat → Bool

/-- R436: the heading of a segment of a polyline in units of 2π/65,536, whose rounding the spec does not give: by its steps. -/
opaque segmentHead : Int → Int → Nat

/-- R436: where a path goes on along a heading from its only point, whose rounding the spec does not give: the steps along x and y,
by heading and by distance in units of 2^-32. -/
opaque alongHead : Nat → Nat → Int × Int

/-- R304, R436: what a 16-bit coordinate of a fallback holds where the position lies beyond its range: by the position. -/
opaque poseBeyond : Int → Nat

/-- R474: the length of a scan chain, which the spec does not give: by chain. -/
opaque chainLength : Nat → Nat

/-- R562, R563: the dword of port A's configuration space at which a capability's register stands, which the spec does not give:
0 the control of power management, 1 the control of MSI-X, 2 the uncorrectable error status of AER, 3 the first dword of the device
serial number. -/
opaque capabilityAt : Nat → Nat

/-- R562, R563: what a field of port A's configuration space reads as where the spec gives no value: by dword and by what was
written to it last. -/
opaque pciField : Nat → Nat → Nat

end Sys2Proof.Config
end

