-- ==== Sys2Proof/Machine/Registers.lean ====
section
/-! DEFINITION. The register blocks of the address map (R26, R106) and every register of the spec's register tables:
offset, width, reset value and what a write may change (R9 to R12). -/

namespace Sys2Proof.Machine

/-- A register block of the module (R9, R26, R106, and the chapters' own base addresses). -/
inductive Block where
  | val | sch | sec | pwr | iqm | col
  | fdlVale | flrVale
  | mdw (d : Nat) | pra (d : Nat) | dmc (d : Nat) | fdl (d : Nat) | flr (d : Nat) | pwrDie (d : Nat)
  | lea (d l : Nat) | gln (d l : Nat) | til (d l t : Nat)
  | ht (h : Nat) | fdlHeath (h : Nat)
  deriving DecidableEq, Repr

/-- The base of the Vale registers (R26). -/
def valeBase : Nat := 0x002000000000

/-- The Meadow base of die `d` (R26, R106). -/
def meadowBase (d : Nat) : Nat := 0x002010000000 + d * 0x10000000

/-- The lea base (R106). -/
def leaBase (d l : Nat) : Nat := meadowBase d + 0x01000000 + l * 0x00200000

/-- The base of a Heath's registers (R26). -/
def heathBase (h : Nat) : Nat := 0x002050000000 + h * 0x10000000

/-- The base address of a block (R106, R218, R246, R315, R344, R367, R386, R415, R450, R507, R533, R551, R552). -/
def blockBase : Block → Nat
  | .val => valeBase
  | .sch => valeBase + 0x10000
  | .sec => valeBase + 0x20000
  | .pwr => valeBase + 0x30000
  | .fdlVale => valeBase + 0x40000
  | .flrVale => valeBase + 0x50000
  | .iqm => valeBase + 0x60000
  | .col => valeBase + 0x70000
  | .mdw d => meadowBase d
  | .dmc d => meadowBase d + 0x20000
  | .pra d => meadowBase d + 0x30000
  | .fdl d => meadowBase d + 0x40000
  | .flr d => meadowBase d + 0x50000
  | .pwrDie d => meadowBase d + 0x60000
  | .lea d l => leaBase d l
  | .gln d l => leaBase d l + 0x10000
  | .til d l t => leaBase d l + 0x20000 + t * 0x10000
  | .ht h => heathBase h
  | .fdlHeath h => heathBase h + 0x40000

/-- The block that holds an address, none outside every register block (R12, R27). Every block is 64 KiB. -/
def blockAt (a : Nat) : Option Block :=
  if a < valeBase then none
  else
    let die := (a - valeBase) / 0x10000000
    let o := (a - valeBase) % 0x10000000
    let k := o / 0x10000
    if die = 0 then
      match k with
      | 0 => some .val | 1 => some .sch | 2 => some .sec | 3 => some .pwr | 4 => some .fdlVale
      | 5 => some .flrVale | 6 => some .iqm | 7 => some .col | _ => none
    else if die ≤ 4 then
      let d := die - 1
      if o < 0x01000000 then
        match k with
        | 0 => some (.mdw d) | 2 => some (.dmc d) | 3 => some (.pra d) | 4 => some (.fdl d)
        | 5 => some (.flr d) | 6 => some (.pwrDie d) | _ => none
      else
        let l := (o - 0x01000000) / 0x00200000
        let r := (o - 0x01000000) % 0x00200000 / 0x10000
        if 16 ≤ l then none
        else if r = 0 then some (.lea d l) else if r = 1 then some (.gln d l)
        else if r ≤ 18 then some (.til d l (r - 2)) else none
    else if die ≤ 6 then
      let h := die - 5
      if k = 0 then some (.ht h) else if k = 4 then some (.fdlHeath h) else none
    else none

/-- One register, or `count` like registers `stride` bytes apart: offset, width in bits, reset value (`resetStep` is
added per index), and the bits a write stores (RW), clears by writing 1 (W1C), or sets by writing 1 (RW1S) (R10). All
other bits are read-only, reserved, or write-only triggers, which read as 0. -/
structure RegDef where
  name : String
  off : Nat
  width : Nat
  reset : Nat := 0
  rw : Nat := 0
  w1c : Nat := 0
  rw1s : Nat := 0
  stride : Nat := 0
  count : Nat := 1
  resetStep : Nat := 0
  deriving Repr

/-- R32, R476, R570: VAL. -/
def regsVal : List RegDef :=
  [ { name := "VAL_ID", off := 0x0000, width := 32, reset := 0x561002C1 },
    { name := "VAL_MODE", off := 0x0010, width := 32 },
    { name := "VAL_MODE_REQ", off := 0x0014, width := 32, rw := 0x7, rw1s := 0x80000000 },
    { name := "VAL_SETTINGS", off := 0x0018, width := 32 },
    { name := "VAL_DIE_PRESENT", off := 0x0020, width := 32, reset := 0x10 },
    { name := "VAL_REPLACE", off := 0x0100, width := 32 },
    { name := "VAL_FREEZE", off := 0x0104, width := 32, rw1s := 0x1 },
    { name := "VAL_FREC", off := 0x0108, width := 32 },
    { name := "VAL_PCIA_STATUS", off := 0x0200, width := 32 },
    { name := "VAL_PCIA_UR", off := 0x0204, width := 32 },
    { name := "VAL_PCIB_STATUS", off := 0x0208, width := 32 },
    { name := "VAL_PCIB_WIN", off := 0x0210, width := 64 },
    { name := "VAL_PCIB_WIN_LEN", off := 0x0218, width := 64 },
    { name := "VAL_PINS", off := 0x0220, width := 32, reset := 0x3 },
    { name := "VAL_DBG_ACC", off := 0x0224, width := 32, w1c := 0x2 } ]

/-- R218: the registers of ring set `s`, at set base 0x0100 + s × 0x0100. -/
def regsRingSet (s : Nat) : List RegDef :=
  let b := 0x100 + s * 0x100
  [ { name := "SQ_BASE", off := b, width := 64, rw := 0xFFFFFFFFFFFF },
    { name := "CQ_BASE", off := b + 0x08, width := 64, rw := 0xFFFFFFFFFFFF },
    { name := "EQ_BASE", off := b + 0x10, width := 64, rw := 0xFFFFFFFFFFFF },
    { name := "RING_CTL", off := b + 0x18, width := 32, rw := 0x1FFF, w1c := 0x80000000 },
    { name := "SQ_TAIL", off := b + 0x20, width := 32, rw := 0x7FFF },
    { name := "SQ_HEAD", off := b + 0x24, width := 32 },
    { name := "CQ_TAIL", off := b + 0x28, width := 32 },
    { name := "CQ_HEAD", off := b + 0x2C, width := 32, rw := 0x7FFF },
    { name := "EQ_TAIL", off := b + 0x30, width := 32 },
    { name := "EQ_HEAD", off := b + 0x34, width := 32, rw := 0x7FFF } ]

/-- R218, R266: SCH. -/
def regsSch : List RegDef :=
  [ { name := "SCH_STATUS", off := 0x0000, width := 32 },
    { name := "SCH_CTX_COUNT", off := 0x0004, width := 32 },
    { name := "SCH_SWAP_IN", off := 0x0008, width := 32 },
    { name := "SCH_EVICT", off := 0x000C, width := 32 },
    { name := "SCH_CTX_BASE", off := 0x0010, width := 64 },
    { name := "SCH_CTX_MIRROR", off := 0x0018, width := 64 },
    { name := "SCH_GOLDEN_CFG", off := 0x0020, width := 32 },
    { name := "SCH_GOLDEN_DESC", off := 0x0028, width := 64 },
    { name := "SCH_GOLDEN_STATE", off := 0x0030, width := 32 },
    { name := "SCH_EVT_LOST", off := 0x0034, width := 32 },
    { name := "SCH_QUEUED", off := 0x0038, width := 32 } ]
  ++ regsRingSet 0 ++ regsRingSet 1 ++ regsRingSet 2 ++ regsRingSet 3 ++
  [ { name := "SCH_KV_BASE", off := 0x0800, width := 64 },
    { name := "SCH_KV_FRAMES", off := 0x0808, width := 32 },
    { name := "SCH_KV_FREE", off := 0x080C, width := 32 },
    { name := "SCH_KV_RSV", off := 0x0810, width := 32 },
    { name := "SCH_KV_QUAR", off := 0x0814, width := 32 },
    { name := "SCH_KV_LOW", off := 0x0818, width := 32 },
    { name := "SCH_KV_REF", off := 0x0820, width := 64 },
    { name := "SCH_KV_FLIST", off := 0x0828, width := 64 },
    { name := "SCH_KV_HASH", off := 0x0830, width := 64 },
    { name := "SCH_KV_NODES", off := 0x0838, width := 64 },
    { name := "SCH_KV_NODE_MAX", off := 0x0840, width := 32 },
    { name := "SCH_KV_NODE_USED", off := 0x0844, width := 32 },
    { name := "SCH_KV_ADOPT", off := 0x0848, width := 32 },
    { name := "SCH_KV_INSERT", off := 0x084C, width := 32 },
    { name := "SCH_KV_SKIP", off := 0x0850, width := 32 },
    { name := "SCH_KV_COW", off := 0x0854, width := 32 },
    { name := "SCH_KV_OP", off := 0x0860, width := 32, rw := 0x1F, rw1s := 0x80000000 },
    { name := "SCH_KV_OP_ARG", off := 0x0864, width := 32, rw := 0xFFFFF },
    { name := "SCH_KV_OP_ROOT", off := 0x0868, width := 64, rw := 0xFFFFFFFFFFFF },
    { name := "SCH_KV_OP_RESULT", off := 0x0870, width := 32 } ]

/-- R507: the registers of mailbox `m`. -/
def regsMailbox (m : Nat) : List RegDef :=
  let b := 0x200 + 0x20 * m
  [ { name := "SEC_REQ_CTL", off := b, width := 32, rw := 0xFF, rw1s := 0x80000000 },
    { name := "SEC_REQ_ADDR", off := b + 0x08, width := 64, rw := 0xFFFFFFFFFFFF },
    { name := "SEC_REQ_LEN", off := b + 0x10, width := 32, rw := 0xFFFFFFFF },
    { name := "SEC_REQ_RESULT", off := b + 0x14, width := 32 },
    { name := "SEC_REQ_SRC", off := b + 0x18, width := 64, rw := 0x7FFFFFF } ]

/-- R507: SEC. A 256-bit measurement register is four 64-bit words. -/
def regsSec : List RegDef :=
  [ { name := "SEC_STATUS", off := 0x0000, width := 32, reset := 0x4 },
    { name := "SEC_BOOT", off := 0x0004, width := 32 },
    { name := "SEC_SVN", off := 0x0008, width := 64 },
    { name := "SEC_ARB", off := 0x0010, width := 64 },
    { name := "SEC_KEYS", off := 0x0018, width := 32 },
    { name := "SEC_LOG_LEN", off := 0x001C, width := 32 },
    { name := "SEC_RESTARTS", off := 0x0020, width := 32 },
    { name := "SEC_LAST_RESTART", off := 0x0024, width := 32 },
    { name := "SEC_MEAS", off := 0x0100, width := 64, stride := 8, count := 32 } ]
  ++ regsMailbox 0 ++ regsMailbox 1

/-- R551: the Vale's PWR block. -/
def regsPwr : List RegDef :=
  [ { name := "PWR_STATUS", off := 0x0000, width := 32, reset := 0x3 },
    { name := "PWR_MAIN", off := 0x0004, width := 32 },
    { name := "PWR_AUX", off := 0x0008, width := 32 },
    { name := "PWR_MODULE", off := 0x000C, width := 32 },
    { name := "PWR_LIMIT", off := 0x0010, width := 32, reset := 0x11300E10 },
    { name := "PWR_COOLANT", off := 0x0014, width := 32 },
    { name := "PWR_BACKSTOP", off := 0x0018, width := 32 } ]

/-- R415: camera port `p`. -/
def regsCsi (p : Nat) : List RegDef :=
  let b := 0x1000 + 0x20 * p
  [ { name := "IQM_CSI_CFG", off := b, width := 32, rw := 0x7 },
    { name := "IQM_CSI_ECC", off := b + 0x04, width := 32 },
    { name := "IQM_CSI_CRC", off := b + 0x08, width := 32 },
    { name := "IQM_CSI_OTHER", off := b + 0x0C, width := 32 },
    { name := "IQM_CSI_FIFO", off := b + 0x10, width := 32, reset := 0x00800080 } ]

/-- R415: MAC `m`. -/
def regsMac (m : Nat) : List RegDef :=
  let b := 0x1400 + 0x40 * m
  [ { name := "IQM_ETH_CFG", off := b, width := 32, rw := 0x7 },
    { name := "IQM_ETH_STAT", off := b + 0x04, width := 32 },
    { name := "IQM_ETH_FRAMES", off := b + 0x08, width := 32 },
    { name := "IQM_ETH_FCS", off := b + 0x0C, width := 32 },
    { name := "IQM_ETH_DROP", off := b + 0x10, width := 32 },
    { name := "IQM_ETH_E2E_BAD", off := b + 0x14, width := 32 },
    { name := "IQM_ETH_FIFO", off := b + 0x18, width := 32, reset := 0x01000100 } ]

/-- R415: IQM. The queue registers repeat for 256 queues, 0x40 bytes apart. -/
def regsIqm : List RegDef :=
  [ { name := "IQM_POOL", off := 0x0000, width := 32, reset := 0x30000 },
    { name := "IQM_E2E_ETYPE", off := 0x0004, width := 32, rw := 0x1FFFF },
    { name := "IQM_UNCLASS", off := 0x0008, width := 32 },
    { name := "IQM_UE", off := 0x000C, width := 32 },
    { name := "IQM_TB", off := 0x0010, width := 64 },
    { name := "IQM_TB_OFFSET", off := 0x0018, width := 64 },
    { name := "IQM_TB_STATE", off := 0x0020, width := 32 },
    { name := "IQM_TB_RESID", off := 0x0024, width := 32 },
    { name := "IQM_PTP_CFG", off := 0x0028, width := 32, reset := 0x0A00, rw := 0xFFFFFF03 },
    { name := "IQM_PTP_LAT", off := 0x002C, width := 32, rw := 0xFFFFFFFF } ]
  ++ (List.range 16).flatMap regsCsi ++ (List.range 4).flatMap regsMac ++
  [ { name := "IQM_QCFG", off := 0x8000, width := 32, rw := 0xFFFF03FF, stride := 0x40, count := 256 },
    { name := "IQM_QCAP", off := 0x8004, width := 32, rw := 0x0FFF0FFF, stride := 0x40, count := 256 },
    { name := "IQM_QTAKE", off := 0x8008, width := 32, rw := 0x00FF1FFF, stride := 0x40, count := 256 },
    { name := "IQM_QGEOM", off := 0x800C, width := 32, rw := 0x0FFFFFFF, stride := 0x40, count := 256 },
    { name := "IQM_QCHK", off := 0x8010, width := 32, rw := 0x0FFFFFFF, stride := 0x40, count := 256 },
    { name := "IQM_QITEMS", off := 0x8014, width := 32, stride := 0x40, count := 256 },
    { name := "IQM_QCELLS", off := 0x8018, width := 32, stride := 0x40, count := 256 },
    { name := "IQM_QLOST", off := 0x801C, width := 32, stride := 0x40, count := 256 },
    { name := "IQM_QOVERWR", off := 0x8020, width := 32, stride := 0x40, count := 256 },
    { name := "IQM_QSEQ", off := 0x8024, width := 32, stride := 0x40, count := 256 },
    { name := "IQM_QERR1", off := 0x8028, width := 32, stride := 0x40, count := 256 },
    { name := "IQM_QERR2", off := 0x802C, width := 32, stride := 0x40, count := 256 },
    { name := "IQM_QSIG", off := 0x8030, width := 32, stride := 0x40, count := 256 },
    { name := "IQM_QFRAME", off := 0x8034, width := 32, stride := 0x40, count := 256 } ]

/-- R533: COL, its four ports and its 4,096 routing entries. -/
def regsCol : List RegDef :=
  [ { name := "COL_STATUS", off := 0x0000, width := 32 },
    { name := "COL_FABRIC_ID", off := 0x0008, width := 64 },
    { name := "COL_UID", off := 0x0010, width := 64 },
    { name := "COL_ADDR_PREF", off := 0x0018, width := 32 },
    { name := "COL_EXPORT_BASE", off := 0x0020, width := 64 },
    { name := "COL_EXPORT_LEN", off := 0x0028, width := 64 },
    { name := "COL_ROUTE_EPOCH", off := 0x0030, width := 32 },
    { name := "COL_SHADOW", off := 0x0034, width := 32 },
    { name := "COL_DROP", off := 0x0038, width := 32 },
    { name := "COL_AUTH_FAIL", off := 0x003C, width := 32 },
    { name := "COL_PORT_STATE", off := 0x0100, width := 32, stride := 0x40, count := 4 },
    { name := "COL_PORT_FEC", off := 0x0104, width := 32, stride := 0x40, count := 4 },
    { name := "COL_PORT_UNC", off := 0x0108, width := 32, stride := 0x40, count := 4 },
    { name := "COL_PORT_HBMISS", off := 0x010C, width := 32, stride := 0x40, count := 4 },
    { name := "COL_ROUTE", off := 0x1000, width := 16, reset := 0x7, stride := 2, count := 4096 } ]

/-- R107, R477: MDW. -/
def regsMdw (d : Nat) : List RegDef :=
  [ { name := "MDW_ID", off := 0x0000, width := 32, reset := 0x4D1102C1 + d * 0x1000 },
    { name := "MDW_OPP", off := 0x0010, width := 32, reset := 2 },
    { name := "MDW_LEA_FREE", off := 0x0020, width := 32, reset := 0xFFFF },
    { name := "MDW_LEA_DEGRADED", off := 0x0024, width := 32 },
    { name := "MDW_MISMATCH_TOTAL", off := 0x0030, width := 32 },
    { name := "MDW_UE_TOTAL", off := 0x0034, width := 32 },
    { name := "MDW_AGE", off := 0x0040, width := 32 },
    { name := "MDW_AGE_SLACK", off := 0x0044, width := 32 },
    { name := "MDW_LEA_LOST", off := 0x0048, width := 32 } ]

/-- R108, R477: LEA. -/
def regsLea : List RegDef :=
  [ { name := "LEA_STATUS", off := 0x0000, width := 32, reset := 0x1010 },
    { name := "LEA_RETIRED", off := 0x0004, width := 32 },
    { name := "LEA_SWAP", off := 0x0008, width := 32, rw := 0xF, rw1s := 0x80000000 },
    { name := "LEA_POOL_CE", off := 0x000C, width := 32 },
    { name := "LEA_POOL_UE", off := 0x0010, width := 32 },
    { name := "LEA_MAP", off := 0x0040, width := 32, stride := 4, count := 16, resetStep := 1 },
    { name := "LEA_ST_PASS", off := 0x0080, width := 32 },
    { name := "LEA_ST_FAIL", off := 0x0084, width := 32 },
    { name := "LEA_ST_SKIP", off := 0x0088, width := 32 },
    { name := "LEA_ROWS", off := 0x008C, width := 32, reset := 0x1004 } ]

/-- R109, R137: TIL of physical tile `t`. -/
def regsTil (t : Nat) : List RegDef :=
  [ { name := "TIL_STATUS", off := 0x0000, width := 32, reset := if t < 16 then t * 16 else 1 },
    { name := "TIL_ECC_CE", off := 0x0008, width := 32 },
    { name := "TIL_ECC_UE", off := 0x000C, width := 32 },
    { name := "TIL_ECC_ADDR", off := 0x0010, width := 32 },
    { name := "TIL_MISMATCH", off := 0x0018, width := 32 },
    { name := "TIL_CHK_SKIP", off := 0x001C, width := 32 },
    { name := "TIL_MISMATCH_T", off := 0x0020, width := 64, stride := 8, count := 3 },
    { name := "TIL_INJECT", off := 0x0044, width := 32, rw := 0x7, rw1s := 0x80000000 },
    { name := "TIL_INJECT_RESULT", off := 0x0048, width := 32 },
    { name := "TIL_SYNC", off := 0x1000, width := 32, stride := 4, count := 64 },
    { name := "TIL_SYNC_OWNER", off := 0x1100, width := 64 } ]

/-- R246: GLN. -/
def regsGln : List RegDef :=
  [ { name := "GLN_STATUS", off := 0x0000, width := 32 },
    { name := "GLN_EMPTY_ROWS", off := 0x0004, width := 32 },
    { name := "GLN_PAGES_READ", off := 0x0008, width := 32 },
    { name := "GLN_MISMATCH", off := 0x000C, width := 32 },
    { name := "GLN_CHK_SKIP", off := 0x0010, width := 32 },
    { name := "GLN_RAM_CE", off := 0x0014, width := 32 },
    { name := "GLN_ATTRIB", off := 0x0018, width := 32 },
    { name := "GLN_MISMATCH_T", off := 0x0020, width := 64, stride := 8, count := 3 },
    { name := "GLN_INJECT", off := 0x0044, width := 32, rw := 0x3, rw1s := 0x80000000 },
    { name := "GLN_INJECT_RESULT", off := 0x0048, width := 32 } ]

/-- R315: PRA. -/
def regsPra : List RegDef :=
  [ { name := "PRA_STATUS", off := 0x0000, width := 32 },
    { name := "PRA_GRID_EPOCH", off := 0x0008, width := 32 },
    { name := "PRA_VOX_EPOCH", off := 0x000C, width := 32 },
    { name := "PRA_GRID_BASE", off := 0x0010, width := 64 },
    { name := "PRA_GRID_T0", off := 0x0018, width := 64 },
    { name := "PRA_GRID_ORIGIN", off := 0x0020, width := 64 },
    { name := "PRA_VOX_NODES", off := 0x0028, width := 64 },
    { name := "PRA_VOX_COUNT", off := 0x0030, width := 32 },
    { name := "PRA_VOX_ZBASE", off := 0x0034, width := 32 },
    { name := "PRA_VOX_ORIGIN", off := 0x0038, width := 64 },
    { name := "PRA_HSEQ", off := 0x0044, width := 32 },
    { name := "PRA_SUBST", off := 0x0048, width := 32 },
    { name := "PRA_STALE_FAIL", off := 0x004C, width := 32 },
    { name := "PRA_NO_CAND", off := 0x0050, width := 32 },
    { name := "PRA_RAM_CE", off := 0x0054, width := 32 },
    { name := "PRA_MISMATCH", off := 0x0058, width := 32 },
    { name := "PRA_MISMATCH_T", off := 0x0060, width := 64, stride := 8, count := 3 },
    { name := "PRA_INJECT", off := 0x0084, width := 32, rw := 0x3, rw1s := 0x80000000 },
    { name := "PRA_INJECT_RESULT", off := 0x0088, width := 32 } ]

/-- R344: DMC. -/
def regsDmc : List RegDef :=
  [ { name := "DMC_STATUS", off := 0x0000, width := 32 },
    { name := "DMC_TEMP", off := 0x0004, width := 32 },
    { name := "DMC_LAYER_MAP", off := 0x0008, width := 32, reset := 0x76543210 },
    { name := "DMC_PC_FAILED", off := 0x000C, width := 32 },
    { name := "DMC_REF_EPOCH", off := 0x0010, width := 64 },
    { name := "DMC_RH_THRESH", off := 0x0018, width := 32, reset := 0x800, rw := 0xFFFF },
    { name := "DMC_CE_THRESH", off := 0x001C, width := 32, rw := 0xFFFF },
    { name := "DMC_CE", off := 0x0020, width := 32 },
    { name := "DMC_UE", off := 0x0024, width := 32 },
    { name := "DMC_RH_REFRESH", off := 0x0028, width := 32 },
    { name := "DMC_POISON_COUNT", off := 0x002C, width := 32 },
    { name := "DMC_ERR_ADDR", off := 0x0030, width := 64 },
    { name := "DMC_MIG_PTR", off := 0x0038, width := 32 },
    { name := "DMC_RETIRE", off := 0x0040, width := 32, rw := 0x7, rw1s := 0x80000000 },
    { name := "DMC_REGION", off := 0x0080, width := 64, reset := 0x8888888888888888, stride := 8, count := 4 },
    { name := "DMC_LANE_MARK", off := 0x0100, width := 64, stride := 8, count := 32 } ]
  ++ (List.range 32).map fun p => { name := "DMC_EYE", off := 0x400 + 32 * p, width := 32, stride := 4, count := 5 }

/-- R367: the registers of FDL port `p`; `cap` is the die's own FEATURES (R360). -/
def regsFdlPort (cap p : Nat) : List RegDef :=
  let b := 0x1000 * p
  [ { name := "FDL_STATE", off := b, width := 32 },
    { name := "FDL_CAP_LOCAL", off := b + 0x008, width := 64, reset := cap },
    { name := "FDL_CAP_REMOTE", off := b + 0x010, width := 64 },
    { name := "FDL_CAP_AGREED", off := b + 0x018, width := 64 },
    { name := "FDL_CAP_DISABLED", off := b + 0x020, width := 64 },
    { name := "FDL_PARAM", off := b + 0x028, width := 32 },
    { name := "FDL_PEER_ID", off := b + 0x02C, width := 32 },
    { name := "FDL_RETRY", off := b + 0x030, width := 32 },
    { name := "FDL_CRC_ERR", off := b + 0x034, width := 32 },
    { name := "FDL_DOWN_COUNT", off := b + 0x038, width := 32 },
    { name := "FDL_SB_DROP", off := b + 0x03C, width := 32 },
    { name := "FDL_REPAIR", off := b + 0x040, width := 32, stride := 4, count := 8 },
    { name := "FDL_MOD_ACTIVE", off := b + 0x060, width := 32 },
    { name := "FDL_TEST", off := b + 0x068, width := 32, rw := 0x3, rw1s := 0x80000000 },
    { name := "FDL_TEST_RESULT", off := b + 0x06C, width := 32 },
    { name := "FDL_TELEM", off := b + 0x070, width := 32 } ]

/-- R386: the common FLR registers. -/
def regsFlrCommon : List RegDef :=
  [ { name := "FLR_WINDOW", off := 0x0000, width := 64 },
    { name := "FLR_C7_DOM", off := 0x0008, width := 64 },
    { name := "FLR_C7_LAT_MAX", off := 0x0010, width := 32 },
    { name := "FLR_C7_LATE", off := 0x0014, width := 32 },
    { name := "FLR_URG", off := 0x001C, width := 32 },
    { name := "FLR_TASK_SEL", off := 0x0040, width := 32, rw := 0x1FFF, stride := 4, count := 4 },
    { name := "FLR_TASK_LINES", off := 0x0060, width := 64, stride := 8, count := 4 } ]

/-- R386: regulation point `q`. -/
def regsFlrPoint (q : Nat) : List RegDef :=
  let b := 0x100 + 0x100 * q
  [ { name := "FLR_BUDGET", off := b, width := 32, rw := 0xFFFFF, stride := 4, count := 7 },
    { name := "FLR_BUDGET", off := b + 0x1C, width := 32, reset := 0x1000, rw := 0xFFFFF },
    { name := "FLR_USED", off := b + 0x20, width := 32, stride := 4, count := 8 },
    { name := "FLR_OVER", off := b + 0x40, width := 32, stride := 4, count := 8 },
    { name := "FLR_CAP", off := b + 0x60, width := 32 } ]

/-- R552: the die PWR block. -/
def regsPwrDie : List RegDef :=
  [ { name := "PWR_DIE_BUDGET", off := 0x0000, width := 32, reset := 0x00400000 },
    { name := "PWR_DIE_POWER", off := 0x0004, width := 32 },
    { name := "PWR_DIE_TEMP", off := 0x0008, width := 32 },
    { name := "PWR_DIE_CAP", off := 0x000C, width := 32, reset := 0x6 },
    { name := "PWR_DIE_VOLT", off := 0x0010, width := 32, reset := 0x26C },
    { name := "PWR_DIE_TRIPS", off := 0x0014, width := 32 } ]

/-- R450, R507: HTA and HTB. -/
def regsHt (h : Nat) : List RegDef :=
  [ { name := "HTx_ID", off := 0x0000, width := 32, reset := 0x480202C1 + h * 0x1000 },
    { name := "HTx_STATUS", off := 0x0010, width := 32 },
    { name := "HTx_SEQ", off := 0x0014, width := 32 },
    { name := "HTx_ACCEPT", off := 0x0018, width := 32 },
    { name := "HTx_DISAGREE", off := 0x001C, width := 32 },
    { name := "HTx_NONE", off := 0x0020, width := 32 },
    { name := "HTx_TAKEOVER", off := 0x0024, width := 32 },
    { name := "HTx_RESETS", off := 0x0028, width := 32 },
    { name := "HTx_INJ_FAIL", off := 0x002C, width := 32 },
    { name := "HTx_CHK_SKIP", off := 0x0030, width := 32 },
    { name := "HTx_LAST_ACCEPT", off := 0x0038, width := 64 },
    { name := "HTx_XMON", off := 0x0040, width := 32, rw := 0x3FFFF },
    { name := "HTx_MEAS", off := 0x0100, width := 64, stride := 8, count := 4 },
    { name := "HTx_SVN", off := 0x0120, width := 64 },
    { name := "HTx_BOOT", off := 0x0128, width := 32 } ]

/-- R360: the FEATURES a die announces. -/
def ownFeatures (heath : Bool) : Nat := if heath then 0x6FF else 0x7FF

/-- The register table of a block. -/
def regTable : Block → List RegDef
  | .val => regsVal
  | .sch => regsSch
  | .sec => regsSec
  | .pwr => regsPwr
  | .iqm => regsIqm
  | .col => regsCol
  | .fdlVale => (List.range 6).flatMap (regsFdlPort (ownFeatures false))
  | .flrVale => regsFlrCommon ++
      [{ name := "FLR_IQM_URG", off := 0x0018, width := 32, reset := 0x00100040, rw := 0xFFFFFFFF }]
      ++ [1, 2, 3, 4].flatMap regsFlrPoint
  | .mdw d => regsMdw d
  | .pra _ => regsPra
  | .dmc _ => regsDmc
  | .fdl _ => (List.range 5).flatMap (regsFdlPort (ownFeatures false))
  | .flr _ => regsFlrCommon ++ (List.range 4).flatMap regsFlrPoint
  | .pwrDie _ => regsPwrDie
  | .lea _ _ => regsLea
  | .gln _ _ => regsGln
  | .til _ _ t => regsTil t
  | .ht h => regsHt h
  | .fdlHeath _ => (List.range 5).flatMap (regsFdlPort (ownFeatures true))

/-- Bytes a register occupies. -/
def RegDef.bytes (r : RegDef) : Nat := r.width / 8

/-- The byte at offset `o` lies in register `r`: the offset of that register's first byte. -/
def RegDef.holds (r : RegDef) (o : Nat) : Option Nat :=
  if o < r.off then none
  else
    let i := if r.stride = 0 then 0 else (o - r.off) / r.stride
    let b := r.off + i * r.stride
    if i < r.count ∧ o < b + r.bytes then some b else none

/-- The register that holds the byte at block offset `o`, with the offset of its first byte. -/
def regFind : List RegDef → Nat → Option (RegDef × Nat)
  | [], _ => none
  | r :: t, o => match r.holds o with
    | some b => some (r, b)
    | none => regFind t o

/-- The register that holds the byte at a physical address, with the address of its first byte (R12). -/
def regAt (a : Nat) : Option (RegDef × Nat) :=
  match blockAt a with
  | none => none
  | some b => match regFind (regTable b) (a - blockBase b) with
    | none => none
    | some (r, o) => some (r, blockBase b + o)

/-- The reset value of the register at address `a`; 0 where there is none (R12). -/
def regReset (a : Nat) : Word :=
  match regAt a with
  | some (r, b) =>
    if a = b then
      let i := if r.stride = 0 then 0 else (a - (b - (b % 0x10000)) - r.off) / r.stride
      BitVec.ofNat 64 (r.reset + i * r.resetStep)
    else 0
  | none => 0

/-- R10, R11: the value a register holds after software writes `w` to it, from what it holds now. -/
def RegDef.written (r : RegDef) (old w : Nat) : Nat :=
  ((old &&& (2 ^ r.width - 1 - (r.rw ||| (w &&& r.w1c)) % 2 ^ r.width)) ||| (w &&& r.rw)) ||| (w &&& r.rw1s)

/-! ## Addresses of single registers -/

/-- The address of a register of the VAL block. -/
def aVal (o : Nat) : Nat := valeBase + o
/-- The address of a register of the SCH block. -/
def aSch (o : Nat) : Nat := valeBase + 0x10000 + o
/-- The address of a register of ring set `set`. -/
def aRing (set o : Nat) : Nat := aSch (0x100 + set * 0x100 + o)
/-- The address of a register of the SEC block. -/
def aSec (o : Nat) : Nat := valeBase + 0x20000 + o
/-- The address of a register of the Vale's PWR block. -/
def aPwr (o : Nat) : Nat := valeBase + 0x30000 + o
/-- The address of a register of the IQM block. -/
def aIqm (o : Nat) : Nat := valeBase + 0x60000 + o
/-- The address of a register of ingress queue `q`. -/
def aQueue (q o : Nat) : Nat := aIqm (0x8000 + 0x40 * q + o)
/-- The address of a register of the COL block. -/
def aCol (o : Nat) : Nat := valeBase + 0x70000 + o
/-- The address of a register of Meadow `d`'s MDW block. -/
def aMdw (d o : Nat) : Nat := meadowBase d + o
/-- The address of a register of Meadow `d`'s DMC block. -/
def aDmc (d o : Nat) : Nat := meadowBase d + 0x20000 + o
/-- The address of a register of Meadow `d`'s PRA block. -/
def aPra (d o : Nat) : Nat := meadowBase d + 0x30000 + o
/-- The address of a register of Meadow `d`'s PWR block. -/
def aPwrDie (d o : Nat) : Nat := meadowBase d + 0x60000 + o
/-- The address of a register of a lea's LEA block. -/
def aLea (d l o : Nat) : Nat := leaBase d l + o
/-- The address of a register of a lea's GLN block. -/
def aGln (d l o : Nat) : Nat := leaBase d l + 0x10000 + o
/-- The address of a register of a tile's TIL block. -/
def aTil (d l t o : Nat) : Nat := leaBase d l + 0x20000 + t * 0x10000 + o
/-- The address of a register of a Heath. -/
def aHt (h o : Nat) : Nat := heathBase h + o

/-- The register base of a die: 0 to 3 the Meadows, 4 the Vale, 5 and 6 the Heaths (R211, R367). -/
def dieBase (die : Nat) : Nat :=
  if die < 4 then meadowBase die else if die = 4 then valeBase else heathBase (die - 5)
/-- The address of a register of FDL port `p` of a die. -/
def aFdl (die p o : Nat) : Nat := dieBase die + 0x40000 + 0x1000 * p + o
/-- The address of a register of the FLR block of a die. -/
def aFlr (die o : Nat) : Nat := dieBase die + 0x50000 + o
/-- The address of a register of regulation point `q` of a die. -/
def aPoint (die q o : Nat) : Nat := aFlr die (0x100 + 0x100 * q + o)

end Sys2Proof.Machine
end

