-- ==== Sys2Proof/Machine/Sparse.lean ====
section
/-! DEFINITION. Sparse data by key: a list of (key, value) pairs in one canonical form, keys strictly rising and no
entry equal to what its key reads as when unlisted. Memory, the registers and every table of the state are kept so. -/

namespace Sys2Proof.Machine

/-- Sparse data by key. -/
abbrev Sparse (α : Type) := List (Nat × α)

variable {α : Type}

/-- The listed value at key `k`, if any. -/
def lookup : Sparse α → Nat → Option α
  | [], _ => none
  | (i, v) :: t, k => if i = k then some v else lookup t k

/-- The value at `k`; `d k` where `k` is not listed. -/
def readAt (d : Nat → α) (m : Sparse α) (k : Nat) : α := (lookup m k).getD (d k)

/-- `m` without an entry for `k`. -/
def eraseKey (m : Sparse α) (k : Nat) : Sparse α := m.filter fun e => decide (e.1 ≠ k)

/-- `m` with the entry `(k, w)`, in place. -/
def insertKey : Sparse α → Nat → α → Sparse α
  | [], k, w => [(k, w)]
  | (i, v) :: t, k, w =>
    if i = k then (k, w) :: t else if k < i then (k, w) :: (i, v) :: t else (i, v) :: insertKey t k w

/-- Write `w` at `k`, keeping the canonical form. -/
def writeAt [DecidableEq α] (d : Nat → α) (m : Sparse α) (k : Nat) (w : α) : Sparse α :=
  if w = d k then eraseKey m k else insertKey m k w

/-- The canonical form above a bound: keys rise strictly from `lo`, and no entry holds its default. -/
def wfFrom [DecidableEq α] (d : Nat → α) : Nat → Sparse α → Bool
  | _, [] => true
  | lo, (i, v) :: t => decide (lo ≤ i) && decide (v ≠ d i) && wfFrom d (i + 1) t

/-- The canonical form. -/
def wfSparse [DecidableEq α] (d : Nat → α) (m : Sparse α) : Bool := wfFrom d 0 m

end Sys2Proof.Machine
end

