-- ==== Sys2Proof/Machine/TypesCol.lean ====
section
/-! DEFINITION. The plain data of the module fabric (R510 to R535). -/

namespace Sys2Proof.Machine

/-- A Col port beside its registers (R511, R512, R524): whether a lane has failed, when its training began, when it last went
UP, when its partner's last HEARTBEAT arrived, and the uncorrectable codewords of the last 1 ms as (time, number). -/
structure ColPort where
  failed : Bool
  trainAt : Nat
  upAt : Nat
  heardAt : Nat
  unc : List (Nat × Nat)
  deriving DecidableEq, Repr

/-- A port at reset. -/
def colPortFresh : ColPort := ⟨false, 0, 0, 0, []⟩

/-- A fabric key in the Vale key store (R518): the key, the frames sent under it, and when it stopped being current. -/
structure ColKey where
  key : Nat
  tx : Nat
  stopAt : Option Nat
  deriving DecidableEq, Repr

/-- A module that the lead has admitted (R520, R521, R526): its address and UID, whether it is MANAGER-ELIGIBLE, and whether it
holds a role. -/
structure Member where
  addr : Nat
  uid : Nat
  eligible : Bool
  role : Bool
  deriving DecidableEq, Repr

/-- A request to another module that is not answered yet (R515, R527): RTAG, the module, whether it writes, the thread slot
that waits, the address in the remote window and the bytes, the lines still to be answered, and when it was sent. -/
structure RemoteReq where
  tag : Nat
  dst : Nat
  wr : Bool
  slot : Nat
  addr : Nat
  len : Nat
  left : Nat
  sentAt : Nat
  deriving DecidableEq, Repr

/-- A frame sent (R515): the port, the four words of its header, its payload where the spec lays it out, and what it says where
the spec names the contents and no layout. -/
structure ColSend where
  port : Nat
  w0 : Nat
  w1 : Nat
  w2 : Nat
  w3 : Nat
  data : List Byte
  fields : List Nat
  deriving DecidableEq, Repr

/-- Bytes that a member of a fabric group has sent of its package result (R528): the tags GROUP_ID, SERIAL and member index, and from
which offset. -/
structure CollPart where
  group : Nat
  serial : Nat
  member : Nat
  off : Nat
  data : List Byte
  deriving DecidableEq, Repr

/-- A COLL frame that this module has sent (R528): to which module, its partials, and CLASS and TASK of the command. -/
structure CollOut where
  dst : Nat
  part : CollPart
  cls : Nat
  task : Nat
  deriving DecidableEq, Repr

/-- A COMPARE that awaits its counterpart at the lead (R526): the sender, the JOB_ID, the statuses, the poses as positions X and Y
in 1/8 mm, HEAD and SPEED, and POS_TOL_MM and SPD_TOL of the sender's Heath. -/
structure CompareRec where
  src : Nat
  job : Nat
  statuses : List Nat
  poses : List (Int × Int × Nat × Nat)
  tol : Nat × Nat
  deriving DecidableEq, Repr

/-- A shadow as the lead follows it (R526): the shadow, its target, the agreeing frames in a row and the disagreements. -/
structure ShadowRec where
  shadow : Nat
  target : Nat
  agreed : Nat
  fails : Nat
  deriving DecidableEq, Repr

/-- The fabric beside the COL registers (R510 to R528). `bypass`: the closed bypasses, axis 0 W–E and 1 N–S. `keys`: the key
store by KEYIDX, `cur` the current key. `seen`: by 4096 · key + SRC, the SEQ above the highest accepted and those accepted
within 1,024 of it. `members`, `probes`, `votes`, `compares` and `shadows`: what a manager keeps. `managers`: their addresses
and UIDs. `bank`, `bankEpoch`, `bankManagers`: the shadow bank (R522). `modes`: MODE of the last HEARTBEAT, by address. `reqs`:
the requests outstanding; `got`: the bytes that responses have brought. `leadKnown`: the UID of the lead that a HELLO named.
`candidateAt`, `heardUids`: the formation. `retryAt`: when a refused joiner asks again. `expelled`: expelled and not admitted
again. `authBad`: since when no frame could be authenticated. `relay`: the ports on which joiners asked, by UID. `partials`: the
COLL frames received; `outs`: those sent; `busy`: those answered BUSY, as (when, by whom, ADDR, RTAG). `watchers`: the shadows that
copy this module. `summaries`: the frames that it is to report in COMPARE (R526), as JOB_ID, statuses and the record handed off.
`beat`: the 250 µs period of the last HEARTBEAT, plus 1. `sent`: the frames sent since a frame last arrived or a row of the fabric
last sent some. -/
structure Col where
  bypass : List Bool
  ports : Sparse ColPort
  keys : List (Option ColKey)
  cur : Option Nat
  seen : Sparse (Nat × List Nat)
  members : List Member
  managers : List (Nat × Nat)
  bank : Sparse Nat
  bankEpoch : Nat
  bankManagers : List (Nat × Nat)
  modes : Sparse Nat
  reqs : List RemoteReq
  got : Sparse (Option Byte)
  probes : List (Nat × Nat)
  votes : List (Nat × Nat)
  compares : List CompareRec
  shadows : List ShadowRec
  leadKnown : Option Nat
  candidateAt : Option Nat
  heardUids : List Nat
  retryAt : Option Nat
  expelled : Bool
  authBad : Option Nat
  relay : List (Nat × Nat)
  busy : List (Nat × Nat × Nat × Nat)
  partials : List CollPart
  outs : List CollOut
  watchers : List Nat
  summaries : List (Nat × List Nat × List Byte)
  beat : Nat
  sent : List ColSend
  deriving DecidableEq, Repr

/-- The fabric at reset: both bypasses closed (R514). -/
def colFresh : Col :=
  { bypass := [true, true], ports := [], keys := [none, none, none, none], cur := none, seen := [], members := [], managers := [],
    bank := [], bankEpoch := 0, bankManagers := [], modes := [], reqs := [], got := [], probes := [], votes := [],
    compares := [], shadows := [], leadKnown := none, candidateAt := none, heardUids := [], retryAt := none,
    expelled := false, authBad := none, relay := [], busy := [], partials := [], outs := [], watchers := [], summaries := [], beat := 0, sent := [] }

end Sys2Proof.Machine
end

