-- ==== Sys2Proof/Machine/Flags.lean ====
section
/-! DEFINITION. ARITH_FLAGS and ARITH_CTL (R67, R70), rounding (R66, R69, R72) and the result of a conversion with the
flags it sets. Every arithmetic operation of the tiles and the engines reports its flags through these. -/

namespace Sys2Proof.Machine

/-- ARITH_FLAGS [0] SAT (R70). -/
def flagSat : BitVec 8 := 0x01
/-- ARITH_FLAGS [1] NAN_IN (R70). -/
def flagNanIn : BitVec 8 := 0x02
/-- ARITH_FLAGS [2] NAN_OUT (R70). -/
def flagNanOut : BitVec 8 := 0x04
/-- ARITH_FLAGS [3] INF_OUT (R70). -/
def flagInfOut : BitVec 8 := 0x08
/-- ARITH_FLAGS [4] FTZ_APPLIED (R70). -/
def flagFtz : BitVec 8 := 0x10
/-- ARITH_FLAGS [5] LOG8_UNDER (R70). -/
def flagLogUnder : BitVec 8 := 0x20
/-- ARITH_FLAGS [6] INEXACT_INT (R70). -/
def flagInexactInt : BitVec 8 := 0x40

/-- The flags that only a value written to an output sets (R70). -/
def writeFlags : BitVec 8 := flagNanOut ||| flagInfOut

/-- `f` if `c`, else no flag. -/
def flagIf (c : Bool) (f : BitVec 8) : BitVec 8 := if c then f else 0

/-- The three roundings of ARITH_CTL.RND (R67). -/
inductive Rnd where
  | nearest
  | stochastic
  | zero
  deriving DecidableEq, Repr

/-- The fields of ARITH_CTL that arithmetic reads (R67). -/
structure ArithCtl where
  rnd : Rnd
  ftz : Bool
  sat : Bool
  seed : Nat
  deriving DecidableEq, Repr

/-- ARITH_CTL from its 32-bit word (R67); RND 0b11 never gets here (R67 ends the command at start). -/
def arithCtl (w : Nat) : ArithCtl :=
  { rnd := if bits w 1 0 = 1 then .stochastic else if bits w 1 0 = 2 then .zero else .nearest
    ftz := bit w 2, sat := bit w 3, seed := bits w 31 16 }

/-- R69: stochastic rounding acts only where the rule lets it; elsewhere it is to nearest. -/
def Rnd.elsewhere (r : Rnd) : Rnd := if r = .stochastic then .nearest else r

/-- One step of the LFSR of R69: b = s31 ^ s21 ^ s1 ^ s0, shifted in at the bottom. -/
def lfsrStep (s : Nat) : Nat :=
  let b := (b2n (bit s 31) + b2n (bit s 21) + b2n (bit s 1) + b2n (bit s 0)) % 2
  (s * 2 + b) % 2 ^ 32

/-- `n` LFSR steps. -/
def lfsrSteps : Nat → Nat → Nat
  | 0, s => s
  | n + 1, s => lfsrSteps n (lfsrStep s)

/-- R69: a rounding advances the LFSR 16 steps; its low 16 bits are the draw. -/
def lfsrDraw (s : Nat) : Nat × Nat := let s' := lfsrSteps 16 s; (s' % 2 ^ 16, s')

/-- R69: the seed of a slot at command start. -/
def lfsrSeed (seed ltile slot : Nat) : Nat := (seed % 65536) * 65536 + (ltile % 1024) * 64 + (slot % 8) * 8 + 1

/-- The magnitude `m` with its low `sh` bits rounded away; `draw` is the stochastic draw r of R69. The second part
says whether nonzero bits were discarded. -/
def roundShift (r : Rnd) (draw m sh : Nat) : Nat × Bool :=
  let q := m >>> sh
  let rem := m % 2 ^ sh
  let up := match r with
    | .zero => false
    | .nearest => decide (2 ^ sh < 2 * rem) || (decide (2 * rem = 2 ^ sh) && decide (0 < sh) && bit q 0)
    | .stochastic => decide (draw < (if 16 ≤ sh then rem >>> (sh - 16) else rem <<< (16 - sh)))
  (q + b2n up, decide (rem ≠ 0))

/-- A magnitude `m · 2^e` rounded to an integer multiple of `2^q`. -/
def roundTo (r : Rnd) (draw m : Nat) (e q : Int) : Nat × Bool :=
  if q ≤ e then (m <<< (e - q).toNat, false) else roundShift r draw m (q - e).toNat

/-- A result with the flags it sets. -/
structure Flagged where
  val : Nat
  flags : BitVec 8
  deriving DecidableEq, Repr

end Sys2Proof.Machine
end

