-- ==== Sys2Proof/Machine/Operands.lean ====
section
/-! DEFINITION. The twelve number formats (R46 to R63, R72 to R74): what an element's bits are worth, how a value is
written in a format, and where an element lies in the B4 layout (R57 to R60). Values are exact: a sign, a magnitude and
a power of two; a format writes them with one rounding. -/

namespace Sys2Proof.Machine

/-- An exact value of any of the formats: `(−1)^neg · m · 2^e`, an infinity, or NaN. -/
inductive Num where
  | fin (neg : Bool) (m : Nat) (e : Int)
  | inf (neg : Bool)
  | nan
  deriving DecidableEq, Repr

/-- The format codes of R46. -/
inductive Fmt where
  | int4 | int8 | int16 | e4m3 | e5m2 | fp16 | bf16 | fp32 | mxfp4 | mxint8 | log8 | q16
  deriving DecidableEq, Repr

/-- The format a code names; codes 0xC to 0xF are reserved (R46). -/
def fmtOf : Nat → Option Fmt
  | 0 => some .int4 | 1 => some .int8 | 2 => some .int16 | 3 => some .e4m3 | 4 => some .e5m2 | 5 => some .fp16
  | 6 => some .bf16 | 7 => some .fp32 | 8 => some .mxfp4 | 9 => some .mxint8 | 10 => some .log8 | 11 => some .q16
  | _ => none

/-- Bits per element (R46). -/
def Fmt.width : Fmt → Nat
  | .int4 | .mxfp4 => 4
  | .int8 | .e4m3 | .e5m2 | .mxint8 | .log8 => 8
  | .int16 | .fp16 | .bf16 => 16
  | .fp32 | .q16 => 32

/-- The MX formats (R61). -/
def Fmt.isMx : Fmt → Bool
  | .mxfp4 | .mxint8 => true
  | _ => false

/-- R64: the formats that 2:4 sparsity takes. -/
def Fmt.sparseOk : Fmt → Bool
  | .int4 | .int8 | .e4m3 | .e5m2 | .mxfp4 | .mxint8 | .log8 => true
  | _ => false

/-- R64: the formats the tensor cells take. -/
def Fmt.cellOk : Fmt → Bool
  | .fp32 | .q16 => false
  | _ => true

/-- R64: the formats in which the vector unit computes (the others it only loads and converts). -/
def Fmt.vectorOk : Fmt → Bool
  | .int8 | .int16 | .fp16 | .bf16 | .fp32 | .q16 => true
  | _ => false

/-- R64: a pair of operand formats of one tensor-issue instruction. -/
def fmtPairOk (a b : Fmt) : Bool :=
  (a.cellOk && b.cellOk) &&
    (decide (a = b) || (decide (a = .e4m3) && decide (b = .e5m2)) || (decide (a = .e5m2) && decide (b = .e4m3)))

/-- The kinds of accumulator (R64, R81). -/
inductive AccKind where
  | int32 | q8_24 | fp32
  deriving DecidableEq, Repr

/-- R64: the accumulator of an operand format. -/
def Fmt.acc : Fmt → AccKind
  | .int4 | .int8 | .int16 => .int32
  | .log8 => .q8_24
  | _ => .fp32

/-- The layout of a binary floating-point format (R49): exponent bits, mantissa bits, bias, the bits of the largest
finite value, whether it has infinities, and its canonical NaN (R50). -/
structure FloatFmt where
  exp : Nat
  man : Nat
  bias : Nat
  maxBits : Nat
  hasInf : Bool
  nanBits : Nat
  deriving DecidableEq, Repr

/-- R49, R50: FP8-E4M3. -/
def ffE4m3 : FloatFmt := ⟨4, 3, 7, 0x7E, false, 0x7F⟩
/-- R49, R50: FP8-E5M2. -/
def ffE5m2 : FloatFmt := ⟨5, 2, 15, 0x7B, true, 0x7E⟩
/-- R49, R50: FP16. -/
def ffFp16 : FloatFmt := ⟨5, 10, 15, 0x7BFF, true, 0x7E00⟩
/-- R49, R50: BF16. -/
def ffBf16 : FloatFmt := ⟨8, 7, 127, 0x7F7F, true, 0x7FC0⟩
/-- R49, R50: FP32. -/
def ffFp32 : FloatFmt := ⟨8, 23, 127, 0x7F7FFFFF, true, 0x7FC00000⟩
/-- R61: the E2M1 element of MXFP4. -/
def ffE2m1 : FloatFmt := ⟨2, 1, 1, 7, false, 0⟩

/-- The floating-point layout of a format, if it is one (R49). -/
def Fmt.float? : Fmt → Option FloatFmt
  | .e4m3 => some ffE4m3 | .e5m2 => some ffE5m2 | .fp16 => some ffFp16 | .bf16 => some ffBf16
  | .fp32 => some ffFp32 | _ => none

/-- R49: the value of an encoding. -/
def floatNum (f : FloatFmt) (w : Nat) : Num :=
  let neg := bit w (f.exp + f.man)
  let e := bits w (f.exp + f.man - 1) f.man
  let m := w % 2 ^ f.man
  let mag := w % 2 ^ (f.exp + f.man)
  if f.maxBits < mag then
    if f.hasInf && decide (m = 0) then .inf neg else .nan
  else if e = 0 then .fin neg m (1 - (f.bias : Int) - f.man)
  else .fin neg (2 ^ f.man + m) ((e : Int) - f.bias - f.man)

/-- R52: the encoding is a subnormal. -/
def isSubnormal (f : FloatFmt) (w : Nat) : Bool :=
  decide (bits w (f.exp + f.man - 1) f.man = 0) && decide (w % 2 ^ f.man ≠ 0)

/-- R49 to R52: a value written in a floating-point format, rounded once. `r` is the rounding that acts here and `draw`
its stochastic draw; `sat` and `ftz` are ARITH_CTL's. DESIGN CHOICE (assumption 110): in FP8-E4M3 under rounding toward zero, which
R51 names for the other formats only, a magnitude above 448 that is cut to 448 is no overflow and sets no SAT. -/
def floatPut (f : FloatFmt) (r : Rnd) (draw : Nat) (sat ftz : Bool) (x : Num) : Flagged :=
  let sgn := fun (neg : Bool) => if neg then 2 ^ (f.exp + f.man) else 0
  match x with
  | .nan => ⟨f.nanBits, flagNanOut⟩
  | .inf neg =>
    if f.hasInf then ⟨sgn neg + f.maxBits + 1 , flagInfOut⟩ else ⟨sgn neg + f.maxBits, flagSat⟩
  | .fin neg 0 _ => ⟨sgn neg, 0⟩
  | .fin neg m e =>
    let top : Int := e + Nat.log2 m
    let q : Int := max (top - f.man) (1 - (f.bias : Int) - f.man)
    let (n, lost) := roundTo r draw m e q
    let w := (q + f.man + f.bias - 1).toNat * 2 ^ f.man + n
    if f.maxBits < w || (decide (r = .zero) && decide (w = f.maxBits) && lost && f.hasInf) then
      if !f.hasInf || sat || decide (r = .zero) then ⟨sgn neg + f.maxBits, flagSat⟩
      else ⟨sgn neg + f.maxBits + 1, flagInfOut⟩
    else if ftz && decide (w < 2 ^ f.man) && decide (w ≠ 0) then ⟨sgn neg, flagFtz⟩
    else ⟨sgn neg + w, 0⟩

/-- A value rounded to a two's-complement integer times `2^q`, `n` bits wide, saturating (R72). A saturation does not hide
discarded fraction bits (R70). -/
def intPut (n : Nat) (q : Int) (r : Rnd) (x : Num) : Flagged :=
  let lo : Int := -(2 : Int) ^ (n - 1)
  let hi : Int := (2 : Int) ^ (n - 1) - 1
  match x with
  | .nan => ⟨0, flagNanIn⟩
  | .inf neg => ⟨wrap n (if neg then lo else hi), flagSat⟩
  | .fin neg m e =>
    let (k, lost) := roundTo r.elsewhere 0 m e q
    let v : Int := if neg then -(k : Int) else k
    let fl := flagIf lost flagInexactInt
    if v < lo then ⟨wrap n lo, flagSat ||| fl⟩
    else if hi < v then ⟨wrap n hi, flagSat ||| fl⟩
    else ⟨wrap n v, fl⟩

/-- The largest `n` below `2^(k)` with `n^8 ≤ x`, found bit by bit. -/
def root8 : Nat → Nat → Nat → Nat
  | 0, acc, _ => acc
  | k + 1, acc, x => if (acc + 2 ^ k) ^ 8 ≤ x then root8 k (acc + 2 ^ k) x else root8 k acc x

/-- `2^(p/8)`, p modulo 8 = f, as a magnitude with 64 fraction bits and a sticky lowest bit: exact when f = 0. -/
def pow2Eighth (f : Nat) : Nat × Int :=
  if f = 0 then (1, 0) else (2 * root8 66 0 (2 ^ (f + 8 * 64)) + 1, -65)

/-- R53, R74: the value of a LOG8 byte. Its magnitude `2^((e−64)/8)` is irrational where 8 does not divide e − 64; it is
held to 64 fraction bits with a sticky bit, which every rounding of R72 takes to the same result as the exact value. -/
def log8Num (w : Nat) : Num :=
  let e := w % 128
  if e = 0 then .fin false 0 0
  else
    let p : Int := (e : Int) - 64
    let (m, x) := pow2Eighth (p % 8).toNat
    .fin (bit w 7) m (x + p / 8)

/-- How many of the midpoints `2^((2j+1)/16)`, j = 0 to n − 1, lie at or below `a / 2^l` (R73). -/
def log8Mids (a l : Nat) : Nat → Nat
  | 0 => 0
  | j + 1 => log8Mids a l j + b2n (decide (2 ^ (2 * j + 1 + 16 * l) ≤ a ^ 16))

/-- R73: a value written in LOG8. -/
def log8Put (x : Num) : Flagged :=
  match x with
  | .nan => ⟨0, flagNanIn⟩
  | .inf neg => ⟨(if neg then 128 else 0) + 127, flagSat⟩
  | .fin _ 0 _ => ⟨0, 0⟩
  | .fin neg m e =>
    let l := Nat.log2 m
    let f := log8Mids m l 8
    let code : Int := 64 + 8 * (e + l) + f
    let s := if neg then 128 else 0
    if code < 1 then ⟨0, flagLogUnder⟩
    else if 127 < code then ⟨s + 127, flagSat⟩
    else ⟨s + code.toNat, 0⟩

/-- The value of one element's bits in a format that is not MX, or of an MX element with scale 1 (R47 to R61). -/
def elemNum (f : Fmt) (w : Nat) : Num :=
  match f with
  | .int4 | .int8 | .int16 => let i := sext f.width w; .fin (decide (i < 0)) i.natAbs 0
  | .q16 => let i := sext 32 w; .fin (decide (i < 0)) i.natAbs (-16)
  | .e4m3 => floatNum ffE4m3 w
  | .e5m2 => floatNum ffE5m2 w
  | .fp16 => floatNum ffFp16 w
  | .bf16 => floatNum ffBf16 w
  | .fp32 => floatNum ffFp32 w
  | .log8 => log8Num w
  | .mxfp4 => floatNum ffE2m1 w
  | .mxint8 => let i := sext 8 w; .fin (decide (i < 0)) i.natAbs (-6)

/-- A value times a power of two. -/
def Num.scale (x : Num) (k : Int) : Num :=
  match x with
  | .fin n m e => .fin n m (e + k)
  | y => y

/-- R61: an element under the scale byte of its block; 0xFF makes it NaN. -/
def mxNum (f : Fmt) (scale w : Nat) : Num := if scale = 255 then .nan else (elemNum f w).scale ((scale : Int) - 127)

/-- R52: an operand read with FTZ, and the flag it sets. NaN inputs set NAN_IN (R70). -/
def readElem (f : Fmt) (ftz : Bool) (w : Nat) : Num × BitVec 8 :=
  match f.float? with
  | some ff =>
    if ftz && isSubnormal ff w then (.fin (bit w (ff.exp + ff.man)) 0 0, flagFtz)
    else let x := floatNum ff w; (x, flagIf (decide (x = .nan)) flagNanIn)
  | none => (elemNum f w, 0)

/-- R69: stochastic rounding acts on conversions to BF16 and the two FP8 formats only. -/
def Fmt.stochasticOk : Fmt → Bool
  | .bf16 | .e4m3 | .e5m2 => true
  | _ => false

/-- R72: a value converted to a format that is not MX, with its flags. -/
def putElem (f : Fmt) (c : ArithCtl) (draw : Nat) (x : Num) : Flagged :=
  let r := if f.stochasticOk then c.rnd else c.rnd.elsewhere
  match f with
  | .int4 | .int8 | .int16 => intPut f.width 0 r x
  | .q16 => intPut 32 (-16) r x
  | .e4m3 => floatPut ffE4m3 r draw c.sat c.ftz x
  | .e5m2 => floatPut ffE5m2 r draw c.sat c.ftz x
  | .fp16 => floatPut ffFp16 r draw c.sat c.ftz x
  | .bf16 => floatPut ffBf16 r draw c.sat c.ftz x
  | .fp32 => floatPut ffFp32 r draw c.sat c.ftz x
  | .log8 => log8Put x
  | .mxfp4 => floatPut ffE2m1 r draw true false x
  | .mxint8 => intPut 8 (-6) r x

/-- R70: the sum is over the values a unit is given; NAN_IN where one is NaN. -/
def Num.isNan : Num → Bool
  | .nan => true
  | _ => false

/-- The value is an infinity. -/
def Num.isInf : Num → Bool
  | .inf _ => true
  | _ => false

/-- The finite magnitude is zero. -/
def Num.isZero : Num → Bool
  | .fin _ 0 _ => true
  | _ => false

/-- floor(log2 of the magnitude), for a nonzero finite value. -/
def Num.log2? : Num → Option Int
  | .fin _ 0 _ => none
  | .fin _ m e => some (e + Nat.log2 m)
  | _ => none

/-- The greatest floor(log2 magnitude) of a block, none when all of it is zero (R63). -/
def mxTop : List Num → Option Int
  | [] => none
  | x :: t => match x.log2?, mxTop t with
    | some a, some b => some (max a b)
    | some a, none => some a
    | none, b => b

/-- R63: a block quantised to an MX format: its scale byte, its elements, and the flags. -/
def mxPut (f : Fmt) (c : ArithCtl) (xs : List Num) : Nat × List Nat × BitVec 8 :=
  if xs.any (fun x => x.isNan || x.isInf) then
    (255, xs.map (fun _ => 0), flagNanOut ||| flagIf (xs.any Num.isNan) flagNanIn)
  else match mxTop xs with
    | none => (0, xs.map (fun _ => 0), 0)
    | some top =>
      let emax : Int := if f = .mxfp4 then 2 else 0
      let sc : Int := max 0 (min 254 (top - emax + 127))
      let ys := xs.map fun x => putElem f { c with rnd := c.rnd.elsewhere } 0 (x.scale (127 - sc))
      (sc.toNat, ys.map (·.val), (ys.foldl (fun a y => a ||| y.flags) 0) &&& flagSat)

/-- The exact sum of two values (R50: ∞ − ∞ and NaN give NaN). A zero sum of two zeros of one sign keeps it (IEEE 754). -/
def Num.add (x y : Num) : Num :=
  match x, y with
  | .nan, _ => .nan
  | _, .nan => .nan
  | .inf a, .inf b => if a = b then .inf a else .nan
  | .inf a, .fin .. => .inf a
  | .fin .., .inf b => .inf b
  | .fin a m e, .fin b n k =>
    let lo := min e k
    let p : Int := (m <<< (e - lo).toNat : Nat)
    let q : Int := (n <<< (k - lo).toNat : Nat)
    let v := (if a then -p else p) + (if b then -q else q)
    .fin (if v = 0 then a && b else decide (v < 0)) v.natAbs lo

/-- The exact negation. -/
def Num.neg : Num → Num
  | .fin a m e => .fin (!a) m e
  | .inf a => .inf (!a)
  | .nan => .nan

/-- The exact product (R50: 0 × ∞ and NaN give NaN). -/
def Num.mul (x y : Num) : Num :=
  match x, y with
  | .nan, _ => .nan
  | _, .nan => .nan
  | .inf a, .inf b => .inf (a != b)
  | .inf a, .fin b m _ => if m = 0 then .nan else .inf (a != b)
  | .fin a m _, .inf b => if m = 0 then .nan else .inf (a != b)
  | .fin a m e, .fin b n k => .fin (a != b) (m * n) (e + k)

/-- `x < y` as values; false where either is NaN (R129). -/
def Num.lt (x y : Num) : Bool :=
  match x, y with
  | .nan, _ => false
  | _, .nan => false
  | .inf a, .inf b => a && !b
  | .inf a, .fin .. => a
  | .fin .., .inf b => !b
  | .fin a m e, .fin b n k =>
    let lo := min e k
    let p : Int := (m <<< (e - lo).toNat : Nat)
    let q : Int := (n <<< (k - lo).toNat : Nat)
    decide ((if a then -p else p) < (if b then -q else q))

/-- `x = y` as values; false where either is NaN (R129). -/
def Num.eqv (x y : Num) : Bool := !x.isNan && !y.isNan && !x.lt y && !y.lt x

/-- The sum of a list of values, exact (R66). -/
def numSum : List Num → Num
  | [] => .fin false 0 0
  | [x] => x
  | x :: t => x.add (numSum t)

/-! ## The LOG8 product (R54, R55) -/

/-- R55: the fraction table T. -/
def log8T : Nat → Nat
  | 0 => 32768 | 1 => 35734 | 2 => 38968 | 3 => 42495 | 4 => 46341 | 5 => 50535 | 6 => 55109 | _ => 60097

/-- R54: the product of two LOG8 bytes as a signed Q8.24 integer, and whether its magnitude saturated. -/
def log8Mul (a b : Nat) : Int × Bool :=
  let e1 := a % 128
  let e2 := b % 128
  if e1 = 0 ∨ e2 = 0 then (0, false)
  else
    let p : Int := (e1 : Int) + e2 - 128
    let q := p / 8
    let f := (p % 8).toNat
    let (mag, sat) :=
      if 7 ≤ q then (0x7FFFFFFF, true)
      else if 0 ≤ q + 9 then (log8T f <<< (q + 9).toNat, false)
      else ((roundShift .nearest 0 (log8T f) (-(q + 9)).toNat).1, false)
    (if bit a 7 != bit b 7 then -(mag : Int) else mag, sat)

/-! ## Where elements lie (R57, R58) -/

/-- R57: the element index of (r, c) in a matrix of `cols` columns. -/
def b4Index (cols r c : Nat) : Nat := ((r / 4) * (cols / 4) + c / 4) * 16 + (r % 4) * 4 + c % 4

/-- R58: bytes of a matrix of `rows × cols` elements. -/
def b4Bytes (f : Fmt) (rows cols : Nat) : Nat := rows * cols * f.width / 8

/-- R58: byte offset of an element index. -/
def elemByte (f : Fmt) (i : Nat) : Nat := i * f.width / 8

end Sys2Proof.Machine
end

