-- ==== Sys2Proof/Machine/TypesCompute.lean ====
section
/-! DEFINITION. The plain data of the compute side: thread slots, tiles, leas, jobs, commands, the completion FIFO,
contexts, the KV manager and the Prairie epochs (chapters "Tensor cells, tiles and leas" to "The Prairie
spatio-temporal planner"). -/

namespace Sys2Proof.Machine

/-- A command of the running job: its list and list index (R151, R158). -/
structure CmdRef where
  list : Nat
  idx : Nat
  deriving DecidableEq, Repr

/-! ## Threads (R111 to R148) -/

/-- What an outstanding memory request of a slot is (R123). A copy keeps how many of the items that were queued for the cells
before it have still to run (R145). -/
inductive ReqKind where
  | load (rd size : Nat) (signed : Bool)
  | vload (vd : Nat)
  | store
  | copy (dst counter ahead : Nat)
  deriving DecidableEq, Repr

/-- One outstanding memory request of a slot (R123): it is performed when it is acknowledged. `data` is what a store
stores. -/
structure MemReq where
  kind : ReqKind
  addr : Nat
  len : Nat
  data : List Byte
  since : Nat
  deriving DecidableEq, Repr

/-- A WAIT in progress (R143): `since` is its issue cycle c0, and `met` says that in a cycle up to c0 + t its counter stood at
or above the target. -/
structure WaitRec where
  rd : Nat
  counter : Nat
  target : Nat
  timeout : Nat
  acq : Bool
  since : Nat
  met : Bool
  deriving DecidableEq, Repr

/-- A queued item of tensor work of a slot (R81, R127): the clearing of a set, the taking up of a set as it stands (ACC = 1),
or one step. -/
inductive TItem where
  | clear (set : Nat) (kind : AccKind)
  | take (set : Nat) (kind : AccKind)
  | step (set : Nat) (da db : Nat) (i j o k0 : Nat)
  deriving DecidableEq, Repr

/-- An accumulator set (R80, R81): its kind, none while no instruction of the thread has cleared it; its 256 values
by region row and column; the accumulators that saturated during the sweep (R99); and whether it was read undefined
(R81). -/
structure AccSet where
  kind : Option AccKind
  vals : List Nat
  saturated : List Nat
  undefinedRead : Bool
  deriving DecidableEq, Repr

/-- An accumulator set at thread start (R113): its values are undefined. -/
def accSetFresh : AccSet := ⟨none, [], [], false⟩

/-- A thread slot (R112), with the identity of its thread and the tile cycle in which its tile-share started (R133). -/
structure ThreadSlot where
  busy : Bool
  exited : Bool
  faulted : Bool
  cmd : CmdRef
  ltile : Nat
  tindex : Nat
  nthreads : Nat
  since : Nat
  x : Sparse Word
  v : Sparse (BitVec 2048)
  d : Sparse (BitVec 256)
  acc : Sparse AccSet
  pc : Addr
  lfsr : Nat
  reqs : List MemReq
  waits : List WaitRec
  steps : List TItem
  deriving DecidableEq, Repr

/-- A slot that holds no thread. -/
def slotFree : ThreadSlot :=
  ⟨false, false, false, ⟨0, 0⟩, 0, 0, 0, 0, [], [], [], [], 0, 0, [], [], []⟩

/-- What a physical tile holds beside its registers and SRAM: the slot served last by the cells (R81), the time at
which an injection was armed (R105), the swap-out that follows a mismatch and waits for the free tile (R102), when its
last passing self-test ended (R460), whether a repair found no spare row (R463), and whether a checker of it failed, so that it is
to be swapped out and retired (R467). -/
structure TileState where
  lastStep : Nat
  armedAt : Nat
  swapOut : Bool
  lastTest : Nat
  noSpare : Bool
  failed : Bool
  deriving DecidableEq, Repr

/-- A tile at reset. -/
def tileFresh : TileState := ⟨7, 0, false, 0, false, false⟩

/-- What a lea holds beside its registers: the logical tile whose swap waits for its old tile (R97), the control core's
state (R213), the tiles that carry a pending test (R460), the tile that the rotation is testing or will test once its
swap is complete, the eighth of a tile cycle at which that test may end (R461; while the control core is down, those that are left), the
number of the last rotation step run plus 1, the tiles in service that were lost and wait for the rebinding (R466), and when an
injection into its Glen engine was armed (R247). -/
structure LeaState where
  swapping : Option Nat
  coreUp : Bool
  testNext : List Nat
  testing : Option Nat
  testAt : Nat
  rotated : Nat
  losing : List Nat
  glnArmed : Nat
  deriving DecidableEq, Repr

/-- A lea at reset: its control core is loaded only once its Meadow is reached (R488). -/
def leaFresh : LeaState := ⟨none, false, [], none, 0, 0, [], 0⟩

/-! ## Commands and jobs (R151 to R192) -/

/-- How an engine's part of a command ended: done, a fault of the command (R170), or a fault attributed to a context
(R172). -/
inductive PartEnd where
  | done
  | fault (status : Nat)
  | attributed (ctx status : Nat)
  deriving DecidableEq, Repr

/-- One deferred effect of a command: one commit-log entry (R165). -/
inductive LogEntry where
  | post (addr : Nat) (kind value : Nat) (thread : Nat)
  | append (entry head : Nat)
  | advance (entry : Nat)
  | take (queue : Nat)
  | handoff
  | mapPublish (what : Nat)
  | checkpoint
  deriving DecidableEq, Repr

/-- A tile-share of a running command (R97, R161). -/
structure Share where
  ltile : Nat
  die : Nat
  lea : Nat
  lt : Nat
  tile : Nat
  state : Nat      -- 0 waiting, 1 running, 2 ended at its tile, 3 its end recorded by the scheduler core
  deriving DecidableEq, Repr

/-- An engine's part of a running command: the engine, its state as in `Share`, and the empty rows and KV pages that a Glen
engine counted (R238). -/
structure EnginePart where
  die : Nat
  lea : Nat
  state : Nat
  empty : Nat
  pages : Nat
  deriving DecidableEq, Repr

/-- Where a command stands (R158, R166 to R176). `committing`: it is past its commit point, and its hand-off is not yet
acknowledged (R311). -/
inductive CmdPhase where
  | waiting
  | running
  | killing
  | committing
  | committed
  | failed
  | skipped
  deriving DecidableEq, Repr

/-- A pinned pool range of a command's map (R178, R180). -/
structure Pin where
  die : Nat
  lea : Nat
  off : Nat
  len : Nat
  deriving DecidableEq, Repr

/-- What a Prairie batch found for one candidate (R308), with the engine that checked it and the grid's T0 and origin
when its batch started (R311). -/
structure PraResult where
  cand : Nat
  die : Nat
  checked : Bool
  hit : Bool
  voxHit : Bool
  firstHit : Nat
  peak : Nat
  pathCost : Nat
  score : Nat
  gridTag : Nat
  voxTag : Nat
  t0 : Nat
  origin : Nat
  deriving DecidableEq, Repr

/-- What the start of a GLEN command keeps of a context that it reads (R226, R230, R258): the context, its directory and that
directory's GEN, its TOKENS, and its page entries of the layer. -/
structure EntrySnap where
  ctx : Nat
  root : Nat
  gen : Nat
  te : Nat
  pages : List Nat
  deriving DecidableEq, Repr

/-- No entry. -/
def snapNone : EntrySnap := ⟨0, 0, 0, 0, []⟩

/-- A command that has started at least once, or was skipped. `saved` keeps what its start read and its run uses; `serial` is the
number of its current run among all the runs that the scheduler core has started, and `tEnd` the time of its commit point. List 2
holds, under the number of a lea, the run
of the golden template on that lea (R215). -/
structure Cmd where
  ref : CmdRef
  phase : CmdPhase
  words : List Nat
  runs : Nat
  serial : Nat
  rerun : Bool
  tStart : Nat
  mapIdx : Nat
  mapId : Nat
  dieReq : Nat
  glenLeas : Nat
  praDies : Nat
  collDies : Nat
  pins : List Pin
  outs : List (Nat × Nat)
  ctxs : List Nat
  removed : Nat
  dropCtx : List Nat
  attribs : Nat
  log : List LogEntry
  flags : BitVec 8
  checkRerun : Bool
  mismTiles : List Nat
  faultCtx : Nat
  faultDie : Nat
  faultLea : Nat
  faultTile : Nat
  cause : Nat
  shares : List Share
  engines : List EnginePart
  kindInfo : Nat
  takes : List Nat
  saved : List (List Nat)
  snaps : List EntrySnap
  cows : List (Nat × Nat × Nat)
  reserved : Nat
  owned : Nat
  praDone : List (Nat × Nat)
  results : List PraResult
  ranked : List Nat
  rankingDone : Bool
  endStatus : Nat
  tEnd : Nat
  deriving DecidableEq, Repr

/-- A command record before its first start. -/
def cmdFresh (r : CmdRef) : Cmd :=
  { ref := r, phase := .waiting, words := [], runs := 0, serial := 0, rerun := false, tStart := 0, mapIdx := 0, mapId := 0xFFFF,
    dieReq := 0, glenLeas := 0, praDies := 0, collDies := 0, pins := [], outs := [], ctxs := [],
    removed := 0, dropCtx := [], attribs := 0, log := [], flags := 0, checkRerun := false, mismTiles := [], faultCtx := 0xFFFF,
    faultDie := 0, faultLea := 0, faultTile := 0x1F, cause := 0xFFFF, shares := [], engines := [], kindInfo := 0,
    takes := [], saved := [], snaps := [], cows := [], reserved := 0, owned := 0, praDone := [], results := [], ranked := [], rankingDone := false,
    endStatus := 0, tEnd := 0 }

/-- Where a job stands (R153, R176). -/
inductive JobPhase where
  | queued
  | running
  | suspending
  | suspended
  deriving DecidableEq, Repr

/-- A job the scheduler core holds (R151, R203): the copy of its descriptor (R574), the ring set it was consumed from,
its place in the order of consumption, and the records of its commands. -/
structure Job where
  words : List Nat
  ringSet : Nat
  serial : Nat
  phase : JobPhase
  started : Bool
  tStart : Nat
  cmds : List Cmd
  kills : Nat
  goldenTested : Nat
  goldenFailed : Nat
  pinned : List (CmdRef × Pin)
  handed : List Byte
  deriving DecidableEq, Repr

/-- A record of the completion FIFO (R210). `run` is the number of the run it belongs to (R168): a record of another run decides
nothing. -/
inductive FifoRec where
  | shareEnd (die : Nat) (cmd : CmdRef) (run ltile : Nat)
  | engineEnd (die lea : Nat) (cmd : CmdRef) (run : Nat)
  | fault (die lea tile : Nat) (cmd : CmdRef) (run status : Nat)
  | attributed (die lea : Nat) (cmd : CmdRef) (run ctx status : Nat)
  | jobLimit (serial : Nat)
  deriving DecidableEq, Repr

/-- The die that sends a record. -/
def FifoRec.die : FifoRec → Nat
  | .shareEnd d _ _ _ => d
  | .engineEnd d _ _ _ => d
  | .fault d _ _ _ _ _ => d
  | .attributed d _ _ _ _ _ => d
  | .jobLimit _ => 4

/-- What becomes of the job once a kill is complete: it goes on, it is suspended (R176), or its time limit ends it
(R154). -/
inductive KillThen where
  | go
  | suspend
  | limit
  deriving DecidableEq, Repr

/-- A kill in progress (R175): the commands it covers, the dies that have not yet reported drained and those of them the
kill has reached, the status each covered command ends with (0x01 for a run that is killed to be re-run), whether the
end tears contexts down (R171), and what becomes of the job. -/
structure KillRec where
  cmds : List CmdRef
  dies : List Nat
  reached : List Nat
  status : Nat
  tears : Bool
  after : KillThen
  deriving DecidableEq, Repr

/-- An event (R211): where it was raised, the command it names, its name without EVT_, its arguments and the time base
when it was raised. -/
structure Ev where
  die : Nat
  lea : Nat
  tile : Nat
  job : Nat
  list : Nat
  idx : Nat
  name : String
  arg0 : Nat
  arg1 : Nat
  time : Nat
  ringSet : Option Nat
  deriving DecidableEq, Repr

/-- The scheduler core (R193 to R220): its jobs, the completion FIFO and the records still on their way to it (R210),
the kills in progress, the entries that wait for room in a completion ring (R206), the entries written to each ring
since it was enabled (R207), the authoritative context descriptors (R194), the contexts being swapped in, the golden
reservations by lea and time, the targets of the rotation step that were tested (R215), the runs of commands started, when the
pending mode request
was accepted and who made it (R41), when the core's restart began, and the events that wait for it to resume (R212). -/
structure Sched where
  jobs : List Job
  serial : Nat
  nextSet : Nat
  fifo : List FifoRec
  outbox : List FifoRec
  kills : List KillRec
  cqWait : List (Nat × Nat × List Nat × Option CmdRef)
  ctxTable : Sparse (List Nat)
  swaps : List Nat
  reservations : List (Nat × Nat)
  goldenDone : Nat
  runSerial : Nat
  modeAccepted : Nat
  modeInit : Nat
  restartAt : Nat
  ringSeq : Sparse Nat
  evWait : List Ev
  deriving DecidableEq, Repr

/-- The scheduler core at reset. -/
def schedFresh : Sched := ⟨[], 0, 0, [], [], [], [], [], [], [], 0, 0, 0, 0, 0, [], []⟩

/-! ## The KV manager (R249 to R268) -/

/-- A retired table copy (R259, R260): its directory, its context, and the commands whose snapshots name it. -/
structure Retired where
  root : Nat
  ctx : Nat
  cmds : List CmdRef
  deriving DecidableEq, Repr

/-- A frame in quarantine (R256) with the commands in flight when its count reached 0. -/
structure Quarantined where
  frame : Nat
  cmds : List CmdRef
  deriving DecidableEq, Repr

/-- The KV manager beside the SCH_KV registers: the retire list, the quarantine, the waiting publication (R259), and
whether EVT_KV_LOW is pending (R268). -/
structure Kv where
  retired : List Retired
  quarantine : List Quarantined
  waitingPublish : Option (Nat × Nat)
  lowPending : Bool
  deriving DecidableEq, Repr

/-- The KV manager at reset. -/
def kvFresh : Kv := ⟨[], [], none, false⟩

/-! ## Prairie (R290 to R317) -/

/-- A map range that is held (R297): the Meadow it was first published to, the engines, as 2 · die + map (0 grid, 1 voxel
tree), whose current map it is, and the commands that recorded its epoch and have not ended. -/
structure HeldMap where
  die : Nat
  base : Nat
  len : Nat
  users : List Nat
  cmds : List CmdRef
  deriving DecidableEq, Repr

/-- A trajectory record on its way to a Heath (R311), with the command whose hand-off it is: its job's serial number and JOB_ID, its
ring set, its place and its run. -/
structure HandOff where
  heath : Nat
  lead : Nat
  data : List Byte
  job : Nat
  jobId : Nat
  ringSet : Nat
  cmd : CmdRef
  run : Nat
  deriving DecidableEq, Repr

/-- The scheduler core's Prairie epochs (R295), by 2 · die + map: EPOCH in [15:0] and VALID in [16]; the ranges held
under R297; the time at which an injection of an engine was armed (R314); and the trajectory records on their way to a
Heath (R311). -/
structure Prairie where
  epochs : Sparse Nat
  held : List HeldMap
  armedAt : Sparse Nat
  records : List HandOff
  deriving DecidableEq, Repr

/-- The Prairie epochs at reset. -/
def prairieFresh : Prairie := ⟨[], [], [], []⟩

end Sys2Proof.Machine
end

