-- ==== Sys2Proof/Machine/TypesFaults.lean ====
section
/-! DEFINITION. The plain data of the DRAM controllers (R318 to R346), of the fault collectors and of the fault record
(R453 to R459). -/

namespace Sys2Proof.Machine

/-- A line in a write queue (R329): its stack offset and the bytes of it that are queued. Memory holds their values, for
a queued write is performed (R330). -/
structure QWrite where
  off : Nat
  mask : Nat
  deriving DecidableEq, Repr

/-- A read that holds a tag (R329, R383): its INIT, its CLASS and TASK, its line as a stack offset, when it came, whether its tag
is one of those held for class 7, and how often a younger read was served before it (R377). -/
structure DramRead where
  init : Nat
  cls : Nat
  task : Nat
  off : Nat
  since : Nat
  fast : Bool
  passed : Nat
  deriving DecidableEq, Repr

/-- A migration (R342): its layer select, the pointers P_p and when it started (R382). -/
structure Migration where
  sid : Nat
  ptr : List Nat
  start : Nat
  deriving DecidableEq, Repr

/-- A DRAM controller beside its registers: the write queues in order of entry (R329); the running migration and the
retirements that wait for it (R341, R342); the refresh mode chosen for the next period (R334) and the refreshes of each
pseudo-channel since its tables were cleared (R335); the activate tables, by pseudo-channel, physical layer and bank, as
(row, count) entries (R335); the lanes found in error in each pseudo-channel's last corrected codewords, newest first
(R337); and the times of the corrected codewords of each layer select (R340). Then the reads that hold a tag, oldest first
(R329); the pseudo-channels refreshed in the current period (R333); when the temperatures were last read (R334); and when the
eye monitor last updated lane group g of pseudo-channel p, by 5 · p + g (R338). -/
structure Dram where
  queue : List QWrite
  migration : Option Migration
  waiting : List Nat
  hotNext : Bool
  refreshes : Sparse Nat
  tables : Sparse (List (Nat × Nat))
  corrected : Sparse (List Nat)
  ceTimes : List (Nat × Nat)
  reads : List DramRead
  refreshed : List Nat
  tempAt : Option Nat
  eyeAt : Sparse Nat
  deriving DecidableEq, Repr

/-- A controller at reset. -/
def dramFresh : Dram := ⟨[], none, [], false, [], [], [], [], [], [], none, []⟩

/-- A fault report (R454): the event and RSEQ. -/
structure Report where
  ev : Ev
  rseq : Nat
  deriving DecidableEq, Repr

/-- A die's fault collector (R453 to R455): the reports it has sent, the reports on their way to each Heath, oldest
first, those dropped since its last heartbeat, and the number of the 10 ms of that heartbeat plus 1. -/
structure Collector where
  rseq : Nat
  out : Sparse (List Report)
  dropped : Nat
  beat : Nat
  deriving DecidableEq, Repr

/-- A collector at reset. -/
def collectorFresh : Collector := ⟨0, [], 0, 0⟩

/-- An entry of the fault record (R458). -/
structure FrecEntry where
  type : Nat
  die : Nat
  unit : Nat
  seq : Nat
  value : Nat
  time : Nat
  deriving DecidableEq, Repr

/-- A Heath's copy of the fault record in its flash (R458): the half in use, its entries in order, and the entries still
to be written (R459). -/
structure FrecCopy where
  half : Nat
  entries : List FrecEntry
  todo : List FrecEntry
  deriving DecidableEq, Repr

/-- A blank copy. -/
def frecFresh : FrecCopy := ⟨0, [], []⟩

end Sys2Proof.Machine
end

