-- ==== Sys2Proof/Machine/TypesFlow.lean ====
section
/-! DEFINITION. The plain data of the flow regulator (R375 to R381). -/

namespace Sys2Proof.Machine

/-- The flow regulator beside its registers: the budgets in force in the current window, by (8 · die + point) · 8 + class
(R375); the levels of the real-time masters, by 4 · die + master (R380);
and the window, plus 1, in which a die last raised EVT_FLR_URGENT (R381) and EVT_FLR_C7_LATE (R385). -/
structure Flr where
  budgets : Sparse Nat
  levels : Sparse Nat
  urgentAt : Sparse Nat
  lateAt : Sparse Nat
  deriving DecidableEq, Repr

/-- R386: the budget that a class starts with. -/
def budgetFresh (k : Nat) : Nat := if k % 8 = 7 then 0x1000 else 0

/-- The flow regulator at reset. -/
def flrFresh : Flr := ⟨[], [], [], []⟩

end Sys2Proof.Machine
end

