-- ==== Sys2Proof/Machine/TypesHeath.lean ====
section
/-! DEFINITION. The plain data of the safety islands (R418 to R452, R498, R560): the parameter block is an operand, in Syntax. -/

namespace Sys2Proof.Machine

/-- A pose (R304): X, Y, HEAD, SPEED. -/
structure Pose where
  x : Int
  y : Int
  head : Nat
  speed : Nat
  deriving DecidableEq, Repr

/-- A trajectory record as a Heath reads it (R311), with the Meadow on whose link it arrived. -/
structure TrajRec where
  hseq : Nat
  job : Nat
  cand : Nat
  t0 : Nat
  gridTag : Nat
  channel : Nat
  ox : Int
  oy : Int
  poses : List Pose
  lead : Nat
  deriving DecidableEq, Repr

/-- An accepted trajectory, or a fallback (R423, R436): the record behind it with its poses, when it was accepted by the Heath's
clock, where the time base of its T0 began on that clock, and whether its age has been reported (R435). -/
structure Traj where
  rec_ : TrajRec
  at_ : Nat
  base : Nat
  stale : Bool
  deriving DecidableEq, Repr

/-- A verdict (R433, R434): the frame's JOB_ID, ACCEPT or VETO, and the cause of a veto. -/
structure VerdictMsg where
  job : Nat
  accept : Bool
  cause : Nat
  deriving DecidableEq, Repr

/-- A cross frame (R420): the sender's ROLE, SEQ and last slot, whether its Vale link is DOWN and since when (R439), whether
it reports the Vale hung (R455), its last verdict, and the accepted trajectory and fallback where it carries them. -/
structure CrossFrame where
  role : Nat
  seq : Nat
  slot : Nat
  valeDown : Option Nat
  valeHung : Option Nat
  verdict : Option VerdictMsg
  accepted : Option Traj
  fallback : Option Traj
  deriving DecidableEq, Repr

/-- A frame awaiting its outcome in a Heath (R429, R433): its JOB_ID, the records that have arrived, whether it is compared
under SPLIT and which channels it waits for, its start and the time of its first record, its own verdict with the time, and the
partner's. -/
structure FrameDec where
  job : Nat
  recs : List TrajRec
  split : Bool
  need : List Nat
  t0 : Nat
  own : Option VerdictMsg
  ownAt : Nat
  partner : Option VerdictMsg
  deriving DecidableEq, Repr

/-- R448: the defaults of the parameter block. -/
def paramsDefault : HeathParams :=
  { posTol := 150, spdTol := 51, objPosTol := 500, objSpdTol := 500, objBase1 := 0, objBase2 := 0, pairUs := 2000,
    verdictUs := 300, acceptMaxMs := 100, fbDecel := 3000, vmax := 40, amax := 6, alatmax := 4, clrThresh := 179,
    contTol := 500, objClear := 1000, urgT1 := 16384, urgT2 := 4096, queueAct := [], outMac := 0, outEtype := 0,
    vehCanId := 0, logCanId := 0, canNominal := 500, canData := 5 }

/-- A Heath beside its HT registers (R419 to R447). `up`: it has booted and is not silent. `before`: it has run since module
reset. `hold`: its held mode stays DRIVE (R423). `demote`: it returns to STANDBY at its next slot (R426). `heard`: when a valid
cross frame last arrived on the cross-link and on the via path. `veh`: the run of consecutive vehicle state frames, newest
first, as (time, STANDSTILL), with the last counter; `vehGood`: when the last good consecutive frame arrived (R43). `tested`: the
checks done in the current rotation of R441; `rotated`: a
full rotation has been completed since the last restart; `fwFails`: the firewalls whose test failed, with the time (R467).
`window`: the frames of WINDOW, newest first, as start times. `closed`: the records that frames decided without them still expected,
newest first, as 4 · JOB_ID + channel. `lone`: a channel lost both Meadows, and no frame since has had the records of both (R438).
`queueHold`: the queues whose action withholds (R439), with the time. `collection`: the fault collection, newest first, as
(time, report) (R456). `partnerRole`, `partnerVerdict`: what the partner's last frame said; `lastVerdict`: its own last
verdict. `midAt`: the slot whose mid-slot frame was sent. `upAt`: when it booted. `disagreed`: the withholding of R435.
`lastReport`: when a report of a die last arrived. `held`: the events held while the Vale link is down
(R452). `xlink` and `via`: the cross frames on their way to this Heath; `toVale`: those on their way to the Vale. `message`,
`log`: the last output message and log frame sent. -/
structure HeathSt where
  params : HeathParams
  up : Bool
  before : Bool
  hold : Bool
  demote : Bool
  readMode : Nat
  concept : Nat
  lastSlot : Nat
  heard : List (Option Nat)
  silentAt : Option Nat
  veh : List (Nat × Bool)
  vehGood : Option Nat
  vehCtr : Option Nat
  tested : List (Nat × Nat)
  rotated : Bool
  window : List Nat
  frames : List FrameDec
  closed : List Nat
  lone : Bool
  accepted : Option Traj
  fallback : Option Traj
  queueHold : List (Nat × Nat)
  partnerRole : Nat
  partnerVerdict : Option VerdictMsg
  lastVerdict : Option VerdictMsg
  midAt : Nat
  upAt : Nat
  disagreed : Bool
  fwFails : List (Nat × Nat)
  valeHungAt : Option Nat
  collection : List (Nat × Report)
  lastReport : Sparse Nat
  held : List Ev
  xlink : List CrossFrame
  via : List CrossFrame
  toVale : List CrossFrame
  message : List Byte
  logFrame : List Byte
  deriving DecidableEq, Repr

/-- A Heath at reset. -/
def heathFresh : HeathSt :=
  { params := paramsDefault, up := false, before := false, hold := false, demote := false, readMode := 0, concept := 0, lastSlot := 0,
    heard := [none, none], silentAt := none, veh := [], vehGood := none, vehCtr := none, tested := [], rotated := false, window := [],
    frames := [], closed := [], lone := false, accepted := none, fallback := none, queueHold := [], partnerRole := 0, partnerVerdict := none,
    lastVerdict := none, midAt := 0, upAt := 0, disagreed := false, fwFails := [], valeHungAt := none,
    collection := [], lastReport := [], held := [], xlink := [], via := [], toVale := [], message := [],
    logFrame := [] }

end Sys2Proof.Machine
end

