-- ==== Sys2Proof/Machine/TypesIqm.lean ====
section
/-! DEFINITION. The plain data of the ingress queue manager and of the time unit (R389 to R417). -/

namespace Sys2Proof.Machine

/-- An item (R400): its directory words (R404) without OFFSET, its cells in order, and whether it was overwritten while
taken (R407). -/
structure Item where
  flags : Nat
  seqw : Nat
  arrival : Nat
  src : Nat
  cells : List Nat
  lost : Bool
  deriving DecidableEq, Repr

/-- LEN of an item (R404). -/
def Item.len (i : Item) : Nat := i.flags / 2 ^ 32 % 2 ^ 20

/-- An item while it is written (R400): its bytes so far, its cells, the lines stored, the first line, its arrival, whether
it is marked LINE_ERR, and whether it was dropped for want of a cell (R401). -/
structure OpenItem where
  len : Nat
  cells : List Nat
  lines : Nat
  first : Nat
  arrival : Nat
  err : Bool
  dropped : Bool
  deriving DecidableEq, Repr

/-- An item on its way through an aperture (R410): words 0 to 3 of its header, the bytes still to come, and whether it is
discarded. -/
structure ApItem where
  hdr : List Nat
  left : Nat
  bad : Bool
  deriving DecidableEq, Repr

/-- The writer of a queue. Camera side: the open item, whether a frame is open, its number and start, its next line, whether
a line of it is in error, and its signature so far (R390, R391, R408). The detector: the signature and the nonzero number of
the last frames compared, and the repeated frames of the run (R409); when the last frame started and whether its absence was
reported (R409). Network side: the counter of the last stored frame (R396). Events: when EVT_IQM_LOST and EVT_IQM_E2E were
last raised and what the frames since have met (R401, R417). `goodAt`: when a frame without a flag last ended (R439). The
item in the aperture (R410). -/
structure Writer where
  item : Option OpenItem
  frameOpen : Bool
  frameNum : Nat
  frameAt : Nat
  line : Nat
  frameErr : Bool
  sig : Nat
  prevSig : Option Nat
  prevNum : Nat
  run : Nat
  startAt : Nat
  outage : Bool
  counter : Option Nat
  lostAt : Option Nat
  e2eAt : Option Nat
  e2eBits : Nat
  goodAt : Option Nat
  aperture : Option ApItem
  deriving DecidableEq, Repr

/-- A writer at reset or after a flush. -/
def writerFresh : Writer :=
  ⟨none, false, 0, 0, 0, false, 0xFFFFFFFF, none, 0, 0, 0, false, none, none, none, 0, none, none⟩

/-- A queue (R400 to R403): its complete items that are not taken, oldest first; the items of the held take in order;
the command that holds it; and its writer. -/
structure Queue where
  items : List Item
  take : List Item
  holder : Option CmdRef
  w : Writer
  deriving DecidableEq, Repr

/-- A queue at reset. -/
def queueFresh : Queue := ⟨[], [], none, writerFresh⟩

/-- A fault record of an overwritten item on its way to the scheduler core (R407): the command, its run and the status. -/
structure Overwritten where
  cmd : CmdRef
  run : Nat
  status : Nat
  deriving DecidableEq, Repr

/-- The cell pool (R398, R401): the lowest cell that was never used, the cells returned since, and the fault records on
their way (R407). -/
structure Iqm where
  next : Nat
  freed : List Nat
  records : List Overwritten
  deriving DecidableEq, Repr

/-- The pool at reset. -/
def iqmFresh : Iqm := ⟨0, [], []⟩

/-- The time unit beside its registers (R413, R414): the measured path delay; the neighbour rate ratio as a pair of
intervals, the partner's and the time base's; the partner's and the own time of the last path delay response; the last
Sync's arrival and interval; the Syncs in succession within ±500 ns; when HOLDOVER began; a two-step Sync that waits for its
Follow_Up, as (sequence, receive time); the Pdelay_Req sent and not answered, as (sequence, transmit time), with the next
sequence and the time of the last one; and the last answer to the partner's Pdelay_Req, as (sequence, receive time,
transmit time). -/
structure Ptp where
  delay : Option Int
  ratio : Nat × Nat
  lastResp : Option (Nat × Nat)
  syncAt : Nat
  interval : Nat
  good : Nat
  holdAt : Nat
  waiting : Option (Nat × Nat)
  request : Option (Nat × Nat)
  reqSeq : Nat
  reqAt : Option Nat
  answered : Option (Nat × Nat × Nat)
  deriving DecidableEq, Repr

/-- The time unit at reset. -/
def ptpFresh : Ptp := ⟨none, (1, 1), none, 0, 1000000000, 0, 0, none, none, 0, none, none⟩

end Sys2Proof.Machine
end

