-- ==== Sys2Proof/Machine/TypesLinks.lean ====
section
/-! DEFINITION. The plain data of the Fuora Die Link ports and of the dies' own reset (R347 to R366, R445, R459). -/

namespace Sys2Proof.Machine

/-- A message of a flit (R350): the two words of its header slot and the bytes of its data slots. -/
structure Msg where
  h0 : Nat
  h1 : Nat
  data : List Byte
  deriving DecidableEq, Repr

/-- A request that a die forwarded to a port and that is not answered yet (R363): its header, and the port of the same
die that it came from. -/
structure Forwarded where
  h0 : Nat
  h1 : Nat
  from_ : Nat
  deriving DecidableEq, Repr

/-- A port beside its registers. Sending: the last flit sent (R349), the next SEQ, the replay buffer as (SEQ, message) (R353), the
messages that wait for credit, each with the input it came by, a port of the die or 8 for the die itself (R372), the input of
each VC that sent last, whether the last flit carried a message of tier 6 (R381), the credits of VC0 to VC3, the replays of the
oldest flit in succession and when ACK last advanced, and the times at which FDL_RETRY rose in the last 1 ms (R354). Receiving:
the SEQ expected, whether a DATA flit has been accepted, the slots of VC0 to VC3 freed since the last flit sent (R349), whether a
NAK was sent for the present gap (R352), when a flit or training pattern last arrived (R363), the partner's URGENCY, and the
messages not served yet. Sideband: the payloads sent that have not arrived (R356). Negotiation: the parts of the partner's
record (R356), the exchanges so far, whether a record is agreed (R358). Training: whether training has passed and waits for the
restore (R355), when RETRAIN was entered, the modules disabled until module reset (R361), the requests outstanding to the
partner, and when the port last went DOWN. -/
structure Port where
  flit : List Byte
  txSeq : Nat
  sent : List (Nat × Msg)
  txq : List (Nat × Msg)
  turn : List Nat
  low : Bool
  credits : List Nat
  replays : Nat
  ackAt : Nat
  retryAt : List Nat
  rxSeq : Nat
  acked : Bool
  freed : List Nat
  gap : Bool
  heard : Nat
  urgency : Nat
  inbox : List Msg
  sideband : List Nat
  capParts : Sparse Nat
  exchanges : Nat
  agreed : Bool
  trained : Bool
  retrainAt : Nat
  modsOff : Nat
  outstanding : List Forwarded
  downAt : Nat
  deriving DecidableEq, Repr

/-- A port at reset. -/
def portFresh : Port :=
  { flit := [], txSeq := 0, sent := [], txq := [], turn := [8, 8, 8, 8], low := false, credits := [0, 0, 0, 0], replays := 0
    ackAt := 0, retryAt := [], rxSeq := 0, acked := false, freed := [0, 0, 0, 0], gap := false, heard := 0, urgency := 0
    inbox := [], sideband := [], capParts := [], exchanges := 0, agreed := false, trained := false, retrainAt := 0
    modsOff := 0, outstanding := [], downAt := 0 }

/-- A die's own reset (R355, R366, R445, R459): whether it is out of reset, whether its restore of R366 is finished, whether
its reset wire is asserted and until when, whether it is held in reset (R445), when it left reset, the entries of the
fault record in its restore registers as (index, entry), whether the last of them has arrived, whether it went on from
its factory state, when a warm restart of it was decided and is not carried out yet, the times of its warm restarts,
whether its stack kept its contents in self-refresh (R366), the engines that failed the self-test of its last start, the
Glen engine of lea l as l and the Prairie engine as 16 (R467), and the ports on which it sent a RESET_NOTIFY that has not arrived
(R363). -/
structure DieSt where
  out : Bool
  restored : Bool
  wire : Bool
  wireUntil : Nat
  heldDown : Bool
  outAt : Nat
  entries : List (Nat × List Byte)
  complete : Bool
  factory : Bool
  restartAt : Option Nat
  restarts : List Nat
  stackKept : Bool
  enginesOut : List Nat
  notified : List Nat
  deriving DecidableEq, Repr

/-- A die at module reset: in reset. -/
def dieFresh : DieSt := ⟨false, false, false, 0, false, 0, [], false, false, none, [], false, [], []⟩

end Sys2Proof.Machine
end

