-- ==== Sys2Proof/Machine/TypesModule.lean ====
section
/-! DEFINITION. The plain data of the firmware processors, boot, measurement and attestation (R479 to R509), of the inputs and
the die power controllers (R536 to R553), and of the host ports (R554 to R572). -/

namespace Sys2Proof.Machine

/-- A firmware processor (R479 to R501): its state, 0 in reset, 1 RUNNING, 2 RESTARTING, 3 held in reset (R501); the times
of its crashes within 60 s, newest first; when its restart began and its cause; whether its instruction memory holds an
uncorrectable error; and the slot that its component was last loaded from (R505), with the component's DIGEST. -/
structure Proc where
  st : Nat
  crashes : List Nat
  since : Nat
  cause : Nat
  reload : Bool
  slot : Nat
  digest : Nat
  deriving DecidableEq, Repr

/-- A processor at reset. -/
def procFresh : Proc := ⟨0, [], 0, 0, false, 0, 0⟩

/-- The fuses (R487, R494, R497, R506), beside those that SEC_STATUS, SEC_ARB and SEC_KEYS show: the hashes of the key
slots; the counter words left; the device secret; of each Heath the two key hashes, the anti-rollback counter and the
counter words left; and the link repairs made at assembly (R362), as die, port, module and lane. -/
structure Fuses where
  keyHash : List Nat
  words : Nat
  secret : Nat
  heathKeys : List (Option Nat)
  heathArb : List Nat
  heathWords : List Nat
  repairs : List (Nat × Nat × Nat × Nat)
  deriving DecidableEq, Repr

/-- The fuses of a module that nothing has been fused into. -/
def fusesFresh : Fuses := ⟨[0, 0, 0, 0], 256, 0, [none, none, none, none], [0, 0], [256, 256], []⟩

/-- An SPDM connection (R496): how far it has come, 0 no version, 1 version, 2 capabilities, 3 algorithms; the messages
that a signature covers (VCA, certificates, measurements); and the last response. -/
structure Spdm where
  step : Nat
  vca : List Byte
  certs : List Byte
  meas : List Byte
  out : List Byte
  deriving DecidableEq, Repr

/-- A connection at reset. -/
def spdmFresh : Spdm := ⟨0, [], [], [], []⟩

/-- The start of the module (R487, R488, R493, R498, R501 to R506): how far it has come, 0 in reset, 1 the ROM may run,
2 the security core may start, 3 started, 4 no slot booted; the DIGEST of the components by type with which their registers were last
extended, and their IFVER; the
measurement log; the slots that the ROM tried and rejected, with their results; whether M4 and M6 are extended; when the
security core started; whether the boot has settled; the Heath measurements entered, by Heath; the mailbox served last; the request
that takes several steps, as its mailbox and the statuses of the Heaths' parts; the next Heath of HEATH_ACTIVATE; whether the Vale's
collector has stopped its
heartbeats; and the SPDM connections, 0 of PCIe port A and 1 of the fabric. -/
structure Boot where
  phase : Nat
  digests : Sparse Nat
  ifvers : Sparse Nat
  log : List (List Byte)
  rejected : List (Nat × Nat)
  m4 : Bool
  m6 : Bool
  startAt : Nat
  loadedAt : Nat
  settled : Bool
  heathMeas : List (Option Nat)
  lastBox : Nat
  serving : Option (Nat × Nat × Nat)
  heathNext : Option Nat
  silent : Bool
  spdm : Sparse Spdm
  doe : List Byte
  deriving DecidableEq, Repr

/-- The start at reset. -/
def bootFresh : Boot :=
  { phase := 0, digests := [], ifvers := [], log := [], rejected := [], m4 := false, m6 := false, startAt := 0, loadedAt := 0,
    settled := false, heathMeas := [none, none], lastBox := 1, serving := none, heathNext := none, silent := false, spdm := [],
    doe := [] }

/-- The inputs and the power of the module (R536 to R549): whether the main and the auxiliary input are in range and since
when; whether an over-voltage is still to be reported, as a mask; whether RESET_N holds the module in reset (R558); the
module input power measured, newest first, as (time, mW) over 1 s; the Meadows' reports, by die, as (mW, point) (R541); the
budgets on their way, by die, as (mW, points); and since when the outlet has exceeded the inlet by more than 6 K, and whether the
condition of R549 is met. -/
structure Power where
  mainOk : Bool
  auxOk : Bool
  mainAt : Nat
  auxAt : Nat
  overReport : Nat
  resetLow : Bool
  samples : List (Nat × Nat)
  reports : Sparse (Nat × Nat)
  sent : Sparse (Nat × Nat)
  hotSince : Option Nat
  coolantBad : Bool
  coolantAt : Option Nat
  budgetAt : Option Nat
  deriving DecidableEq, Repr

/-- The inputs at reset: both in range, as PWR_STATUS shows them. -/
def powerFresh : Power := ⟨true, true, 0, 0, 0, false, [], [], [], none, false, none, none⟩

/-- The power controller of a die (R464, R465, R544 to R548), 0 to 3 a Meadow, 4 the Vale, 5 and 6 the Heaths: whether a
budget has been received since its reset; the power measured, newest first, as (time, mW) over 1 ms; the regulation cap as a
point, its last change, and since when the mean over 1 ms has been below 75 % of the budget; the thermal caps at 105 °C and 110 °C,
each with the time since when the die has been cool enough;
whether the die is tripped; whether its DRAM overheats (R548); the least slack of each second of the hour, newest first, with
its monitor; the ageing steps of the Vale and the Heaths, and when the last step of any die was taken, in powered time; and,
of a Meadow, the eighths of a cycle that the tile arithmetic domain (R22) had counted when the point was last set, and when that
was; when the temperatures were last read; and the regulation cap, its last change and `below` as they stood before the newest
evaluation. -/
structure DiePower where
  budgeted : Bool
  samples : List (Nat × Nat)
  regCap : Nat
  regAt : Nat
  below : Option Nat
  hot105 : Bool
  cool105 : Option Nat
  hot110 : Bool
  cool110 : Option Nat
  tripped : Bool
  dramHot : Bool
  slacks : List (Nat × Nat)
  measuredAt : Nat
  steps : Nat
  stepAt : Option Nat
  cycles : Nat
  cyclesAt : Nat
  readAt : Option Nat
  prior : Nat × Nat × Option Nat
  deriving DecidableEq, Repr

/-- A power controller at reset. -/
def diePowerFresh : DiePower :=
  ⟨false, [], 0, 0, none, false, none, false, none, false, false, [], 0, 0, none, 0, 0, none, (0, 0, none)⟩

/-- The host ports (R562 to R567): BAR0 and BAR2 of port A; the MSI-X table by dword, the pending bits, and when each vector last
sent a message, plus 1; what the vectors have to signal; MSI-X enabled and masked; the other configuration registers of port A
that software has written, by dword; the AER uncorrectable status; the completion of the last request, 0 successful, 1 Unsupported
Request, 4 Completer Abort, 8 successful with poisoned data, and its data; the last message sent, as address and data; the
completion of the last request that reached port B; the links of the Heaths' SGMII ports; and whether EVT_HOST_MISSING was
raised (R39). -/
structure HostPorts where
  bar0 : Nat
  bar2 : Nat
  msixTable : Sparse Nat
  msixPending : Nat
  msixSent : Sparse Nat
  msixDue : Nat
  msixEnable : Bool
  msixMask : Bool
  config : Sparse Nat
  aer : Nat
  completion : Nat
  readData : List Byte
  message : Option (Nat × Nat)
  completionB : Nat
  sgmii : List Bool
  missed : Bool
  deriving DecidableEq, Repr

/-- The host ports at reset. -/
def hostPortsFresh : HostPorts := ⟨0, 0, [], 0, [], 0, false, false, [], 0, 0, [], none, 0, [false, false], false⟩

/-- The debug port (R474, R475, R561): when the freeze began; by scan chain, the bits shifted since then; what was read out last;
the register access instrument's last answer; and when EFF_HOST last became 1. -/
structure Debug where
  frozenAt : Nat
  shifted : Sparse Nat
  out : List Byte
  answer : List Byte
  hostAt : Option Nat
  deriving DecidableEq, Repr

/-- The debug port at reset. -/
def debugFresh : Debug := ⟨0, [], [], [], none⟩

end Sys2Proof.Machine
end

