-- ==== Sys2Proof/Machine/State.lean ====
section
/-! DEFINITION. The state of the module, as plain data; the state after reset; and the reasons for which a step can
stop. -/

namespace Sys2Proof.Machine

/-- A post on its way to a counter (R140): the counter's address, KIND and value, the slot that made it and the command
it belongs to. -/
structure PostFlight where
  addr : Nat
  kind : Nat
  value : Nat
  slot : Nat
  cmd : CmdRef
  deriving DecidableEq, Repr

/-- One rule of a firewall table (R443). -/
structure FwRule where
  base : Nat
  limit : Nat
  initVal : Nat
  initMask : Nat
  domain : Nat
  any : Bool
  r : Bool
  w : Bool
  deriving DecidableEq, Repr

/-- The module. `pending` is the queue of commands that wait, first in first out; `free` is the model's own counter of
free values. `now` is the time base (R412) and `past` the time that passed while it stood or before it last began anew: a
Heath's own clock is their sum (R419). `frozen`: a freeze is in force (R471). `tbCopy`: what a die's copy of the time base
last showed (R412). -/
structure State where
  pending : List Instr
  now : Nat
  past : Nat
  frozen : Bool
  free : Nat
  regs : Sparse Word
  mem : List Host.Cell
  slots : Sparse ThreadSlot
  tiles : Sparse TileState
  leas : Sparse LeaState
  posts : List PostFlight
  sramFix : List Nat
  poison : List Nat
  spoilt : List Nat
  sched : Sched
  kv : Kv
  prairie : Prairie
  queues : Sparse Queue
  iqm : Iqm
  ptp : Ptp
  tbCopy : Sparse Nat
  fwRules : Sparse (List FwRule)
  fwLocked : Bool
  domain : Option Nat
  domains : List (Nat × Nat)
  sipKey : Nat
  scrubFix : Sparse Nat
  repairs : List (Nat × Nat)
  rowsUsed : Sparse Nat
  dram : Sparse Dram
  collectors : Sparse Collector
  frec : Sparse FrecCopy
  ports : Sparse Port
  dies : Sparse DieSt
  flr : Flr
  heaths : Sparse HeathSt
  flash : Sparse Byte
  fuses : Fuses
  procs : Sparse Proc
  boot : Boot
  power : Power
  diePower : Sparse DiePower
  host : HostPorts
  debugPort : Debug
  col : Col
  deriving DecidableEq, Repr

/-- The module right after reset: every register at the value of its register table (`regReset`), memory unlisted. -/
def State.reset : State :=
  { pending := []
    now := 0
    past := 0
    frozen := false
    free := 0
    regs := []
    mem := []
    slots := []
    tiles := []
    leas := []
    posts := []
    sramFix := []
    poison := []
    spoilt := []
    sched := schedFresh
    kv := kvFresh
    prairie := prairieFresh
    queues := []
    iqm := iqmFresh
    ptp := ptpFresh
    tbCopy := []
    fwRules := []
    fwLocked := false
    domain := none
    domains := []
    sipKey := 0
    scrubFix := []
    repairs := []
    rowsUsed := []
    dram := []
    collectors := []
    frec := []
    ports := []
    dies := []
    flr := flrFresh
    heaths := []
    flash := []
    fuses := fusesFresh
    procs := []
    boot := bootFresh
    power := powerFresh
    diePower := []
    host := hostPortsFresh
    debugPort := debugFresh
    col := colFresh }

/-- Why a step stops with a fault. No command of this module does: an error the spec describes is an effect on the
state. -/
inductive Fault where
  /-- Raised by no meaning; kept so that the type is not empty. Safe. -/
  | none
  deriving DecidableEq, Repr

/-- Why a step is refused. -/
inductive Refusal where
  /-- The command has no meaning yet; raised by its arm of `exec`. Safe. -/
  | notModelled (mnemonic : String)
  deriving DecidableEq, Repr

end Sys2Proof.Machine
end

