-- ==== Sys2Proof/Machine/Ops.lean ====
section
/-! DEFINITION. The named operations over registers, memory, events and commands that every meaning shares: reading and
writing a register and its fields, reading and writing memory bytes, where an address lies (R26 to R31, R573, R320,
R321), who may access it (R442, R443 and the fixed rules), and raising an event (R206, R207, R211). -/

namespace Sys2Proof.Machine

/-! ## Registers -/

/-- The value of the register at address `a`. -/
def State.reg (s : State) (a : Nat) : Nat := (readAt regReset s.regs a).toNat

/-- The register at `a` set to `v`. -/
def State.setReg (s : State) (a v : Nat) : State :=
  { s with regs := writeAt regReset s.regs a (BitVec.ofNat 64 v) }

/-- Bits `[hi:lo]` of the register at `a`. -/
def State.fld (s : State) (a hi lo : Nat) : Nat := bits (s.reg a) hi lo

/-- Bits `[hi:lo]` of the register at `a` set to `v`. -/
def State.setFld (s : State) (a hi lo v : Nat) : State := s.setReg a (setBits (s.reg a) hi lo v)

/-- The saturating counter in bits `[hi:lo]` of the register at `a`, raised by `n`. -/
def State.count (s : State) (a hi lo n : Nat) : State :=
  s.setFld a hi lo (satInc (hi + 1 - lo) (s.fld a hi lo) n)

/-- A 32-bit saturating counter raised by one. -/
def State.count32 (s : State) (a : Nat) : State := s.count a 31 0 1

/-- R419: the clock of the Heaths. It goes on while the time base stands, and across its new beginnings. -/
def State.clock (s : State) : Nat := s.past + s.now

/-- R41, R33: VAL_MODE.MODE. -/
def State.mode (s : State) : Nat := s.fld (aVal 0x10) 2 0

/-- R565: an MSI-X vector has something to signal. -/
def State.msixSignal (s : State) (v : Nat) : State :=
  { s with host := { s.host with msixDue := setBit s.host.msixDue v true } }

/-- R565: a field of VAL_MODE set; a change signals its vector. -/
def State.setModeFld (s : State) (hi lo v : Nat) : State :=
  let t := s.setFld (aVal 0x10) hi lo v
  if t.reg (aVal 0x10) = s.reg (aVal 0x10) then t else t.msixSignal 3

/-- R36: Meadow `d` is present. -/
def State.meadowUp (s : State) (d : Nat) : Bool := decide (d < 4) && bit (s.reg (aVal 0x20)) d

/-- R36: stack `d` is trained and reachable. -/
def State.stackUp (s : State) (d : Nat) : Bool := decide (d < 4) && bit (s.reg (aVal 0x20)) (8 + d)

/-- R218: SCH_STATUS.CORE reads RUNNING. -/
def State.schRunning (s : State) : Bool := decide (s.fld (aSch 0) 1 0 = 1)

/-- R471: while a freeze is in force no clock outside the Heaths runs, and what would happen does not. -/
def State.live (s t : State) : State := if s.frozen then s else t

/-! ## Free values -/

/-- The next free value for use `k`, and the state with its counter advanced. -/
def State.draw (s : State) (k : Nat) : Nat × State :=
  (Config.freeValue s.free k, { s with free := s.free + 1 })

/-! ## Where an address lies -/

/-- What an address of R26 belongs to. -/
inductive Place where
  | dram
  | pool (d l : Nat)
  | tile (d l t : Nat)
  | ingress
  | block (b : Block)
  | window (q : Nat)
  | aperture (q : Nat)
  | remote (m : Nat)
  deriving DecidableEq, Repr

/-- The place of an address with its mapped range (R573); none where it is unmapped (R27, R28). -/
def placeOf (a : Nat) : Option (Place × Nat × Nat) :=
  if a < 0x001000000000 then some (.dram, 0, 0x001000000000)
  else if a < 0x001040000000 then
    let d := (a - 0x001000000000) / 0x10000000
    let l := (a - 0x001000000000) % 0x10000000 / 0x1000000
    let o := a % 0x1000000
    if o < 0x400000 then some (.pool d l, a - o, 0x400000)
    else if 0x800000 ≤ o ∧ o < 0xC40000 then
      let t := (o - 0x800000) / 0x40000
      some (.tile d l t, a - o + 0x800000 + t * 0x40000, 0x40000)
    else none
  else if a < 0x001043000000 then some (.ingress, 0x001040000000, 0x3000000)
  else if a < 0x002000000000 then none
  else if 0x002004000000 ≤ a ∧ a < 0x002004100000 then
    let q := (a - 0x002004000000) / 0x1000
    some (.aperture q, 0x002004000000 + q * 0x1000, 0x1000)
  else if 0x002008000000 ≤ a ∧ a < 0x002010000000 then
    let q := (a - 0x002008000000) / 0x80000
    some (.window q, 0x002008000000 + q * 0x80000, 0x80000)
  else if a < 0x002070000000 then
    match blockAt a with
    | some b => some (.block b, blockBase b, 0x10000)
    | none => none
  else if 0x400000000000 ≤ a ∧ a < 0x800000000000 then
    let m := (a - 0x400000000000) / 0x400000000
    some (.remote m, 0x400000000000 + m * 0x400000000, 0x400000000)
  else none

/-- The place is in a register range of R26. -/
def Place.isReg : Place → Bool
  | .block _ | .window _ | .aperture _ => true
  | _ => false

/-- R573: the `n` bytes at `a` lie in the mapped range that holds `a`. -/
def inRange (a n : Nat) : Bool :=
  match placeOf a with
  | some (_, b, len) => inside a n b len
  | none => false

/-- The base of a lea pool (R28). -/
def poolBase (d l : Nat) : Nat := 0x001000000000 + d * 0x10000000 + l * 0x1000000
/-- The base of a tile's SRAM window (R28). -/
def tileBase (d l t : Nat) : Nat := poolBase d l + 0x800000 + t * 0x40000
/-- The base of an ingress queue's read window (R404). -/
def windowBase (q : Nat) : Nat := 0x002008000000 + q * 0x80000

/-- R320: the code of region `r`, from the region table that every controller holds alike. -/
def State.regionCode (s : State) (r : Nat) : Nat :=
  bits (s.reg (aDmc 0 (0x80 + 8 * (r / 16)))) (4 * (r % 16) + 3) (4 * (r % 16))

/-- R321: the share of regions below `r` in stack `st`. -/
def State.stackShare (s : State) (st : Nat) : Nat → Nat
  | 0 => 0
  | r + 1 => s.stackShare st r +
      (if s.regionCode r = st then 0x40000000 else if s.regionCode r = 8 then 0x10000000 else 0)

/-- R321: the stack of a DRAM address and its stack offset. -/
def State.stackOf (s : State) (a : Nat) : Nat × Nat :=
  let r := a / 0x40000000
  let x := a % 0x40000000
  let c := s.regionCode r
  if c < 4 then (c, s.stackShare c r + x)
  else
    let j := x / 0x1000
    (j % 4, s.stackShare (j % 4) r + j / 4 * 0x1000 + x % 0x1000)

/-- The 64-byte lines that `n` bytes at `a` touch. -/
def linesOf (a n : Nat) : List Nat :=
  if n = 0 then [] else (List.range ((a + n - 1) / 64 - a / 64 + 1)).map fun i => (a / 64 + i) * 64

/-! ## Memory -/

/-- What a byte that nothing has written reads as. -/
def memDefault (_ : Nat) : Byte := 0

/-- R533: the module's own address on the fabric, none while it holds none. -/
def State.ownAddr (s : State) : Option Nat := if bit (s.reg (aCol 0)) 12 then some (s.fld (aCol 0) 11 0) else none

/-- R31: the offset in the export region that an address of the module's own remote window reaches. -/
def State.ownWindow (s : State) (a : Nat) : Option Nat :=
  if 0x400000000000 ≤ a ∧ a < 0x800000000000 ∧ s.ownAddr = some ((a - 0x400000000000) / 0x400000000) then
    some ((a - 0x400000000000) % 0x400000000)
  else none

/-- R31, R527: an address of the module's own remote window stands for its export region. -/
def State.real (s : State) (a : Nat) : Nat :=
  match s.ownWindow a with
  | some o => bits (s.reg (aCol 0x20)) 47 0 + o
  | none => a

/-- One byte of DRAM, pool, tile SRAM or ingress pool; a byte of another module is what its response brought (R516), or what
that module would answer. -/
def State.byte (s : State) (a : Nat) : Byte :=
  let a := s.real a
  if 0x400000000000 ≤ a then (readAt (fun _ => none) s.col.got a).getD (Config.remoteByte s.free a)
  else readAt memDefault s.mem a

/-- `n` bytes from `a`. -/
def State.bytes (s : State) (a n : Nat) : List Byte := (List.range n).map fun i => s.byte (a + i)

/-- Memory with the bytes `bs` at `a`. -/
def memPut : List Host.Cell → Nat → List Byte → List Host.Cell
  | m, _, [] => m
  | m, a, b :: t => memPut (writeAt memDefault m a b) (a + 1) t

/-- The bytes `bs` written at `a`; what is written to another module leaves this one. -/
def State.putBytes (s : State) (a : Nat) (bs : List Byte) : State :=
  if 0x400000000000 ≤ a then s else { s with mem := memPut s.mem a bs }

/-- A little-endian number of `n` bytes at `a` (R6). -/
def State.num (s : State) (a n : Nat) : Nat := leNat (s.bytes a n)

/-- `n` little-endian 64-bit words at `a`. -/
def State.words (s : State) (a n : Nat) : List Nat := (List.range n).map fun i => s.num (a + 8 * i) 8

/-- The bytes of 64-bit words (R6). -/
def wordBytes (ws : List Nat) : List Byte := ws.flatMap (leBytes 8)

/-- Word `i` of a list of words, 0 beyond its end. -/
def word (ws : List Nat) (i : Nat) : Nat := ws.getD i 0

/-- The line at `a` is poisoned (R95, R339). -/
def State.poisoned (s : State) (a : Nat) : Bool := s.poison.contains (a / 64 * 64)

/-- R337: the line at `a` lies in a failed pseudo-channel (R322) of its stack. -/
def State.pcFailed (s : State) (a : Nat) : Bool :=
  decide (a < 0x001000000000) && (List.range 4).any (fun d => decide (s.reg (aDmc d 0x0C) ≠ 0)) &&
    let so := s.stackOf a
    bit (s.reg (aDmc so.1 0x0C)) (bits so.2 10 6)

/-- A line poisoned. -/
def State.addPoison (s : State) (a : Nat) : State :=
  if s.poisoned a then s else { s with poison := a / 64 * 64 :: s.poison }

/-- R93, R95, R337, R339: a write of the part `bs` at `a`, which lies in one line. A whole aligned line clears poison;
another write to a poisoned line, and any write to a failed pseudo-channel, is discarded. -/
def State.putLine (s : State) (a : Nat) (bs : List Byte) : State :=
  if s.pcFailed a then s
  else if bs.length = 64 then
    { s.putBytes a bs with poison := s.poison.erase (a / 64 * 64), spoilt := s.spoilt.erase (a / 64 * 64) }
  else if s.poisoned a then s
  else s.putBytes a bs

/-- A write of `bs` at `a`, line by line; `fuel` bounds the lines. -/
def State.putLines : Nat → State → Nat → List Byte → State
  | 0, s, _, _ => s
  | f + 1, s, a, bs =>
    if bs.isEmpty then s
    else
      let n := 64 - a % 64
      (s.putLine a (bs.take n)).putLines f (a + n) (bs.drop n)

/-! ## Links and ways (R19, R348, R355) -/

/-- R348: the ring neighbours of Meadow `d`, the lower index first. M0, M1, M3, M2 stand round the ring. -/
def ringNeighbours (d : Nat) : Nat × Nat := if d = 0 ∨ d = 3 then (1, 2) else (0, 3)

/-- R348: the die that a port faces. -/
def facing (die p : Nat) : Nat :=
  if die < 4 then
    match p with
    | 0 => (ringNeighbours die).1
    | 1 => (ringNeighbours die).2
    | 2 => 4
    | 3 => 5
    | _ => 6
  else if die = 4 then (if p < 4 then p else p + 1)
  else p

/-- R348: the port of `die` that faces the die `other`, none where no link joins them. -/
def portTo (die other : Nat) : Option Nat :=
  (List.range (if die = 4 then 6 else 5)).find? fun p => decide (facing die p = other)

/-- R368: STATE of a port. -/
def State.linkState (s : State) (die p : Nat) : Nat := s.fld (aFdl die p 0) 2 0
/-- R368: STATE set. -/
def State.setLink (s : State) (die p v : Nat) : State := s.setFld (aFdl die p 0) 2 0 v

/-- R355: STANDBY or ACTIVE: flits are carried. -/
def State.linkUp (s : State) (die p : Nat) : Bool := decide (s.linkState die p = 3) || decide (s.linkState die p = 4)

/-- R355, R363: the port carries requests: it is ACTIVE, or in RETRAIN, where they wait. -/
def State.linkCarries (s : State) (die p : Nat) : Bool := decide (s.linkState die p = 4) || decide (s.linkState die p = 5)

/-- R19, R348: the Meadow after `d` round the ring, one way or the other. -/
def ringNext (up : Bool) (d : Nat) : Nat :=
  match d with
  | 0 => if up then 1 else 2
  | 1 => if up then 3 else 0
  | 3 => if up then 2 else 1
  | _ => if up then 0 else 3

/-- R19: the Meadows from `d` on to `dest` round the ring, one way. -/
def ringPath (up : Bool) (dest : Nat) : Nat → Nat → List Nat
  | 0, _ => []
  | n + 1, d => if d = dest then [] else ringNext up d :: ringPath up dest n (ringNext up d)

/-- R19: M0, M3 and M2 send the one way round where both ways are as long: M0 and M3 through M1, M1 and M2 through M0. -/
def ringFirst (d dest : Nat) : Bool :=
  let a := (ringPath true dest 4 d).length
  let b := (ringPath false dest 4 d).length
  if a = b then (d = 0 || d = 2) else decide (a < b)

/-- The ports by which a message from `die` passes the dies of a path. -/
def portsOn : Nat → List Nat → List (Nat × Nat)
  | _, [] => []
  | die, d :: t => (die, (portTo die d).getD 0) :: portsOn d t

/-- R19, R363: the ports, each with its die, by which a message from `die` reaches the die `dest`: its link, or, between Meadows, the
way round the ring or the other way round; none where no way stands. -/
def State.hops (s : State) (die dest : Nat) : Option (List (Nat × Nat)) :=
  let ways := if die < 4 ∧ dest < 4 then [ringPath (ringFirst die dest) dest 4 die, ringPath (!ringFirst die dest) dest 4 die]
    else if die = dest then [[]] else [[dest]]
  (ways.map fun w => (w, portsOn die w)).findSome? fun w =>
    if w.2.all (fun h => s.linkCarries h.1 h.2) && w.1.dropLast.all s.meadowUp then some w.2 else none

/-- R19: the port by which a message at `die` for the die `dest` leaves it. -/
def State.nextPort (s : State) (die dest : Nat) : Option Nat := ((s.hops die dest).bind List.head?).map (·.2)

/-- R366: a Meadow is rejoining: the Vale's link to it is ACTIVE, no link of it has gone down again, and it is not present yet. -/
def State.rejoining (s : State) : Bool :=
  (List.range 4).any fun d => decide (s.linkState 4 d = 4) && !s.meadowUp d && (List.range 5).all fun p => s.linkUp d p

/-- The Meadow of a register block. -/
def Block.meadow : Block → Option Nat
  | .mdw d | .pra d | .dmc d | .fdl d | .flr d | .pwrDie d | .lea d _ | .gln d _ | .til d _ _ => some d
  | _ => none

/-- R29, R323: the target of an address is behind a present die (and, for DRAM, its stack is reachable). -/
def State.targetUp (s : State) (a : Nat) : Bool :=
  match placeOf a with
  | some (.dram, _, _) => let st := (s.stackOf a).1; s.meadowUp st && s.stackUp st
  | some (.pool d _, _, _) | some (.tile d _ _, _, _) => s.meadowUp d
  | some (.block (.ht h), _, _) | some (.block (.fdlHeath h), _, _) => bit (s.reg (aVal 0x20)) (5 + h)
  | some (.block b, _, _) => (b.meadow.map s.meadowUp).getD true
  | _ => true

/-- The device's own write of bytes: line by line, a line whose target is absent being dropped (R169, R323). -/
def State.store (s : State) (a : Nat) (bs : List Byte) : State :=
  let a := s.real a
  if (linesOf a bs.length).all s.targetUp then s.putLines (bs.length / 64 + 2) a bs else s

/-- The bytes that `gone` picks read as nothing has written them, without poison or corrections. -/
def State.clearMem (s : State) (gone : Nat → Bool) : State :=
  { s with
    mem := s.mem.filter fun c => !gone c.1
    poison := s.poison.filter fun a => !gone a
    spoilt := s.spoilt.filter fun a => !gone a
    sramFix := s.sramFix.filter fun a => !gone a
    scrubFix := s.scrubFix.filter fun e => !gone e.1 }

/-- R364: Meadow `d` sees its Vale port DOWN: it starts no tile-share and no engine step. -/
def State.valeGone (s : State) (d : Nat) : Bool := decide (s.fld (aFdl d 2 0) 2 0 = 6)

/-! ## Keys -/

/-- The key of a lea. -/
def leaKey (d l : Nat) : Nat := d * 16 + l
/-- The key of a physical tile. -/
def tileKey (d l t : Nat) : Nat := leaKey d l * 17 + t
/-- The key of a thread slot. -/
def slotKey (d l t k : Nat) : Nat := tileKey d l t * 8 + k

/-- The die of a slot key. -/
def slotDie (k : Nat) : Nat := k / (8 * 17 * 16)

/-- The key of a slot a command names. -/
def tkey (t : SlotId) : Nat := slotKey t.die t.lea t.tile t.slot

/-- The key of a tile a command names. -/
def tileIdKey (t : TileId) : Nat := tileKey t.die t.lea t.tile

/-- A thread slot. -/
def State.slot (s : State) (k : Nat) : ThreadSlot := readAt (fun _ => slotFree) s.slots k
/-- A thread slot replaced. -/
def State.setSlot (s : State) (k : Nat) (th : ThreadSlot) : State :=
  { s with slots := writeAt (fun _ => slotFree) s.slots k th }
/-- A tile. -/
def State.tile (s : State) (k : Nat) : TileState := readAt (fun _ => tileFresh) s.tiles k
/-- A tile replaced. -/
def State.setTile (s : State) (k : Nat) (t : TileState) : State :=
  { s with tiles := writeAt (fun _ => tileFresh) s.tiles k t }
/-- A lea. -/
def State.lea (s : State) (k : Nat) : LeaState := readAt (fun _ => leaFresh) s.leas k
/-- A lea replaced. -/
def State.setLea (s : State) (k : Nat) (l : LeaState) : State :=
  { s with leas := writeAt (fun _ => leaFresh) s.leas k l }

/-! ## Tile cycles -/

/-- The power controller of a die. -/
def State.diePw (s : State) (die : Nat) : DiePower := readAt (fun _ => diePowerFresh) s.diePower die
/-- The power controller of a die replaced. -/
def State.setDiePw (s : State) (die : Nat) (p : DiePower) : State :=
  { s with diePower := writeAt (fun _ => diePowerFresh) s.diePower die p }

/-- R22, R107: tile cycles in 8 ns at an operating point: 1.25, 1.0 or 0.625 GHz. -/
def tileRate (point : Nat) : Nat := if point = 0 then 10 else if point = 1 then 8 else 5

/-- R22: the eighths of a cycle that the tile arithmetic domain of Meadow `d` has counted. -/
def State.tileEighths (s : State) (d : Nat) : Nat :=
  (s.diePw d).cycles + (s.now - (s.diePw d).cyclesAt) * tileRate (s.fld (aMdw d 0x10) 1 0)

/-- R22, R133, R143: the current cycle of the tile arithmetic domain of Meadow `d`. -/
def State.tileCycle (s : State) (d : Nat) : Nat := s.tileEighths d / 8

/-! ## Jobs and commands -/

/-- R153: the running job, or the one being suspended. -/
def State.curJob (s : State) : Option Job :=
  s.sched.jobs.find? fun j => decide (j.phase = .running) || decide (j.phase = .suspending)

/-- The command record of a reference in the running job. -/
def State.cmd (s : State) (r : CmdRef) : Option Cmd :=
  match s.curJob with
  | some j => j.cmds.find? fun c => decide (c.ref = r)
  | none => none

/-- The number of the current run of a command of the running job. -/
def State.runOf (s : State) (r : CmdRef) : Nat :=
  match s.cmd r with
  | some c => c.serial
  | none => 0

/-- The jobs with job `serial` replaced by `f` of it. -/
def State.updJob (s : State) (serial : Nat) (f : Job → Job) : State :=
  { s with sched := { s.sched with jobs := s.sched.jobs.map fun j => if j.serial = serial then f j else j } }

/-- Command `r` of the running job replaced by `f` of it. -/
def State.updCmd (s : State) (r : CmdRef) (f : Cmd → Cmd) : State :=
  match s.curJob with
  | some j => s.updJob j.serial fun j => { j with cmds := j.cmds.map fun c => if c.ref = r then f c else c }
  | none => s

/-- R158, R163, R168: the command is in flight. -/
def Cmd.inFlight (c : Cmd) : Bool := decide (c.phase = .running) || decide (c.phase = .killing)

/-- The commands in flight. -/
def State.inFlight (s : State) : List Cmd :=
  match s.curJob with
  | some j => j.cmds.filter Cmd.inFlight
  | none => []

/-- R155: KIND of a command. -/
def Cmd.kind (c : Cmd) : Nat := bits (word c.words 0) 3 0
/-- R155: TASK of a command. -/
def Cmd.task (c : Cmd) : Nat := bits (word c.words 0) 19 8
/-- R155: ARITH_CTL of a command. -/
def Cmd.arith (c : Cmd) : ArithCtl := arithCtl (bits (word c.words 2) 31 0)
/-- R155: the commit log of a command: base and bytes. -/
def Cmd.logRange (c : Cmd) : Nat × Nat := (bits (word c.words 5) 47 0, 16 * bits (word c.words 5) 63 48)
/-- R151: JOB_ID of a job. -/
def Job.id (j : Job) : Nat := bits (word j.words 0) 15 0
/-- R151: PRIO of a job. -/
def Job.prio (j : Job) : Nat := bits (word j.words 0) 18 16
/-- R151: KIND of a job. -/
def Job.kind (j : Job) : Nat := bits (word j.words 0) 21 20

/-- R166, R168: every tile-share and engine step of a command has its end recorded: its commit point is due, and no fault or kill
recorded later decides its end. -/
def Cmd.due (c : Cmd) : Bool :=
  decide (c.phase = .running) && decide (c.ref.list ≠ 2) && c.shares.all (fun h => decide (h.state = 3))
    && c.engines.all fun e => decide (e.state = 3)

/-- R166: a command of the running job is at its commit point, or past it with its last effects under way. -/
def State.commitsWait (s : State) : Bool :=
  s.curJob.any fun j => j.cmds.any fun c => c.due || decide (c.phase = .committing)

/-- R164, R176: bytes that are undefined. -/
def undefinedBytes (k n : Nat) : List Byte := (List.range n).map fun i => BitVec.ofNat 8 (Config.freeValue k i)

/-- R164: the contents of a run's output buffers are undefined. -/
def State.spoil (s : State) (outs : List (Nat × Nat)) : State :=
  outs.foldl (fun s o => { s.putBytes o.1 (undefinedBytes s.free o.2) with free := s.free + 1 }) s

/-! ## Ingress queues (R400 to R405) -/

/-- An ingress queue. -/
def State.queue (s : State) (q : Nat) : Queue := readAt (fun _ => queueFresh) s.queues q
/-- An ingress queue replaced. -/
def State.setQueue (s : State) (q : Nat) (x : Queue) : State :=
  { s with queues := writeAt (fun _ => queueFresh) s.queues q x }

/-- R404: the window offsets at which the items of a take start, and the end of the last. -/
def takeStarts : Nat → List Item → List Nat × Nat
  | o, [] => ([], o)
  | o, i :: t => let (l, e) := takeStarts (o + roundUp i.len 64) t; (o :: l, e)

/-- R404: the end of a take's data in its window. -/
def takeEnd (l : List Item) : Nat := (takeStarts 0x2000 l).2

/-- R404: the words of a directory entry. -/
def dirWords (off : Nat) (i : Item) : List Nat := [off + i.flags, i.seqw, i.arrival, i.src]

/-- R404, R405: the byte at offset `o` of a queue's window: the directory, then the data through the cell links. Bytes
beyond an item's LEN, and every byte of a lost item (R407), are zero. -/
def State.windowByte (s : State) (q o : Nat) : Byte :=
  let k := (s.queue q).take
  let st := (takeStarts 0x2000 k).1
  if o < 0x2000 then
    match k[o / 32]? with
    | some i => (wordBytes (dirWords (st.getD (o / 32) 0) i)).getD (o % 32) 0
    | none => 0
  else
    ((List.range k.length).foldl (fun (r : Byte) n =>
      match k[n]? with
      | some i =>
        let b := st.getD n 0
        if b ≤ o ∧ o < b + i.len ∧ ¬ i.lost then
          s.byte (0x001040000000 + i.cells.getD ((o - b) / 256) 0 * 256 + (o - b) % 256)
        else r
      | none => r) 0)

/-- R405: the cell that a window address of a queue reaches. -/
def State.windowCell (s : State) (q a : Nat) : Nat :=
  let k := (s.queue q).take
  let o := a - windowBase q
  let st := (takeStarts 0x2000 k).1
  (List.range k.length).foldl (fun r n =>
    match k[n]? with
    | some i => let b := st.getD n 0; if b ≤ o ∧ o < b + roundUp i.len 64 then i.cells.getD ((o - b) / 256) 0 else r
    | none => r) 0

/-! ## Who may access what -/

/-- Every address from `a` up to `e` lies in one of the ranges, given as (address, bytes); `f` bounds the ranges on the way. -/
def coversTo (rs : List (Nat × Nat)) : Nat → Nat → Nat → Bool
  | 0, a, e => decide (e ≤ a)
  | f + 1, a, e => decide (e ≤ a) || match rs.find? fun r => decide (r.1 ≤ a) && decide (a < r.1 + r.2) with
    | some r => coversTo rs f (r.1 + r.2) e
    | none => false

/-- Each of the `n` bytes at `a` lies in one of the ranges. -/
def covers (rs : List (Nat × Nat)) (a n : Nat) : Bool := coversTo rs rs.length a (a + n)

/-- The issuer of an access: its INIT (R442), the command it serves, whether it is a thread (R135), and whether it is
matched as between jobs (R574). -/
structure Who where
  init : Nat
  cmd : Option CmdRef
  thread : Bool
  between : Bool
  deriving DecidableEq, Repr

/-- R442: the scheduler core. -/
def initSch : Nat := 0x402
/-- R442: the security core. -/
def initSec : Nat := 0x400
/-- R442: the ingress queue manager. -/
def initIqm : Nat := 0x404
/-- R442: the KV manager. -/
def initKv : Nat := 0x403
/-- R442: PCIe port A inbound. -/
def initPcieA : Nat := 0x405
/-- R442: the Col ports and the fabric management channel. -/
def initCol : Nat := 0x407
/-- R442: a Heath. -/
def initHeath (h : Nat) : Nat := (5 + h) * 256
/-- R442: the control core of a lea. -/
def initLeaCore (d l : Nat) : Nat := d * 256 + 0x20 + l
/-- R442: the threads of a lea. -/
def initThreads (d l : Nat) : Nat := d * 256 + l
/-- R442: the Glen engine of a lea. -/
def initGlen (d l : Nat) : Nat := d * 256 + 0x10 + l
/-- R442: the Prairie engine of a Meadow. -/
def initPrairie (d : Nat) : Nat := d * 256 + 0x30
/-- R442: the collective unit of a Meadow. -/
def initColl (d : Nat) : Nat := d * 256 + 0x31
/-- R442: INIT is one of the Heaths. -/
def isHeath (i : Nat) : Bool := decide (i / 256 = 5) || decide (i / 256 = 6)

/-- Who the scheduler core is when it reads a command's tables (R574). -/
def whoSch (r : CmdRef) : Who := ⟨initSch, some r, false, false⟩

/-- R443: some rule admits the line at `a`. -/
def State.fwAdmits (s : State) (key : Nat) (who : Who) (wr : Bool) (a : Nat) : Bool :=
  (readAt (fun _ => []) s.fwRules key).any fun r =>
    decide (r.base ≤ a) && decide (a ≤ r.limit) && decide (who.init &&& r.initMask = r.initVal &&& r.initMask)
      && (r.any || (!who.between && decide (s.domain = some r.domain))) && (if wr then r.w else r.r)

/-- The key of a stack's firewall table. -/
def fwDram (d : Nat) : Nat := d
/-- The key of a pool's firewall table. -/
def fwPool (d l : Nat) : Nat := 16 + leaKey d l
/-- The key of a Heath's start-time rules (R30). -/
def fwHeath (h : Nat) : Nat := 128 + h

/-- R193: the bytes belong to a copy of the descriptor table. -/
def State.inCtxTables (s : State) (a n : Nat) : Bool :=
  let p := bits (s.reg (aSch 0x10)) 47 0
  let m := bits (s.reg (aSch 0x18)) 47 0
  (decide (p ≠ m) || decide (p ≠ 0)) && (overlaps a n p 0x100000 || overlaps a n m 0x100000)

/-- R249: the bytes belong to the page store's frames. -/
def State.inFrames (s : State) (a n : Nat) : Bool :=
  overlaps a n (bits (s.reg (aSch 0x800)) 47 0) (s.reg (aSch 0x808) * 0x4000)

/-- R249: the bytes belong to a device-held structure of the page store. -/
def State.inKvTables (s : State) (a n : Nat) : Bool :=
  let f := s.reg (aSch 0x808)
  decide (f ≠ 0) && (overlaps a n (bits (s.reg (aSch 0x820)) 47 0) (2 * f)
    || overlaps a n (bits (s.reg (aSch 0x828)) 47 0) (4 * f)
    || overlaps a n (bits (s.reg (aSch 0x830)) 47 0) 0x1000000
    || overlaps a n (bits (s.reg (aSch 0x838)) 47 0) (64 * s.reg (aSch 0x840)))

/-- R193, R249: the fixed rules of DRAM allow the access. -/
def State.dramFixed (s : State) (who : Who) (wr : Bool) (a n : Nat) : Bool :=
  let sys := decide (who.init = initSch) || decide (who.init = initSec)
  let glen := decide (who.init / 256 < 4) && decide (0x10 ≤ who.init % 256) && decide (who.init % 256 < 0x20)
  (!s.inCtxTables a n || sys) &&
  (!s.inFrames a n || (if wr then decide (who.init = initKv) else glen || sys)) &&
  (!s.inKvTables a n || (if wr then decide (who.init = initKv) else sys))

/-- R163, R165: the bytes are locked against `who`: an output buffer or the log of a command in flight. -/
def State.locked (s : State) (who : Who) (wr : Bool) (a n : Nat) : Bool :=
  !(wr && decide (who.init = initSch)) &&
  s.inFlight.any fun c =>
    (decide (who.cmd ≠ some c.ref) && c.outs.any fun o => overlaps a n o.1 o.2)
      || overlaps a n c.logRange.1 c.logRange.2

/-- R297: the bytes belong to a held map range. -/
def State.inHeld (s : State) (a n : Nat) : Bool := s.prairie.held.any fun h => overlaps a n h.base h.len

/-- R180: a write of the bytes would touch a range that some job has pinned and the writer's chosen map does not pin. -/
def State.pinBars (s : State) (who : Who) (a n : Nat) : Bool :=
  s.sched.jobs.any fun j => j.pinned.any fun p =>
    let b := poolBase p.2.die p.2.lea + p.2.off
    overlaps a n b p.2.len &&
      !(match who.cmd.bind s.cmd with
        | some c => c.inFlight && covers (c.pins.map fun q => (poolBase q.die q.lea + q.off, q.len))
          (max a b) (min (a + n) (b + p.2.len) - max a b)
        | none => false)

/-- R214: the bytes belong to a golden scratch, and the writer is a command that runs no golden test. -/
def State.goldenBars (s : State) (who : Who) (a n : Nat) : Bool :=
  bit (s.reg (aSch 0x20)) 0 && who.cmd.any (fun r => decide (r.list ≠ 2)) &&
    match placeOf a with
    | some (.pool _ _, b, _) => overlaps a n (b + 0x3F0000) 0x10000
    | _ => false

/-- R135, R157: the bytes lie in output buffers the command declares writable. -/
def State.inOwnOuts (s : State) (who : Who) (a n : Nat) : Bool :=
  match who.cmd with
  | none => false
  | some r => match s.cmd r with
    | some c => covers c.outs a n
    | none => false

/-- R135: the tile holds a tile-share of the command. -/
def State.holdsShare (s : State) (who : Who) (d l t : Nat) : Bool :=
  match who.cmd with
  | none => false
  | some r => match s.cmd r with
    | some c => c.shares.any fun h => decide (h.die = d) && decide (h.lea = l) && decide (h.tile = t)
    | none => false

/-- R97, R136: a running command has a tile-share bound to the tile that has not ended. -/
def State.tileBound (s : State) (d l t : Nat) : Bool :=
  s.inFlight.any fun c => decide (c.phase = .running) && c.shares.any fun h =>
    decide (h.die = d) && decide (h.lea = l) && decide (h.tile = t) && decide (h.state < 2)

/-- R28: a physical tile that serves no logical tile and holds no tile-share: it is free or retired, none of its slots is busy,
and no tile-share is bound to it. -/
def State.spare (s : State) (d l t : Nat) : Bool :=
  decide (s.fld (aTil d l t 0) 2 0 ≠ 0) && decide (s.fld (aTil d l t 0) 15 8 = 0) && !s.tileBound d l t

/-- R405: the command holds a take on queue `q`. -/
def State.holdsTake (s : State) (who : Who) (q : Nat) : Bool :=
  who.thread && match who.cmd with
    | none => false
    | some r => match s.cmd r with
      | some c => c.takes.contains q
      | none => false

/-- R19, R442: the way from the initiator's die to the die `d` stands. A request from the fabric enters at the Vale. -/
def State.pathUp (s : State) (who : Who) (d : Nat) : Bool :=
  let f := who.init / 256
  (s.hops (if f < 7 then f else 4) d).isSome

/-- The die that serves an address: the home of a line of DRAM, pool or tile SRAM, or of a register block; the Vale for the rest of
what the module holds. -/
def State.homeOf (s : State) (a : Nat) : Option Nat :=
  match placeOf a with
  | some (.dram, _, _) => some (s.stackOf a).1
  | some (.pool d _, _, _) | some (.tile d _ _, _, _) => some d
  | some (.block (.ht h), _, _) | some (.block (.fdlHeath h), _, _) => some (5 + h)
  | some (.block b, _, _) => some (b.meadow.getD 4)
  | some _ => some 4
  | none => none

/-- R19, R363: the way from the initiator to each of the lines stands. -/
def State.pathsUp (s : State) (who : Who) (lines : List Nat) : Bool :=
  lines.all fun x => match s.homeOf x with
    | some d => s.pathUp who d
    | none => true

/-- R31, R533: module `m` is named by the current routing table. -/
def State.routed (s : State) (m : Nat) : Bool := decide (m < 4096) && decide (s.reg (aCol (0x1000 + 2 * m)) % 8 ≠ 7)

/-- R12, R27 to R31, R117, R122, R135, R163, R180, R193, R214, R249, R297, R323, R398, R404, R405, R410, R441, R443: the
status of an access to `n` bytes at `a`, before its data are read: 0x00 where it is admitted, else the lowest code that
applies. -/
def State.accessAt (s : State) (who : Who) (wr : Bool) (a n : Nat) : Nat :=
  match placeOf a with
  | none => 4
  | some (p, b, len) =>
    if !inside a n b len then 4
    else
      let lines := linesOf a n
      let deny := match p with
        | .dram =>
          (isHeath who.init && lines.any fun x => decide ((s.stackOf x).2 < 64)) || !s.dramFixed who wr a n || !lines.all (fun x => s.fwAdmits (fwDram (s.stackOf x).1) who wr x)
            || s.locked who wr a n || (wr && s.inHeld a n) || (wr && who.thread && !s.inOwnOuts who a n)
        | .pool d l =>
          (isHeath who.init && decide (a - b < 64)) || !lines.all (fun x => s.fwAdmits (fwPool d l) who wr x) || s.locked who wr a n
            || (wr && (s.inHeld a n || s.pinBars who a n || s.goldenBars who a n
              || (who.thread && !s.inOwnOuts who a n)))
        | .tile d l t =>
          (s.spare d l t && decide (who.init ≠ initLeaCore d l)) || (who.thread && !s.holdsShare who d l t)
        | .ingress => if wr then decide (who.init ≠ initIqm) else decide (who.init ≠ initSec)
        | .window q => wr || !(s.holdsTake who q || decide (who.init = initSec))
        | .aperture _ => true
        | .block (.ht h) => wr || !(decide (who.init = initHeath h) || s.fwAdmits (fwHeath h) who false a)
        | .block (.fdlHeath h) => wr || !(decide (who.init = initHeath h) || s.fwAdmits (fwHeath h) who false a)
        | .block _ => wr
        | .remote _ => wr && who.thread
      if deny then 4
      else if !lines.all s.targetUp || !s.pathsUp who lines then 8
      else match p with
        | .remote m => if s.routed m then 0 else 8
        | .window q =>
          if (s.queue q).holder.isNone then 4
          else if 0x2000 < a + n - b ∧ takeEnd (s.queue q).take < a + n - b then 2 else 0
        | _ => 0

/-! ## Requests to other modules (R516, R527) -/

/-- R150, R527: an access of a thread to another module is sent to it: it waits for the response. A shadow's writes are
answered at once (R526). -/
def State.remoteIssue (s : State) (slot a n : Nat) (wr : Bool) : State :=
  if a < 0x400000000000 ∨ n = 0 ∨ (s.ownWindow a).isSome ∨ (wr ∧ s.fld (aCol 0) 15 13 = 3) then s
  else
    let tag := ((List.range 1024).find? fun t => s.col.reqs.all fun q => decide (q.tag ≠ t)).getD 0
    let q : RemoteReq := ⟨tag, (a - 0x400000000000) / 0x400000000, wr, slot, a, n, (linesOf a n).length, s.now⟩
    { s with col := { s.col with reqs := s.col.reqs ++ [q], got := s.col.got.filter fun e => !inside e.1 1 a n } }

/-- R515: every request tag is in use. -/
def State.tagsOut (s : State) : Bool := decide (1024 ≤ s.col.reqs.length)

/-- R150: a request of the slot to these bytes of another module is not answered yet. -/
def State.remoteWaits (s : State) (slot a n : Nat) : Bool :=
  s.col.reqs.any fun q => decide (q.slot = slot) && overlaps a n q.addr q.len

/-- R442: a request that arrives from the fabric. -/
def whoFabric : Who := ⟨0x700, none, false, false⟩

/-- R31, R527: the status of an access; one to the module's own remote window is served from its export region with the
checks of a remote access. -/
def State.access (s : State) (who : Who) (wr : Bool) (a n : Nat) : Nat :=
  match s.ownWindow a with
  | none => s.accessAt who wr a n
  | some o =>
    if s.fld (aCol 0x28) 34 0 < o + n then 4
    else if wr && who.thread then 4
    else s.accessAt whoFabric wr (s.real a) n

/-- A free value read as whether an admitted line of a refused write is performed (R443). -/
def useRefused : Nat := 22

/-- R443: a write within one mapped range of which a line is refused, and `may` admits bytes: whether its admitted lines are
performed is open. -/
def State.storeRefused (s : State) (may : Nat → Nat → Bool) (a : Nat) (bs : List Byte) : State :=
  match placeOf a with
  | none => s
  | some (_, b, len) =>
    if !inside a bs.length b len then s
    else (linesOf a bs.length).foldl (fun t x =>
      let lo := max a x
      let n := min (a + bs.length) (x + 64) - lo
      if !may lo n then t
      else
        let (v, t) := t.draw useRefused
        if v % 2 = 0 then t else t.store lo ((bs.drop (lo - a)).take n)) s

/-- R363, R365: a port that is DOWN answers the request: its target is present, and no way to it stands. -/
def State.portAnswers (s : State) (who : Who) (a n : Nat) : Bool :=
  let lines := linesOf (s.real a) n
  lines.all s.targetUp && !s.pathsUp (if (s.ownWindow a).isSome then whoFabric else who) lines

/-- R363, R365: a present Meadow that no way from `die` reaches. -/
def State.cutOff (s : State) (die : Nat) : Bool := (List.range 4).any fun d => s.meadowUp d && (s.hops die d).isNone

/-! ## Reading -/

/-- R560: REPLACE_REQ_N is driven low: a replace cause stands in VAL_REPLACE or in a Heath's copy of the fault record, or a
Heath's partner has been silent for more than 1 s. The auxiliary input feeds the pin. -/
def State.replacePin (s : State) : Bool :=
  s.power.auxOk && (decide (s.reg (aVal 0x100) ≠ 0) ||
    (List.range 2).any fun h =>
      (readAt (fun _ => frecFresh) s.frec h).entries.any (fun e => decide (e.type = 0x0A) && decide (e.value ≠ 0)) ||
        match (readAt (fun _ => heathFresh) s.heaths h).silentAt with
        | some t => decide (t + 1000000000 < s.clock)
        | none => false)

/-- R561: the register access instrument is enabled: the mode is SERVICE, and EFF_HOST has not been 1 for a cycle. -/
def State.debugEnabled (s : State) : Bool :=
  decide (s.mode = 4) && (!bit (s.reg (aVal 0x10)) 12 || decide (s.debugPort.hostAt = some s.now))

/-- The value a register shows: the time base and the FIFO and queue levels come from where the state keeps them. -/
def State.regShown (s : State) (a : Nat) : Nat :=
  if a = aIqm 0x10 then s.now
  else if a = aSch 0 then
    setBits (setBits (s.reg a) 12 2 s.sched.fifo.length) 13 13 (b2n (decide (1024 ≤ s.sched.fifo.length)))
  else if a = aSch 0x04 then
    let inUse := (s.inFlight.flatMap fun c => c.ctxs).eraseDups
    s.sched.ctxTable.length + inUse.length * 2 ^ 11
  else if (List.range 4).any fun d => decide (a = aDmc d 0x2C) then
    (s.poison.filter fun p => decide (p < 0x001000000000) && decide (a = aDmc (s.stackOf p).1 0x2C)).length
  else if a = aVal 0x220 then setBit (s.reg a) 2 s.replacePin
  else if a = aVal 0x224 then setBit (s.reg a) 0 s.debugEnabled
  else if a = aVal 0x200 then setBit (s.reg a) 8 (!bit (s.reg (aVal 0x220)) 1)
  else if a = aVal 0x208 then setBit (s.reg a) 8 (!bit (s.reg (aVal 0x18)) 7)
  else if a = aSch 0x38 then (s.sched.jobs.filter fun j => decide (j.phase = .queued)).length
  else s.reg a

/-- A byte of a register block; an undefined offset reads as 0 (R12). -/
def State.regByte (s : State) (a : Nat) : Byte :=
  match regAt a with
  | some (_, b) => BitVec.ofNat 8 (s.regShown b >>> (8 * (a - b)))
  | none => 0

/-- The bytes an admitted read returns. -/
def State.readOut (s : State) (a n : Nat) : List Byte :=
  match placeOf a with
  | some (.block _, _, _) => (List.range n).map fun i => s.regByte (a + i)
  | some (.window q, b, _) => (List.range n).map fun i => s.windowByte q (a + i - b)
  | _ => s.bytes a n

/-- R95, R337, R339, R340: a read of the bytes meets poison, a line that the migration copy has yet to poison, or a failed
pseudo-channel. -/
def State.readPoison (s : State) (a n : Nat) : Bool :=
  (linesOf (s.real a) n).any fun x => s.poisoned x || s.spoilt.contains x || s.pcFailed x

/-- R574: the device reads a table of `n` bytes: its status (0 where it can be read), for `who`. -/
def State.readStatus (s : State) (who : Who) (a n : Nat) : Nat :=
  match placeOf a with
  | none => 4
  | some (p, b, len) =>
    if p.isReg then 4
    else if !inside a n b len then 2
    else
      let st := s.access who false a n
      if st ≠ 0 then st else if s.readPoison a n then 5 else 0

/-! ## Events -/

/-- The bytes of an event's name (R211). -/
def nameBytes (n : String) : List Byte :=
  let l := n.toList.map fun c => BitVec.ofNat 8 c.toNat
  (l ++ List.replicate 24 0).take 24

/-- Words 0 to 6 of an event entry or fault report (R211, R454). -/
def Ev.words (e : Ev) : List Nat :=
  [ e.die + e.lea * 0x10 + e.tile * 0x100 + e.job * 0x10000 + e.idx * 0x100000000 + e.list * 0x1000000000000,
    e.time, e.arg0, e.arg1,
    leNat (nameBytes e.name |>.take 8), leNat ((nameBytes e.name).drop 8 |>.take 8),
    leNat ((nameBytes e.name).drop 16) ]

/-- R207: the RING word of the next entry of a ring: TYPE, SEQ and PHASE. -/
def ringWord (type seq log : Nat) : Nat :=
  type + (seq % 2 ^ 32) * 2 ^ 16 + (if seq / 2 ^ log % 2 = 0 then 2 ^ 63 else 0)

/-- The key of a ring's entry count: ring 1 completion, ring 2 event. -/
def ringKey (set ring : Nat) : Nat := set * 4 + ring

/-- R205: the ring of 2^log entries is full. -/
def ringFull (head tail log : Nat) : Bool := decide ((tail + 1) % 2 ^ log = head % 2 ^ log)

/-- R218: LOG of a set's ring: 0 submission, 1 completion, 2 event. -/
def State.ringLog (s : State) (set ring : Nat) : Nat := s.fld (aRing set 0x18) (4 * ring + 4) (4 * ring + 1)

/-- R218, R219: EN of a set. -/
def State.ringEn (s : State) (set : Nat) : Bool := bit (s.reg (aRing set 0x18)) 0

/-- R205, R207, R565: an entry of seven words written to the completion ring (ring 1) or event ring (ring 2) of a set: the
entry, then the tail. Set 0 signals its vector. -/
def State.ringPut (s : State) (set ring type : Nat) (ws : List Nat) : State :=
  let log := s.ringLog set ring
  let base := bits (s.reg (aRing set (8 * ring))) 47 0
  let tailA := aRing set (if ring = 1 then 0x28 else 0x30)
  let tail := s.reg tailA
  let seq := readAt (fun _ => 0) s.sched.ringSeq (ringKey set ring)
  let s := s.store (base + 64 * tail) (wordBytes (ws ++ [ringWord type seq log]))
  let s := { s with sched := { s.sched with
    ringSeq := writeAt (fun _ => 0) s.sched.ringSeq (ringKey set ring) (seq + 1) } }
  let s := s.setReg tailA ((tail + 1) % 2 ^ log)
  if set = 0 then s.msixSignal (ring - 1) else s

/-- R206, R219: an event written to the event ring of a set; dropped and counted where the set is disabled or the ring
is full. -/
def State.eventTo (s : State) (set : Nat) (e : Ev) : State :=
  if !s.ringEn set || ringFull (s.reg (aRing set 0x34)) (s.reg (aRing set 0x30)) (s.ringLog set 2) then
    s.count32 (aSch 0x34)
  else s.ringPut set 2 4 e.words

/-- R204, R206: an event written to the ring of its job's set, or, when it belongs to no job, to every enabled set. -/
def State.eventOut (s : State) (e : Ev) : State :=
  match e.ringSet with
  | some set => s.eventTo set e
  | none =>
    if (List.range 4).any s.ringEn then
      ((List.range 4).filter s.ringEn).foldl (fun s set => s.eventTo set e) s
    else s.count32 (aSch 0x34)

/-- A die's fault collector. -/
def State.collector (s : State) (die : Nat) : Collector := readAt (fun _ => collectorFresh) s.collectors die
/-- A die's fault collector replaced. -/
def State.setCollector (s : State) (die : Nat) (c : Collector) : State :=
  { s with collectors := writeAt (fun _ => collectorFresh) s.collectors die c }

/-- R348: the port of a Meadow or of the Vale to Heath `h`. -/
def heathPort (die h : Nat) : Nat := if die < 4 then 3 + h else 4 + h

/-- R454: the port of `die` to Heath `h` carries reports. -/
def State.heathLinked (s : State) (die h : Nat) : Bool :=
  let st := s.fld (aFdl die (heathPort die h) 0) 2 0
  decide (st = 3) || decide (st = 4)

/-- R454: a report queued for one Heath. While the port carries none, at most 64 are held, and the oldest are dropped. DEDUCED
(assumption 145): so it is in every state of the port in which it carries no reports, as in DOWN. -/
def Collector.put (c : Collector) (linked : Bool) (h : Nat) (r : Report) : Collector :=
  let q := readAt (fun _ => []) c.out h ++ [r]
  let excess := if linked then 0 else q.length - 64
  { c with out := writeAt (fun _ => []) c.out h (q.drop excess), dropped := c.dropped + excess }

/-- R453, R454: the event of a Meadow or the Vale goes to both Heaths as a fault report. -/
def State.report (s : State) (e : Ev) : State :=
  if 4 < e.die then s
  else
    let c := s.collector e.die
    let r : Report := ⟨e, c.rseq % 2 ^ 32⟩
    let c := (c.put (s.heathLinked e.die 0) 0 r).put (s.heathLinked e.die 1) 1 r
    s.setCollector e.die { c with rseq := (c.rseq + 1) % 2 ^ 32 }

/-- R211, R212, R453: an event raised: stamped, reported to the Heaths, and written at once while the scheduler core
runs, else when it resumes. -/
def State.raiseEv (s : State) (e : Ev) : State :=
  let e := { e with time := s.now }
  let s := s.report e
  if s.fld (aSch 0) 1 0 = 2 then { s with sched := { s.sched with evWait := s.sched.evWait ++ [e] } }
  else s.eventOut e

/-- An event of no job from a die. -/
def State.raise (s : State) (die lea tile : Nat) (name : String) (arg0 arg1 : Nat) : State :=
  s.raiseEv ⟨die, lea, tile, 0xFFFF, 0, 0xFFFF, name, arg0, arg1, 0, none⟩

/-- An event that names a command of a job (R192); a golden run is no command of a list. -/
def State.raiseCmd (s : State) (j : Job) (r : CmdRef) (die lea tile : Nat) (name : String) (arg0 arg1 : Nat) : State :=
  let (l, i) := if r.list = 2 then (0, 0xFFFF) else (r.list, r.idx)
  s.raiseEv ⟨die, lea, tile, j.id, l, i, name, arg0, arg1, 0, some j.ringSet⟩

/-- An event that names a job and no command. -/
def State.raiseJob (s : State) (j : Job) (name : String) (arg0 arg1 : Nat) : State :=
  s.raiseEv ⟨4, 0, 0x1F, j.id, 0, 0xFFFF, name, arg0, arg1, 0, some j.ringSet⟩

/-- An event of a die for a command of the running job, if there is one. -/
def State.raiseFor (s : State) (r : CmdRef) (die lea tile : Nat) (name : String) (arg0 arg1 : Nat) : State :=
  match s.curJob with
  | some j => s.raiseCmd j r die lea tile name arg0 arg1
  | none => s.raise die lea tile name arg0 arg1

/-! ## The fault record and the replace causes (R458, R459, R468) -/

/-- A Heath's copy of the fault record. -/
def State.frecCopy (s : State) (h : Nat) : FrecCopy := readAt (fun _ => frecFresh) s.frec h
/-- A Heath's copy of the fault record replaced. -/
def State.setFrec (s : State) (h : Nat) (c : FrecCopy) : State :=
  { s with frec := writeAt (fun _ => frecFresh) s.frec h c }

/-- R459: an item of the fault record changes: both Heaths will write it. -/
def State.frecNote (s : State) (type die unit value : Nat) : State :=
  (List.range 2).foldl (fun s h =>
    let c := s.frecCopy h
    s.setFrec h { c with todo := c.todo ++ [⟨type, die, unit, 0, value, s.now⟩] }) s

/-- R468: a replace cause: its bit, EVT_REPLACE_REQ and the fault record where it first occurs. -/
def State.replaceReq (s : State) (b : Nat) : State :=
  if bit (s.reg (aVal 0x100)) b then s
  else
    let s := s.setFld (aVal 0x100) b b 1
    (s.raise 4 0 0x1F "REPLACE_REQ" b 0).frecNote 0x0A 4 0 (s.reg (aVal 0x100))

/-! ## Records on their way to the scheduler core (R210) -/

/-- R210: the completion FIFO, with the records on their way to it, has no room for another: what has finished keeps its place. -/
def State.recordsFull (s : State) : Bool := decide (1024 ≤ s.sched.fifo.length + s.sched.outbox.length)

/-- A record sent by a Meadow. -/
def State.send (s : State) (r : FifoRec) : State :=
  { s with sched := { s.sched with outbox := s.sched.outbox ++ [r] } }

end Sys2Proof.Machine
end

