-- ==== Sys2Proof/Machine/Sha256.lean ====
section
/-! DEFINITION. SHA-256 and HMAC-SHA-256 over bytes, which R518, R530 and the chapter on firmware name. -/

namespace Sys2Proof.Machine

/-- The largest `r` with `r^k ≤ x`, found bit by bit from the bits already set in `acc`. -/
def rootFloor (k : Nat) : Nat → Nat → Nat → Nat
  | 0, acc, _ => acc
  | b + 1, acc, x => if (acc + 2 ^ b) ^ k ≤ x then rootFloor k b (acc + 2 ^ b) x else rootFloor k b acc x

/-- The first 32 bits of the fraction of the `k`-th root of `p`, for roots below 8. -/
def rootFraction (k p : Nat) : Nat := rootFloor k 35 0 (p * 2 ^ (32 * k)) % 2 ^ 32

/-- The primes below 313: numbers that no smaller number up to 17 divides. -/
def shaPrimes : List Nat :=
  ((List.range 311).map (· + 2)).filter fun n => (List.range 16).all fun d => decide (n ≤ d + 2) || decide (n % (d + 2) ≠ 0)

/-- The 64 round constants: from the cube roots of the first 64 primes. -/
def shaK : List Nat := shaPrimes.map (rootFraction 3)

/-- The first chaining value: from the square roots of the first 8 primes. -/
def shaH : List Nat := (shaPrimes.take 8).map (rootFraction 2)

/-- A 32-bit rotation to the right. -/
def rotr32 (x k : Nat) : Nat := ((x >>> k) ||| (x <<< (32 - k))) % 2 ^ 32

/-- The message schedule from its last 16 words, newest first, extended by `n` words. -/
def shaSched : Nat → List Nat → List Nat
  | 0, w => w.reverse
  | n + 1, w =>
    let a := w.getD 14 0
    let b := w.getD 1 0
    let s0 := (rotr32 a 7 ^^^ rotr32 a 18) ^^^ (a >>> 3)
    let s1 := (rotr32 b 17 ^^^ rotr32 b 19) ^^^ (b >>> 10)
    shaSched n (((w.getD 15 0 + s0 + w.getD 6 0 + s1) % 2 ^ 32) :: w)

/-- One round on the eight working words. -/
def shaRound (v : List Nat) (kw : Nat × Nat) : List Nat :=
  let g := fun (i : Nat) => v.getD i 0
  let s1 := (rotr32 (g 4) 6 ^^^ rotr32 (g 4) 11) ^^^ rotr32 (g 4) 25
  let ch := (g 4 &&& g 5) ^^^ ((0xFFFFFFFF ^^^ g 4) &&& g 6)
  let t1 := g 7 + s1 + ch + kw.1 + kw.2
  let s0 := (rotr32 (g 0) 2 ^^^ rotr32 (g 0) 13) ^^^ rotr32 (g 0) 22
  let mj := ((g 0 &&& g 1) ^^^ (g 0 &&& g 2)) ^^^ (g 1 &&& g 2)
  [(t1 + s0 + mj) % 2 ^ 32, g 0, g 1, g 2, (g 3 + t1) % 2 ^ 32, g 4, g 5, g 6]

/-- One 64-byte block. -/
def shaBlock (h : List Nat) (bs : List Byte) : List Nat :=
  let w := (List.range 16).map fun i => beNat ((bs.drop (4 * i)).take 4)
  let v := (shaK.zip (shaSched 48 w.reverse)).foldl shaRound h
  (List.range 8).map fun i => (h.getD i 0 + v.getD i 0) % 2 ^ 32

/-- The blocks of a padded message; `n` is their number. -/
def shaBlocks : Nat → List Nat → List Byte → List Nat
  | 0, h, _ => h
  | n + 1, h, bs => shaBlocks n (shaBlock h (bs.take 64)) (bs.drop 64)

/-- SHA-256 of a message: 32 bytes. -/
def sha256 (m : List Byte) : List Byte :=
  let p := m ++ [0x80] ++ List.replicate ((119 - m.length % 64) % 64) (0 : Byte) ++ beBytes 8 (8 * m.length)
  (shaBlocks (p.length / 64) shaH p).flatMap (beBytes 4)

/-- HMAC-SHA-256 under a key of at most 64 bytes. -/
def hmacSha256 (key m : List Byte) : List Byte :=
  let k := key ++ List.replicate (64 - key.length) (0 : Byte)
  sha256 ((k.map fun b => b ^^^ 0x5C) ++ sha256 ((k.map fun b => b ^^^ 0x36) ++ m))

end Sys2Proof.Machine
end

