-- ==== Sys2Proof/Machine/P256.lean ====
section
/-! DEFINITION. ECDSA over the curve P-256 with SHA-256 (R483, R486, R494): verification and signing. -/

namespace Sys2Proof.Machine

/-- The prime of the field. -/
def p256P : Nat := 0xFFFFFFFF00000001000000000000000000000000FFFFFFFFFFFFFFFFFFFFFFFF
/-- The order of the base point. -/
def p256N : Nat := 0xFFFFFFFF00000000FFFFFFFFFFFFFFFFBCE6FAADA7179E84F3B9CAC2FC632551
/-- The coefficient b of the curve. -/
def p256B : Nat := 0x5AC635D8AA3A93E7B3EBBD55769886BC651D06B0CC53B0F63BCE3C3E27D2604B
/-- The base point. -/
def p256G : Nat × Nat :=
  (0x6B17D1F2E12C4247F8BCE6E563A440F277037D812DEB33A0F4A13945D898C296,
   0x4FE342E2FE1A7F9B8EE7EB4A7C0F9E162BCE33576B315ECECBB6406837BF51F5)

/-- `b ^ e` modulo `m`, by squaring; `n` bounds the bits of `e`. -/
def powMod (m : Nat) : Nat → Nat → Nat → Nat → Nat
  | 0, _, _, acc => acc
  | n + 1, b, e, acc => powMod m n (b * b % m) (e / 2) (if e % 2 = 1 then acc * b % m else acc)

/-- The inverse modulo a prime below 2^256. -/
def invMod (m x : Nat) : Nat := powMod m 256 (x % m) (m - 2) 1

/-- A point of the curve; none is the point at infinity. -/
abbrev EcPoint := Option (Nat × Nat)

/-- The sum of two points. -/
def ecAdd (a b : EcPoint) : EcPoint :=
  let p := p256P
  match a, b with
  | none, _ => b
  | _, none => a
  | some (x1, y1), some (x2, y2) =>
    let join := fun (l : Nat) =>
      let x := (l * l + 2 * p - x1 - x2) % p
      some (x, (l * (x1 + p - x) + p - y1) % p)
    if x1 = x2 then
      if (y1 + y2) % p = 0 then none else join ((3 * x1 * x1 + p - 3) * invMod p (2 * y1) % p)
    else join ((y2 + p - y1) * invMod p (x2 + p - x1) % p)

/-- `k` times a point; `n` bounds the bits of `k`. -/
def ecMul : Nat → Nat → EcPoint → EcPoint → EcPoint
  | 0, _, _, acc => acc
  | n + 1, k, q, acc => ecMul n (k / 2) (ecAdd q q) (if k % 2 = 1 then ecAdd acc q else acc)

/-- The point lies on the curve. -/
def onCurve (x y : Nat) : Bool :=
  decide (x < p256P) && decide (y < p256P) &&
    decide (y * y % p256P = (x * x * x + (p256P - 3) * x + p256B) % p256P)

/-- ECDSA: the signature (r, s) of the hash `h` verifies under a public key. -/
def ecdsaVerify (x y h r s : Nat) : Bool :=
  if !onCurve x y || decide (r = 0) || decide (s = 0) || decide (p256N ≤ r) || decide (p256N ≤ s) then false
  else
    let w := invMod p256N s
    match ecAdd (ecMul 256 (h * w % p256N) (some p256G) none) (ecMul 256 (r * w % p256N) (some (x, y)) none) with
    | some (u, _) => decide (u % p256N = r)
    | none => false

/-- ECDSA: the signature of the hash `h` under private key `d` with the per-message secret that `k` gives. -/
def ecdsaSign (d h k : Nat) : Nat × Nat :=
  let k := 1 + k % (p256N - 1)
  match ecMul 256 k (some p256G) none with
  | some (x, _) => let r := x % p256N; (r, invMod p256N k * (h + r * d) % p256N)
  | none => (0, 0)

/-- The label of R494. -/
def idLabel : List Byte := ("HNF-DLM8 ID").toList.map fun c => BitVec.ofNat 8 c.toNat

/-- R494: the identity key: the first HMAC of the label and a counter that lies from 1 to n − 1. -/
def idKey (secret : List Byte) : Nat → Nat → Nat
  | 0, _ => 1
  | n + 1, c =>
    let v := beNat (hmacSha256 secret (idLabel ++ [BitVec.ofNat 8 c]))
    if 1 ≤ v ∧ v < p256N then v else idKey secret n (c + 1)

end Sys2Proof.Machine
end

