-- ==== Sys2Proof/Machine/FlashOps.lean ====
section
/-! DEFINITION. Flash devices, slot records, images and their checks (R482 to R487, R497), and the measurement registers
(R492, R493). -/

namespace Sys2Proof.Machine

/-! ## Flash (R482, R497) -/

/-- The key of a flash byte: device 0 and 1 the Vale's, 2 and 3 those of Heath A and B. -/
def flashKey (dev off : Nat) : Nat := dev * 2 ^ 26 + off

/-- What an erased byte reads as. -/
def flashErased (_ : Nat) : Byte := 0xFF

/-- R482, R497: the bytes of a device. -/
def flashSize (dev : Nat) : Nat := if dev < 2 then 0x4000000 else 0x1000000

/-- A byte of flash. -/
def State.flashByte (s : State) (dev off : Nat) : Byte := readAt flashErased s.flash (flashKey dev off)
/-- `n` bytes of flash. -/
def State.flashBytes (s : State) (dev off n : Nat) : List Byte := (List.range n).map fun i => s.flashByte dev (off + i)
/-- `n` bytes of flash erased. -/
def State.flashErase (s : State) (dev off n : Nat) : State :=
  let k := flashKey dev off
  { s with flash := s.flash.filter fun e => !(decide (k ≤ e.1) && decide (e.1 < k + n)) }
/-- Bytes of flash, at key `k`. -/
def flashPut : Sparse Byte → Nat → List Byte → Sparse Byte
  | m, _, [] => m
  | m, k, b :: t => flashPut (writeAt flashErased m k b) (k + 1) t
/-- Bytes programmed into flash. -/
def State.flashWrite (s : State) (dev off : Nat) (bs : List Byte) : State :=
  { s with flash := flashPut s.flash (flashKey dev off) bs }

/-! ## Slots and their records (R482, R485, R497) -/

/-- An image slot: the Vale's A and B, or those of a Heath. -/
structure Slot where
  dev : Nat
  base : Nat
  rec_ : Nat
  size : Nat
  deriving DecidableEq, Repr

/-- R482: slot `i` of the Vale: device `i`. -/
def valeSlot (i : Nat) : Slot := ⟨i, 0, 0x1000000, 0x1000000⟩
/-- R497: slot `i` of Heath `h`. -/
def heathSlot (h i : Nat) : Slot := ⟨2 + h, i * 0x400000, 0x800000 + i * 0x10000, 0x400000⟩

/-- R485: entry `e` of a half of a record. -/
def State.recEntry (s : State) (x : Slot) (half e : Nat) : List Byte := s.flashBytes x.dev (x.rec_ + half * 0x8000 + 16 * e) 16
/-- R485: the entry is unwritten. -/
def recBlank (b : List Byte) : Bool := b.all fun v => decide (v = 0xFF)
/-- R485: the entry's CRC is good. -/
def recGood (b : List Byte) : Bool := !recBlank b && decide (leNat ((b.drop 8).take 4) = crc32c (b.take 8))

/-- R485: the entries written in a half. -/
def State.recUsed (s : State) (x : Slot) (half : Nat) : Nat :=
  ((List.range 2048).find? fun e => recBlank (s.recEntry x half e)).getD 2048

/-- R485: the half in use: the other one where the first is full and the other holds entries. -/
def State.recHalf (s : State) (x : Slot) : Nat :=
  let u0 := s.recUsed x 0
  let u1 := s.recUsed x 1
  if u0 = 2048 ∧ 0 < u1 then 1 else if u1 = 2048 ∧ 0 < u0 then 0 else if 0 < u0 then 0 else if 0 < u1 then 1 else 0

/-- R485: the last good entry of a half. -/
def State.recLast (s : State) (x : Slot) (half : Nat) : Option (List Byte) :=
  (((List.range (s.recUsed x half)).map (s.recEntry x half)).filter recGood).getLast?

/-- R485: STATE and TRIES of a slot. -/
def State.slotRecord (s : State) (x : Slot) : Nat × Nat :=
  let h := s.recHalf x
  let e := match s.recLast x h with
    | some e => some e
    | none => s.recLast x (1 - h)
  match e with
  | some e => (leNat (e.take 1), leNat ((e.drop 1).take 1))
  | none => (4, 0)

/-- R485: an entry of a slot record. -/
def recBytes (st tries : Nat) : List Byte :=
  let w := leBytes 8 (st + tries % 256 * 256)
  w ++ leBytes 4 (crc32c w) ++ List.replicate 4 0

/-- R485: a slot's record written; a full half gives way to the other. -/
def State.putRecord (s : State) (x : Slot) (st tries : Nat) : State :=
  let h := s.recHalf x
  let u := s.recUsed x h
  if u < 2048 then s.flashWrite x.dev (x.rec_ + h * 0x8000 + 16 * u) (recBytes st tries)
  else (s.flashWrite x.dev (x.rec_ + (1 - h) * 0x8000) (recBytes st tries)).flashErase x.dev (x.rec_ + h * 0x8000) 0x8000

/-! ## Images (R483, R484, R486) -/

/-- A little-endian field of a header. -/
def hdr (h : List Byte) (a n : Nat) : Nat := leNat ((h.drop a).take n)
/-- R483: SVN of a header. -/
def hdrSvn (h : List Byte) : Nat := hdr h 8 8
/-- R483: BOOT_SEQ of a header. -/
def hdrSeq (h : List Byte) : Nat := hdr h 16 4
/-- R483: KEYSLOT of a header. -/
def hdrKey (h : List Byte) : Nat := hdr h 24 1
/-- R483: DEBUG of a header. -/
def hdrDebug (h : List Byte) : Bool := bit (hdr h 6 2) 0

/-- A component entry (R484). -/
structure Component where
  type : Nat
  ifver : Nat
  off : Nat
  len : Nat
  digest : Nat
  deriving DecidableEq, Repr

/-- R484: component entry `i` of a header. -/
def component (h : List Byte) (i : Nat) : Component :=
  let e := (h.drop (64 + 64 * i)).take 64
  ⟨hdr e 0 1, hdr e 1 1, hdr e 4 4, hdr e 8 4, hdr e 16 32⟩

/-- R484: the components of a header. -/
def components (h : List Byte) : List Component := (List.range (min 8 (hdr h 25 1))).map (component h)

/-- R484: the largest LEN of a component type, 0 for a reserved one. -/
def largestComponent (t : Nat) : Nat :=
  match t with
  | 1 => 0x80000 | 2 => 0x40000 | 3 => 0x100000 | 4 => 0x10000 | 5 => 0x100000 | 8 => 0x1C0000 | 9 => 0x1000 | _ => 0

/-- Every byte is 0. -/
def allZero (b : List Byte) : Bool := b.all fun v => decide (v = 0)

/-- R483, R484, R497: the form of a header: its fields, its reserved fields and its component table. `size` is the slot's. -/
def headerForm (h : List Byte) (heath : Bool) (size : Nat) : Bool :=
  let n := hdr h 25 1
  let cs := components h
  let types := if heath then [8, 9] else [1, 2, 3, 4, 5]
  decide (hdr h 0 4 = 0x314D4C44) && decide (hdr h 4 2 = 1) && decide (hdr h 6 2 < 2) && decide (hdr h 20 4 ≤ size) &&
    decide (4096 ≤ hdr h 20 4) && decide (n = types.length) && allZero ((h.drop 26).take 38) && allZero ((h.drop 640).take 3328) &&
    allZero ((h.drop (64 + 64 * n)).take (512 - 64 * n)) && types.all (fun t => cs.any fun c => decide (c.type = t)) &&
    (List.range n).all (fun i =>
      let e := (h.drop (64 + 64 * i)).take 64
      allZero ((e.drop 2).take 2) && allZero ((e.drop 12).take 4) && allZero (e.drop 48)) &&
    cs.all fun c => decide (c.len ≤ largestComponent c.type) && decide (c.off % 4096 = 0) && decide (4096 ≤ c.off) &&
      decide (c.off + c.len ≤ hdr h 20 4)

/-- R483: the signature of a header verifies under its PUBKEY. -/
def headerSigned (h : List Byte) : Bool :=
  let b := fun (a : Nat) => beNat ((h.drop a).take 32)
  ecdsaVerify (b 576) (b 608) (beNat (sha256 (h.take 3968))) (b 3968) (b 4000)

/-- R486: what a checker of images knows: the usable key hashes by slot, the anti-rollback counter, whether DEBUG images
may boot. -/
structure ImageRoot where
  keys : List (Option Nat)
  arb : Nat
  debug : Bool

/-- R486: the check of a header, as a SEC_BOOT result; 0 where it passes. -/
def headerResult (h : List Byte) (r : ImageRoot) (heath : Bool) (size : Nat) : Nat :=
  if !headerForm h heath size then 3
  else if r.keys.getD (hdrKey h) none ≠ some (beNat (sha256 ((h.drop 576).take 64))) then 4
  else if !headerSigned h then 3
  else if hdrSvn h < r.arb then 5
  else if hdrDebug h && !r.debug then 3
  else 0

/-- R486: the fused keys of the Vale that are programmed and not revoked. -/
def State.valeRoot (s : State) : ImageRoot :=
  let k := s.reg (aSec 0x18)
  { keys := (List.range 4).map fun i => if bit k i && !bit k (4 + i) then some (s.fuses.keyHash.getD i 0) else none
    arb := s.reg (aSec 0x10)
    debug := decide (s.fld (aSec 0) 3 2 ≠ 1) }

/-- R497: the fused keys of a Heath. -/
def State.heathRoot (s : State) (h : Nat) : ImageRoot :=
  { keys := [s.fuses.heathKeys.getD (2 * h) none, s.fuses.heathKeys.getD (2 * h + 1) none]
    arb := s.fuses.heathArb.getD h 0
    debug := decide (s.fld (aSec 0) 3 2 ≠ 1) }

/-- R483: the header in a slot. -/
def State.slotHeader (s : State) (x : Slot) : List Byte := s.flashBytes x.dev x.base 4096
/-- R484: the bytes of a component in a slot. -/
def State.slotBytes (s : State) (x : Slot) (c : Component) : List Byte := s.flashBytes x.dev (x.base + c.off) c.len

/-! ## Choosing a slot (R487) -/

/-- What the ROM finds (R487): the slot it boots, the results of both slots as SEC_BOOT codes them, the TRIES it read, and
the slots it tried and rejected. -/
structure RomChoice where
  slot : Option Nat
  results : List Nat
  tries : List Nat
  rejected : List Nat

/-- R487: a component read twice at most: some read gives its digest. `bad` lists the reads that fail, as (slot, component,
read). -/
def State.componentOk (s : State) (x : Slot) (i k : Nat) (c : Component) (bad : List (Nat × Nat × Nat)) : Bool :=
  let good := decide (leNat (sha256 (s.slotBytes x c)) = c.digest)
  good && ([0, 1].any fun n => !bad.contains (i, k, n))

/-- R487: the slots in the order of the ROM, tried one after the other. -/
def State.romTry (s : State) (slots : Nat → Slot) (bad : List (Nat × Nat × Nat)) :
    List Nat → RomChoice → State × RomChoice
  | [], r => (s, r)
  | i :: t, r =>
    let x := slots i
    let (st, tries) := s.slotRecord x
    let s := s.putRecord x st (tries + 1)
    let cs := components (s.slotHeader x)
    if (List.range cs.length).all fun k => s.componentOk x i k (cs.getD k ⟨0, 0, 0, 0, 0⟩) bad then
      (s, { r with slot := some i, results := r.results.set i 1 })
    else
      (s.putRecord x 3 (tries + 1)).romTry slots bad t { r with results := r.results.set i 6, rejected := r.rejected ++ [i] }

/-- R487: the ROM checks both slots, and boots the first of its order whose components verify. -/
def State.romBoot (s : State) (slots : Nat → Slot) (root : ImageRoot) (heath : Bool) (bad : List (Nat × Nat × Nat)) :
    State × RomChoice :=
  let rec_ := fun (i : Nat) => s.slotRecord (slots i)
  let head := fun (i : Nat) => headerResult (s.slotHeader (slots i)) root heath (slots i).size
  let cand := [0, 1].filter fun i => ((rec_ i).1 = 1 || (rec_ i).1 = 2) && decide (head i = 0)
  let low := cand.filter fun i => decide ((rec_ i).2 < 3)
  let pref := if low.isEmpty then cand else low
  let seq := fun (i : Nat) => hdrSeq (s.slotHeader (slots i))
  let order := if pref.length = 2 ∧ seq 0 < seq 1 then [1, 0] else pref
  let first := [0, 1].map fun i =>
    if (rec_ i).1 = 4 then 2 else if head i ≠ 0 then head i else if (rec_ i).1 = 3 ∨ ¬ pref.contains i then 7 else 0
  let tried := [0, 1].filter fun i => ((rec_ i).1 = 1 || (rec_ i).1 = 2) && decide (head i ≠ 0)
  s.romTry slots bad order ⟨none, first, [(rec_ 0).2, (rec_ 1).2], tried⟩

/-- R508: SEC_BOOT or HTx_BOOT of a choice. -/
def bootWord (r : RomChoice) (key : Nat) : Nat :=
  r.results.getD 0 0 + r.results.getD 1 0 * 2 ^ 4 + min 3 (r.tries.getD 0 0) * 2 ^ 8 + min 3 (r.tries.getD 1 0) * 2 ^ 10
    + key % 4 * 2 ^ 12

/-! ## Measurement (R492, R493) -/

/-- R492: the bytes of measurement register `n`. -/
def State.measBytes (s : State) (n : Nat) : List Byte :=
  wordBytes ((List.range 4).map fun i => s.reg (aSec (0x100 + 0x20 * n + 8 * i)))

/-- A 256-bit register at `a` set to 32 bytes. -/
def State.setReg256 (s : State) (a : Nat) (bs : List Byte) : State :=
  (List.range 4).foldl (fun s i => s.setReg (a + 8 * i) (leNat ((bs.drop (8 * i)).take 8))) s

/-- R492, R493: register `n` is extended by a digest, with a log entry where the log has room. -/
def State.extend (s : State) (n digest kind : Nat) : State :=
  let d := leBytes 32 digest
  let s := s.setReg256 (aSec (0x100 + 0x20 * n)) (sha256 (s.measBytes n ++ d))
  if s.boot.log.length < 1024 then
    let e := [BitVec.ofNat 8 n, BitVec.ofNat 8 (Config.logType kind)] ++ List.replicate 6 0 ++ leBytes 8 s.now ++
      List.replicate 16 0 ++ d
    let s := { s with boot := { s.boot with log := s.boot.log ++ [e] } }
    s.setReg (aSec 0x1C) s.boot.log.length
  else s.setFld (aSec 0) 7 7 1

/-- R492: M7 extended by a runtime record: kind 0 a restart, 1 a Heath measurement change, 2 a freeze, 3 a thaw. -/
def State.runtime (s : State) (kind who cause : Nat) : State :=
  s.extend 7 (Config.runtimeRecord kind who cause s.now) (8 + kind)

end Sys2Proof.Machine
end

