-- ==== Sys2Proof/Machine/FlowOps.lean ====
section
/-! DEFINITION. Charging in the flow regulator (R376, R386) and the urgency levels of the dies (R380, R381). -/

namespace Sys2Proof.Machine

/-- R375, R386: the die has regulation point `q`: a Meadow 0 to 3, the Vale 1 to 4. -/
def pointExists (die q : Nat) : Bool := if die < 4 then decide (q < 4) else decide (die = 4) && decide (1 ≤ q) && decide (q < 5)

/-- R375: the budget of a class in force at a point. -/
def State.budget (s : State) (die q c : Nat) : Nat := readAt budgetFresh s.flr.budgets ((8 * die + q) * 8 + c)

/-- R386: the line charges of a task at all points of a die. -/
def State.countTask (s : State) (die task n : Nat) : State :=
  (List.range 4).foldl (fun s i =>
    let sel := s.reg (aFlr die (0x40 + 4 * i))
    if bit sel 12 && decide (bits sel 11 0 = task) then s.count (aFlr die (0x60 + 8 * i)) 63 0 n else s) s

/-- R376, R386: a point charges `n` to a class and a task as it grants a message: FLR_USEDc, and FLR_OVERc where the class
was not in budget. -/
def State.charge (s : State) (die q c task n : Nat) : State :=
  if !pointExists die q then s
  else
    let used := s.fld (aPoint die q (0x20 + 4 * c)) 19 0
    let s := if s.budget die q c ≤ used then s.count32 (aPoint die q (0x40 + 4 * c)) else s
    (s.count (aPoint die q (0x20 + 4 * c)) 19 0 n).countTask die task n

/-- R376: what a DRAM controller charges for the line at `x` of an access: 1 for a line that is read or wholly written, 2 for
one that is written in part. -/
def lineCharge (wr : Bool) (a len x : Nat) : Nat := if wr && !inside x 64 a len then 2 else 1

/-- R373, R376: the DRAM controllers charge the lines of an access to a CLASS and a TASK. -/
def State.chargeAs (s : State) (cls task : Nat) (wr : Bool) (a len : Nat) : State :=
  (linesOf a len).foldl (fun s x =>
    match placeOf x with
    | some (.dram, _, _) => s.charge (s.stackOf x).1 0 cls task (lineCharge wr a len x)
    | _ => s) s

/-- R155, R373: an access of a command's threads, engines, copies or commit actions carries the command's CLASS and TASK. -/
def State.chargeLines (s : State) (r : CmdRef) (wr : Bool) (a len : Nat) : State :=
  match s.cmd r with
  | none => s
  | some c => s.chargeAs (bits (word c.words 0) 6 4) c.task wr a len

/-- R307, R373: the lines of the maps that a Prairie engine reads for a command, of which the spec gives no count: a free number
at each stack. -/
def State.chargeMaps (s : State) (r : CmdRef) : State :=
  match s.cmd r with
  | none => s
  | some c =>
    let s' := { s with free := s.free + 1 }
    (List.range 4).foldl (fun s' d => s'.charge d 0 (bits (word c.words 0) 6 4) c.task (Config.mapLines s.free d)) s'

/-- R385: the die measures a class 7 read of one of its own initiators: the longest time, and a late one. -/
def State.measureC7 (s : State) (die time a : Nat) : State :=
  if 4 < die then s
  else
    let s := if s.reg (aFlr die 0x10) < time then s.setReg (aFlr die 0x10) (min time 0xFFFFFFFF) else s
    if time ≤ 2000 then s
    else
      let s := s.count32 (aFlr die 0x14)
      let w := s.now / 10000 + 1
      if readAt (fun _ => 0) s.flr.lateAt die = w then s
      else { s with flr := { s.flr with lateAt := writeAt (fun _ => 0) s.flr.lateAt die w } }.raise die 0 0x1F "FLR_C7_LATE"
        time a

/-- R380: the level of a real-time master of a die: 0 the ingress queue manager, 1 the Prairie output stage, 2 a Heath. -/
def State.urgency (s : State) (die src : Nat) : Nat := readAt (fun _ => 0) s.flr.levels (4 * die + src)

/-- R380: a die's own level. -/
def State.ownLevel (s : State) (die : Nat) : Nat := max (max (s.urgency die 0) (s.urgency die 1)) (s.urgency die 2)

/-! ## Tiers (R377) -/

/-- R373: the request comes from a real-time master. -/
def rtMaster (init task : Nat) : Bool :=
  decide (init = initIqm) || isHeath init || (decide (init / 256 < 4) && decide (init % 256 = 0x30) && decide (task = 0xFFA))

/-- R380, R381: the urgency level of the real-time masters of the die of `init`, as the die `die` knows it. -/
def State.levelAt (s : State) (die init : Nat) : Nat :=
  let from_ := init / 256
  if from_ = die then s.ownLevel die
  else
    let q := (portTo die from_).getD 0
    s.fld (aFlr die 0x1C) (2 * q + 3) (2 * q + 2)

/-- R377: the tier of a message with these labels at point `q` of a die. -/
def State.tier (s : State) (die q cls init task : Nat) : Nat :=
  let within := decide (s.fld (aPoint die q (0x20 + 4 * cls)) 19 0 < s.budget die q cls)
  let master := rtMaster init task
  let level := s.levelAt die init
  if cls = 7 && within then 3
  else if master && decide (level = 2) then 4
  else if (decide (cls ≠ 7) && within) || (master && decide (level = 1)) then 5
  else 6

/-- R380, R381: a master's level set: FLR_URG.OWN follows, and a die's own level that reaches 2 raises EVT_FLR_URGENT, at
most once per window. -/
def State.setUrgency (s : State) (die src level : Nat) : State :=
  let before := s.ownLevel die
  let s := { s with flr := { s.flr with levels := writeAt (fun _ => 0) s.flr.levels (4 * die + src) level } }
  let own := s.ownLevel die
  let s := if die < 5 then s.setFld (aFlr die 0x1C) 1 0 own else s
  let w := s.now / 10000 + 1
  if before < 2 ∧ own = 2 ∧ readAt (fun _ => 0) s.flr.urgentAt die ≠ w then
    { s with flr := { s.flr with urgentAt := writeAt (fun _ => 0) s.flr.urgentAt die w } }.raise die 0 0x1F "FLR_URGENT"
      src 0
  else s

end Sys2Proof.Machine
end

