-- ==== Sys2Proof/Machine/ReedSolomon.lean ====
section
/-! DEFINITION. The code of a DRAM line (R324 to R326): a Reed–Solomon code over GF(2^8) with 64 data and 8 check
symbols, its encoder, and the decoder with erasures. -/

namespace Sys2Proof.Machine

/-- R324: multiplication in GF(2^8) modulo x^8 + x^4 + x^3 + x^2 + 1; `fuel` counts the bits of `b`. -/
def gfMulGo : Nat → Nat → Nat → Nat
  | 0, _, _ => 0
  | n + 1, a, b =>
    let a2 := if a < 128 then 2 * a else (2 * a) ^^^ 0x11D
    (if b % 2 = 1 then a else 0) ^^^ gfMulGo n a2 (b / 2)

/-- R324: the product of two symbols. -/
def gfMul (a b : Nat) : Nat := gfMulGo 8 a b

/-- A power of a symbol. -/
def gfPow (a : Nat) : Nat → Nat
  | 0 => 1
  | n + 1 => gfMul a (gfPow a n)

/-- The inverse of a nonzero symbol. -/
def gfInv (a : Nat) : Nat := gfPow a 254

/-- The value of a polynomial, coefficients lowest first. -/
def polyEval : List Nat → Nat → Nat
  | [], _ => 0
  | c :: t, x => c ^^^ gfMul x (polyEval t x)

/-- The sum of two polynomials. -/
def polyAdd : List Nat → List Nat → List Nat
  | [], q => q
  | p, [] => p
  | a :: p, b :: q => (a ^^^ b) :: polyAdd p q

/-- A polynomial times a symbol. -/
def polyScale (k : Nat) (p : List Nat) : List Nat := p.map (gfMul k)

/-- The product of two polynomials. -/
def polyMul : List Nat → List Nat → List Nat
  | [], _ => []
  | a :: p, q => polyAdd (polyScale a q) (0 :: polyMul p q)

/-- A polynomial without its leading zeros. -/
def polyTrim (p : List Nat) : List Nat := (p.reverse.dropWhile fun c => decide (c = 0)).reverse

/-- R324: the generator (x − α^0)(x − α^1) … (x − α^7), coefficients lowest first. -/
def rsGenerator : List Nat := (List.range 8).foldl (fun g i => polyMul g [gfPow 2 i, 1]) [1]

/-- R324: the remainder register after one more message symbol, highest coefficient first. -/
def rsStep (g : List Nat) (rem : List Nat) (m : Nat) : List Nat :=
  let f := m ^^^ rem.headD 0
  (List.range 8).map fun i => rem.getD (i + 1) 0 ^^^ gfMul f (g.getD (7 - i) 0)

/-- R324: the check symbols of 64 data symbols. -/
def rsCheck (data : List Nat) : List Nat := data.foldl (rsStep rsGenerator) (List.replicate 8 0)

/-- R324: the codeword of a line: its 64 data bytes and 8 check bytes. -/
def rsEncode (data : List Nat) : List Nat := data ++ rsCheck data

/-- The locator α^(71 − i) of symbol `i`. -/
def rsLocator (i : Nat) : Nat := gfPow 2 (71 - i)

/-- The syndromes of a word of 72 symbols. -/
def rsSyndromes (w : List Nat) : List Nat :=
  (List.range 8).map fun j =>
    (List.range 72).foldl (fun t i => t ^^^ gfMul (w.getD i 0) (gfPow (rsLocator i) j)) 0

/-- One step of the search for the locator polynomial (Berlekamp and Massey, with erasures): the polynomial, the
correction polynomial and the length. -/
def rsSearch (syn : List Nat) (f : Nat) (st : List Nat × List Nat × Nat) (n : Nat) : List Nat × List Nat × Nat :=
  let (lam, b, len) := st
  let d := (List.range (lam.length)).foldl (fun t i => if i ≤ n then t ^^^ gfMul (lam.getD i 0) (syn.getD (n - i) 0) else t) 0
  let xb := 0 :: b
  if d = 0 then (lam, xb, len)
  else
    let lam' := polyAdd lam (polyScale d xb)
    if 2 * len ≤ n + f then (lam', polyScale (gfInv d) lam, n + 1 + f - len) else (lam', xb, len)

/-- R326: the error word a decoder finds, given the erased symbols: none where the word is outside its limits. -/
def rsEstimate (w : List Nat) (erased : List Nat) : Option (List Nat) :=
  let syn := rsSyndromes w
  if syn.all (fun c => decide (c = 0)) then some (List.replicate 72 0)
  else
    let f := erased.length
    let gam := erased.foldl (fun g i => polyMul g [1, rsLocator i]) [1]
    let r := ((List.range (8 - f)).map (fun k => f + k)).foldl (rsSearch syn f) (gam, gam, f)
    let lam := polyTrim r.1
    let deg := lam.length - 1
    let om := (polyMul syn lam).take 8
    let der := (List.range deg).map fun i => if i % 2 = 0 then lam.getD (i + 1) 0 else 0
    let pos := (List.range 72).filter fun i => decide (polyEval lam (gfInv (rsLocator i)) = 0)
    if pos.length ≠ deg ∨ 8 < 2 * deg - f then none
    else
      let e := (List.range 72).map fun i =>
        if pos.contains i then
          let x := rsLocator i
          let xi := gfInv x
          gfMul x (gfMul (polyEval om xi) (gfInv (polyEval der xi)))
        else 0
      if rsSyndromes e = syn then some e else none

/-- R325: the lane that carries symbol `i`. -/
def rsLane (i : Nat) : Nat := if i < 64 then i % 32 else 32 + (i - 64) % 4

/-- R326: the symbols erased for a set of marked lanes. -/
def rsErased (marks : Nat) : List Nat := (List.range 72).filter fun i => marks.testBit (rsLane i)

/-- The lanes, as a mask, of the nonzero symbols of an error word. -/
def rsLanes (e : List Nat) : Nat :=
  (List.range 36).foldl (fun t l =>
    if (List.range 72).any fun i => decide (rsLane i = l) && decide (e.getD i 0 ≠ 0) then t + 2 ^ l else t) 0

end Sys2Proof.Machine
end

