-- ==== Sys2Proof/Machine/DramOps.lean ====
section
/-! DEFINITION. The DRAM controllers (R318 to R345): where a line lies, row activations, the decoding of a codeword with
its counters, poison, lane marks, retirement and migration. -/

namespace Sys2Proof.Machine

/-- A DRAM controller. -/
def State.dramOf (s : State) (d : Nat) : Dram := readAt (fun _ => dramFresh) s.dram d
/-- A DRAM controller replaced. -/
def State.setDram (s : State) (d : Nat) (x : Dram) : State :=
  { s with dram := writeAt (fun _ => dramFresh) s.dram d x }

/-- A free value read as the layer select that is named for a layer which has none (R328, R334). -/
def useSpareSid : Nat := 16
/-- A free value read as what the performing of a queued write finds in its stack (R332, R343). -/
def useFlush : Nat := 17

/-! ## Where a line lies (R321, R322) -/

/-- R322: the pseudo-channel of a stack offset. -/
def offPc (o : Nat) : Nat := bits o 10 6
/-- R322: the bank number of a stack offset. -/
def offBank (o : Nat) : Nat := 4 * bits o 16 15 + bits o 18 17
/-- R322: the layer select of a stack offset. -/
def offSid (o : Nat) : Nat := bits o 21 19
/-- R322: the row of a stack offset. -/
def offRow (o : Nat) : Nat := bits o 33 22
/-- R342: the unit of a stack offset. -/
def offUnit (o : Nat) : Nat := offRow o * 16 + offBank o
/-- R322: the stack offset of a column of a unit in a layer select of a pseudo-channel. -/
def unitOff (sid p u col : Nat) : Nat :=
  (u / 16) * 2 ^ 22 + sid * 2 ^ 19 + (u % 16 % 4) * 2 ^ 17 + (u % 16 / 4) * 2 ^ 15 + col * 2 ^ 11 + p * 2 ^ 6

/-- R321: the address of stack offset `o` of stack `st`, looked for from region `r` on, whose share begins at `base`. -/
def State.dramAddrGo (s : State) (st o : Nat) : Nat → Nat → Nat → Option Nat
  | 0, _, _ => none
  | n + 1, r, base =>
    let c := s.regionCode r
    let sh := if c = st then 0x40000000 else if c = 8 then 0x10000000 else 0
    if base ≤ o ∧ o < base + sh then
      let x := o - base
      if c = st then some (r * 0x40000000 + x)
      else some (r * 0x40000000 + (4 * (x / 0x1000) + st) * 0x1000 + x % 0x1000)
    else s.dramAddrGo st o n (r + 1) (base + sh)

/-- R321: the address of a stack offset. -/
def State.dramAddr (s : State) (st o : Nat) : Option Nat := s.dramAddrGo st o 64 0 0

/-- R318, R344: the physical layer of a layer select. -/
def State.physLayer (s : State) (d sid : Nat) : Nat := s.fld (aDmc d 0x08) (4 * sid + 3) (4 * sid)

/-! ## Row disturbance (R335) -/

/-- R335: the rows whose count a neighbour refresh covers. -/
def neighbours (r : Nat) : List Nat :=
  (if 2 ≤ r then [r - 2] else []) ++ (if 1 ≤ r then [r - 1] else []) ++
    (if r + 1 ≤ 4095 then [r + 1] else []) ++ (if r + 2 ≤ 4095 then [r + 2] else [])

/-- R335: the index of the least count of a table, the lowest index on a tie. -/
def leastEntry : List (Nat × Nat) → Nat × Nat
  | [] => (0, 0)
  | [e] => (0, e.2)
  | e :: t => let (i, c) := leastEntry t; if e.2 ≤ c then (0, e.2) else (i + 1, c)

/-- R335: steps 1 to 3: the table after one activate of row `r`, and the row's count. -/
def tableTouch (t : List (Nat × Nat)) (r : Nat) : List (Nat × Nat) × Nat :=
  match t.find? fun e => decide (e.1 = r) with
  | some e => (t.map (fun x => if x.1 = r then (r, x.2 + 1) else x), e.2 + 1)
  | none =>
    if t.length < 32 then (t ++ [(r, 1)], 1)
    else let (i, c) := leastEntry t; (t.set i (r, c + 1), c + 1)

/-- R335: activates of rows, each of which may refresh its neighbours, which are activates again; `busy` are the rows
whose neighbour refresh is under way, and the last part counts the neighbour refreshes. -/
def activates (thresh : Nat) : Nat → List Nat → List (Nat × Nat) → List Nat → List (Nat × Nat) × Nat
  | 0, _, t, _ => (t, 0)
  | _, _, t, [] => (t, 0)
  | n + 1, busy, t, r :: rs =>
    let (t, c) := tableTouch t r
    let (t, k) :=
      if thresh ≤ c ∧ ¬ busy.contains r then
        let (t, k) := activates thresh n (r :: busy) t (neighbours r)
        (t.map (fun x => if x.1 = r then (r, 0) else x), k + 1)
      else (t, 0)
    let (t, k2) := activates thresh n busy t rs
    (t, k + k2)

/-- More steps than any chain of activates takes: each neighbour refresh under way is of another of the 4,096 rows, and has four
neighbours. -/
def activateFuel : Nat := 20482

/-- R335: an activate of a row of a bank of a physical layer of a pseudo-channel. -/
def State.activate (s : State) (d p layer bank row : Nat) : State :=
  let x := s.dramOf d
  let key := (p * 16 + layer) * 16 + bank
  let (t, k) := activates (s.fld (aDmc d 0x18) 15 0) activateFuel [] (readAt (fun _ => []) x.tables key) [row]
  (s.setDram d { x with tables := writeAt (fun _ => []) x.tables key t }).count (aDmc d 0x28) 31 0 k

/-! ## Poison (R339) -/

/-- R339: the poisoned lines of a stack. -/
def State.dramPoison (s : State) (d : Nat) : Nat := (s.poison.filter fun p =>
  decide (p < 0x001000000000) && decide ((s.stackOf p).1 = d)).length

/-- R330: the line at `a` as `f` makes its bytes, but for those that a queued write covers. -/
def State.remakeLine (s : State) (a keep : Nat) (f : Nat → Byte → Byte) : State :=
  let a := a / 64 * 64
  s.putBytes a ((List.range 64).map fun i => if keep.testBit i then s.byte (a + i) else f i (s.byte (a + i)))

/-- R339: a DRAM line is poisoned; where the table is full it is written as zero data instead, with EVT_DMC_POISON_FULL
and the replace request. `keep` are the bytes that a queued write covers. -/
def State.dramPoisonLine (s : State) (d a off keep : Nat) : State :=
  if s.poisoned a then s
  else if s.dramPoison d < 1024 then s.addPoison a
  else ((s.remakeLine a keep fun _ _ => 0).raise d 0 0x1F "DMC_POISON_FULL" off 0).replaceReq 3

/-! ## Retirement and migration (R340 to R342) -/

/-- R458: the layer map goes to the fault record. -/
def State.noteLayers (s : State) (d : Nat) : State :=
  s.frecNote 0x03 d 0 (s.reg (aDmc d 0x08) + s.fld (aDmc d 0) 6 5 * 2 ^ 32)

/-- R341: a retirement that finds no spare. -/
def State.noSpareLayer (s : State) (d sid : Nat) : State :=
  let s := s.setFld (aDmc d 0) 6 6 1
  (((s.raise d 0 0x1F "DMC_SPARE_EXHAUSTED" sid 0).replaceReq 2).noteLayers d).setFld (aDmc d 0x40) 31 31 0

/-- R341: the retirement of a layer select: a migration starts, the retirement waits, or there is no spare. -/
def State.retireLayer (s : State) (d sid : Nat) : State :=
  let x := s.dramOf d
  match x.migration with
  | some _ => s.setDram d { x with waiting := x.waiting ++ [sid] }
  | none =>
    if bit (s.reg (aDmc d 0)) 5 then s.noSpareLayer d sid
    else
      let s := s.setDram d { x with migration := some ⟨sid, List.replicate 32 0, s.now⟩ }
      let s := (s.setFld (aDmc d 0) 4 4 1).setFld (aDmc d 0) 10 8 sid
      ((s.setReg (aDmc d 0x38) 0).setFld (aDmc d 0x40) 31 31 0).raise d 0 0x1F "DMC_MIGRATE_START" sid 0

/-- R340: a fault of a line retires its layer select, unless that layer is being retired already. -/
def State.retireFor (s : State) (d sid : Nat) : State :=
  let x := s.dramOf d
  let mig := match x.migration with
    | some m => decide (m.sid = sid)
    | none => false
  if mig || x.waiting.contains sid then s else s.retireLayer d sid

/-! ## The decoder's outcomes (R326, R327, R337, R340) -/

/-- R340, R342: the migration that runs has yet to copy the line. -/
def State.copyAhead (s : State) (d off : Nat) : Bool :=
  match (s.dramOf d).migration with
  | some m => decide (offSid off = m.sid) && decide (m.ptr.getD (offPc off) 0 ≤ offUnit off)
  | none => false

/-- R340, R346: an uncorrectable codeword or a command error of a stack: counted, recorded, and its event raised. -/
def State.dramUeNote (s : State) (d off : Nat) (cmdErr : Bool) : State :=
  let s := s.count32 (aDmc d 0x24)
  let s := s.setReg (aDmc d 0x30) (off / 64 * 64 + 2 ^ 34 + b2n cmdErr * 2 ^ 35)
  s.raise d 0 0x1F "DMC_UE" (off / 64 * 64) 0

/-- R339, R340: an uncorrectable codeword or a command error of the line at `a`: its layer is retired, and the line is poisoned,
by the migration copy where that has yet to reach it. -/
def State.dramUe (s : State) (d a off : Nat) (cmdErr : Bool) (keep : Nat) : State :=
  let s := (s.dramUeNote d off cmdErr).retireFor d (offSid off)
  if s.copyAhead d off then
    if s.spoilt.contains (a / 64 * 64) then s else { s with spoilt := a / 64 * 64 :: s.spoilt }
  else s.dramPoisonLine d a off keep

/-- R337: the number of marked lanes of a mask. -/
def lanesIn (m : Nat) : Nat := ((List.range 36).filter fun l => m.testBit l).length

/-- R337: a lane that meets the condition at run time is marked, or, where two marks stand already, its pseudo-channel
fails. -/
def State.markLane (s : State) (d p l : Nat) : State :=
  let m := s.reg (aDmc d (0x100 + 8 * p))
  if bit m l then s
  else if lanesIn m < 2 then
    ((s.setReg (aDmc d (0x100 + 8 * p)) (m + 2 ^ l)).raise d 0 0x1F "DMC_LANE_MARKED" p 0).frecNote 0x04 d 0
      (p + l * 32)
  else if bit (s.reg (aDmc d 0x0C)) p then s
  else
    (((s.setFld (aDmc d 0x0C) p p 1).raise d 0 0x1F "DMC_PC_FAILED" p 0).replaceReq 3).frecNote 0x04 d 0
      (p + l * 32 + 2 ^ 11)

/-- R337: a corrected codeword of a pseudo-channel with errors in the lanes of a mask: its last 256 are looked at. -/
def State.laneHistory (s : State) (d p lanes : Nat) : State :=
  let x := s.dramOf d
  let h := (lanes :: readAt (fun _ => []) x.corrected p).take 256
  let s := s.setDram d { x with corrected := writeAt (fun _ => []) x.corrected p h }
  (List.range 36).foldl (fun s l =>
    if 64 ≤ (h.filter fun m => m.testBit l).length then s.markLane d p l else s) s

/-- R340: a corrected codeword not confined to marked lanes counts toward the retirement of its layer select within
3,600 s. -/
def State.ceHistory (s : State) (d sid : Nat) : State :=
  let x := s.dramOf d
  let ts := ((sid, s.now) :: x.ceTimes).filter fun e => decide (s.now ≤ e.2 + 3600000000000)
  let s := s.setDram d { x with ceTimes := ts }
  let th := s.fld (aDmc d 0x1C) 15 0
  if th ≠ 0 ∧ th ≤ (ts.filter fun e => decide (e.1 = sid)).length then s.retireFor d sid else s

/-- R327, R337: a corrected codeword of a stack with the errors `est`: counted, recorded, and looked at with those before it. -/
def State.dramCeNote (s : State) (d off : Nat) (est : List Nat) : State :=
  ((s.count32 (aDmc d 0x20)).setReg (aDmc d 0x30) (off / 64 * 64)).laneHistory d (offPc off) (rsLanes est)

/-- R326, R327: a codeword with the errors `err` that the decoder corrects by `est`. One taken for another codeword leaves other
data; one that is another codeword already is not corrected at all. -/
def State.dramCe (s : State) (d a off : Nat) (est err : List Nat) (keep : Nat) : State :=
  let lanes := rsLanes est
  let marks := s.reg (aDmc d (0x100 + 8 * offPc off))
  let s := if est = err then s else s.remakeLine a keep fun i b => b ^^^ BitVec.ofNat 8 (est.getD i 0 ^^^ err.getD i 0)
  if est.all (fun e => decide (e = 0)) then s
  else
    let s := s.dramCeNote d off est
    if lanes &&& marks = lanes then s else s.ceHistory d (offSid off)

/-- The error word that an operand of a read spells. -/
def errWord (l : List (Fin 72 × Byte)) : List Nat :=
  (List.range 72).map fun i => l.foldl (fun t e => if e.1.val = i then t ^^^ e.2.toNat else t) 0

/-- R326, R327, R339, R340: the codeword of the line at `a` is read with errors: status 0, or 0x05. `keep` are the bytes of the
line that a queued write covers, `left` those that it covers still where the codeword is uncorrectable. -/
def State.dramDecode (s : State) (d a off : Nat) (err : List Nat) (cmdErr : Bool) (keep left : Nat) : Nat × State :=
  if cmdErr then (5, s.dramUe d a off true left)
  else if err.all (fun e => decide (e = 0)) then (0, s)
  else match rsEstimate err (rsErased (s.reg (aDmc d (0x100 + 8 * offPc off)))) with
    | some est => (0, s.dramCe d a off est err keep)
    | none => (5, s.dramUe d a off false left)

/-- R328: the patrol read of a codeword of the spare layer, which holds no line. The layer select that its offset shows is open. -/
def State.spareDecode (s : State) (d off : Nat) (err : List Nat) (cmdErr : Bool) : State :=
  let (v, s) := s.draw useSpareSid
  let o := setBits off 21 19 (v % 8)
  if cmdErr then s.dramUeNote d o true
  else if err.all (fun e => decide (e = 0)) then s
  else match rsEstimate err (rsErased (s.reg (aDmc d (0x100 + 8 * offPc off)))) with
    | some est => if est.all (fun e => decide (e = 0)) then s else s.dramCeNote d o est
    | none => s.dramUeNote d o false

/-! ## The write queue (R329, R330) -/

/-- The queued bytes of a line, as a mask. -/
def Dram.queued (x : Dram) (off : Nat) : Nat :=
  match x.queue.find? fun q => decide (q.off = off) with
  | some q => q.mask
  | none => 0

/-- The queued lines of a pseudo-channel. -/
def Dram.queueOf (x : Dram) (p : Nat) : List QWrite := x.queue.filter fun q => decide (offPc q.off = p)

/-- R329: a write enters the queue or merges into its line's entry. -/
def Dram.enqueue (x : Dram) (off mask : Nat) : Dram :=
  if x.queue.any fun q => decide (q.off = off) then
    { x with queue := x.queue.map fun q => if q.off = off then { q with mask := q.mask ||| mask } else q }
  else { x with queue := x.queue ++ [⟨off, mask⟩] }

/-- A line's entry leaves the queue. -/
def Dram.dequeue (x : Dram) (off : Nat) : Dram := { x with queue := x.queue.filter fun q => decide (q.off ≠ off) }

/-- R342: a write of the line is held: its unit is the one being copied. -/
def Dram.held (x : Dram) (off : Nat) : Bool :=
  match x.migration with
  | some m => decide (offSid off = m.sid) && decide (m.ptr.getD (offPc off) 0 = offUnit off)
  | none => false

/-- R342: the physical layer that serves a line: the spare below the pointer of its pseudo-channel. -/
def State.servingLayer (s : State) (d off : Nat) : Nat :=
  match (s.dramOf d).migration with
  | some m => if offSid off = m.sid ∧ offUnit off < m.ptr.getD (offPc off) 0 then 8 else s.physLayer d (offSid off)
  | none => s.physLayer d (offSid off)

/-- R336, R343: the controller accepts requests. -/
def State.dramReady (s : State) (d : Nat) : Bool := decide (s.fld (aDmc d 0) 2 0 = 2)

/-! ## The refresh schedule (R333) -/

/-- R333: the refresh interval of a stack, in controller cycles of 5/8 ns. -/
def State.refreshInterval (s : State) (d : Nat) : Nat := if bit (s.reg (aDmc d 0)) 3 then 3120 else 6240
/-- R333: the offset of pseudo-channel `p` in a refresh period, in controller cycles. -/
def State.refreshOffset (s : State) (d p : Nat) : Nat := p * (if bit (s.reg (aDmc d 0)) 3 then 97 else 195)
/-- R333: `n` controller cycles have passed since the period started. -/
def State.periodPast (s : State) (d n : Nat) : Bool := decide (5 * n ≤ 8 * (s.now - s.reg (aDmc d 0x10)))

/-- R333: pseudo-channel `p` is due. Where no period has started yet, pseudo-channel 0 is. -/
def State.refreshDue (s : State) (d p : Nat) : Bool :=
  let done := (s.dramOf d).refreshed
  if done.isEmpty then decide (p = 0)
  else if p = 0 then s.periodPast d (s.refreshInterval d)
  else !done.contains p && s.periodPast d (s.refreshOffset d p)

/-- R333: pseudo-channel `p` accepts no command: its refresh is due, or is under way for 592 cycles. -/
def State.pcStalled (s : State) (d p : Nat) : Bool :=
  let done := (s.dramOf d).refreshed
  !done.isEmpty && (s.refreshDue d p || (done.contains p && !s.periodPast d (s.refreshOffset d p + 592)))

/-- R382: the controller cycles since a time. -/
def cyclesSince (now t : Nat) : Nat := 8 * (now - t) / 5

/-- R382: the migration copy alone uses pseudo-channel `p`: one of its slots of 192 cycles has started, where that fell in a refresh
stall at the end of the stall. -/
def State.migrationSlot (s : State) (d p : Nat) : Bool :=
  match (s.dramOf d).migration with
  | none => false
  | some m =>
    let c := cyclesSince s.now m.start
    let since := (c - 60 * p) % 1920
    -- the cycles since the refresh stall of `p` ended
    let past := cyclesSince s.now (s.reg (aDmc d 0x10)) - (s.refreshOffset d p + 592)
    decide (60 * p ≤ c) && (decide (since < 192) ||
      ((s.dramOf d).refreshed.contains p && decide (past < 192) && decide (past ≤ since) && decide (since < past + 592)))

/-- R333, R382: no request of pseudo-channel `p` is served: it refreshes, or the migration copies. -/
def State.pcBusy (s : State) (d p : Nat) : Bool := s.pcStalled d p || s.migrationSlot d p

/-- R382: a refresh of pseudo-channel `p` is due within 100 cycles: no message of tier 6 opens a row. -/
def State.refreshNear (s : State) (d p : Nat) : Bool :=
  let due := if (s.dramOf d).refreshed.contains p then s.refreshInterval d + s.refreshOffset d p else s.refreshOffset d p
  decide (due < cyclesSince s.now (s.reg (aDmc d 0x10)) + 100)

/-! ## Read tags (R329, R383) -/

/-- R329, R383: the tags in use of a pseudo-channel: of those held for class 7, or of the others. -/
def Dram.tagsUsed (x : Dram) (p : Nat) (fast : Bool) : Nat :=
  (x.reads.filter fun r => decide (offPc r.off = p) && decide (r.fast = fast)).length

/-- R329, R383: the tag that a read of a class takes: one of the 8 held for class 7, else one of the other 56; none where it
stalls. -/
def Dram.tagFor (x : Dram) (p cls : Nat) : Option Bool :=
  if cls = 7 ∧ x.tagsUsed p true < 8 then some true
  else if x.tagsUsed p false < 56 then some false
  else none

/-- R16, R329, R333, R343, R382, R383: the controllers take an access of a class now: no stack of it is in self-refresh, no
pseudo-channel of it refreshes or migrates, and each of its lines finds a read tag, or a place in the write queue. -/
def State.dramTakes (s : State) (cls : Nat) (wr : Bool) (a n : Nat) : Bool :=
  (linesOf (s.real a) n).all fun x =>
    match placeOf x with
    | some (.dram, _, _) =>
      let so := s.stackOf x
      let o := so.2 / 64 * 64
      let z := s.dramOf so.1
      !s.targetUp x || (decide (s.fld (aDmc so.1 0) 2 0 ≠ 3) && !s.pcBusy so.1 (offPc o) &&
        if wr then decide (z.queued o ≠ 0) || decide ((z.queueOf (offPc o)).length < 64)
        else (z.tagFor (offPc o) cls).isSome)
    | _ => true

/-- R155: the CLASS of a command in flight. -/
def State.cmdClass (s : State) (r : CmdRef) : Nat :=
  match s.cmd r with
  | some c => bits (word c.words 0) 6 4
  | none => 0

/-- R343: no stack that a request reaches is in self-refresh. -/
def State.stacksTake (s : State) : Bool :=
  (List.range 4).all fun d => decide (s.fld (aDmc d 0) 2 0 ≠ 3) || !s.meadowUp d

/-! ## The order of the reads (R377) -/

/-- R377: the tier of a read at the DRAM controller of Meadow `d`. -/
def State.dramTier (s : State) (d : Nat) (r : DramRead) : Nat := s.tier d 0 r.cls r.init r.task

/-- R377: the read is served next in its pseudo-channel: none of a higher tier waits, and none of its own tier that is older, but
one that hits an open row passes an older one up to 16 times. -/
def State.readTurn (s : State) (d : Nat) (r : DramRead) (hit : Bool) : Bool :=
  let x := s.dramOf d
  let t := s.dramTier d r
  let rivals := fun (l : List DramRead) => l.filter fun q => decide (offPc q.off = offPc r.off) && decide (q ≠ r)
  (rivals x.reads).all (fun q => decide (t ≤ s.dramTier d q)) &&
    (rivals (x.reads.takeWhile fun q => decide (q ≠ r))).all fun q =>
      decide (s.dramTier d q ≠ t) || (hit && decide (q.passed < 16))

/-- R329, R377: the read gives its tag back; the older ones of its pseudo-channel and tier have been passed. -/
def State.tagBack (s : State) (d : Nat) (r : DramRead) : State :=
  let x := s.dramOf d
  let older := (x.reads.takeWhile fun q => decide (q ≠ r)).map fun q =>
    if offPc q.off = offPc r.off ∧ s.dramTier d q = s.dramTier d r then { q with passed := q.passed + 1 } else q
  s.setDram d { x with reads := older ++ (x.reads.drop older.length).drop 1 }

/-- R329: the controller drains the write queue of a pseudo-channel: it holds 48 lines or more, or no read waits. -/
def Dram.drains (x : Dram) (p : Nat) : Bool :=
  decide (48 ≤ (x.queueOf p).length) || x.reads.all fun r => decide (offPc r.off ≠ p)

end Sys2Proof.Machine
end

