-- ==== Sys2Proof/Machine/Contexts.lean ====
section
/-! DEFINITION. The 4,096 contexts (R193 to R202): descriptors, readiness, residency, eviction and teardown; and the
takes of ingress items (R402, R403, R406). -/

namespace Sys2Proof.Machine

/-! ## Descriptors (R193 to R195) -/

/-- R194: fields of a descriptor. -/
def ctxState (w : List Nat) : Nat := bits (word w 0) 2 0
/-- R194: FW_DOMAIN. -/
def ctxDomain (w : List Nat) : Nat := bits (word w 0) 27 16
/-- R194: PT_ROOT. -/
def ctxRoot (w : List Nat) : Nat := bits (word w 1) 47 0
/-- R194: LAYERS. -/
def ctxLayers (w : List Nat) : Nat := bits (word w 1) 63 48
/-- R194: TOKENS. -/
def ctxTokens (w : List Nat) : Nat := bits (word w 2) 31 0
/-- R194: LAST_USED. -/
def ctxLastUsed (w : List Nat) : Nat := word w 3

/-- A word of a list replaced. -/
def setWord (w : List Nat) (i v : Nat) : List Nat := w.set i (v % 2 ^ 64)

/-- Bits of a word of a list replaced. -/
def setWordBits (w : List Nat) (i hi lo v : Nat) : List Nat := w.set i (setBits (word w i) hi lo v)

/-- R193: the address of a descriptor in the primary copy (m = 0) or the mirror. -/
def State.ctxAddr (s : State) (m c : Nat) : Nat := bits (s.reg (aSch (if m = 0 then 0x10 else 0x18))) 47 0 + 256 * c

/-- R199: the status of reading a copy of a descriptor: 0x08 behind an absent die, 0x05 where a line is poisoned. -/
def State.ctxCopyStatus (s : State) (m c : Nat) : Nat :=
  let a := s.ctxAddr m c
  if !(linesOf a 256).all s.targetUp then 8 else if s.readPoison a 256 then 5 else 0

/-- R195, R199: the authoritative descriptor: the entry of the context table while resident, else the primary copy, or
the mirror where that cannot be read. -/
def State.ctx (s : State) (c : Nat) : List Nat :=
  match lookup s.sched.ctxTable c with
  | some w => w
  | none => s.words (s.ctxAddr (if s.ctxCopyStatus 0 c = 0 then 0 else 1) c) 32

/-- R197: the context is resident. -/
def State.resident (s : State) (c : Nat) : Bool := (lookup s.sched.ctxTable c).isSome

/-- R200: a descriptor written to both copies; a copy behind an absent die is lost, which EVT_CTX_COPY_LOST names. -/
def State.ctxStore (s : State) (c : Nat) (w : List Nat) : State :=
  let bs := wordBytes w
  let p := (linesOf (s.ctxAddr 0 c) 256).all s.targetUp
  let m := (linesOf (s.ctxAddr 1 c) 256).all s.targetUp
  let s := (s.store (s.ctxAddr 0 c) bs).store (s.ctxAddr 1 c) bs
  if p && m then s else s.raise 4 0 0x1F "CTX_COPY_LOST" c 0

/-- R195: the authoritative descriptor replaced. -/
def State.setCtx (s : State) (c : Nat) (w : List Nat) : State :=
  if s.resident c then { s with sched := { s.sched with ctxTable := insertKey s.sched.ctxTable c w } }
  else s.ctxStore c w

/-- R195: a context is in use: a command in flight names it. -/
def State.ctxInUse (s : State) (c : Nat) : Bool := s.inFlight.any fun k => k.ctxs.contains c

/-- R195, R400: the ready test of a descriptor. -/
def State.ctxReady (s : State) (w : List Nat) : Bool :=
  !bit (word w 0) 5 &&
    (!bit (word w 0) 40 || decide (bits (word w 0) 63 48 ≤ s.fld (aQueue (bits (word w 0) 39 32) 0x14) 15 0))

/-- R196, R197: STATE with readiness brought up to date. -/
def State.ctxSettled (s : State) (w : List Nat) : List Nat :=
  let r := s.ctxReady w
  match ctxState w with
  | 1 | 2 => setWordBits w 0 2 0 (if r then 1 else 2)
  | 3 | 4 => setWordBits w 0 2 0 (if r then 3 else 4)
  | _ => w

/-! ## Swapping (R199 to R201) -/

/-- The context with the oldest LAST_USED, ties to the lower index, among a list. -/
def oldest (key : Nat → Nat) : List Nat → Option Nat
  | [] => none
  | c :: t => match oldest key t with
    | none => some c
    | some d => if key d < key c then some d else some c

/-- R200, R201: the resident contexts with STATE `st` that are neither in use nor among those that the starting command itself
needs. -/
def State.victims (s : State) (st : Nat) (own : List Nat) : List Nat :=
  (s.sched.ctxTable.filter fun e => decide (ctxState e.2 = st) && !s.ctxInUse e.1 && !own.contains e.1).map (·.1)

/-- R200: the victim: BLOCKED first, then, where `ready` admits it, READY. -/
def State.victim (s : State) (ready : Bool) (own : List Nat) : Option Nat :=
  let key := fun c => ctxLastUsed (s.ctx c)
  match oldest key (s.victims 2 own) with
  | some c => some c
  | none => if ready then oldest key (s.victims 1 own) else none

/-- R373: the scheduler core's access to copy `m` of a descriptor, as a swap makes it. -/
def State.chargeCtx (s : State) (wr : Bool) (m c : Nat) : State := s.chargeAs 6 0xFFF wr (s.ctxAddr m c) 256

/-- R197, R200: a resident context evicted: its descriptor written to both copies with the swapped state. -/
def State.evict (s : State) (c : Nat) : State :=
  let w := s.ctx c
  let w := setWordBits w 0 2 0 (if ctxState w = 1 then 3 else 4)
  let s := { s with sched := { s.sched with ctxTable := eraseKey s.sched.ctxTable c } }
  (((s.chargeCtx true 0 c).chargeCtx true 1 c).ctxStore c w).count32 (aSch 0x0C)

/-- R199: the context table has a free entry: 1,024 less those held and those promised to swap-ins in progress. -/
def State.ctxRoom (s : State) : Bool := decide (s.sched.ctxTable.length + s.sched.swaps.length < 1024)

/-- R198, R199: the descriptor of a torn-down context. -/
def tornDown (w : List Nat) (cause now job idx list : Nat) : List Nat :=
  let w := setWordBits (setWordBits w 0 2 0 5) 0 15 8 cause
  setWord (setWord w 4 now) 5 (job + idx * 65536 + list * 2 ^ 32)

/-- R199: a swap-in completes: the descriptor is read from the primary or the mirror and becomes resident with LAST_USED
now; where neither can be read, the context is torn down and EVT_CONTEXT_TORN_DOWN raised. -/
def State.swapIn (s : State) (c : Nat) : State :=
  let p := s.ctxCopyStatus 0 c
  let m := s.ctxCopyStatus 1 c
  if p ≠ 0 ∧ m ≠ 0 then
    let w := tornDown (List.replicate 32 0) (min p m) s.now 0xFFFF 0xFFFF 0
    (s.ctxStore c w).raise 4 0 0x1F "CONTEXT_TORN_DOWN" c 0
  else
    let w := s.ctx c
    let w := setWord (setWordBits w 0 2 0 (if s.ctxReady w then 1 else 2)) 3 s.now
    (({ s with sched := { s.sched with ctxTable := insertKey s.sched.ctxTable c w } }).chargeCtx false (b2n (decide (p ≠ 0))) c).count32 (aSch 0x08)

/-- R201: a demand swap-in of one context: into a free entry, or over a victim; a swap of it that has started already
completes. None where every resident context is in use or the command's own: the command waits. -/
def State.demand (s : State) (own : List Nat) (c : Nat) : Option State :=
  if s.resident c then some s
  else if s.sched.swaps.contains c then
    some (({ s with sched := { s.sched with swaps := s.sched.swaps.erase c } }).swapIn c)
  else if s.ctxRoom then some (s.swapIn c)
  else match s.victim true own with
    | some v => some ((s.evict v).swapIn c)
    | none => none

/-- R201: the demand swaps of a command that needs the contexts `own`, in list order. -/
def State.demands (s : State) (own : List Nat) : List Nat → Option State
  | [] => some s
  | c :: t => match s.demand own c with
    | some s => s.demands own t
    | none => none

/-! ## Teardown (R198) -/

/-- R171, R198: a context torn down by a command of a job: TD fields written, the resident entry freed after both copies
are written, and EVT_CONTEXT_TORN_DOWN raised. -/
def State.tearDown (s : State) (j : Job) (r : CmdRef) (cause c : Nat) : State :=
  let w := s.ctx c
  if ctxState w = 5 ∨ ctxState w = 0 then s
  else
    let w := tornDown w cause s.now j.id r.idx r.list
    let s := { s with sched := { s.sched with ctxTable := eraseKey s.sched.ctxTable c } }
    (s.ctxStore c w).raiseCmd j r 4 0 0x1F "CONTEXT_TORN_DOWN" c 0

/-! ## Takes of ingress items (R402, R403, R406) -/

/-- R400: IQM_QITEMS of a queue brought up to date with its items and take. -/
def State.queueShow (s : State) (q : Nat) : State :=
  let x := s.queue q
  let held := x.take.filter fun i => !i.lost
  s.setReg (aQueue q 0x14) (min x.items.length 0xFFFF + held.length % 512 * 0x10000
    + b2n x.holder.isSome * 0x2000000)

/-- R402: the queues a command takes: those of its contexts whose TAKE_EN is 1 and whose TAKE_TASK is its TASK. -/
def State.takeQueues (s : State) (task : Nat) (ctxs : List Nat) : List Nat :=
  (ctxs.filterMap fun c =>
    let w := s.ctx c
    let q := bits (word w 0) 39 32
    let t := s.reg (aQueue q 0x08)
    if bit (word w 0) 40 && bit t 12 && decide (bits t 11 0 = task) then some q else none).eraseDups

/-- R403: how many of the oldest items a take holds: at most `n`, within 516,096 bytes of window data. -/
def takeCount : Nat → Nat → List Item → Nat
  | 0, _, _ => 0
  | _, _, [] => 0
  | n + 1, room, i :: t => if roundUp i.len 64 ≤ room then 1 + takeCount n (room - roundUp i.len 64) t else 0

/-- R403: the mark: a command takes the oldest available items of a queue. -/
def State.takeMark (s : State) (r : CmdRef) (q : Nat) : State :=
  let x := s.queue q
  let lim := s.fld (aQueue q 0x08) 23 16
  let n := takeCount (if lim = 0 then 256 else lim) 516096 x.items
  (s.setQueue q { x with items := x.items.drop n, take := x.items.take n, holder := some r }).queueShow q

/-- R406: a take rewound: its items still present become available again, ahead of those that arrived later. -/
def State.takeRewind (s : State) (q : Nat) : State :=
  let x := s.queue q
  (s.setQueue q { x with items := (x.take.filter fun i => !i.lost) ++ x.items, take := [], holder := none }).queueShow q

/-- Cells returned to the free list (R398): IQM_POOL.FREE and the queue's CELLS. -/
def State.freeCells (s : State) (q : Nat) (cs : List Nat) : State :=
  let s := { s with iqm := { s.iqm with freed := s.iqm.freed ++ cs } }
  (s.setFld (aIqm 0) 17 0 (s.fld (aIqm 0) 17 0 + cs.length)).setFld (aQueue q 0x18) 17 0
    (s.fld (aQueue q 0x18) 17 0 - cs.length)

/-- R406: a take released at commit: its items return their cells. -/
def State.takeRelease (s : State) (q : Nat) : State :=
  let x := s.queue q
  ((s.setQueue q { x with take := [], holder := none }).freeCells q (x.take.flatMap (·.cells))).queueShow q

end Sys2Proof.Machine
end

