-- ==== Sys2Proof/Machine/KvOps.lean ====
section
/-! DEFINITION. The page store (R249 to R265): reference counts, the free list and quarantine, page tables and their
walks, publication and retirement, reservations, and the prefix tree with its SipHash keys. -/

namespace Sys2Proof.Machine

/-! ## Frames (R249, R255, R256) -/

/-- The address of frame `f`. -/
def State.frameAddr (s : State) (f : Nat) : Nat := bits (s.reg (aSch 0x800)) 47 0 + f * 0x4000
/-- SCH_KV_FRAMES. -/
def State.kvFrames (s : State) : Nat := s.fld (aSch 0x808) 22 0
/-- SCH_KV_FREE. -/
def State.kvFree (s : State) : Nat := s.fld (aSch 0x80C) 22 0
/-- The address of a frame's reference count. -/
def State.refAddr (s : State) (f : Nat) : Nat := bits (s.reg (aSch 0x820)) 47 0 + 2 * f
/-- The reference count of a frame. -/
def State.frameRefs (s : State) (f : Nat) : Nat := s.num (s.refAddr f) 2

/-- SCH_KV_LOW. -/
def State.kvLowMark (s : State) : Nat := s.fld (aSch 0x818) 22 0

/-- R261, R268: EVT_KV_LOW, unless it is pending. -/
def State.kvLow (s : State) : State :=
  if s.kv.lowPending then s else ({ s with kv := { s.kv with lowPending := true } }).raise 4 0 0x1F "KV_LOW" 0 0

/-- R268: SCH_KV_FREE changes: below the low mark EVT_KV_LOW is raised, and it can be raised again only once SCH_KV_FREE has
returned to the mark. -/
def State.setKvFree (s : State) (n : Nat) : State :=
  let t := s.setFld (aSch 0x80C) 22 0 n
  if n < s.kvLowMark then t.kvLow
  else if s.kvFree < s.kvLowMark then { t with kv := { t.kv with lowPending := false } }
  else t

/-- R255: a reference acquired. -/
def State.frameAcquire (s : State) (f : Nat) : State := s.store (s.refAddr f) (leBytes 2 (s.frameRefs f + 1))

/-- The commands in flight, by reference. -/
def State.inFlightRefs (s : State) : List CmdRef := s.inFlight.map (·.ref)

/-- R255, R256: a reference released; a count that reaches 0 puts the frame in quarantine. -/
def State.frameRelease (s : State) (f : Nat) : State :=
  let n := s.frameRefs f - 1
  let s := s.store (s.refAddr f) (leBytes 2 n)
  if n = 0 then
    ({ s with kv := { s.kv with quarantine := s.kv.quarantine ++ [Quarantined.mk f s.inFlightRefs] } }).setFld
      (aSch 0x814) 22 0 (s.fld (aSch 0x814) 22 0 + 1)
  else s

/-- R249: a frame pushed on the free list. -/
def State.framePush (s : State) (f : Nat) : State :=
  let n := s.kvFree
  (s.store (bits (s.reg (aSch 0x828)) 47 0 + 4 * n) (leBytes 4 f)).setKvFree (n + 1)

/-- R249, R261: the top frame of the free list taken out of a reservation. -/
def State.framePop (s : State) : Nat × State :=
  let n := s.kvFree - 1
  let f := s.num (bits (s.reg (aSch 0x828)) 47 0 + 4 * n) 4
  (f, (s.setFld (aSch 0x810) 22 0 (s.fld (aSch 0x810) 22 0 - 1)).setKvFree n)

/-! ## Page tables (R251, R252) -/

/-- A directory's header taken apart. -/
structure PDir where
  gen : Nat
  mods : Nat
  fmt : Nat
  hd : Nat
  share : Bool
  layers : Nat
  heads : Nat
  maxPages : Nat
  tokid : Nat
  deriving DecidableEq, Repr

/-- R251: the header of the directory at `root`. -/
def State.pdir (s : State) (root : Nat) : PDir :=
  let w0 := s.num root 8
  let w1 := s.num (root + 8) 8
  ⟨bits w0 31 0, bits w0 63 32, bits w1 3 0, if bit w1 4 then 128 else 64, bit w1 5, bits w1 26 16, bits w1 31 27,
    bits w1 43 32, bits (s.num (root + 16) 8) 47 0⟩

/-- R250: positions per page. -/
def PDir.cap (d : PDir) : Nat := 8192 / d.hd

/-- R251: NOFF. -/
def PDir.noff (d : PDir) : Nat := 64 * ((64 + 8 * d.layers + 63) / 64)

/-- R251: the page list of layer `l`. -/
def State.pageList (s : State) (root l : Nat) : Nat := bits (s.num (root + 64 + 8 * l) 8) 47 0

/-- R252: the address of the page-list entry of page `n` and head `h`. -/
def pageEntryAt (list heads n h : Nat) : Nat := list + 64 + 4 * (n * heads + h)

/-- R251: the address of a node entry. -/
def nodeEntryAt (root : Nat) (d : PDir) (n : Nat) : Nat := root + d.noff + 4 * n

/-- The VALID page-list entries of a table: frame indices, in order of layer, page and head. -/
def State.tableFrames (s : State) (root : Nat) (d : PDir) : List Nat :=
  (List.range d.layers).flatMap fun l =>
    let p := s.pageList root l
    (List.range (d.maxPages * d.heads)).filterMap fun i =>
      let e := s.num (p + 64 + 4 * i) 4
      if bit e 31 then some (bits e 21 0) else none

/-- The VALID node entries of a directory. -/
def State.tableNodes (s : State) (root : Nat) (d : PDir) : List Nat :=
  (List.range d.maxPages).filterMap fun n =>
    let e := s.num (nodeEntryAt root d n) 4
    if bit e 31 then some (bits e 19 0) else none

/-- R262: the address of a node. -/
def State.nodeAddr (s : State) (x : Nat) : Nat := bits (s.reg (aSch 0x838)) 47 0 + 64 * x
/-- R262: a word of a node. -/
def State.nodeWord (s : State) (x i : Nat) : Nat := s.num (s.nodeAddr x + 8 * i) 8
/-- R262: VALID of a node. -/
def State.nodeValid (s : State) (x : Nat) : Bool := bit (s.nodeWord x 5) 0
/-- R262: a word of a node written. -/
def State.setNodeWord (s : State) (x i v : Nat) : State := s.store (s.nodeAddr x + 8 * i) (leBytes 8 v)
/-- SCH_KV_NODE_MAX. -/
def State.nodeMax (s : State) : Nat := s.fld (aSch 0x840) 20 0

/-- R251, R252, R257: the header and layer entries of a table are outside their ranges, or a reserved field is not 0. -/
def State.tableBad (s : State) (root layers : Nat) (d : PDir) : Bool :=
  let w1 := s.num (root + 8) 8
  !(([3, 4, 10].contains d.fmt) && decide (1 ≤ d.layers) && decide (d.layers ≤ 1024) && decide (d.layers = layers)
    && decide (1 ≤ d.heads) && decide (d.heads ≤ 16) && decide (1 ≤ d.maxPages) && decide (d.maxPages ≤ 2048)
    && decide (d.maxPages * d.heads ≤ 4080) && decide (bits w1 15 6 = 0) && decide (bits w1 63 44 = 0)
    && (d.share || decide (d.tokid = 0)) && decide (bits (s.num (root + 16) 8) 63 48 = 0)
    && (s.words (root + 24) 5).all (fun w => decide (w = 0))
    && (List.range d.layers).all fun l =>
      let h := s.words (s.pageList root l) 8
      decide (bits (word h 0) 41 32 = l) && decide (bits (word h 0) 63 42 = 0) && (h.drop 1).all (fun w => decide (w = 0))
        && decide (bits (s.num (root + 64 + 8 * l) 8) 63 48 = 0))

/-- The number of times a value occurs. -/
def occurs (l : List Nat) (x : Nat) : Nat := (l.filter fun y => decide (y = x)).length

/-- R255: one more reference of each frame would take some count above 65,535. -/
def State.countsFull (s : State) (fs : List Nat) : Bool := fs.any fun f => decide (65535 < s.frameRefs f + occurs fs f)

/-- The place of an address is DRAM. -/
def inDram (a n : Nat) : Bool := decide (a + n ≤ 0x001000000000)

/-- R257: the failures of a walk of the table at `root` for a context of `layers` layers: a status, 0 where the
walk succeeds. A context of 0 layers has no table (R14). -/
def State.walkStatus (s : State) (root layers : Nat) : Nat :=
  if layers = 0 then 0
  else if root % 64 ≠ 0 then 3
  else if !inDram root 64 then 4
  else
    let d := s.pdir root
    let ls := (List.range (min d.layers 1024)).map (s.pageList root)
    if ls.any (fun p => decide (p % 64 ≠ 0)) || decide (d.tokid % 64 ≠ 0) then 3
    else if !inDram root (d.noff + 4 * d.maxPages) || !ls.all (fun p => inDram p (64 + 4 * (d.maxPages * d.heads))) then 4
    else if s.tableBad root layers d then 0x0F
    else
      let fs := s.tableFrames root d
      let ns := s.tableNodes root d
      let over_ := fs.any (fun f => decide (s.kvFrames ≤ f)) || s.countsFull fs
        || ns.any fun x => decide (s.nodeMax ≤ x)
      let bad := ns.any fun x => decide (x < s.nodeMax) && !s.nodeValid x
      if over_ then 2 else if bad then 0x0F else 0

/-- R262: CTXREF of a node changed by `k`. -/
def State.nodeCtxref (s : State) (x : Nat) (k : Int) : State :=
  let w := s.nodeWord x 3
  s.setNodeWord x 3 (setBits w 31 0 ((bits w 31 0 : Int) + k).toNat)

/-- R257: the references of a table acquired. -/
def State.tableAcquire (s : State) (root layers : Nat) : State :=
  if layers = 0 then s
  else
    let d := s.pdir root
    (s.tableNodes root d).foldl (fun s x => s.nodeCtxref x 1)
      ((s.tableFrames root d).foldl State.frameAcquire s)

/-- R257, R260: the references of a table released. -/
def State.tableRelease (s : State) (root layers : Nat) : State :=
  if layers = 0 then s
  else
    let d := s.pdir root
    (s.tableNodes root d).foldl (fun s x => s.nodeCtxref x (-1))
      ((s.tableFrames root d).foldl State.frameRelease s)

/-- R258: the commands in flight whose snapshots name a directory. -/
def State.snapHolders (s : State) (root : Nat) : List CmdRef :=
  (s.inFlight.filter fun c => c.snaps.any fun n => decide (n.root = root)).map (·.ref)

/-- R259, R260: an old copy put on the retire list with the commands whose snapshots name it. -/
def State.retire (s : State) (root ctx : Nat) : State :=
  { s with kv := { s.kv with retired := s.kv.retired ++ [Retired.mk root ctx (s.snapHolders root)] } }

/-! ## SipHash-2-4 (R263) -/

/-- A 64-bit rotation to the left. -/
def rotl64 (x k : Nat) : Nat := ((x <<< k) ||| (x >>> (64 - k))) % 2 ^ 64

/-- One SipRound. -/
def sipRound (v : Nat × Nat × Nat × Nat) : Nat × Nat × Nat × Nat :=
  let (v0, v1, v2, v3) := v
  let v0 := (v0 + v1) % 2 ^ 64
  let v1 := rotl64 v1 13 ^^^ v0
  let v0 := rotl64 v0 32
  let v2 := (v2 + v3) % 2 ^ 64
  let v3 := rotl64 v3 16 ^^^ v2
  let v0 := (v0 + v3) % 2 ^ 64
  let v3 := rotl64 v3 21 ^^^ v0
  let v2 := (v2 + v1) % 2 ^ 64
  let v1 := rotl64 v1 17 ^^^ v2
  let v2 := rotl64 v2 32
  (v0, v1, v2, v3)

/-- A message word compressed, with two rounds. -/
def sipWord (v : Nat × Nat × Nat × Nat) (m : Nat) : Nat × Nat × Nat × Nat :=
  let (v0, v1, v2, v3) := v
  let (a, b, c, d) := sipRound (sipRound (v0, v1, v2, v3 ^^^ m))
  (a ^^^ m, b, c, d)

/-- SipHash-2-4 of a message of 64-bit words under a 128-bit key. -/
def sipHash24 (key : Nat) (ms : List Nat) : Nat :=
  let k0 := key % 2 ^ 64
  let k1 := key / 2 ^ 64 % 2 ^ 64
  let v := (k0 ^^^ 0x736f6d6570736575, k1 ^^^ 0x646f72616e646f6d, k0 ^^^ 0x6c7967656e657261, k1 ^^^ 0x7465646279746573)
  let v := ms.foldl sipWord v
  let (a, b, c, d) := sipWord v (8 * ms.length % 256 * 2 ^ 56)
  let (a, b, c, d) := sipRound (sipRound (sipRound (sipRound (a, b, c ^^^ 0xFF, d))))
  a ^^^ b ^^^ c ^^^ d

/-! ## The prefix tree (R262 to R265) -/

/-- R264: what a page's procedure found. -/
inductive PageStep where
  | stop
  | on
  deriving DecidableEq, Repr

/-- The address of a hash entry. -/
def State.hashAt (s : State) (x : Nat) : Nat := bits (s.reg (aSch 0x830)) 47 0 + 16 * x

/-- A skip counted (R264). -/
def State.kvSkip (s : State) : State := s.count32 (aSch 0x850)

/-- R264: MODS of a directory raised by one. -/
def State.modsUp (s : State) (root : Nat) : State :=
  s.store (root + 4) (leBytes 4 ((s.num (root + 4) 4 + 1) % 2 ^ 32))

/-- The lowest index of a node that is not valid. -/
def State.freeNode (s : State) : Option Nat := (List.range s.nodeMax).find? fun x => !s.nodeValid x

/-- R264: the node entries of the bucket of key `k` whose node matches. -/
def State.bucketHit (s : State) (d : PDir) (k parent : Nat) (hasParent : Bool) (ids : List Byte) : Option Nat :=
  ((List.range 8).filterMap fun i =>
    let e := s.num (s.hashAt (k % 2 ^ 17 * 8 + i) + 8) 8
    if bit e 20 then some (bits e 19 0) else none).find? fun x =>
      let w1 := s.nodeWord x 1
      let w2 := s.nodeWord x 2
      decide (s.nodeWord x 0 = k) && decide (bit w1 20 = hasParent) && (!hasParent || decide (bits w1 19 0 = parent))
        && decide (bits w2 3 0 = d.fmt) && decide (bit w2 4 = decide (d.hd = 128)) && decide (bits w2 20 16 = d.heads)
        && decide (bits w2 31 21 = d.layers)
        && decide (s.bytes (s.frameAddr (bits w1 42 21)) (4 * d.cap) = ids)

/-- R264: one page of the procedure for the directory at `root`, with how many extent frames it took from the reservation of
the command. DESIGN CHOICE (assumption 114): where a count has no room (R255), which the procedure does not name, the page is a
skip. -/
def State.prefixPage (s : State) (root n : Nat) : PageStep × State × Nat :=
  let d := s.pdir root
  let ent := fun (m : Nat) => s.num (nodeEntryAt root d m) 4
  if n > 0 ∧ ¬ bit (ent (n - 1)) 31 then (.stop, s.kvSkip, 0)
  else if bit (ent n) 31 then (.on, s, 0)
  else
    let es := (List.range d.layers).flatMap fun l =>
      (List.range d.heads).map fun h => pageEntryAt (s.pageList root l) d.heads n h
    if es.any fun a => !bit (s.num a 4) 31 then (.stop, s.kvSkip, 0)
    else
      let hasP := decide (0 < n)
      let parent := if hasP then bits (ent (n - 1)) 19 0 else 0
      let ids := s.bytes (d.tokid + 4 * n * d.cap) (4 * d.cap)
      let k := sipHash24 s.sipKey ((if hasP then s.nodeWord parent 0 else 0) ::
        (List.range (d.cap / 2)).map fun i => leNat ((ids.drop (8 * i)).take 8))
      match s.bucketHit d k parent hasP ids with
      | some x =>
        let ext := s.frameAddr (bits (s.nodeWord x 1) 42 21)
        if s.countsFull ((List.range es.length).map fun i => s.num (ext + 0x200 + 4 * i) 4) then (.stop, s.kvSkip, 0) else
        let s := (List.range es.length).foldl (fun (s : State) i =>
          let a := es.getD i 0
          let f := s.num (ext + 0x200 + 4 * i) 4
          let s := (s.frameAcquire f).frameRelease (bits (s.num a 4) 21 0)
          s.store a (leBytes 4 (f + 2 ^ 31))) s
        let s := (s.nodeCtxref x 1).setNodeWord x 4 s.now
        let s := s.store (nodeEntryAt root d n) (leBytes 4 (x + 2 ^ 31))
        (.on, (s.count32 (aSch 0x848)).modsUp root, 0)
      | none =>
        let slot := (List.range 8).find? fun i => !bit (s.num (s.hashAt (k % 2 ^ 17 * 8 + i) + 8) 8) 20
        match slot, s.freeNode with
        | some i, some x =>
          let frames := es.map fun a => bits (s.num a 4) 21 0
          if s.countsFull frames then (.stop, s.kvSkip, 0) else
          let (f, s) := s.framePop
          let s := (s.store (s.frameAddr f) ids).store (s.frameAddr f + 0x200) (frames.flatMap (leBytes 4))
          let s := (f :: frames).foldl State.frameAcquire s
          let ws := [k, parent + b2n hasP * 2 ^ 20 + f * 2 ^ 21,
            d.fmt + b2n (decide (d.hd = 128)) * 16 + d.heads * 2 ^ 16 + d.layers * 2 ^ 21 + n * 2 ^ 32,
            1, s.now, 1, 0, 0]
          let s := s.store (s.nodeAddr x) (wordBytes ws)
          let s := if hasP then s.setNodeWord parent 3 (s.nodeWord parent 3 + 2 ^ 32) else s
          let s := s.store (s.hashAt (k % 2 ^ 17 * 8 + i)) (wordBytes [k, x + 2 ^ 20])
          let s := s.store (nodeEntryAt root d n) (leBytes 4 (x + 2 ^ 31))
          let s := s.setFld (aSch 0x844) 20 0 (s.fld (aSch 0x844) 20 0 + 1)
          (.on, (s.count32 (aSch 0x84C)).modsUp root, 1)
        | _, _ => (.stop, s.kvSkip, 0)

/-- R264: pages `n` to `n + k − 1`; the extent frames taken are counted. -/
def State.prefixPages (s : State) (root : Nat) : Nat → Nat → State × Nat
  | 0, _ => (s, 0)
  | k + 1, n =>
    match s.prefixPage root n with
    | (.stop, s, u) => (s, u)
    | (.on, s, u) => let (s, v) := s.prefixPages root k (n + 1); (s, u + v)

/-- R262, R264: the procedure for one entry: positions `t0` to `t1`. A directory whose extents could not hold its frame
list takes no part, and each page it completes counts as a skip. -/
def State.prefixEntry (s : State) (root t0 t1 : Nat) : State × Nat :=
  let d := s.pdir root
  let k := t1 / d.cap - t0 / d.cap
  if s.nodeMax = 0 ∨ !d.share then (s, 0)
  else if 3968 < d.layers * d.heads then (s.count (aSch 0x850) 31 0 k, 0)
  else s.prefixPages root k (t0 / d.cap)

/-- R265: an unreferenced node removed from the tree: its hash entry and VALID cleared, its frames released, its
parent's CHILDREN lowered. -/
def State.nodeEvict (s : State) (x : Nat) : State :=
  let k := s.nodeWord x 0
  let w1 := s.nodeWord x 1
  let w2 := s.nodeWord x 2
  let ext := bits w1 42 21
  let n := bits w2 31 21 * bits w2 20 16
  let frames := (List.range n).map fun i => s.num (s.frameAddr ext + 0x200 + 4 * i) 4
  let s := match (List.range 8).find? fun i =>
      let e := s.num (s.hashAt (k % 2 ^ 17 * 8 + i) + 8) 8
      bit e 20 && decide (bits e 19 0 = x) with
    | some i => s.store (s.hashAt (k % 2 ^ 17 * 8 + i)) (List.replicate 16 0)
    | none => s
  let s := s.setNodeWord x 5 0
  let s := (ext :: frames).foldl State.frameRelease s
  let s := if bit w1 20 then s.setNodeWord (bits w1 19 0) 3 (s.nodeWord (bits w1 19 0) 3 - 2 ^ 32) else s
  s.setFld (aSch 0x844) 20 0 (s.fld (aSch 0x844) 20 0 - 1)

end Sys2Proof.Machine
end

