-- ==== Sys2Proof/Machine/Ends.lean ====
section
/-! DEFINITION. How commands and jobs end (R154, R166 to R176, R188, R205 to R209): completion entries, failure, skip,
kill, and the end of a job. -/

namespace Sys2Proof.Machine

/-! ## Completion entries (R188, R206, R209) -/

/-- R191: the status tears contexts down. -/
def tearsDown (st : Nat) : Bool := [2, 3, 4, 5, 6, 7, 8, 0x0C, 0x0F].contains st

/-- R188: words 0 to 6 of a command's completion entry. -/
def cmdEntry (j : Job) (c : Cmd) (status flags tEnd : Nat) : List Nat :=
  [ status + flags * 2 ^ 8 + c.ref.idx % 256 * 2 ^ 16 + c.kind * 2 ^ 24 + b2n c.rerun * 2 ^ 28 + c.ref.list * 2 ^ 29
      + j.id * 2 ^ 32 + c.ref.idx * 2 ^ 48,
    word c.words 6, c.tStart, tEnd,
    c.cause + min c.runs 255 * 2 ^ 16 + c.removed % 512 * 2 ^ 24 + c.mapId * 2 ^ 48,
    c.faultCtx + c.faultDie * 2 ^ 16 + c.faultLea * 2 ^ 18 + c.faultTile * 2 ^ 22,
    c.kindInfo ]

/-- R206: an entry waits for the completion ring of a set. -/
def State.cqBusy (s : State) (set : Nat) : Bool :=
  decide (s.fld (aSch 0) 1 0 = 2) || s.sched.cqWait.any (fun w => decide (w.1 = set)) || !s.ringEn set
    || ringFull (s.reg (aRing set 0x2C)) (s.reg (aRing set 0x28)) (s.ringLog set 1)

/-- R206: an entry of a type written to the completion ring of a set, or kept until there is room. -/
def State.cqPut (s : State) (set type : Nat) (ws : List Nat) (r : Option CmdRef) : State :=
  if s.cqBusy set then
    { s with sched := { s.sched with cqWait := s.sched.cqWait ++ [(set, type, ws, r)] } }
  else s.ringPut set 1 type ws

/-- R166, R206: the command's completion entry is written. -/
def State.entryDone (s : State) (r : CmdRef) : Bool :=
  !s.sched.cqWait.any fun w => decide (w.2.2.2 = some r)

/-- The bytes of a range have a part on Meadow `d`. -/
def State.rangeOn (s : State) (d a n : Nat) : Bool :=
  decide (0 < n) && (List.range ((a + n - 1) / 4096 - a / 4096 + 1)).any fun i =>
    decide (s.homeOf (max a ((a / 4096 + i) * 4096)) = some d)

/-! ## What every end that is not a commit does -/

/-- R138: ownership of the command's counters ends on the tiles of its shares. -/
def State.dropOwned (s : State) (c : Cmd) : State :=
  c.shares.foldl (fun s h =>
    let a := aTil h.die h.lea h.tile 0x1100
    s.setReg a (s.reg a - (s.reg a &&& c.owned))) s

/-- R261: the frames still reserved for a command are returned. -/
def State.dropReserve (s : State) (c : Cmd) : State :=
  s.setFld (aSch 0x810) 22 0 (s.fld (aSch 0x810) 22 0 - c.reserved)

/-- R256, R260, R297: a run has ended: nothing waits for it any longer. -/
def State.runOver (s : State) (r : CmdRef) : State :=
  { s with
    kv := { s.kv with
      retired := s.kv.retired.map fun x => { x with cmds := x.cmds.filter fun c => decide (c ≠ r) }
      quarantine := s.kv.quarantine.map fun x => { x with cmds := x.cmds.filter fun c => decide (c ≠ r) } }
    prairie := { s.prairie with
      held := s.prairie.held.map fun x => { x with cmds := x.cmds.filter fun c => decide (c ≠ r) } } }

/-- R164: the declared buffers of a run; the ranges that a PUBLISH names are none of them. -/
def Cmd.buffers (c : Cmd) : List (Nat × Nat) :=
  if c.kind = 2 ∧ bits (word c.words 8) 1 0 = 2 then
    c.outs.take (c.outs.length - (c.saved.filter fun w => !w.isEmpty).length)
  else c.outs

/-- R164, R261, R406: the buffers undefined, takes rewound, copies on write and reservations returned, counters released. -/
def State.abandon (s : State) (c : Cmd) : State :=
  let s := (s.runOver c.ref).spoil c.buffers
  let s := c.takes.foldl State.takeRewind s
  let s := c.cows.foldl (fun s w => s.framePush w.2.2) s
  (s.dropReserve c).dropOwned c

/-- A command record after an end: nothing of the run is left. -/
def Cmd.ended (c : Cmd) (p : CmdPhase) : Cmd :=
  { c with phase := p, outs := [], log := [], shares := [], engines := [], takes := [], saved := [], snaps := [], cows := [],
           reserved := 0, owned := 0, flags := 0, praDone := [], results := [], ranked := [], rankingDone := false,
           collDies := 0, pins := [] }

/-! ## Failure and teardown (R170, R171) -/

/-- R171: work of the command has begun: a thread of it or an engine step. -/
def Cmd.begun (c : Cmd) : Bool :=
  c.shares.any (fun h => decide (h.state ≠ 0) && decide (bits (word c.words 10) 57 54 ≠ 0)) || !c.engines.isEmpty

/-- R215: the run of the golden template on a lea ends with a status; it is no command of a list, and nothing else is left of it. -/
def State.goldenOver (s : State) (c : Cmd) (status : Nat) : State :=
  (s.abandon c).updCmd c.ref fun _ => { c.ended .failed with endStatus := status }

/-- R170, R171, R188: a command fails: its completion entry, EVT_CMD_FAILED, and, where the status tears down and the failure
arose after its work began, the teardown of the contexts it acts for. FAULT_CTX is the first that it tears down itself. -/
def State.failCmd (s : State) (j : Job) (c : Cmd) (status : Nat) (tears : Bool) : State :=
  if c.ref.list = 2 then s.goldenOver c status else
  let tear := if tears && tearsDown status && c.begun then
      c.ctxs.filter fun x => decide (ctxState (s.ctx x) ≠ 5) && decide (ctxState (s.ctx x) ≠ 0)
    else []
  let c := match tear with
    | x :: _ => if c.faultCtx = 0xFFFF then { c with faultCtx := x } else c
    | [] => c
  let s := s.abandon c
  let s := s.updCmd c.ref fun _ => { c.ended .failed with endStatus := status }
  let s := s.cqPut j.ringSet 1 (cmdEntry j c status 0 (max s.now 1)) (some c.ref)
  let s := s.raiseCmd j c.ref 4 0 0x1F "CMD_FAILED" 0 0
  tear.foldl (fun s x => s.tearDown j c.ref status x) s

/-- A free value read as the counts of a killed GLEN run (R245). -/
def useKilledCounts : Nat := 15

/-- R245: KIND_INFO of a killed GLEN run: what an engine had counted that was still at work is open. -/
def State.killedInfo (s : State) (c : Cmd) : Nat × State :=
  if c.kind = 1 ∧ c.engines.any (fun e => decide (e.state < 2)) then s.draw useKilledCounts else (c.kindInfo, s)

/-- R174, R175: a killed run ends: its entry with KILLED_RERUN; the command waits for its re-run. -/
def State.killedCmd (s : State) (j : Job) (c : Cmd) : State :=
  if c.ref.list = 2 then s.goldenOver c 1 else
  let (info, s) := s.killedInfo c
  let c := { c with kindInfo := info % 2 ^ 64 }
  let s := s.abandon c
  let s := s.updCmd c.ref fun _ => { c.ended .waiting with rerun := true }
  let s := s.updJob j.serial fun j => { j with kills := min (j.kills + 1) 0xFFFF }
  s.cqPut j.ringSet 1 (cmdEntry j c 1 0 (max s.now 1)) (some c.ref)

/-! ## The lists of a job -/

/-- R151: COUNT of a list. -/
def Job.count (j : Job) (l : Nat) : Nat := bits (word j.words (if l = 0 then 1 else 2)) 63 48
/-- R151, R155: the address of a command descriptor. -/
def Job.cmdAddr (j : Job) (r : CmdRef) : Nat := bits (word j.words (if r.list = 0 then 1 else 2)) 47 0 + 128 * r.idx

/-- The record of a command, fresh where it has never started. -/
def Job.cmdAt (j : Job) (r : CmdRef) : Cmd := (j.cmds.find? fun c => decide (c.ref = r)).getD (cmdFresh r)

/-- R158: the command has committed, failed or been skipped. -/
def Cmd.over (c : Cmd) : Bool :=
  decide (c.phase = .committed) || decide (c.phase = .committing) || decide (c.phase = .failed) || decide (c.phase = .skipped)

/-- R158: the first index of a list's window. -/
def Job.windowFrom (j : Job) (l : Nat) : Nat :=
  ((List.range (j.count l)).find? fun i => !(j.cmdAt ⟨l, i⟩).over).getD (j.count l)

/-- The command record put into the job, in place of an earlier one. -/
def Job.putCmd (j : Job) (c : Cmd) : Job :=
  { j with cmds := if j.cmds.any (fun x => decide (x.ref = c.ref)) then
      j.cmds.map fun x => if x.ref = c.ref then c else x
    else j.cmds ++ [c] }

/-- R155: the commands that a descriptor's DEP fields name. -/
def depsOf (r : CmdRef) (w : List Nat) : List CmdRef :=
  [bits (word w 1) 15 0, bits (word w 1) 31 16, bits (word w 1) 47 32, bits (word w 1) 63 48].filterMap fun d =>
    if d = 0 ∨ r.idx < d then none else some ⟨r.list, r.idx - d⟩

/-! ## Skips (R173) -/

/-- R173: a command that has not started is skipped where a command it depends on failed or was skipped: its entry with
CONTEXT_TORN_DOWN, whose CAUSE names the command whose failure began the chain. -/
def State.skipOne (s : State) (serial : Nat) (r : CmdRef) : State :=
  match s.sched.jobs.find? fun j => decide (j.serial = serial) with
  | none => s
  | some j =>
    let c := j.cmdAt r
    if c.phase ≠ .waiting ∨ c.runs ≠ 0 ∨ r.idx < j.windowFrom r.list ∨ j.windowFrom r.list + 256 ≤ r.idx then s
    else if s.readStatus (whoSch r) (j.cmdAddr r) 128 ≠ 0 then s
    else
      let w := s.words (j.cmdAddr r) 16
      match (depsOf r w).find? fun d => decide ((j.cmdAt d).phase = .failed) || decide ((j.cmdAt d).phase = .skipped) with
      | none => s
      | some d =>
        let cause := if (j.cmdAt d).phase = .failed then d.idx else (j.cmdAt d).cause
        let c := { c with words := w, cause := cause, tStart := max s.now 1, phase := .skipped, endStatus := 9 }
        let s := s.updJob serial fun j => j.putCmd c
        s.cqPut j.ringSet 1 (cmdEntry j c 9 0 (max s.now 1)) (some r)

/-- R173: the skips that follow a failure, in list order. -/
def State.skips (s : State) : State :=
  match s.curJob with
  | none => s
  | some j =>
    if j.phase ≠ .running then s
    else (List.range 2).foldl (fun s l => (List.range (j.count l)).foldl (fun s i => s.skipOne j.serial ⟨l, i⟩) s) s

/-! ## The end of a job (R154, R209, R216, R219) -/

/-- R219: a set that is being disabled reads EN 0 and DRAINING 0 once its last job has ended and the completion entries of its
jobs are written. -/
def State.drainSet (s : State) (set : Nat) : State :=
  let a := aRing set 0x18
  if bit (s.reg a) 13 && !s.sched.jobs.any (fun j => decide (j.ringSet = set))
      && !s.sched.cqWait.any (fun w => decide (w.1 = set) && decide (w.2.1 ≠ 3)) then
    (s.setFld a 0 0 0).setFld a 13 13 0
  else s

/-- R154: the status of a job whose commands have all ended: OK where all committed, else that of the failed command with
the lowest index, list 0 before list 1. -/
def Job.endStatus (j : Job) : Nat :=
  match ((List.range (max (j.count 0) (j.count 1))).flatMap fun i => [j.cmdAt ⟨0, i⟩, j.cmdAt ⟨1, i⟩]).find? fun c =>
      decide (c.phase = .failed) with
  | some c => c.endStatus
  | none => 0

/-- R209: words 0 to 6 of a job completion entry. A command that has run and was not skipped counts as committed or failed, or,
where JOB_CANCEL removes a suspended job, not at all. -/
def jobEntry (j : Job) (status now : Nat) : List Nat :=
  let cmds := j.cmds.filter fun c => decide (c.ref.list < 2)
  let n := fun (p : CmdPhase) => (cmds.filter fun c => decide (c.phase = p)).length
  let done := n .committed
  let failed := n .failed
  let ran := (cmds.filter fun c => decide (c.runs ≠ 0)).length
  [ status + j.id * 2 ^ 32, word j.words 5, j.tStart, max now 1,
    min done 0xFFFF + min failed 0xFFFF * 2 ^ 16 + min (j.count 0 + j.count 1 - ran) 0xFFFF * 2 ^ 32
      + j.kills * 2 ^ 48,
    j.goldenTested, j.goldenFailed ]

/-- R214, R466: the targets of the current rotation step: that lea of every present Meadow, as bits 16d + l, lost leas
left out. -/
def State.goldenTargets (s : State) : List Nat :=
  let g := s.fld (aSch 0x30) 3 0
  ((List.range 4).filter fun d => s.meadowUp d && !bit (s.reg (aMdw d 0x48)) g).map fun d => 16 * d + g

/-- R216: a DRIVE job that ends with a target of the step untested is a deferral; DEFERRALS stops at its highest value,
4. -/
def State.goldenDefer (s : State) (j : Job) : State :=
  if bit (s.reg (aSch 0x20)) 0 && decide (j.kind = 0) && s.goldenTargets.any fun b => !bit s.sched.goldenDone b then
    s.setFld (aSch 0x30) 6 4 (min 4 (s.fld (aSch 0x30) 6 4 + 1))
  else s

/-- R526: a shadow, or a module that is copied, keeps what its COMPARE says of a job of KIND DRIVE: the status of every command in list
order, and the record that it handed off. -/
def State.noteFrame (s : State) (j : Job) : State :=
  if j.kind ≠ 0 ∨ (s.fld (aCol 0) 15 13 ≠ 3 ∧ (s.fld (aCol 0) 15 13 ≠ 4 ∨ s.col.watchers = [])) then s
  else
    let statuses := (List.range 2).flatMap fun l => (List.range (j.count l)).map fun i => (j.cmdAt ⟨l, i⟩).endStatus
    { s with col := { s.col with summaries := s.col.summaries ++ [(j.id, statuses, j.handed)] } }

/-- R154, R209: a job leaves the scheduler core with a status: its completion entry is written; where it was running, its
domain, its pins and the golden reservations end. -/
def State.endJob (s : State) (j : Job) (status : Nat) : State :=
  let s := if j.started then s.goldenDefer j else s
  let cur := decide (j.phase = .running) || decide (j.phase = .suspending)
  let s := { s with
    sched := { s.sched with
      jobs := s.sched.jobs.filter fun x => decide (x.serial ≠ j.serial)
      reservations := if cur then [] else s.sched.reservations }
    domain := if cur then none else s.domain }
  ((s.noteFrame j).cqPut j.ringSet 2 (jobEntry j status s.now) none).drainSet j.ringSet

/-- R154, R209: the running job ends once every command of every list has committed, failed or been skipped, with its entry
written or waiting for its ring. DESIGN CHOICE (assumption 128): it waits for the golden runs in progress (R215). -/
def State.jobCheck (s : State) : State :=
  match s.curJob with
  | none => s
  | some j =>
    if decide (j.phase = .running) && !(j.cmds.any fun c => c.inFlight || decide (c.phase = .committing)) && ((List.range 2).all fun l =>
        (List.range (j.count l)).all fun i => (j.cmdAt ⟨l, i⟩).over) then s.endJob j j.endStatus
    else s

/-! ## Kills (R174 to R176) -/

/-- R176: the job under preemption is suspended. -/
def State.suspendJob (s : State) : State :=
  match s.curJob with
  | some j =>
    let s := (s.raiseJob j "JOB_PREEMPTED" 0 0).updJob j.serial fun j => { j with
      phase := .suspended, cmds := j.cmds.map fun c => if c.ref.list = 2 then c.ended .skipped else c }
    { s with domain := none, sched := { s.sched with reservations := [] } }
  | none => s

/-- R154: the commands that wait for their re-run end with TIMEOUT, and the job ends with it. -/
def State.limitJob (s : State) (serial : Nat) : State :=
  match s.sched.jobs.find? fun j => decide (j.serial = serial) with
  | none => s
  | some j =>
    let s := (j.cmds.filter fun c => decide (c.phase = .waiting) && decide (0 < c.runs)).foldl (fun s c =>
      let s := s.updJob serial fun j => j.putCmd { c.ended .failed with endStatus := 7 }
      let s := s.cqPut j.ringSet 1 (cmdEntry j c 7 0 (max s.now 1)) (some c.ref)
      s.raiseCmd j c.ref 4 0 0x1F "CMD_FAILED" 0 0) s
    match s.sched.jobs.find? fun j => decide (j.serial = serial) with
    | some j => s.endJob j 7
    | none => s

/-- R175: the kill is complete: each covered command ends; the job goes on, is suspended, or ends. -/
def State.killDone (s : State) (k : KillRec) : State :=
  let s := k.cmds.foldl (fun s r =>
    match s.curJob, s.cmd r with
    | some j, some c => if k.status = 1 then s.killedCmd j c else s.failCmd j c k.status k.tears
    | _, _ => s) s
  match k.after with
  | .go => s.skips.jobCheck
  | .suspend => s.suspendJob
  | .limit => match s.curJob with
    | some j => s.limitJob j.serial
    | none => s

/-- R175: the present Meadows that hold work of a command. -/
def State.workDies (s : State) (c : Cmd) : List Nat :=
  (List.range 4).filter fun d => s.meadowUp d &&
    (c.shares.any (fun h => decide (h.die = d) && decide (h.state < 2))
      || c.engines.any (fun e => decide (e.die = d) && decide (e.state < 2)))

/-- R175: no die holds up a kill; one that ends or suspends the job waits for the commands at their commit points too. -/
def State.killOver (s : State) (k : KillRec) : Bool := k.dies.isEmpty && (decide (k.after = .go) || !s.commitsWait)

/-- R175: the kills that nothing holds up are complete, in the order of their decisions. -/
def State.killsDone : Nat → State → State
  | 0, s => s
  | n + 1, s =>
    match s.sched.kills.find? s.killOver with
    | none => s
    | some k =>
      State.killsDone n (({ s with sched := { s.sched with kills := s.sched.kills.erase k } }).killDone k)

/-- R217: the golden runs that a GOLDEN command has on its leas. -/
def Cmd.goldenRuns (c : Cmd) : List CmdRef :=
  if c.kind = 5 then c.engines.map fun e => ⟨2, leaKey e.die e.lea⟩ else []

/-- R168, R174, R175: a kill decision over commands that run and are not at their commit points. Dispatch of what it covers stops;
the kill is complete when every die that holds work of them has reported drained, at once where none does. A kill that ends or
suspends the job is complete after those before it. -/
def State.kill (s : State) (rs : List CmdRef) (status : Nat) (tears : Bool) (after : KillThen) : State :=
  let rs := (rs ++ (rs.filterMap s.cmd).flatMap Cmd.goldenRuns).eraseDups
  let cs := (rs.filterMap s.cmd).filter fun c => decide (c.phase = .running) && !c.due
  let dies := (cs.flatMap s.workDies ++ (if after = .go then [] else s.sched.kills.flatMap (·.dies))).eraseDups
  let s := cs.foldl (fun s c => s.updCmd c.ref fun c => { c with phase := .killing }) s
  let s := if after = .go then s
    else match s.curJob with
      | some j => s.updJob j.serial fun j => { j with phase := .suspending }
      | none => s
  let k : KillRec := ⟨cs.map (·.ref), dies, [], status, tears, after⟩
  if cs.isEmpty && decide (after = .go) then s
  else if s.killOver k then s.killDone k
  else { s with sched := { s.sched with kills := s.sched.kills ++ [k] } }

/-- R41, R153, R176: the running job is preempted: every command in flight is killed for a re-run. -/
def State.preempt (s : State) : State := s.kill (s.inFlight.map (·.ref)) 1 false .suspend

/-- R154: the job time limit of the job `serial` has expired. While it is being suspended, the kill in progress ends it
instead. -/
def State.jobLimit (s : State) (serial : Nat) : State :=
  match s.sched.jobs.find? fun j => decide (j.serial = serial) with
  | none => s
  | some j =>
    match j.phase with
    | .queued => s
    | .suspended => s.limitJob serial
    | .suspending => { s with sched := { s.sched with kills := s.sched.kills.map fun k =>
        if k.after = .suspend then { k with after := .limit } else k } }
    | .running => s.kill (s.inFlight.map (·.ref)) 7 false .limit

/-- R168, R170: a fault record ends a command that runs and is not at its commit point: its threads and steps are ended as in
R175, and it fails. -/
def State.faultCmd (s : State) (r : CmdRef) (die lea tile status : Nat) (tears : Bool) : State :=
  if (s.cmd r).any Cmd.due then s
  else (s.updCmd r fun c => { c with faultDie := die % 4, faultLea := lea, faultTile := tile }).kill [r] status tears .go

/-! ## Queues that lose their items (R407, R411, R417) -/

/-- R407: a fault record for the command that holds a take on the queue. -/
def State.overwriteRecord (s : State) (q status : Nat) : State :=
  match (s.queue q).holder with
  | none => s
  | some r => { s with iqm := { s.iqm with records := s.iqm.records ++ [⟨r, s.runOf r, status⟩] } }

/-- R407: the command that holds a take on the queue is at its commit point, or past it. -/
def State.takeCommits (s : State) (q : Nat) : Bool :=
  match (s.queue q).holder.bind s.cmd with
  | some c => c.due || decide (c.phase = .committing)
  | none => false

/-- R411, R417: a queue is flushed; a held take is lost, and its command fails with `status` as under R407. -/
def State.flushQueue (s : State) (q status : Nat) : State :=
  let x := s.queue q
  let s := if s.takeCommits q then s else s.overwriteRecord q status
  let open_ := match x.w.item with
    | some i => i.cells
    | none => []
  let s := s.freeCells q (x.items.flatMap (·.cells) ++ x.take.flatMap (·.cells) ++ open_)
  let gone := fun (i : Item) => { i with lost := true, cells := [] }
  let s := s.setQueue q { items := [], take := x.take.map gone, holder := x.holder, w := { writerFresh with startAt := s.now } }
  (((s.setReg (aQueue q 0x24) 0).setReg (aQueue q 0x30) 0).setReg (aQueue q 0x34) 0).queueShow q

/-- R417: an uncorrectable error of the ingress queue manager at a cell: of its pool or of its link memory. -/
def State.iqmUe (s : State) (q cell : Nat) : State := (s.count32 (aIqm 0x0C)).raise 4 0 0x1F "IQM_UE" q cell

/-- R411, R417: an uncorrectable error of the link memory flushes the queue. -/
def State.linkUe (s : State) (q cell : Nat) : State := (s.iqmUe q cell).flushQueue q 5

end Sys2Proof.Machine
end

