-- ==== Sys2Proof/WellFormed.lean ====
section
/-! DEFINITION. The well-formed commands: what a sender can send at all. The operands' types bound most of them; what is left is
said here, one check a line. A command that is not well formed spells nothing the hardware can be given. -/

namespace Sys2Proof

/-- R348: a die has ports 0 to 4, the Vale 0 to 5. -/
def PortId.ok (p : PortId) : Bool := decide (p.port.val < if p.die.val = 4 then 6 else 5)

/-- R547: the thermal sensors of a die: 16 on a Meadow, 8 on the Vale, 4 on a Heath. -/
def sensors (die : Fin 7) : Nat := if die.val < 4 then 16 else if die.val = 4 then 8 else 4

/-- R464: the slack monitors of a die. -/
def slackMonitors (die : Fin 7) : Nat := if die.val < 4 then 32 else if die.val = 4 then 16 else 8

/-- A command that can be sent: its ports exist (R348), a flit has 256 bytes (R349), POST's KIND and RDID's selector are not
reserved (R140, R133), a DRAM line has 64 bytes (R329), a sensor or monitor list one value each (R334, R464, R547), a vehicle state
frame 16 bytes (R425), a PCIe request at most 4,096 bytes read or 512 written (R562), and a parameter block at most 256 QUEUE_ACT
entries (R448). -/
def Instr.wf : Instr → Bool
  | .flitData p flit => p.ok && decide (flit.length = 256)
  | .flitIdle p flit => p.ok && decide (flit.length = 256)
  | .flitNak p flit => p.ok && decide (flit.length = 256)
  | .replayTimeout p | .retrainEnd p _ _ | .rd p | .wr p | .wrp p | .rdrsp p | .wrack p | .fdlPost p | .zwr p
  | .rd2 p | .ctrlRetrain p | .ctrlResetNotify p | .linkRxTimeout p | .cap p _ _ | .capAck p _ | .hello p _
  | .resetReq p _ | .pwrBudget p | .pwrReport p | .rejoin p _ | .fence p _ | .linkTrainDone p _ _
  | .fdlTestP1 _ p | .fdlTestP2 _ p | .fdlTestP3 _ p | .fdlCntClrErr _ p | .trainingPatternDetect p => p.ok
  | .post _ _ _ kind _ => decide (kind.val < 2)
  | .rdid _ _ sel => decide (sel.val ≤ 10)
  | .dramWrite _ _ _ data => decide (data.length = 64)
  | .dramTempRead _ temps => decide (temps.length = 9)
  | .apertureWrite _ _ _ line => decide (line.length ≤ 64)
  | .vehicleStateFrame _ data => decide (data.length = 16)
  | .heathBoot _ params => decide (params.queueAct.length ≤ 256)
  | .ageingMeasure die slacks => decide (slacks.length = slackMonitors die)
  | .thermalRead die temps => decide (temps.length = sensors die)
  | .pcieInboundRead _ len => decide (0 < len.toNat) && decide (len.toNat ≤ 4096)
  | .pcieInboundWrite _ data => decide (0 < data.length) && decide (data.length ≤ 512)
  | .modeRequest .. | .modeRequestDecide | .modeChangeApply | .modeChangePreempt | .hostMissingTimeout
  | .add .. | .sub .. | .andRr .. | .orRr .. | .xorRr .. | .sll .. | .srl .. | .sra .. | .slt .. | .sltu ..
  | .mul .. | .mulhu .. | .minRr .. | .maxRr .. | .minu .. | .maxu .. | .addi .. | .andi .. | .ori ..
  | .xori .. | .slli .. | .srli .. | .srai .. | .slti .. | .shori .. | .ld .. | .ldu .. | .st .. | .vld ..
  | .vst .. | .memoryRequestAck .. | .sramCeWriteback .. | .sramScrubRead .. | .mma .. | .mmas .. | .drain ..
  | .tensorStep .. | .vadd .. | .vsub .. | .vmul .. | .vfma .. | .vmin .. | .vmax .. | .vcmplt .. | .vcmpeq ..
  | .vcvt .. | .vexp .. | .vexp2 .. | .vrsqrt .. | .vbfly4 .. | .vpoolMax .. | .vpoolAvg .. | .vpoolSelect ..
  | .vredsum .. | .vredmax .. | .vbcast .. | .vext .. | .beq .. | .bne .. | .blt .. | .bge .. | .bltu ..
  | .bgeu .. | .jal .. | .jalr .. | .postArrive .. | .wait .. | .waitArrival .. | .waitTimeout ..
  | .fenceRelease .. | .fenceAcquire .. | .fenceFull .. | .copy .. | .copyComplete .. | .tdld .. | .ltaSram ..
  | .ltaTil .. | .exit .. | .reservedInstruction .. | .threadSlotFree .. | .tileShareStart .. | .leaSwap ..
  | .swapMap .. | .tileClearDone .. | .mismatchReport .. | .tilInjectResidue .. | .tilInjectChecksum ..
  | .tilInjectVector .. | .tilInjectSramSingle .. | .tilInjectSramDouble .. | .tilInjectTimeout ..
  | .tilCntClrEcc .. | .tilCntClrSkip .. | .job .. | .ctxAlloc .. | .ctxFree .. | .ctxBlock .. | .ctxUnblock ..
  | .ctxWrite .. | .ctxRead .. | .jobCancel .. | .jobStart | .jobResume | .jobTimeout .. | .threads ..
  | .glenForward .. | .glenBackward .. | .glenCombine .. | .prairiePublish .. | .prairieWavefront ..
  | .prairieCheck .. | .prairieBatch .. | .prairieRanking .. | .collectiveReshard .. | .collectiveAllReduce ..
  | .collectiveAllGather .. | .collectiveReduceScatter .. | .checkpointSnapshot .. | .checkpointRestore ..
  | .golden .. | .cropResize .. | .zb64Pack .. | .zb64Unpack .. | .completionFifoRecord | .commandTimeout ..
  | .commitPoint .. | .completionEntryWrite .. | .contextReadiness .. | .swapInComplete .. | .autonomousSwap
  | .goldenReserve .. | .goldenRunEnd .. | .goldenSlotTimeout .. | .sqTailDoorbell .. | .ringEnable ..
  | .ringDisable .. | .kvPublish .. | .kvPublishResume | .kvEvict .. | .kvRetireRelease ..
  | .kvQuarantineRelease .. | .prairieMapRelease .. | .praInvalGrid .. | .praInvalVox .. | .glnInjectScore ..
  | .glnInjectValue .. | .glnInjectRowState .. | .glnInjectTimeout .. | .glnCntClrEcc .. | .glnCntClrSkip ..
  | .glnCntClrUse .. | .praInjectWavefront .. | .praInjectDisc .. | .praInjectBuffer .. | .praInjectTimeout ..
  | .praCntClrEcc .. | .praCntClrUse .. | .dramRead .. | .dramReadModifyWrite .. | .dramWriteDrain ..
  | .dramRefreshDue .. | .dramPatrolScrub .. | .migrationUnit .. | .eyeMonitorUpdate .. | .dramTrainingDone ..
  | .selfRefreshEntry .. | .dmcRetire .. | .dmcRhThreshWrite .. | .dmcCntClrErr .. | .kill .. | .drained ..
  | .record .. | .faultReport .. | .xframe .. | .restore .. | .dieMarkAbsent .. | .dieRejoin ..
  | .flrWindowStart .. | .urgencyRise .. | .urgencyFall .. | .flrBudgetWrite .. | .flrIqmUrgWrite ..
  | .flrCntClrLat .. | .flrCntClrOver .. | .csiLongPacket .. | .csiFrameStart .. | .csiFrameEnd ..
  | .csiShortPacketIgnored .. | .noFrameTimeout .. | .ethFrame .. | .queueOverwrittenRecord
  | .iqmQueueConfigWrite .. | .iqmCntClrPort .. | .iqmCntClrQueue .. | .timeBaseRealign .. | .ptpSync ..
  | .ptpFollowUp .. | .ptpPdelayReq .. | .ptpPdelayResp .. | .ptpPdelayReqSend | .ptpAnnounceDiscard
  | .ptpSyncTimeout | .holdoverExpiry | .heathSlot .. | .crossFrameMidslot .. | .crossFrame ..
  | .partnerSilent .. | .trajectoryRecord .. | .pairTimeout .. | .heathVerdict .. | .verdictTimeout ..
  | .acceptStale .. | .checkerSelfTest .. | .heathFailSilent .. | .helloWaitTimeout .. | .resetNotifyTimeout ..
  | .resetWireRelease .. | .collectorHeartbeat .. | .dieHung .. | .rotationStep .. | .tileSelfTestDone ..
  | .rowRepair .. | .leaRebind .. | .faultRecordWrite .. | .faultRecordTimeout .. | .ageingHourEval ..
  | .freezeNFall .. | .valFreezeReq .. | .thaw | .debugRegisterAccess .. | .mainInputInRange
  | .mainInputOutOfRange | .auxInputInRange | .auxInputOutOfRange | .inputOvervoltage .. | .heathResetRelease
  | .sequencerRelease | .resetNAssert .. | .resetNRelease | .romBoot .. | .securityCoreStart | .leaCoreLoad ..
  | .heathMeasRead | .bootSettle | .fwWatchdogExpiry .. | .fwUnhandledTrap .. | .fwMemoryUe ..
  | .fwRestartDone .. | .getVersion .. | .getCapabilities .. | .negotiateAlgorithms .. | .getDigests ..
  | .getCertificate .. | .challenge .. | .getMeasurements .. | .doeDiscovery .. | .stage .. | .activate ..
  | .arbCommit .. | .heathStage .. | .heathActivate .. | .flashRead .. | .logRead .. | .revoke ..
  | .colLockAchieved .. | .colTrainingTimeout .. | .colLossOfLock .. | .colLaneFail .. | .bypassClose ..
  | .bypassOpen .. | .colRd .. | .colRdrsp .. | .colWr .. | .colWrack .. | .colColl .. | .colHello ..
  | .colHeartbeat .. | .colKey .. | .frameForward .. | .mgmtProbe .. | .mgmtProbeRsp .. | .mgmtSuspect ..
  | .mgmtVote .. | .mgmtExpel .. | .mgmtRoute .. | .mgmtRouteCommit .. | .mgmtAdmitReq .. | .mgmtAdmit ..
  | .mgmtSpdm .. | .mgmtRing .. | .mgmtAperture .. | .mgmtRole .. | .mgmtCompare .. | .mgmtResign ..
  | .mgmtCandidate .. | .candidateWait | .formationElect | .admitRetry | .colHeartbeatSend
  | .colHeartbeatMiss .. | .probeTimeout .. | .authFailExpulsion | .keyErase .. | .remoteTimeout ..
  | .collRetry | .colCntClrErr .. | .pwrBudgetCycle | .powerMeasure .. | .oppEvaluate .. | .coolantRead ..
  | .msixMessage .. | .perstAChange .. | .pcieLinkChange .. | .pcieCompletionTimeout .. | .registerWrite ..
  | .engineCompletion .. | .pcieConfigRequest .. | .portBInboundRequest | .ethPcsLockChange ..
  | .sgmiiLinkChange .. | .dieLeavesReset .. | .meadowRestoreComplete .. | .heathSilentReplace ..
  | .tapScanShift .. => true

end Sys2Proof
end

