-- ==== Sys2Proof/Machine/Links.lean ====
section
/-! DEFINITION. The Fuora Die Link (R347 to R369): ports and partners, flits with CRC and retry, link states, capability
negotiation, lane tests and repair, and a port that goes down. -/

namespace Sys2Proof.Machine

/-! ## Ports (R19, R348) -/

/-- R348: the die has a port of this number. -/
def portOk (p : PortId) : Bool := p.ok

/-- The key of a port. -/
def portKey (die port : Nat) : Nat := die * 8 + port
/-- A port. -/
def State.port (s : State) (die p : Nat) : Port := readAt (fun _ => portFresh) s.ports (portKey die p)
/-- A port replaced. -/
def State.setPort (s : State) (die p : Nat) (x : Port) : State :=
  { s with ports := writeAt (fun _ => portFresh) s.ports (portKey die p) x }

/-- A die's own reset. -/
def State.dieSt (s : State) (die : Nat) : DieSt := readAt (fun _ => dieFresh) s.dies die
/-- A die's own reset replaced. -/
def State.setDie (s : State) (die : Nat) (x : DieSt) : State :=
  { s with dies := writeAt (fun _ => dieFresh) s.dies die x }

/-- R369: an event of a port; ARG1 names the die and port. -/
def State.raiseFdl (s : State) (die p : Nat) (name : String) (arg0 : Nat) : State :=
  s.raise die 0 0x1F name arg0 (8 * die + p)

/-! ## Messages (R350, R351) -/

/-- MTYPE. -/
def Msg.type (m : Msg) : Nat := bits m.h0 3 0
/-- VC. -/
def Msg.vc (m : Msg) : Nat := bits m.h0 5 4
/-- DSLOTS. -/
def Msg.dslots (m : Msg) : Nat := bits m.h0 55 53
/-- STATUS. -/
def Msg.status (m : Msg) : Nat := bits m.h0 63 56
/-- ADDR. -/
def Msg.addr (m : Msg) : Nat := bits m.h1 47 0

/-- R350: CLASS. -/
def Msg.cls (m : Msg) : Nat := bits m.h0 8 6
/-- R350: TASK. -/
def Msg.task (m : Msg) : Nat := bits m.h0 20 9
/-- R350: INIT. -/
def Msg.init (m : Msg) : Nat := bits m.h0 32 21

/-- R351, R373: the message travels on VC2: it is of class 7 or of a real-time master. -/
def Msg.fast (m : Msg) : Bool := decide (m.cls = 7) || rtMaster m.init m.task

/-- R350, R351, R358: the message keeps the rules: its type with a VC and DSLOTS that the type admits, STATUS 0 in a
request, and no feature that the link has not agreed. It arrives at `die` from `other`. -/
def msgOk (m : Msg) (features die other : Nat) : Bool :=
  let t := m.type
  let req := decide (m.vc = if m.fast then 2 else 0) && decide (m.status = 0)
  let rsp := decide (m.vc = if m.fast then 2 else 1)
  let ctl := decide (m.vc = 3) && decide (m.status = 0)
  let heath := fun (d : Nat) => decide (5 ≤ d)
  match t with
  | 1 => req && decide (m.dslots = 0)
  | 2 => req && decide (m.dslots = 4)
  | 3 => req && decide (m.dslots = 5)
  | 4 => rsp && (decide (m.dslots = 4) || (decide (m.dslots = 0) && decide (m.status ≠ 0)))
  | 5 => rsp && decide (m.dslots = 0)
  | 6 => req && decide (m.dslots = 1)
  | 7 => req && decide (m.dslots = 0) && bit features 8
  | 8 => req && decide (m.dslots = 0) && bit features 11
  | 9 => ctl && decide (m.dslots = 2)
  | 10 => ctl && decide (m.dslots = 0)
  | 11 => ctl && decide (m.dslots = 2)
  | 12 => ctl && decide (m.dslots = 0) && (decide (m.addr % 256 = 1) || decide (m.addr % 256 = 2))
  | 13 => ctl && decide (m.dslots = 4) && decide (m.addr = 0) && ((decide (die = 4) && heath other) || (heath die && decide (other = 4)))
  | 14 => ctl && decide (m.dslots = 4) && heath other && !heath die
  | _ => false

/-- R350: the messages of the slots from slot `i` on; none where one breaks R350 or R351. `flit` is the flit's bytes. -/
def msgsFrom (flit : List Byte) (features die other : Nat) : Nat → Nat → Option (List Msg)
  | 0, _ => some []
  | n + 1, i =>
    if 15 ≤ i then some []
    else
      let o := 8 + 16 * i
      let h0 := leNat ((flit.drop o).take 8)
      if h0 % 0x10000 = 0 then msgsFrom flit features die other n (i + 1)
      else
        let m : Msg := ⟨h0, leNat ((flit.drop (o + 8)).take 8), (flit.drop (o + 16)).take (16 * bits h0 55 53)⟩
        if !msgOk m features die other || decide (15 < i + 1 + m.dslots) then none
        else (msgsFrom flit features die other n (i + 1 + m.dslots)).map fun l => m :: l

/-! ## Sending (R351, R353) -/

/-- R353: the depth of the replay buffer in flits. -/
def State.replayDepth (s : State) (die p : Nat) : Nat := 16 * s.fld (aFdl die p 0x28) 15 8

/-- The oldest entry of a queue with the least key. -/
def oldestLeast (key : Nat × Msg → Nat) : List (Nat × Msg) → Option (Nat × Msg)
  | [] => none
  | e :: t => match oldestLeast key t with
    | none => some e
    | some b => if key e ≤ key b then some e else some b

/-- R376: the regulation point of the transmit side of a port, none where it has none. -/
def portPoint (die p : Nat) : Option Nat :=
  if (die < 4 ∧ p < 3) ∨ (die = 4 ∧ p < 4) then some (p + 1) else none

/-- R377: the tier of a message at the regulation point of a port. Where the port has none, all are alike. -/
def State.msgTier (s : State) (die p : Nat) (m : Msg) : Nat :=
  match portPoint die p with
  | some q => if m.vc = 3 then 2 else s.tier die q m.cls m.init m.task
  | none => 0

/-- R351, R353, R355, R372, R377, R381: the message of a port that leaves next: VC3, then VC2, then VC1 and VC0, with credit for all
its slots; in STANDBY only VC3. At a regulation point the oldest of the highest tier leaves, of VC1 and VC0 together, and none of
tier 6 while the partner's level is 2; elsewhere the inputs of a VC take turns, and VC1 goes before VC0. -/
def Port.sendable (x : Port) (active regulated : Bool) (tier : Msg → Nat) : Option (Nat × Msg) :=
  let key := fun (e : Nat × Msg) => if regulated then tier e.2 else (e.1 + 8 - x.turn.getD e.2.vc 8) % 9
  let best := fun (vc : Nat) =>
    let l := x.txq.filter fun e => decide (e.2.vc = vc) && !(decide (x.urgency = 2) && decide (tier e.2 = 6))
    (oldestLeast key l).filter fun e => decide (1 + e.2.dslots ≤ x.credits.getD vc 0)
  match best 3 with
  | some e => some e
  | none =>
    if !active then none
    else match best 2 with
      | some e => some e
      | none =>
        if regulated then oldestLeast key (x.txq.filter fun e => decide (best 1 = some e) || decide (best 0 = some e))
        else (best 1).or (best 0)

/-- R350: the slots of a message. -/
def Msg.slots (m : Msg) : List Byte :=
  leBytes 8 m.h0 ++ leBytes 8 m.h1 ++ (m.data ++ List.replicate (16 * m.dslots - m.data.length) 0)

/-- R349, R352: a flit of FTYPE `ty` is sent: its SEQ, the last DATA flit accepted, the slots freed since the last flit, the
sender's URGENCY, its slots and the CRC. -/
def Port.emit (x : Port) (ty seq urg : Nat) (slots : List Byte) (low : Bool) : Port :=
  let give := (List.range 4).map fun v => min 15 (x.freed.getD v 0)
  let ack := if x.acked then (x.rxSeq + 4095) % 4096 + 2 ^ 12 else 0
  let h := ty + seq * 2 ^ 4 + ack * 2 ^ 16 + ((List.range 4).map fun v => give.getD v 0 * 2 ^ (32 + 4 * v)).sum + urg * 2 ^ 48
  let bs := leBytes 8 h ++ (slots ++ List.replicate (244 - slots.length) 0)
  { x with
    flit := bs ++ leBytes 4 (crc32c bs)
    freed := (List.range 4).map fun v => x.freed.getD v 0 - give.getD v 0
    low := low }

/-- R353, R381: messages leave in DATA flits, each kept for replay; a full replay buffer stalls them. While the partner's level is
1, no two flits in succession carry messages of tier 6. -/
def Port.pump (depth now : Nat) (active regulated : Bool) (urg : Nat) (tier : Msg → Nat) : Nat → Port → Port
  | 0, x => x
  | n + 1, x =>
    if depth ≤ x.sent.length then x
    else match x.sendable active regulated tier with
      | none => x
      | some e =>
        let m := e.2
        let low := decide (tier m = 6)
        let x := if low && x.low && decide (x.urgency = 1) then x.emit 0 0 urg [] false else x
        let y := x.emit 1 x.txSeq urg m.slots low
        Port.pump depth now active regulated urg tier n { y with
          txq := y.txq.erase e
          turn := y.turn.set m.vc e.1
          credits := y.credits.set m.vc (y.credits.getD m.vc 0 - (1 + m.dslots))
          sent := y.sent ++ [(y.txSeq, m)]
          txSeq := (y.txSeq + 1) % 4096
          ackAt := if y.sent.isEmpty then now else y.ackAt }

/-- R349, R357, R381: the URGENCY that a die sends on a port. -/
def State.urgencyOut (s : State) (die p : Nat) : Nat := if bit (s.reg (aFdl die p 0x18)) 9 then s.ownLevel die else 0

/-- R376: a message is charged at its port, by its slots. -/
def State.chargeMsg (s : State) (die p : Nat) (m : Msg) : State :=
  match portPoint die p with
  | some q => s.charge die q m.cls m.task (1 + m.dslots)
  | none => s

/-- What a port can send, it sends. -/
def State.pump (s : State) (die p : Nat) : State :=
  if !s.linkUp die p then s
  else
    let x := s.port die p
    let y := x.pump (s.replayDepth die p) s.clock (decide (s.linkState die p = 4)) (portPoint die p).isSome (s.urgencyOut die p)
      (s.msgTier die p) (x.txq.length + 1)
    (y.sent.drop x.sent.length).foldl (fun s e => s.chargeMsg die p e.2) (s.setPort die p y)

/-- R349, R352: an IDLE flit (0), which returns ACK and credits, or a NAK (2). -/
def State.bareFlit (s : State) (die p ty : Nat) : State :=
  if s.linkUp die p then s.setPort die p ((s.port die p).emit ty 0 (s.urgencyOut die p) [] false) else s

/-- A message queued at a port; `from_` is the port of the die that it came by, 8 for the die itself. -/
def State.queueMsg (s : State) (die p from_ : Nat) (m : Msg) : State :=
  let x := s.port die p
  (s.setPort die p { x with txq := x.txq ++ [(from_, m)] }).pump die p

/-- R351: link control: RETRAIN 1, RESET_NOTIFY 2. -/
def ctrlMsg (die code : Nat) : Msg := ⟨0xC + 3 * 2 ^ 4 + die * 256 * 2 ^ 21, code, []⟩

/-- R358: the message as a link without its feature carries it: WR with zero data for ZWR, two RDs for RD2. -/
def linkForms (features : Nat) (m : Msg) : List Msg :=
  if m.type = 7 ∧ ¬ bit features 8 then [⟨setBits (setBits m.h0 3 0 2) 55 53 4, m.h1, List.replicate 64 0⟩]
  else if m.type = 8 ∧ ¬ bit features 11 then
    let h := setBits m.h0 3 0 1
    [⟨h, m.h1, []⟩, ⟨h, setBits m.h1 47 0 (m.addr + 64), []⟩]
  else [m]

/-- R350, R351: the response to a request, with a status and data: VC2 answers VC2, VC1 every other. -/
def responseOf (h0 h1 type status : Nat) (data : List Byte) : Msg :=
  let vc := if bits h0 5 4 = 2 then 2 else 1
  let w := setBits (setBits (setBits (setBits h0 3 0 type) 5 4 vc) 55 53 (data.length / 16)) 63 56 status
  ⟨w, h1, data⟩

/-- R351: the type of the response to a request. -/
def responseType (h0 : Nat) : Nat := if bits h0 3 0 = 1 ∨ bits h0 3 0 = 8 then 4 else 5

/-- R363: a request answered with DIE_ABSENT at the port it came from. A post has no answer. -/
def State.answerAbsent (s : State) (die : Nat) (f : Forwarded) : State :=
  let s := if bits f.h0 3 0 = 6 then s else s.queueMsg die f.from_ 8 (responseOf f.h0 f.h1 (responseType f.h0) 8 [])
  if bits f.h0 3 0 = 8 then s.queueMsg die f.from_ 8 (responseOf f.h0 f.h1 (responseType f.h0) 8 []) else s

/-! ## Commands named by tags (R350, R365) -/

/-- R350: the command in flight that a header's LIST and CTAG name, where CT_VALID is 1. -/
def State.taggedCmd (s : State) (h0 : Nat) : Option CmdRef :=
  if bit h0 52 then
    (s.inFlight.find? fun c => decide (c.ref.list = bits h0 51 51) && decide (c.ref.idx % 256 = bits h0 50 43)).map (·.ref)
  else none

/-! ## Sideband (R356) -/

/-- R356: a sideband payload sent on a port. -/
def State.sideSend (s : State) (die p v : Nat) : State :=
  let x := s.port die p
  s.setPort die p { x with sideband := x.sideband ++ [v] }

/-- R356: the payload has been sent to this port and has not arrived. -/
def State.sideSent (s : State) (die p v : Nat) : Bool :=
  match portTo (facing die p) die with
  | some q => (s.port (facing die p) q).sideband.contains v
  | none => false

/-- R356: a payload arrives at a port: its sender has nothing of it under way any more. -/
def State.sideTake (s : State) (die p v : Nat) : State :=
  match portTo (facing die p) die with
  | some q =>
    let x := s.port (facing die p) q
    if x.sideband.contains v then s.setPort (facing die p) q { x with sideband := x.sideband.erase v } else s
  | none => s

/-! ## States (R353 to R355, R363) -/

/-- R353, R354: an ACTIVE port enters RETRAIN. -/
def State.retrain (s : State) (die p : Nat) : State :=
  if s.linkState die p ≠ 4 then s
  else
    let x := s.port die p
    ((s.setLink die p 5).setPort die p { x with retrainAt := s.clock, heard := s.clock }).raiseFdl die p "FDL_RETRAIN" 0

/-- R354: a port decides to retrain: it sends CTRL RETRAIN and enters RETRAIN. -/
def State.retrainFirst (s : State) (die p : Nat) : State :=
  if s.linkState die p ≠ 4 then s else (s.queueMsg die p 8 (ctrlMsg die 1)).retrain die p

/-- R353, R354: every unacknowledged flit is replayed; 8 replays of one flit in succession, or a rise of FDL_RETRY by 64
within 1 ms, retrain the link. -/
def State.replay (s : State) (die p : Nat) : State :=
  let x := s.port die p
  if x.sent.isEmpty then s
  else
    let times := s.clock :: x.retryAt.filter fun t => decide (s.clock ≤ t + 1000000)
    let x := { x with replays := x.replays + 1, ackAt := s.clock, retryAt := times }
    let x := x.sent.foldl (fun (x : Port) e => x.emit 1 e.1 (s.urgencyOut die p) e.2.slots false) x
    let s := (s.setPort die p x).count32 (aFdl die p 0x30)
    if 8 ≤ x.replays ∨ 64 ≤ times.length then s.retrainFirst die p else s

/-- R363, R365: the commands whose threads have a request under way by a port: on some die, to an address behind it. -/
def State.tagsBy (s : State) (die p : Nat) : List CmdRef :=
  ((s.slots.filter fun e => e.2.busy && e.2.reqs.any fun q =>
    match s.homeOf q.addr with
    | some d => ((s.hops (slotDie e.1) d).getD []).contains (die, p)
    | none => false).map fun e => e.2.cmd).eraseDups

/-- R363: a port goes DOWN: its queues are discarded, what is outstanding to the partner is answered with DIE_ABSENT, the
event is raised and counted, and the commands whose tags it reports are killed (R365). -/
def State.portDown (s : State) (die p : Nat) : State :=
  let x := s.port die p
  let tags := (x.outstanding.filterMap (fun f => s.taggedCmd f.h0) ++ s.tagsBy die p).eraseDups
  let s := s.setPort die p { portFresh with
    rxSeq := 0, retrainAt := x.retrainAt, modsOff := x.modsOff, inbox := x.inbox, heard := x.heard, downAt := s.clock }
  let s := (s.setLink die p 6).setFld (aFdl die p 0x60) 7 0 0
  let s := x.outstanding.foldl (fun s f => s.answerAbsent die f) s
  let s := (s.count32 (aFdl die p 0x38)).raiseFdl die p "FDL_DOWN" 0
  s.kill tags 1 false .go

/-- R356, R363: a port in ACTIVE or STANDBY goes DOWN. -/
def State.portLost (s : State) (die p : Nat) : State := if s.linkUp die p then s.portDown die p else s

/-! ## Flits (R349, R352 to R354) -/

/-- R352: ACK and CREDITS of a flit with a good CRC. -/
def Port.takeAck (x : Port) (now : Nat) (h : Nat) : Port :=
  let n := bits h 27 16
  let covers := bit h 28 && x.sent.any fun e => decide (e.1 = n)
  let sent := if covers then (x.sent.dropWhile fun e => decide (e.1 ≠ n)).drop 1 else x.sent
  { x with
    sent := sent
    ackAt := if covers then now else x.ackAt
    replays := if covers then 0 else x.replays
    credits := (List.range 4).map fun v => x.credits.getD v 0 + bits h (35 + 4 * v) (32 + 4 * v) }

/-- R352: a DATA flit was lost: one NAK for each gap. -/
def State.nakGap (s : State) (die q : Nat) : State :=
  let x := s.port die q
  if x.gap then s else (s.setPort die q { x with gap := true }).bareFlit die q 2

/-- R349, R352 to R354: a flit arrives. One with a bad CRC is counted and used for nothing. With a good CRC its ACK, its
credits and, where agreed, its URGENCY are taken; then `f` acts on a flit of FTYPE `ty`. -/
def State.flit (s : State) (p : PortId) (bs : List Byte) (ty : Nat) (f : State → Nat → State) : State :=
  let die := p.die.val
  let q := p.port.val
  if !portOk p || !s.linkUp die q then s
  else
    let x := { s.port die q with heard := s.clock }
    let s := s.setPort die q x
    if bs.length ≠ 256 ∨ leNat ((bs.drop 252).take 4) ≠ crc32c (bs.take 252) then
      let s := s.count32 (aFdl die q 0x34)
      if ty = 1 then s.nakGap die q else s
    else
      let h := leNat (bs.take 8)
      let x := x.takeAck s.clock h
      let x := if bit (s.reg (aFdl die q 0x18)) 9 then { x with urgency := bits h 49 48 } else x
      let s := if die < 5 then s.setFld (aFlr die 0x1C) (2 * q + 3) (2 * q + 2) x.urgency else s
      let s := (s.setPort die q x).pump die q
      if bits h 3 0 = ty then f s h else s

/-- R351: a message of VC3 takes its slots no longer than its own row needs: CTRL acts at once, and the others act in rows of their
own. -/
def State.ctrlIn (s : State) (die q : Nat) (m : Msg) : State :=
  if m.type = 12 ∧ m.addr % 256 = 1 then s.retrain die q
  else if m.type = 12 ∧ m.addr % 256 = 2 then s.portLost die q
  else s

/-- R352, R354: a DATA flit: accepted where its SEQ is the one expected, and its ACK returned, else discarded with one NAK for the
gap. Its messages wait for their own commands. -/
def execFlitData (p : PortId) (flit : List Byte) (s : State) : Host.Outcome State Fault Refusal :=
  .next <| s.live (s.flit p flit 1 fun s h =>
    let die := p.die.val
    let q := p.port.val
    let x := s.port die q
    if bits h 15 4 ≠ x.rxSeq then s.nakGap die q
    else
      let x := { x with rxSeq := (x.rxSeq + 1) % 4096, gap := false, acked := true }
      match msgsFrom flit (s.reg (aFdl die q 0x18)) die (facing die q) 15 0 with
      | none => (s.setPort die q x).retrainFirst die q
      | some l =>
        let ctl := l.filter fun m => decide (m.vc = 3)
        let freed := x.freed.set 3 (x.freed.getD 3 0 + (ctl.map fun m => 1 + m.dslots).sum)
        let s := s.setPort die q { x with inbox := x.inbox ++ l.filter fun m => decide (m.vc ≠ 3), freed := freed }
        ctl.foldl (fun s m => s.ctrlIn die q m) (s.bareFlit die q 0))

/-- R349: an IDLE flit: only its header counts. -/
def execFlitIdle (p : PortId) (flit : List Byte) (s : State) : Host.Outcome State Fault Refusal :=
  .next <| s.live (s.flit p flit 0 fun s _ => s)

/-- R353: a NAK: every unacknowledged flit is replayed. -/
def execFlitNak (p : PortId) (flit : List Byte) (s : State) : Host.Outcome State Fault Refusal :=
  .next <| s.live (s.flit p flit 2 fun s _ => s.replay p.die p.port)

/-- R353: 1,024 protocol cycles (of 1 ns) with unacknowledged flits and no advance of ACK. -/
def execReplayTimeout (p : PortId) (s : State) : Host.Outcome State Fault Refusal :=
  .next <| s.live (if portOk p && s.linkUp p.die p.port && decide ((s.port p.die p.port).ackAt + 1024 < s.clock) then
    s.replay p.die p.port else s)

/-- R354: the partner's CTRL RETRAIN. -/
def execCtrlRetrain (p : PortId) (s : State) : Host.Outcome State Fault Refusal :=
  .next <| s.live (if portOk p then s.retrain p.die p.port else s)

/-- R354, R363: no flits, but training patterns, which show that the partner is there. -/
def execTrainingPatternDetect (p : PortId) (s : State) : Host.Outcome State Fault Refusal :=
  .next <| s.live (if portOk p then
    let x := s.port p.die p.port
    (s.setPort p.die p.port { x with heard := s.clock }).retrain p.die p.port
  else s)

/-- R363: a RESET_NOTIFY of the partner arrives: it is under way no more. -/
def State.notifyTaken (s : State) (die p : Nat) : State :=
  let other := facing die p
  match portTo other die with
  | some q =>
    let x := s.dieSt other
    if x.notified.contains q then s.setDie other { x with notified := x.notified.erase q } else s
  | none => s

/-- R363: the partner's CTRL RESET_NOTIFY. -/
def execCtrlResetNotify (p : PortId) (s : State) : Host.Outcome State Fault Refusal :=
  .next <| s.live (if portOk p then (s.notifyTaken p.die p.port).portLost p.die p.port else s)

/-- R363, R15: 48 protocol cycles with neither a flit nor a training pattern. -/
def execLinkRxTimeout (p : PortId) (s : State) : Host.Outcome State Fault Refusal :=
  .next <| s.live (if portOk p && decide ((s.port p.die p.port).heard + 48 < s.clock) then s.portLost p.die p.port else s)

/-! ## Capability negotiation (R356 to R360) -/

/-- R360: the record a die announces on a port: FEATURES, RATE, MODULES, REPLAY. -/
def ownRecord (die p : Nat) : Nat × Nat × Nat × Nat :=
  if 5 ≤ die then (ownFeatures true, 1, 1, 4)
  else
    let mods := if 5 ≤ facing die p then 1 else if die = 4 ∨ facing die p = 4 then 4 else 8
    (ownFeatures false, 4, mods, 32)

/-- R3, R359: the identity rule: DIE_TYPE and POS are those of the die that the port faces. -/
def identityOk (other id : Nat) : Bool :=
  decide (bits id 31 24 = if other < 4 then 0x4D else if other = 4 then 0x56 else 0x48) &&
    decide (bits id 15 12 = if other < 4 then other else if other = 4 then 0 else other - 5)

/-- R356, R357: the parts of a die's own record on a port, as CAP messages. -/
def State.sendCaps (s : State) (die p : Nat) : State :=
  let (feat, rate, mods, depth) := ownRecord die p
  let r := feat + (rate + mods * 2 ^ 4 + depth * 2 ^ 8) * 2 ^ 64 + s.fld (dieBase die) 31 0 * 2 ^ 128
  (List.range 4).foldl (fun s i => s.sideSend die p (1 + i * 2 ^ 8 + bits r (48 * i + 47) (48 * i) * 2 ^ 16)) s

/-- R355, R358: a port enters NEGOTIATE: what it knew of its partner is gone, and it sends its record. -/
def State.startNegotiate (s : State) (die p : Nat) : State :=
  let x := s.port die p
  let s := (s.setLink die p 1).setPort die p { x with
    capParts := [], exchanges := 0, agreed := false, trained := false, sideband := x.sideband.filter fun v => decide (v % 256 = 3) }
  s.sendCaps die p

/-- R355, R358: negotiation refuses. -/
def State.refuseLink (s : State) (die p cause : Nat) : State :=
  let s := ((s.setLink die p 7).setFld (aFdl die p 0) 3 3 1).setFld (aFdl die p 0) 6 4 cause
  s.raiseFdl die p "FDL_CAP_REFUSED" cause

/-- R358: the bytes of the agreed record: three words, ID being the remote one. -/
def State.agreedBytes (s : State) (die p : Nat) : List Byte :=
  wordBytes [s.reg (aFdl die p 0x18), s.fld (aFdl die p 0x28) 15 0, s.fld (aFdl die p 0x2C) 31 0]

/-- R358: the procedure, once the partner's record is complete. `r` is the 192-bit record. -/
def State.negotiate (s : State) (die p r : Nat) : State :=
  let (feat, rate, mods, depth) := ownRecord die p
  let w0 := bits r 63 0
  let w1 := bits r 127 64
  let id := bits r 159 128
  let s := (s.setReg (aFdl die p 0x10) w0).setReg (aFdl die p 0x2C) id
  let rrate := bits w1 3 0
  if w0 % 256 ≠ 255 ∨ feat % 256 ≠ 255 ∨ (rrate ≠ 1 ∧ rrate ≠ 4) then s.refuseLink die p 1
  else if !identityOk (facing die p) id then s.refuseLink die p 2
  else
    let agreed := feat &&& w0
    let disabled := feat - agreed
    let s := (s.setReg (aFdl die p 0x18) agreed).setReg (aFdl die p 0x20) disabled
    let s := s.setReg (aFdl die p 0x28)
      (min rate rrate + 16 * (min mods (bits w1 7 4) % 16) + 256 * min depth (bits w1 15 8))
    let x := s.port die p
    let first := decide (x.exchanges = 0)
    let s := s.setPort die p { x with agreed := true }
    let s := s.sideSend die p (2 + crc16 (s.agreedBytes die p) * 2 ^ 16)
    if disabled ≠ 0 ∧ first then s.raiseFdl die p "FDL_CAP_REDUCED" disabled else s

/-- R356: CAP: a part of the partner's record; the fourth completes it. One with a PART above 3 is discarded and counted. -/
def execCap (p : PortId) (part : Byte) (data : BitVec 48) (s : State) : Host.Outcome State Fault Refusal :=
  .next <| s.live <|
    let s := s.sideTake p.die p.port (1 + part.toNat * 2 ^ 8 + data.toNat * 2 ^ 16)
    let x := s.port p.die p.port
    if !portOk p then s
    else if 3 < part.toNat then s.count32 (aFdl p.die p.port 0x3C)
    else if s.linkState p.die p.port ≠ 1 ∨ x.agreed then s
    else
      let parts := insertKey x.capParts part.toNat data.toNat
      let s := s.setPort p.die p.port { x with capParts := parts }
      if parts.length = 4 then
        s.negotiate p.die p.port ((List.range 4).foldl (fun r i => r + readAt (fun _ => 0) parts i <<< (48 * i)) 0)
      else s

/-- R358: CAP_ACK: the partner's CRC of the agreed record is compared; the exchange is repeated, at most 3 times in all. -/
def execCapAck (p : PortId) (crc : BitVec 16) (s : State) : Host.Outcome State Fault Refusal :=
  .next <| s.live <|
    let s := s.sideTake p.die p.port (2 + crc.toNat * 2 ^ 16)
    let x := s.port p.die p.port
    if !portOk p || decide (s.linkState p.die p.port ≠ 1) || !x.agreed then s
    else if crc.toNat = crc16 (s.agreedBytes p.die p.port) then s.setLink p.die p.port 2
    else if x.exchanges + 1 = 3 then s.refuseLink p.die p.port 3
    else (s.setPort p.die p.port { x with exchanges := x.exchanges + 1, capParts := [], agreed := false }).sendCaps p.die p.port

/-- R355, R356: the partner's HELLO: a DOWN port enters NEGOTIATE. -/
def execHello (p : PortId) (id : Word32) (s : State) : Host.Outcome State Fault Refusal :=
  .next <| s.live <|
    if !portOk p then s
    else
      let s := s.sideTake p.die p.port (3 + id.toNat * 2 ^ 16)
      if s.linkState p.die p.port = 6 then s.startNegotiate p.die p.port else s

/-! ## Lane tests and repair (R361, R362) -/

/-- R368: the redundant lanes of FDL_REPAIRm in use. -/
def repairsUsed (r : Nat) : List Nat := (List.range 4).filter fun k => bit r (8 * k + 7)

/-- R361: the repairs of module `m`: each failed data lane goes onto a redundant lane that is free, and is recorded as found
at run time. -/
def State.repairLanes (s : State) (die p m : Nat) : List Nat → State
  | [] => s
  | l :: t =>
    let a := aFdl die p (0x40 + 4 * m)
    match (List.range 4).find? fun k => !bit (s.reg a) (8 * k + 7) with
    | none => s
    | some k =>
      let s := s.setFld a (8 * k + 7) (8 * k) (l + 0xC0)
      ((s.raiseFdl die p "FDL_REPAIR" (64 * m + l)).frecNote 0x05 die 0 (p + m * 8 + l * 64)).repairLanes die p m t

/-- R362: the repairs made at assembly are applied to the ports of a die, before TRAIN. -/
def State.factoryRepairs (s : State) (die : Nat) : State :=
  (s.fuses.repairs.filter fun r => decide (r.1 = die)).foldl (fun s r =>
    let a := aFdl die r.2.1 (0x40 + 4 * r.2.2.1)
    match (List.range 4).find? fun k => !bit (s.reg a) (8 * k + 7) with
    | some k => s.setFld a (8 * k + 7) (8 * k) (r.2.2.2 % 64 + 0x80)
    | none => s) s

/-- R361: the outcome of one module, `lanes` being the data lanes that fail, one that fails again on the repaired module twice, and a
repair made at assembly that fails as well (R362): disabled where a redundant lane fails or more than 4 of its data lanes do, else its
failed lanes are repaired; whether it passes. -/
def State.moduleResult (s : State) (die p m : Nat) (lanes : List Nat) (redundant : Bool) : State × Bool :=
  let x := s.port die p
  if bit x.modsOff m then (s, false)
  else
    let used := (repairsUsed (s.reg (aFdl die p (0x40 + 4 * m)))).length
    if redundant || decide (4 < used + lanes.length) then
      let s := s.setPort die p { x with modsOff := x.modsOff + 2 ^ m }
      let s := s.raiseFdl die p "FDL_MODULE_LOST" m
      ((s.replaceReq 4).frecNote 0x05 die 0 (p + m * 8 + 2 ^ 12), false)
    else
      let s := s.repairLanes die p m lanes
      (if !lanes.isEmpty && decide (used + lanes.length = 4) then s.replaceReq 4 else s, true)

/-- R361, R368: the tests of every module of a link; the modules that pass carry flits. `n` is the number of data lanes
that failed. -/
def State.laneTests (s : State) (p : PortId) (mods : List ModuleTest) (eye : Eye) : State × Nat × Nat :=
  let die := p.die.val
  let q := p.port.val
  let k := s.fld (aFdl die q 0x28) 7 4
  let (s, passed) := (List.range k).foldl (fun (r : State × Nat) m =>
    let (s, ok) := match mods[m]? with
      | some t => r.1.moduleResult die q m (t.lanes.map fun (l : Fin 64) => l.val) t.redundant
      | none => r.1.moduleResult die q m [] false
    (s, if ok then r.2 + 2 ^ m else r.2)) (s, 0)
  let s := s.setFld (aFdl die q 0x60) 7 0 passed
  let s := if bit (s.reg (aFdl die q 0x18)) 10 then
      s.setReg (aFdl die q 0x70) (eye.width.toNat + eye.module_ * 2 ^ 8 + eye.lane * 2 ^ 12) else s
  (s, passed, ((mods.take k).map fun t => t.lanes.length + b2n t.redundant).sum)

/-! ## Training and activation (R355, R366) -/

/-- R355: the link waits in TRAIN for a restore: it is a ring or Vale link of a Meadow whose restore is not finished. -/
def State.waitsRestore (s : State) (die other : Nat) : Bool :=
  decide (die < 5) && decide (other < 5) &&
    ((decide (die < 4) && !(s.dieSt die).restored) || (decide (other < 4) && !(s.dieSt other).restored))

/-- R366: a returning Heath's links go ACTIVE as soon as they reach STANDBY; so does every link between dies neither of
which is a Meadow that has yet to rejoin. -/
def State.activatesAtOnce (s : State) (die other : Nat) : Bool :=
  (decide (5 ≤ die) || decide (5 ≤ other)) &&
    [die, other].all fun d => decide (4 ≤ d) || s.meadowUp d

/-- R36, R366: the Vale's port to a Heath goes ACTIVE: the Heath is present. -/
def State.heathBack (s : State) (die p : Nat) : State :=
  if die = 4 ∧ 4 ≤ p then
    let s := s.setFld (aVal 0x20) (p + 1) (p + 1) 1
    if s.schRunning then s.raise 4 0 0x1F "DIE_REJOINED" (p + 1) (32 + p) else s
  else s

/-- R355, R366: a trained port reaches STANDBY, and ACTIVE where nothing holds it. -/
def State.standby (s : State) (die p : Nat) : State :=
  let x := s.port die p
  let s := (s.setLink die p 3).setPort die p { x with heard := s.clock, ackAt := s.clock, trained := false }
  if s.activatesAtOnce die (facing die p) then ((s.setLink die p 4).pump die p).heathBack die p else s.pump die p

/-- R355, R361: training and the lane tests end. -/
def execLinkTrainDone (p : PortId) (mods : List ModuleTest) (eye : Eye) (s : State) :
    Host.Outcome State Fault Refusal :=
  .next <| s.live <|
    if !portOk p || decide (s.linkState p.die p.port ≠ 2) || (s.port p.die p.port).trained then s
    else
      let (s, passed, _) := s.laneTests p mods eye
      if passed = 0 then (s.setLink p.die p.port 7).setFld (aFdl p.die p.port 0) 6 4 4
      else if s.waitsRestore p.die (facing p.die p.port) then
        s.setPort p.die p.port { s.port p.die p.port with trained := true }
      else s.standby p.die p.port

/-- R368: the outcome of a lane test asked for by FDL_TEST. -/
def State.testResult (s : State) (die p passed failed : Nat) : State :=
  if bit (s.reg (aFdl die p 0x68)) 31 then
    (s.setReg (aFdl die p 0x6C) (passed + min failed 255 * 256)).setFld (aFdl die p 0x68) 31 31 0
  else s

/-- R355, R361, R353: a RETRAIN ends: ACTIVE with replay where a module passes within 50 µs, else DOWN. -/
def execRetrainEnd (p : PortId) (mods : List ModuleTest) (eye : Eye) (s : State) : Host.Outcome State Fault Refusal :=
  .next <| s.live <|
    let die := p.die.val
    let q := p.port.val
    if !portOk p || decide (s.linkState die q ≠ 5) then s
    else
      let (s, passed, failed) := s.laneTests p mods eye
      let s := s.testResult die q passed failed
      let x := s.port die q
      if passed = 0 ∨ x.retrainAt + 50000 < s.clock then s.portDown die q
      else
        let s := (s.setLink die q 4).setPort die q { x with replays := 0, heard := s.clock, ackAt := s.clock }
        (s.replay die q).pump die q

/-- R356: the payload of REJOIN. -/
def rejoinPayload (d : Nat) : Nat := 7 + d * 2 ^ 16
/-- R356: the payload of FENCE. -/
def fencePayload (d : Nat) : Nat := 8 + d * 2 ^ 16

/-- R356, R366: a REJOIN that the Vale has sent arrives: the receiver's STANDBY links to the rejoining die, or all of them where it
is that die itself, go ACTIVE. -/
def execRejoin (p : PortId) (pos : Fin 16) (s : State) : Host.Outcome State Fault Refusal :=
  .next <| s.live <|
    let die := p.die.val
    if !portOk p then s
    else if facing die p.port ≠ 4 then s.count32 (aFdl die p.port 0x3C)
    else if !s.sideSent die p.port (rejoinPayload pos) then s
    else (List.range 5).foldl (fun s q =>
      if (die = pos.val ∨ facing die q = pos.val) ∧ s.linkState die q = 3 then (s.setLink die q 4).pump die q else s)
      (s.sideTake die p.port (rejoinPayload pos))

/-- R356, R364: a FENCE that the Vale has sent to a Meadow arrives: its link to the named die goes DOWN. -/
def execFence (p : PortId) (pos : Fin 16) (s : State) : Host.Outcome State Fault Refusal :=
  .next <| s.live <|
    let die := p.die.val
    if !portOk p then s
    else if 4 ≤ die ∨ p.port.val ≠ 2 then s.count32 (aFdl die p.port 0x3C)
    else if !s.sideSent die p.port (fencePayload pos) then s
    else
      let s := s.sideTake die p.port (fencePayload pos)
      match portTo die pos with
      | some q => s.portLost die q
      | none => s

/-! ## Register writes (R367, R368) -/

/-- R30, R367: FDL_TEST is written by the security core, and by none on a Heath. -/
def fdlTestOk (init die : Nat) : Bool := decide (init = initSec) && decide (die < 5)
/-- R30, R367: FDL_CNT_CLR is written by the security core and the Heaths, and on a Heath by itself alone. -/
def fdlClrOk (init die : Nat) : Bool :=
  if die < 5 then decide (init = initSec) || isHeath init else decide (init = initHeath (die - 5))

/-- R367: FDL_TEST: a lane test with a pattern, run through RETRAIN in SERVICE; outside it GO clears at once. -/
def State.fdlTest (s : State) (init : Nat) (p : PortId) (pattern : Nat) : State :=
  if !portOk p || !fdlTestOk init p.die then s
  else
    let a := aFdl p.die p.port 0x68
    let s := s.setFld a 1 0 pattern
    if s.mode ≠ 4 then s
    else (s.setFld a 31 31 1).retrainFirst p.die p.port

/-- R368: pattern P1. -/
def execFdlTestP1 (init : Init) (p : PortId) (s : State) : Host.Outcome State Fault Refusal :=
  .next <| s.live (s.fdlTest init.toNat p 1)
/-- R368: pattern P2. -/
def execFdlTestP2 (init : Init) (p : PortId) (s : State) : Host.Outcome State Fault Refusal :=
  .next <| s.live (s.fdlTest init.toNat p 2)
/-- R368: pattern P3 of TRAIN length. -/
def execFdlTestP3 (init : Init) (p : PortId) (s : State) : Host.Outcome State Fault Refusal :=
  .next <| s.live (s.fdlTest init.toNat p 3)

/-- R367, R368: FDL_CNT_CLR.ERR, written by the security core or a Heath. A freeze does not hold the Heaths (R471). -/
def execFdlCntClrErr (init : Init) (p : PortId) (s : State) : Host.Outcome State Fault Refusal :=
  .next <|
    if s.frozen ∧ p.die.val < 5 then s
    else if portOk p && fdlClrOk init.toNat p.die then
      [0x30, 0x34, 0x3C].foldl (fun s o => s.setReg (aFdl p.die p.port o) 0) s
    else s

end Sys2Proof.Machine
end

