-- ==== Sys2Proof/Machine/HeathOps.lean ====
section
/-! DEFINITION. What every meaning of the safety islands shares (R419 to R452): the Heaths' state, events, cross frames and
presence. -/

namespace Sys2Proof.Machine

/-- A Heath. -/
def State.heath (s : State) (h : Nat) : HeathSt := readAt (fun _ => heathFresh) s.heaths h
/-- A Heath replaced. -/
def State.setHeath (s : State) (h : Nat) (x : HeathSt) : State :=
  { s with heaths := writeAt (fun _ => heathFresh) s.heaths h x }

/-- R451: ROLE: 0 OFF, 1 STANDBY, 2 ACTIVE. -/
def State.role (s : State) (h : Nat) : Nat := s.fld (aHt h 0x10) 1 0
/-- R451: ROLE set. -/
def State.setRole (s : State) (h v : Nat) : State := s.setFld (aHt h 0x10) 1 0 v
/-- R451: PARTNER: 0 OK, 1 SILENT, 2 ABSENT since reset. -/
def State.partnerState (s : State) (h : Nat) : Nat := s.fld (aHt h 0x10) 6 5
/-- R451: PARAM_OK. -/
def State.paramOk (s : State) (h : Nat) : Bool := bit (s.reg (aHt h 0x10)) 13
/-- R451: WITHHELD. -/
def State.withheld (s : State) (h : Nat) : Bool := bit (s.reg (aHt h 0x10)) 11
/-- R451: WITHHELD set. -/
def State.setWithheld (s : State) (h : Nat) (b : Bool) : State := s.setFld (aHt h 0x10) 11 11 (b2n b)

/-- R423, R452: the Heath's Vale link is ACTIVE. -/
def State.valeLinked (s : State) (h : Nat) : Bool := decide (s.linkState (5 + h) 4 = 4)

/-- R452: an event of a Heath: on its way to the event rings at once while the Heath's Vale link is up, else held, up to
256; each older one dropped is counted in SCH_EVT_LOST. -/
def State.heathEvent (s : State) (h : Nat) (name : String) (arg0 arg1 : Nat) : State :=
  let e : Ev := ⟨5 + h, 0, 0x1F, 0xFFFF, 0, 0xFFFF, name, arg0, arg1, s.now, none⟩
  if s.valeLinked h then s.raiseEv e
  else
    let x := s.heath h
    let l := x.held ++ [e]
    if l.length ≤ 256 then s.setHeath h { x with held := l }
    else (s.setHeath h { x with held := l.drop 1 }).count32 (aSch 0x34)

/-- R452: the events held are delivered once the Vale link has returned; their times stay. -/
def State.heathFlush (s : State) (h : Nat) : State :=
  if s.valeLinked h then
    let l := (s.heath h).held
    let s := s.setHeath h { s.heath h with held := [] }
    l.foldl (fun s e =>
      if s.fld (aSch 0) 1 0 = 2 then { s with sched := { s.sched with evWait := s.sched.evWait ++ [e] } }
      else s.eventOut e) s
  else s

/-- R439: a Meadow's links to both Heaths are DOWN. -/
def State.heathsCut (s : State) (d : Nat) : Bool := (List.range 2).all fun h => decide (s.linkState (5 + h) d = 6)

/-- R422, R439: a Meadow or the partner Heath is absent, or a Meadow's links to both Heaths are DOWN. -/
def State.heathDegraded (s : State) (h : Nat) : Bool :=
  (List.range 4).any (fun d => !s.meadowUp d || s.heathsCut d) || decide (s.partnerState h ≠ 0)

/-- R426, R437: the Heath drives restarts: it holds ACTIVE, or its partner is silent or absent. -/
def State.drives (s : State) (h : Nat) : Bool := decide (s.role h = 2) || decide (s.partnerState h ≠ 0)

/-- R439: since when the Heath's Vale link is DOWN, none while it is not. -/
def State.valeDown (s : State) (h : Nat) : Option Nat :=
  if s.linkState (5 + h) 4 = 6 then some (s.port (5 + h) 4).downAt else none

/-- R420: a cross frame sent by Heath `h` on both paths: on the cross-link, and on the via path while its Vale link carries
VC3. The trajectories go with it where a new one has been accepted. -/
def State.crossSend (s : State) (h : Nat) (withTraj : Bool) : State :=
  let x := s.heath h
  let f : CrossFrame :=
    { role := s.role h, seq := s.fld (aHt h 0x14) 31 0, slot := x.lastSlot
      valeDown := s.valeDown h, valeHung := x.valeHungAt, verdict := x.lastVerdict
      accepted := if withTraj then x.accepted else none
      fallback := if withTraj then x.fallback else none }
  let p := s.heath (1 - h)
  let s := if p.up then s.setHeath (1 - h) { p with xlink := p.xlink ++ [f] } else s
  if s.linkUp (5 + h) 4 then s.setHeath h { s.heath h with toVale := (s.heath h).toVale ++ [f] } else s

/-- R448: a value of the parameter block is outside its range. -/
def paramsOk (p : HeathParams) : Bool :=
  let within := fun (v lo hi : Nat) => decide (lo ≤ v) && decide (v ≤ hi)
  within p.posTol 10 1000 && within p.spdTol 1 512 && within p.objPosTol 10 5000 && within p.objSpdTol 10 5000 &&
    decide (p.objBase1 % 0x20000 = 0) && decide (p.objBase2 % 0x20000 = 0) && within p.pairUs 100 20000 &&
    within p.verdictUs 50 1000 && within p.acceptMaxMs 25 1000 && within p.fbDecel 1000 8000 &&
    decide (p.urgT2 < p.urgT1) && p.queueAct.all (fun q => decide (q ≤ 2)) &&
    decide (p.canNominal = 500 ∨ p.canNominal = 1000) && decide (p.canData = 2 ∨ p.canData = 4 ∨ p.canData = 5)

/-! ## Vehicle state (R40, R43, R425) -/

/-- R40, R425: the Heath confirms standstill: the last 10 good consecutive frames, none older than 100 ms, all report
it. -/
def State.standstill (s : State) (h : Nat) : Bool :=
  let l := (s.heath h).veh.take 10
  decide (l.length = 10) && l.all fun e => e.2 && decide (s.clock ≤ e.1 + 100000000)

/-- R43: the first condition under which a Heath vetoes PARK to DRIVE. -/
def State.veto (s : State) (h : Nat) : Option Nat :=
  let x := s.heath h
  if !s.paramOk h then some 0
  else if !x.vehGood.any fun t => decide (s.clock ≤ t + 100000000) then some 1
  else if !x.rotated then some 2
  else none

/-- R440: the reads for the decision of some record are outstanding: a frame has its records, and no verdict. -/
def State.decides (s : State) (h : Nat) : Bool := (s.heath h).frames.any fun f => f.need.isEmpty && f.own.isNone

/-- R440: the urgency thresholds of a Heath, in 256-byte units. -/
def State.heathUrg (s : State) (die : Nat) : Nat × Nat :=
  let p := (s.heath (die - 5)).params
  (p.urgT1 / 256, p.urgT2 / 256)

end Sys2Proof.Machine
end

