-- ==== Sys2Proof/Machine/Flow.lean ====
section
/-! DEFINITION. The commands of the flow regulator (R375 to R387). -/

namespace Sys2Proof.Machine

/-- R378: the guaranteed capacity of a DRAM controller in lines, by its refresh mode and migration; each failed
pseudo-channel lowers it by 1/32. -/
def State.dramCap (s : State) (d : Nat) : Nat :=
  let hot := bit (s.reg (aDmc d 0)) 3
  let mig := bit (s.reg (aDmc d 0)) 4
  let full := if hot then (if mig then 81000 else 93000) else if mig then 92000 else 104000
  full - full * ((List.range 32).filter fun p => bit (s.reg (aDmc d 0x0C)) p).length / 32

/-- R378: the guaranteed capacity of an FDL port in slots: 55,000 for each module at 16 GT/s, a quarter of it at 4 GT/s. -/
def State.fdlCap (s : State) (die p : Nat) : Nat :=
  let n := ((List.range 8).filter fun m => bit (s.reg (aFdl die p 0x60)) m).length
  if s.fld (aFdl die p 0x28) 3 0 = 4 then 55000 * n else 13750 * n

/-- R375, R378: FLR_CAP of a point. -/
def State.pointCap (s : State) (die q : Nat) : Nat := if die < 4 ∧ q = 0 then s.dramCap die else s.fdlCap die (q - 1)

/-- R375, R382: a window starts at a die: usage is reset, the budgets written so far apply, and FLR_CAP follows the
refresh mode, the migration and the modules. -/
def execFlrWindowStart (die : Fin 5) (s : State) : Host.Outcome State Fault Refusal :=
  .next <| s.live <|
    let d := die.val
    if s.now / 10000 ≤ s.reg (aFlr d 0) then s
    else
      ((List.range 5).filter (pointExists d)).foldl (fun s q =>
        let s := (List.range 8).foldl (fun s c =>
          let s := s.setReg (aPoint d q (0x20 + 4 * c)) 0
          let b := writeAt budgetFresh s.flr.budgets ((8 * d + q) * 8 + c) (s.fld (aPoint d q (4 * c)) 19 0)
          { s with flr := { s.flr with budgets := b } }) s
        s.setReg (aPoint d q 0x60) (s.pointCap d q)) (s.setReg (aFlr d 0) (s.now / 10000))

/-- R380: the level that a slack spells: of the ingress queue manager by FLR_IQM_URG, of a Heath by its thresholds of
R448, both in 256-byte units, and by the reads of R440 that are outstanding; the Prairie output stage has no slack. -/
def State.slackLevel (s : State) (die src slack : Nat) : Nat :=
  if src = 0 then
    if slack ≤ s.fld (aFlr 4 0x18) 31 16 then 2 else if slack ≤ s.fld (aFlr 4 0x18) 15 0 then 1 else 0
  else
    let (t1, t2) := s.heathUrg die
    if s.decides (die - 5) || decide (slack < t2) then 2 else if slack < t1 then 1 else 0

/-- R380: the die has this real-time master: the Vale the ingress queue manager, a Meadow the Prairie output stage, a
Heath itself. -/
def hasMaster (die src : Nat) : Bool :=
  match src with
  | 0 => decide (die = 4)
  | 1 => decide (die < 4)
  | _ => decide (5 ≤ die)

/-- R311, R380: the Prairie output stage of a die has a hand-off that is not performed yet. -/
def State.handingOff (s : State) (die : Nat) : Bool := s.prairie.records.any fun r => decide (r.lead = die)

/-- R380: a master's slack crosses a threshold, or a hand-off starts: its level rises. -/
def execUrgencyRise (die : Fin 7) (source : Fin 3) (slack : Nat) (s : State) : Host.Outcome State Fault Refusal :=
  .next <| s.live <|
    let level := if source.val = 1 then (if s.handingOff die then 2 else 0) else s.slackLevel die source slack
    if hasMaster die source && decide (s.urgency die source < level) then s.setUrgency die source level else s

/-- R380: a master's slack has stayed above a threshold for 1 µs, or a hand-off has been performed: its level falls. -/
def execUrgencyFall (die : Fin 7) (source : Fin 3) (slack : Nat) (s : State) : Host.Outcome State Fault Refusal :=
  .next <| s.live <|
    let level := if source.val = 1 then (if s.handingOff die then 2 else 0) else s.slackLevel die source slack
    if hasMaster die source && decide (level < s.urgency die source) then s.setUrgency die source level else s

/-- R386: who may write the budgets and thresholds. -/
def flrWriter (init : Nat) : Bool := decide (init = initSec) || decide (init = initSch)

/-- R379: the highest class 7 budget of a point. -/
def State.class7Limit (s : State) (die q : Nat) : Nat :=
  if die < 4 ∧ q = 0 then 8192 else s.fld (aPoint die q 0x60) 19 0 / 16

/-- R375, R379: FLR_BUDGETc of a point; it applies from the next window. A class 7 budget above its limit is discarded. -/
def execFlrBudgetWrite (init : Init) (die q : Fin 5) (c : Fin 8) (value : Word32) (s : State) :
    Host.Outcome State Fault Refusal :=
  .next <| s.live <|
    let v := bits value.toNat 19 0
    if !flrWriter init.toNat || !pointExists die q || (decide (c.val = 7) && decide (s.class7Limit die q < v)) then s
    else s.setReg (aPoint die q (4 * c)) v

/-- R386, R387: FLR_IQM_URG; a write with T2 not below T1 is discarded. -/
def execFlrIqmUrgWrite (init : Init) (value : Word32) (s : State) : Host.Outcome State Fault Refusal :=
  .next <| s.live <|
    if flrWriter init.toNat && decide (bits value.toNat 31 16 < bits value.toNat 15 0) then s.setReg (aFlr 4 0x18) value.toNat
    else s

/-- R386: who may write FLR_CNT_CLR. -/
def clrWriter (init : Nat) : Bool := decide (init = initSec) || isHeath init

/-- R387: FLR_CNT_CLR.LAT. -/
def execFlrCntClrLat (init : Init) (die : Fin 5) (s : State) : Host.Outcome State Fault Refusal :=
  .next <| s.live (if clrWriter init.toNat then (s.setReg (aFlr die 0x10) 0).setReg (aFlr die 0x14) 0 else s)

/-- R387: FLR_CNT_CLR.OVER. -/
def execFlrCntClrOver (init : Init) (die : Fin 5) (s : State) : Host.Outcome State Fault Refusal :=
  .next <| s.live <|
    if clrWriter init.toNat then
      let s := (List.range 4).foldl (fun s i => s.setReg (aFlr die (0x60 + 8 * i)) 0) s
      ((List.range 5).filter (pointExists die)).foldl (fun s q =>
        (List.range 8).foldl (fun s c => s.setReg (aPoint die q (0x40 + 4 * c)) 0) s) s
    else s

end Sys2Proof.Machine
end

