-- ==== Sys2Proof/Machine/Checkers.lean ====
section
/-! DEFINITION. The checkers' registers of a tile (R99 to R105, R109): an armed injection that fires, error counters and
skipped comparisons. -/

namespace Sys2Proof.Machine

/-- R105: the named checker of a tile evaluates: an injection armed at it is detected. -/
def State.injectFire (s : State) (d l t target : Nat) : State :=
  let a := aTil d l t 0x44
  if bit (s.reg a) 31 && decide (s.fld a 2 0 = target) then
    (s.setReg (aTil d l t 0x48) 1).setFld a 31 31 0
  else s

/-- R105: an armed SRAM injection meets the next read of a codeword of the tile. -/
def State.sramFire (s : State) (d l t : Nat) : State := (s.injectFire d l t 4).injectFire d l t 5

/-- R94, R95, R109: an error of a tile's SRAM is counted and its line recorded. -/
def State.tileError (s : State) (d l t off : Nat) (ue : Bool) : State :=
  let s := s.count32 (aTil d l t (if ue then 0x0C else 0x08))
  s.setReg (aTil d l t 0x10) (off / 64 * 64 + b2n ue * 2 ^ 18)

/-- R99, R100, R109: skipped comparisons counted. -/
def State.countSkips (s : State) (d l t : Nat) (n : Nat × Nat) : State :=
  (s.count (aTil d l t 0x1C) 15 0 n.1).count (aTil d l t 0x1C) 31 16 n.2

end Sys2Proof.Machine
end

