-- ==== Sys2Proof/Machine/Threads.lean ====
section
/-! DEFINITION. What every tile instruction shares (R111 to R117, R123, R134): the registers of a slot, when a slot may
issue, the fault that ends its command, and the bytes its queued tensor steps have still to read (R115). -/

namespace Sys2Proof.Machine

/-! ## The registers of a slot (R112) -/

/-- Scalar register `r`; x0 reads as 0. -/
def ThreadSlot.xget (th : ThreadSlot) (r : Nat) : Word := if r = 0 then 0 else readAt (fun _ => 0) th.x r

/-- Scalar register `r` written; a write to x0 is discarded. -/
def ThreadSlot.xset (th : ThreadSlot) (r : Nat) (w : Word) : ThreadSlot :=
  if r = 0 then th else { th with x := writeAt (fun _ => 0) th.x r w }

/-- Vector register `r`. -/
def ThreadSlot.vget (th : ThreadSlot) (r : Nat) : BitVec 2048 := readAt (fun _ => 0) th.v r

/-- Vector register `r` written. -/
def ThreadSlot.vset (th : ThreadSlot) (r : Nat) (w : BitVec 2048) : ThreadSlot :=
  { th with v := writeAt (fun _ => 0) th.v r w }

/-- R114: a later instruction writes scalar register `r`: what an earlier load or wait would still bring it is not seen. -/
def ThreadSlot.xdrop (th : ThreadSlot) (r : Nat) : ThreadSlot :=
  { th with
    reqs := th.reqs.map fun q => match q.kind with
      | .load rd size signed => if rd = r then { q with kind := .load 0 size signed } else q
      | _ => q
    waits := th.waits.map fun w => if w.rd = r then { w with rd := 0 } else w }

/-- R114: the same of vector register `r`; a load that is not seen any more brings x0 its bytes. -/
def ThreadSlot.vdrop (th : ThreadSlot) (r : Nat) : ThreadSlot :=
  { th with reqs := th.reqs.map fun q => match q.kind with
    | .vload vd => if vd = r then { q with kind := .load 0 q.len false } else q
    | _ => q }

/-- R114: an instruction writes scalar register `r`, in program order. -/
def ThreadSlot.xput (th : ThreadSlot) (r : Nat) (w : Word) : ThreadSlot := (th.xdrop r).xset r w

/-- R114: an instruction writes vector register `r`, in program order. -/
def ThreadSlot.vput (th : ThreadSlot) (r : Nat) (w : BitVec 2048) : ThreadSlot := (th.vdrop r).vset r w

/-- The program counter moved past the instruction. -/
def ThreadSlot.pc4 (th : ThreadSlot) : ThreadSlot := { th with pc := th.pc + 4 }

/-- R114: scalar register `r` waits for an earlier load or wait. -/
def ThreadSlot.xBusy (th : ThreadSlot) (r : Nat) : Bool :=
  decide (r ≠ 0) && ((th.reqs.any fun q => match q.kind with
    | .load rd _ _ => decide (rd = r)
    | _ => false) || th.waits.any fun w => decide (w.rd = r))

/-- R114: vector register `r` waits for an earlier load. -/
def ThreadSlot.vBusy (th : ThreadSlot) (r : Nat) : Bool :=
  th.reqs.any fun q => match q.kind with
    | .vload vd => decide (vd = r)
    | _ => false

/-- R147: an ACQ wait in progress holds later memory accesses. -/
def ThreadSlot.acqHeld (th : ThreadSlot) : Bool := th.waits.any (·.acq)

/-- R116: the slot holds a thread that still issues. -/
def ThreadSlot.live (th : ThreadSlot) : Bool := th.busy && !th.exited && !th.faulted

/-! ## The command of a slot -/

/-- R134, R161: CODE_BASE of a THREADS command. -/
def Cmd.codeBase (c : Cmd) : Nat := bits (word c.words 9) 47 0
/-- R134, R161: CODE_LEN of a THREADS command. -/
def Cmd.codeLen (c : Cmd) : Nat := bits (word c.words 10) 31 0
/-- R161: DESC_TABLE of a THREADS command. -/
def Cmd.descTable (c : Cmd) : Nat := bits (word c.words 13) 47 0
/-- R161: DESC_COUNT of a THREADS command. -/
def Cmd.descCount (c : Cmd) : Nat := bits (word c.words 13) 54 48
/-- R138, R161: SYNC_OWN of a THREADS command. -/
def Cmd.syncOwn (c : Cmd) : Nat := word c.words 12

/-- R134: the program counter lies in the code region. -/
def Cmd.inCode (c : Cmd) (pc : Addr) : Bool := inside pc.toNat 4 c.codeBase c.codeLen

/-- Who a thread of a slot is (R442). -/
def whoThread (t : SlotId) (r : CmdRef) : Who := ⟨initThreads t.die t.lea, some r, true, false⟩

/-- R117: a thread meets a fault: it issues no more, and the fault record goes to the scheduler core. -/
def State.threadFault (s : State) (t : SlotId) (th : ThreadSlot) (status : Nat) : State :=
  (s.setSlot (tkey t) { th with faulted := true }).send (.fault t.die t.lea t.tile th.cmd (s.runOf th.cmd) status)

/-- The lowest of the status codes, 0 where there is none: faults of one access are ranked by the lower code (R117,
R122). -/
def lowest : List Nat → Nat
  | [] => 0
  | 0 :: t => lowest t
  | c :: t => let r := lowest t; if r = 0 ∨ c < r then c else r

/-- One of the status codes that are not 0, 0 where there is none. Where several unlike codes apply at once the spec
ranks none of them (R42, R152, R159, R208): which is reported is free. -/
def oneOf (l : List Nat) : Nat :=
  match (l.filter fun x => decide (x ≠ 0)).eraseDups with
  | [] => 0
  | [x] => x
  | c => c.getD (Config.whichOf c % c.length) 0

/-- R114, R134: the slot issues its next instruction: it is live, its command runs, its program counter lies in the
code region (else a fault with FIREWALL_DENY), and no register it reads waits: the scalar ones `xs`, the vector ones `vs`.
Otherwise nothing happens yet (R16). -/
def State.issue (s : State) (t : SlotId) (xs vs : List Nat) (body : ThreadSlot → Cmd → State) : State :=
  let th := s.slot (tkey t)
  match s.cmd th.cmd with
  | none => s
  | some c =>
    if !th.live || decide (c.phase ≠ .running) then s
    else if !c.inCode th.pc then s.threadFault t th 4
    else if xs.any th.xBusy || vs.any th.vBusy then s
    else body th c

/-- A register-to-register instruction: `rd` receives `f` of the slot, and the program counter moves on. -/
def State.alu (s : State) (t : SlotId) (rd : Nat) (srcs : List Nat) (f : ThreadSlot → Word) : State :=
  s.issue t srcs [] fun th _ => s.setSlot (tkey t) (th.xput rd (f th)).pc4

/-- R71: flags gathered for a command. -/
def State.addFlags (s : State) (r : CmdRef) (f : BitVec 8) : State :=
  if f = 0 then s else s.updCmd r fun c => { c with flags := c.flags ||| f }

/-! ## Tensor descriptors (R124) -/

/-- A tensor descriptor taken apart. -/
structure TDesc where
  base : Nat
  fmt : Nat
  axis : Bool
  sparse : Bool
  space : Nat
  rows : Nat
  cols : Nat
  ostride : Nat
  scale : Nat
  outer : Nat
  meta_ : Nat
  deriving DecidableEq, Repr

/-- R124: the fields of a descriptor's 256 bits. -/
def tdesc (w : Nat) : TDesc :=
  { base := bits w 47 0, fmt := bits w 51 48, axis := bit w 52, sparse := bit w 53, space := bits w 55 54
    rows := bits w 79 64, cols := bits w 95 80, ostride := bits w 127 96
    scale := bits w 175 128, outer := bits w 191 176, meta_ := bits w 239 192 }

/-- The format of a descriptor; FORMAT_UNSUPPORTED was found at command start (R125), so the default is not met. -/
def TDesc.format (d : TDesc) : Fmt := (fmtOf d.fmt).getD .int8

/-- R85: the logical K of a B operand. -/
def TDesc.logicalK (d : TDesc) : Nat := if d.sparse then 2 * d.rows else d.rows

/-- R127: the matrix that outer index `o` selects. -/
def TDesc.pick (d : TDesc) (o : Nat) : Nat := if d.outer = 1 then 0 else o

/-- R57, R58: the address of element (r, c) of matrix `o`, within its space, and the bit its nibble starts at. -/
def TDesc.elem (d : TDesc) (o r c : Nat) : Nat × Nat :=
  let i := b4Index d.cols r c
  (d.base + d.pick o * d.ostride + i * d.format.width / 8, if d.format.width = 4 then 4 * (i % 2) else 0)

/-- R62: bytes of one matrix's scale array. -/
def TDesc.scaleBytes (d : TDesc) : Nat := d.logicalK * d.cols / 32

/-- R62: the address of the scale of element (r, c) (logical row r) of matrix `o`: one byte per block, row-major over the
other axis and then the block index. -/
def TDesc.scaleAt (d : TDesc) (o r c : Nat) : Nat :=
  d.scale + d.pick o * roundUp d.scaleBytes 64
    + (if d.axis then r * (d.cols / 32) + c / 32 else c * (d.logicalK / 32) + r / 32)

/-- R85: bytes of one matrix's metadata. -/
def TDesc.metaBytes (d : TDesc) : Nat := (d.rows / 4) * (d.cols / 4) * 4

/-- R85: the metadata byte of column `c` in the compressed block that holds compressed row `r`, of matrix `o`. -/
def TDesc.metaAt (d : TDesc) (o r c : Nat) : Nat :=
  d.meta_ + d.pick o * roundUp d.metaBytes 64 + ((r / 4) * (d.cols / 4) + c / 4) * 4 + c % 4

/-- The bytes a step reads, as offsets in the tile's SRAM window and lengths (R79, R85, R62): the A and B blocks that
lie inside the stored extents, the scales of their blocks and the metadata. -/
def stepReads (da db i j o k0 : Nat) : List (Nat × Nat) :=
  let a := tdesc da
  let b := tdesc db
  let bsz := fun (d : TDesc) => 2 * d.format.width
  let ks := if b.sparse then [k0, k0 + 4] else [k0]
  let rb := if b.sparse then k0 / 2 else k0
  let as := (List.range 4).flatMap fun u =>
    if 16 * i + 4 * u < a.rows then
      ks.map (fun k => ((a.elem o (16 * i + 4 * u) k).1, bsz a)) ++
        (if a.format.isMx then (List.range 4).map fun x => (a.scaleAt o (16 * i + 4 * u + x) k0, 1) else [])
    else []
  let bs := (List.range 4).flatMap fun v =>
    if 16 * j + 4 * v < b.cols then
      [((b.elem o rb (16 * j + 4 * v)).1, bsz b)] ++
        (if b.sparse then [(b.metaAt o rb (16 * j + 4 * v), 4)] else []) ++
        (if b.format.isMx then (List.range 4).map fun x => (b.scaleAt o k0 (16 * j + 4 * v + x), 1) else [])
    else []
  as ++ bs

/-- The bytes a queued item reads. -/
def TItem.reads : TItem → List (Nat × Nat)
  | .clear _ _ => []
  | .take _ _ => []
  | .step _ da db i j o k0 => stepReads da db i j o k0

/-- R115: a queued step of the slot has still to read some of the `n` bytes at address `a`. -/
def ThreadSlot.stepReads (th : ThreadSlot) (win a n : Nat) : Bool :=
  th.steps.any fun it => it.reads.any fun r => overlaps (win + r.1) r.2 a n

/-- The bytes a request of the slot writes are among the `n` bytes at `a`. -/
def MemReq.writes (q : MemReq) (a n : Nat) : Bool :=
  match q.kind with
  | .store => overlaps q.addr q.len a n
  | .copy dst _ _ => overlaps dst q.len a n
  | _ => false

/-- The bytes a request of the slot reads or writes are among the `n` bytes at `a`. -/
def MemReq.touches (q : MemReq) (a n : Nat) : Bool :=
  overlaps q.addr q.len a n || q.writes a n

end Sys2Proof.Machine
end

