-- ==== Sys2Proof/Machine/LeaOps.lean ====
section
/-! DEFINITION. The free tile and the swap (R97, R102), retirement (R104), rebinding (R466), rows that wait for repair
(R463), and what follows a checker mismatch or an uncorrectable error of a tile's or a pool's SRAM (R95, R102, R103). -/

namespace Sys2Proof.Machine

/-! ## Accesses that end (R117, R363, R365) -/

/-- R117, R365: an access of a thread ends with a status: a fault; but where a port that is DOWN answered it, its command is killed
for a re-run and the thread is held. `spans` are the bytes accessed. -/
def State.accessFault (s : State) (t : SlotId) (th : ThreadSlot) (status : Nat) (spans : List (Nat × Nat)) : State :=
  if status = 8 ∧ spans.any (fun x => s.portAnswers (whoThread t th.cmd) x.1 x.2) then s.kill [th.cmd] 1 false .go
  else s.threadFault t th status

/-! ## The tiles of a lea -/

/-- R108: the free tile, 0x1F when there is none. -/
def State.freeTile (s : State) (d l : Nat) : Nat := s.fld (aLea d l 0) 4 0
/-- R108: FREE_STATE: 0 READY, 1 CLEARING, 2 SELF_TEST, 3 NONE. -/
def State.freeState (s : State) (d l : Nat) : Nat := s.fld (aLea d l 0) 6 5
/-- R108: FREE_STATE set. -/
def State.setFreeState (s : State) (d l v : Nat) : State := s.setFld (aLea d l 0) 6 5 v
/-- R108: the physical tile that serves logical tile `n`. -/
def State.mapTile (s : State) (d l n : Nat) : Nat := s.fld (aLea d l (0x40 + 4 * n)) 4 0
/-- R109: the state of a tile. -/
def State.tileSt (s : State) (d l t : Nat) : Nat := s.fld (aTil d l t 0) 2 0
/-- R109: STATE and LOGICAL of a tile. -/
def State.setTileSt (s : State) (d l t st n : Nat) : State :=
  (s.setFld (aTil d l t 0) 2 0 st).setFld (aTil d l t 0) 7 4 n
/-- R109: SLOTS_BUSY of a tile. -/
def State.slotsBusy (s : State) (d l t : Nat) : Nat := s.fld (aTil d l t 0) 15 8
/-- R97, R102, R136: a tile-share runs on the tile, or is bound to it. -/
def State.tileHeld (s : State) (d l t : Nat) : Bool := decide (s.slotsBusy d l t ≠ 0) || s.tileBound d l t
/-- R97: GO of LEA_SWAP. -/
def State.swapGo (s : State) (d l : Nat) : Bool := bit (s.reg (aLea d l 0x08)) 31
/-- R104, R109: the tile is retired. -/
def State.tileRetired (s : State) (d l t : Nat) : Bool := bit (s.reg (aLea d l 0x04)) t

/-- R91: a tile's SRAM cleared to zero. -/
def State.zeroTile (s : State) (d l t : Nat) : State :=
  let b := tileBase d l t
  { s with
    mem := s.mem.filter fun c => !(decide (b ≤ c.1) && decide (c.1 < b + 0x40000))
    sramFix := s.sramFix.filter fun a => !(decide (b ≤ a) && decide (a < b + 0x40000)) }

/-- R97: a swap is refused: EVT_LEA_SWAP_REFUSED with the physical tile that serves the logical tile. -/
def State.swapRefused (s : State) (d l n : Nat) : State := s.raise d l (s.mapTile d l n) "LEA_SWAP_REFUSED" 0 0

/-- R97, R108: a GO write by the control core for logical tile `n`. -/
def State.swapRequest (s : State) (d l n : Nat) : State :=
  let s := s.setFld (aLea d l 0x08) 3 0 n
  if s.freeState d l ≠ 0 then s.swapRefused d l n
  else (s.setFld (aLea d l 0x08) 31 31 1).setLea (leaKey d l) { s.lea (leaKey d l) with swapping := some n }

/-- R104, R466: the lea has no free tile. -/
def State.noFreeTile (s : State) (d l : Nat) : State :=
  ((((s.setFld (aLea d l 0) 4 0 0x1F).setFreeState d l 3).setFld (aMdw d 0x20) l l 0).setFld (aLea d l 0x08) 31 31 0).replaceReq
    0

/-- R97 steps 4 and 5, R102 step 3: logical tile `n` moves to the free tile; the tile that served it becomes the free
tile and is to be cleared, or, where it is retired, leaves the lea without one. -/
def State.moveTile (s : State) (d l n : Nat) : State :=
  let old := s.mapTile d l n
  let new := s.freeTile d l
  let s := (s.setFld (aLea d l (0x40 + 4 * n)) 4 0 new).setTileSt d l new 0 n
  if s.tileRetired d l old then (s.setTileSt d l old 4 0).noFreeTile d l
  else ((s.setTileSt d l old 2 0).setFld (aLea d l 0) 4 0 old).setFreeState d l 1

/-! ## Rows that wait for repair (R463) -/

/-- The number of a tile bank's memory macro. -/
def macroTile (d l t bank : Nat) : Nat := tileKey d l t * 8 + bank
/-- The number of a pool bank's memory macro. -/
def macroPool (d l bank : Nat) : Nat := 0x10000 + leaKey d l * 16 + bank
/-- The number of a Glen engine's buffer macro. -/
def macroGlen (d l : Nat) : Nat := 0x20000 + leaKey d l
/-- The number of a Prairie engine's buffer macro. -/
def macroPra (d : Nat) : Nat := 0x30000 + d

/-- R90, R92, R93: the macro and row of an SRAM address: rows of 32 bytes. -/
def sramRow (a : Nat) : Option (Nat × Nat) :=
  match placeOf a with
  | some (.tile d l t, b, _) => let o := a - b; some (macroTile d l t (bits o 8 6), o / 512 * 2 + bits o 5 5)
  | some (.pool d l, b, _) => let o := a - b; some (macroPool d l (bits o 9 6), o / 1024 * 2 + bits o 5 5)
  | _ => none

/-- R95, R463: the row of an address is reported for repair. -/
def State.reportRow (s : State) (a : Nat) : State :=
  match sramRow a with
  | some r => if s.repairs.contains r then s else { s with repairs := s.repairs ++ [r] }
  | none => s

/-! ## Retirement and rebinding (R104, R466) -/

/-- R466: the commands in flight whose chosen map names the lea, by their shares or Glen engines. -/
def State.leaUsers (s : State) (d l : Nat) : List CmdRef :=
  (s.inFlight.filter fun c => c.shares.any (fun h => decide (h.die = d) && decide (h.lea = l))
    || c.engines.any (fun e => decide (e.die = d) && decide (e.lea = l))).map (·.ref)

/-- R104, R466: a tile is retired. Where it is in service and the lea has no free tile, its loss kills every command whose
chosen map names the lea, and the rebinding waits. -/
def State.retireTile (s : State) (d l t : Nat) : State :=
  if s.tileRetired d l t then s
  else
    let s := s.setFld (aLea d l 0x04) t t 1
    let s := (s.raise d l t "TIL_RETIRED" 0 0).frecNote 0x01 d l (l + t * 16)
    if s.freeTile d l = t then (s.setTileSt d l t 4 0).noFreeTile d l
    else if s.freeState d l = 3 then
      let s := s.setLea (leaKey d l) { s.lea (leaKey d l) with losing := (s.lea (leaKey d l)).losing ++ [t] }
      s.kill (s.leaUsers d l) 1 false .go
    else s

/-! ## Mismatches and uncorrectable SRAM errors (R95, R102, R103) -/

/-- R102 steps 3, 4 and 6: the tile that reported is swapped out, at once where the free tile is READY; a self-test of the
free tile is abandoned; while it is CLEARING the swap waits; without a free tile nothing moves. -/
def State.swapOut (s : State) (d l t : Nat) : State :=
  let k := leaKey d l
  let tk := tileKey d l t
  if s.tileSt d l t ≠ 0 then s.setTile tk { s.tile tk with swapOut := false }
  else
    let n := s.fld (aTil d l t 0) 7 4
    match s.freeState d l with
    | 0 =>
      let s := match (s.lea k).swapping with
        | some m =>
          if m = n then s else (s.setFld (aLea d l 0x08) 31 31 0).swapRefused d l m
        | none => s
      let s := s.setLea k { s.lea k with swapping := none, testing := none }
      let s := s.setTile tk { s.tile tk with swapOut := false }
      let s := s.moveTile d l n
      s.setLea k { s.lea k with testNext := (s.lea k).testNext ++ [t] }
    | 1 => s.setTile tk { s.tile tk with swapOut := true }
    | 2 =>
      let f := s.freeTile d l
      let s := (s.setFreeState d l 1).setTileSt d l f 2 0
      let s := s.setLea k { s.lea k with testing := none, testNext := (s.lea k).testNext ++ [f] }
      s.setTile tk { s.tile tk with swapOut := true }
    | _ => s.setTile tk { s.tile tk with swapOut := false }

/-- R467: the next step for a tile of the lea whose checker failed: as the free tile it is retired; where the free tile is READY its
swap begins; without a free tile it is retired in place. DEDUCED (assumption 145): while the free tile is CLEARING or in SELF_TEST, or
another swap is in progress, it waits. -/
def State.failedNext (s : State) (d l : Nat) : State :=
  match (List.range 17).find? fun t => (s.tile (tileKey d l t)).failed && !s.tileRetired d l t with
  | none => s
  | some t =>
    if s.freeTile d l = t ∨ s.freeState d l = 3 then s.retireTile d l t
    else if s.freeState d l = 0 ∧ ¬ s.swapGo d l then s.swapRequest d l (s.fld (aTil d l t 0) 7 4)
    else s

/-- R467: a tile whose checker failed. -/
def State.failTile (s : State) (d l t : Nat) : State :=
  (s.setTile (tileKey d l t) { s.tile (tileKey d l t) with failed := true }).failedNext d l

/-- R104, R109: a mismatch counted against a tile: COUNT, LAST_CHECK, the three times and the die's total. -/
def State.countMismatch (s : State) (d l t check : Nat) : State :=
  let a := aTil d l t
  let s := (s.count (a 0x18) 15 0 1).setFld (a 0x18) 18 16 check
  let s := ((s.setReg (a 0x30) (s.reg (a 0x28))).setReg (a 0x28) (s.reg (a 0x20))).setReg (a 0x20) s.now
  s.count32 (aMdw d 0x30)

/-- R104: three counted mismatches lie within 3,600 s. -/
def State.mismatchLimit (s : State) (d l t : Nat) : Bool :=
  decide (3 ≤ s.fld (aTil d l t 0x18) 15 0) &&
    decide (s.reg (aTil d l t 0x20) ≤ s.reg (aTil d l t 0x30) + 3600000000000)

/-- R102, R103: a command is killed and re-run once for a mismatch or an uncorrectable error of tile SRAM; in the re-run
it ends with the status instead. -/
def State.rerunOnce (s : State) (r : CmdRef) (d l t status : Nat) : State :=
  match s.cmd r with
  | none => s
  | some c =>
    if c.phase ≠ .running then s
    else if c.checkRerun then s.faultCmd r d l t status true
    else (s.updCmd r fun c => { c with checkRerun := true }).kill [r] 1 false .go

/-- R102, R104: a tile reports a mismatch of a checker (1 residue, 2 checksum, 3 vector check lane) in the work of a
command. -/
def State.mismatch (s : State) (r : CmdRef) (d l t check : Nat) : State :=
  match s.cmd r with
  | none => s
  | some c =>
    if !c.inFlight then s
    else
      let tk := tileKey d l t
      let seen := c.mismTiles.contains tk
      let s := if seen then s else
        (s.countMismatch d l t check).updCmd r fun c => { c with mismTiles := tk :: c.mismTiles }
      let s := s.raiseFor r d l t "TIL_MISMATCH" 0 0
      let s := s.rerunOnce r d l t 6
      let s := if !seen && s.mismatchLimit d l t then s.retireTile d l t else s
      (s.swapOut d l t).failedNext d l

/-- R94, R95: an error of a line of tile SRAM at `a`, found by a read: counted and recorded; a corrected codeword waits to
be written back, an uncorrectable one raises EVT_TIL_UE and is reported for repair. -/
def State.tileSramError (s : State) (d l t a : Nat) (ue : Bool) : State :=
  let s := s.tileError d l t (a - tileBase d l t) ue
  if ue then ((s.count32 (aMdw d 0x34)).raise d l t "TIL_UE" 0 0).reportRow a
  else if s.sramFix.contains (a / 64 * 64) then s else { s with sramFix := s.sramFix ++ [a / 64 * 64] }

/-- R95, R102: an uncorrectable error of a tile's SRAM met by a read that serves a command. -/
def State.tileUe (s : State) (r : CmdRef) (d l t a : Nat) : State :=
  (((s.tileSramError d l t a true).swapOut d l t).failedNext d l).rerunOnce r d l t 5

/-- R94, R95: an error of a pool line: counted; a corrected codeword waits to be written back, an uncorrectable one
poisons the line and raises EVT_POOL_UE. -/
def State.poolError (s : State) (d l a : Nat) (ue : Bool) : State :=
  if ue then
    ((((s.count32 (aLea d l 0x10)).count32 (aMdw d 0x34)).raise d l 0x1F "POOL_UE" 0 0).addPoison a).reportRow a
  else
    let s := s.count32 (aLea d l 0x0C)
    if s.sramFix.contains (a / 64 * 64) then s else { s with sramFix := s.sramFix ++ [a / 64 * 64] }

/-- What a read for a command gave: its data, a status, or an uncorrectable error of tile SRAM (R95). -/
inductive Got where
  | data (bs : List Byte)
  | fault (status : Nat)
  | redo
  deriving DecidableEq, Repr

/-- A free value read as the line, of those that an access reads, in which the error found lies (R94, R95). -/
def useLine : Nat := 13

/-- A free value read as what the merge read of a drain to the pool finds (R93, R95). -/
def useMerge : Nat := 14

/-- R94, R95: the line of an access in which the error lies that its memory reports: any one of those it reads. -/
def State.errLine (s : State) (lines : List Nat) : Nat × State :=
  match lines with
  | [x] => (x, s)
  | _ => let (v, s) := s.draw useLine; (lines.getD (v % lines.length) 0, s)

/-- R93, R95: a write of the part `bs` of one line at `a` by command `r`, where its memory reports `ecc`. In tile SRAM a write of
fewer than 8 bytes, in the pool one of less than the line, is a read-modify-write. An error of its read is an error of any
read of the line: a corrected one is counted and the write done; with an uncorrectable one a pool write is discarded, without
a status to the writer, and in tile SRAM the command is done again. -/
def State.sramStore (s : State) (r : CmdRef) (a : Nat) (bs : List Byte) (ecc : Ecc) : State :=
  match placeOf a with
  | some (.tile d l t, _, _) =>
    if 8 ≤ bs.length then s.store a bs
    else
      let s := s.sramFire d l t
      match ecc with
      | .clean => s.store a bs
      | .corrected => (s.tileSramError d l t a false).store a bs
      | .uncorrectable => s.tileUe r d l t a
  | some (.pool d l, _, _) =>
    if 64 ≤ bs.length ∨ s.poisoned a then s.store a bs
    else match ecc with
      | .clean => s.store a bs
      | .corrected => (s.poolError d l a false).store a bs
      | .uncorrectable => s.poolError d l a true
  | _ => s.store a bs

/-- R82, R95: what the merge read of a part of a drain finds. -/
def State.mergeEcc (s : State) (a n : Nat) : Ecc × State :=
  match placeOf a with
  | some (.pool _ _, _, _) =>
    if 64 ≤ n then (.clean, s)
    else
      let (v, s) := s.draw useMerge
      (if v % 3 = 0 then .clean else if v % 3 = 1 then .corrected else .uncorrectable, s)
  | _ => (.clean, s)

/-- A free value read as which memory of the ingress an uncorrectable error is of (R417): the link memory, or the pool. -/
def useLinks : Nat := 19

/-- R94, R95, R339, R398, R405, R417, R510: an admitted read of `n` bytes at `a` for command `r`, whose memory reports `ecc`. -/
def State.fetch (s : State) (r : CmdRef) (a n : Nat) (ecc : Ecc) : Got × State :=
  match placeOf a with
  | some (.tile d l t, _, _) =>
    let s := s.sramFire d l t
    match ecc with
    | .clean => (.data (s.readOut a n), s)
    | .corrected => let (x, s) := s.errLine (linesOf a n); (.data (s.readOut a n), s.tileSramError d l t x false)
    | .uncorrectable => let (x, s) := s.errLine (linesOf a n); (.redo, s.tileUe r d l t x)
  | some (.pool d l, _, _) =>
    if s.readPoison a n then (.fault 5, s)
    else match ecc with
    | .clean => (.data (s.readOut a n), s)
    | .corrected => let (x, s) := s.errLine (linesOf a n); (.data (s.readOut a n), s.poolError d l x false)
    | .uncorrectable => let (x, s) := s.errLine (linesOf a n); (.fault 5, s.poolError d l x true)
  | some (.dram, _, _) =>
    let s := s.chargeLines r false a n
    if s.readPoison a n then (.fault 5, s) else (.data (s.readOut a n), s)
  | some (.window q, _, _) =>
    if ecc = .uncorrectable then
      let s' := { s with free := s.free + 1 }
      if Config.freeChoice s.free useLinks then (.data (List.replicate n 0), s'.linkUe q (s.windowCell q a))
      else (.fault 5, s'.iqmUe q (s.windowCell q a))
    else (.data (s.readOut a n), s)
  | some (.remote _, _, _) => if s.readPoison a n then (.fault 5, s) else
      (.data (s.readOut a n), { s with
        free := s.free + 1
        col := { s.col with got := s.col.got.filter fun e => !inside e.1 1 a n } })
  | _ => (.data (s.readOut a n), s)

end Sys2Proof.Machine
end

