-- ==== Sys2Proof/Machine/Start.lean ====
section
/-! DEFINITION. What the start of every command shares (R155 to R161, R177 to R182, R574): its header, output table,
context list and phase map, their checks, and the conditions it waits for. The kinds' own bodies are checked in their
own files. -/

namespace Sys2Proof.Machine

/-! ## Fields of the header (R155) -/

/-- MAPSET. -/
def wMapset (w : List Nat) : Nat := bits (word w 0) 25 20
/-- TIME_LIMIT_US. -/
def wTimeLimit (w : List Nat) : Nat := bits (word w 0) 63 32
/-- OUT_TABLE. -/
def wOutTable (w : List Nat) : Nat := bits (word w 3) 47 0
/-- OUT_COUNT. -/
def wOutCount (w : List Nat) : Nat := bits (word w 3) 52 48
/-- CTX_LIST. -/
def wCtxList (w : List Nat) : Nat := bits (word w 4) 47 0
/-- CTX_COUNT. -/
def wCtxCount (w : List Nat) : Nat := bits (word w 4) 56 48
/-- LOG_BASE. -/
def wLogBase (w : List Nat) : Nat := bits (word w 5) 47 0
/-- LOG_LEN. -/
def wLogLen (w : List Nat) : Nat := bits (word w 5) 63 48
/-- KIND. -/
def wKind (w : List Nat) : Nat := bits (word w 0) 3 0
/-- BARRIER. -/
def wBarrier (w : List Nat) : Bool := bit (word w 0) 7

/-- The status list of a condition. -/
def failIf (c : Bool) (st : Nat) : List Nat := if c then [st] else []

/-- R14: the value of an `n`-bit length, count or size field is the all-ones value, which is legal only where its chapter says
so. -/
def allOnes (n v : Nat) : Bool := decide (v = 2 ^ n - 1)

/-- R159, R573: the statuses of the place of a table of `n` bytes at `a`: FIREWALL_DENY where its first byte is unmapped
or in a register range, LENGTH_OVER where it runs past its mapped range; none for an empty table. -/
def tablePlace (a n : Nat) : List Nat :=
  if n = 0 then []
  else match placeOf a with
    | none => [4]
    | some (p, b, len) => if p.isReg then [4] else failIf (!inside a n b len) 2

/-- R574: the status of reading a table of `n` bytes at `a` for a command's start; 0 for an empty one. -/
def State.tableRead (s : State) (r : CmdRef) (a n : Nat) : Nat := if n = 0 then 0 else s.readStatus (whoSch r) a n

/-- R374, R387: the domain is one that the Vale's FLR_C7_DOM admits to class 7. -/
def State.class7Domain (s : State) (dom : Nat) : Bool :=
  (List.range 4).any fun m =>
    bit (s.reg (aFlr 4 8)) (16 * m + 12) && decide (s.fld (aFlr 4 8) (16 * m + 11) (16 * m) = dom)

/-- R67, R69, R155, R156, R159, R374: the statuses of the checks of the header. -/
def State.headerFails (s : State) (j : Job) (r : CmdRef) (w : List Nat) : List Nat :=
  let ar := bits (word w 2) 31 0
  failIf (decide (bits (word w 0) 31 26 ≠ 0) || decide (bits (word w 2) 63 32 ≠ 0) || decide (bits (word w 3) 63 53 ≠ 0)
    || decide (bits (word w 4) 63 57 ≠ 0) || decide (word w 7 ≠ 0) || decide (7 ≤ wKind w)
    || decide (bits ar 1 0 = 3) || decide (bits ar 15 4 ≠ 0)) 0x0F ++
  failIf (decide (wOutTable w % 64 ≠ 0) || decide (wCtxList w % 64 ≠ 0) || decide (wLogBase w % 64 ≠ 0)) 3 ++
  failIf (decide (bits (word j.words 3) 54 48 ≤ wMapset w) || decide (16 < wOutCount w) || decide (256 < wCtxCount w)
    || [bits (word w 1) 15 0, bits (word w 1) 31 16, bits (word w 1) 47 32, bits (word w 1) 63 48].any
        fun d => decide (r.idx < d)) 2 ++
  failIf (allOnes 16 (wLogLen w)) 2 ++
  tablePlace (wOutTable w) (16 * wOutCount w) ++ tablePlace (wCtxList w) (2 * wCtxCount w) ++
  tablePlace (wLogBase w) (16 * wLogLen w) ++
  failIf (decide (wTimeLimit w = 0)) 7 ++
  failIf (decide (bits ar 1 0 = 1) && decide (s.mode ≠ 2)) 0x0C ++
  failIf (decide (0xFF0 ≤ bits (word w 0) 19 8)) 0x0F ++
  failIf (decide (bits (word w 0) 6 4 = 7) && !s.class7Domain (bits (word j.words 4) 43 32)) 4

/-! ## The output table (R157) -/

/-- R157: the declared buffers: base and length of the entries that declare bytes. -/
def State.outBufs (s : State) (w : List Nat) : List (Nat × Nat) :=
  (List.range (wOutCount w)).filterMap fun i =>
    let b := bits (s.num (wOutTable w + 16 * i) 8) 47 0
    let n := bits (s.num (wOutTable w + 16 * i + 8) 8) 31 0
    if n = 0 then none else some (b, n)

/-- R157: a buffer lies wholly in DRAM or in one lea pool. -/
def bufPlace (b n : Nat) : Bool :=
  match placeOf b with
  | some (.dram, x, len) => inside b n x len
  | some (.pool _ _, x, len) => inside b n x len
  | _ => false

/-- Some two of the ranges have a byte in common. -/
def anyOverlap : List (Nat × Nat) → Bool
  | [] => false
  | x :: t => t.any (fun y => overlaps x.1 x.2 y.1 y.2) || anyOverlap t

/-- R157, R159: the statuses of the checks of the output table. -/
def State.outFails (s : State) (r : CmdRef) (w : List Nat) : List Nat :=
  let st := s.tableRead r (wOutTable w) (16 * wOutCount w)
  if tablePlace (wOutTable w) (16 * wOutCount w) ≠ [] then []
  else if st ≠ 0 then [st]
  else
    let ent := (List.range (wOutCount w)).map fun i => (s.num (wOutTable w + 16 * i) 8, s.num (wOutTable w + 16 * i + 8) 8)
    let bufs := s.outBufs w
    failIf (ent.any fun e => decide (bits e.1 63 48 ≠ 0) || decide (bits e.2 63 32 ≠ 0)) 0x0F ++
    failIf (anyOverlap bufs) 0x0F ++
    failIf (ent.any fun e => decide (bits e.1 47 0 % 64 ≠ 0) || decide (bits e.2 31 0 % 64 ≠ 0)) 3 ++
    failIf (ent.any fun e => allOnes 32 (bits e.2 31 0)) 2 ++
    failIf (bufs.any fun b => !bufPlace b.1 b.2) 4

/-! ## The context list (R159, R160) -/

/-- The context list as it stands. -/
def State.ctxEntries (s : State) (w : List Nat) : List Nat :=
  (List.range (wCtxCount w)).map fun i => s.num (wCtxList w + 2 * i) 2

/-- R155, R529: the command is a checkpoint RESTORE: its contexts are FREE, and it sets their DOMAIN itself. -/
def wRestores (w : List Nat) : Bool := decide (bits (word w 0) 3 0 = 4) && decide (bits (word w 8) 1 0 = 1)

/-- R159, R529: the statuses of the checks of the context list; removed entries of an earlier run (R172) are not looked
at. -/
def State.ctxFails (s : State) (j : Job) (c : Cmd) (w : List Nat) : List Nat :=
  let st := s.tableRead c.ref (wCtxList w) (2 * wCtxCount w)
  if tablePlace (wCtxList w) (2 * wCtxCount w) ≠ [] then []
  else if st ≠ 0 then [st]
  else
    let l := (s.ctxEntries w).filter fun x => !c.dropCtx.contains x
    failIf (l.any fun x => decide (4096 ≤ x)) 2 ++
    if wRestores w then failIf (l.any fun x => decide (x < 4096) && decide (ctxState (s.ctx x) ≠ 0)) 0x0F
    else
      failIf (l.any fun x => decide (x < 4096) && decide (ctxState (s.ctx x) = 0)) 0x0F ++
      failIf (l.any fun x => decide (x < 4096) && decide (ctxState (s.ctx x) ≠ 0)
        && decide (ctxDomain (s.ctx x) ≠ bits (word j.words 4) 43 32)) 4

/-- R160, R172: the entries that are left: not removed, and not TORN_DOWN; none of a RESTORE, whose contexts are FREE. -/
def State.ctxLeft (s : State) (c : Cmd) (w : List Nat) : List Nat :=
  if wRestores w then [] else
    (s.ctxEntries w).filter fun x => !c.dropCtx.contains x && decide (ctxState (s.ctx x) ≠ 5)

/-! ## Phase maps (R177 to R182) -/

/-- A phase map taken apart (R178): its candidate number, MAP_ID, masks, tiles by logical number as (die, lea, LTILE), and
pins. -/
structure PMap where
  idx : Nat
  id : Nat
  dieReq : Nat
  fullLeas : Nat
  glenLeas : Nat
  praDies : Nat
  collDies : Nat
  tiles : List (Nat × Nat × Nat)
  pins : List Pin
  deriving DecidableEq, Repr

/-- No map. -/
def pmapNone : PMap := ⟨0, 0xFFFF, 0, 0, 0, 0, 0, [], []⟩

/-- R178: the map at address `a`, candidate `i`. -/
def State.pmapAt (s : State) (a i : Nat) : PMap :=
  let h := s.words a 4
  { idx := i, id := bits (word h 0) 15 0, dieReq := bits (word h 0) 19 16, fullLeas := word h 1, glenLeas := word h 2
    praDies := bits (word h 3) 3 0, collDies := bits (word h 3) 7 4
    tiles := (List.range (min 1024 (bits (word h 0) 42 32))).map fun l =>
      let e := s.num (a + 64 + 2 * l) 2
      (bits e 1 0, bits e 5 2, bits e 9 6)
    pins := (List.range (min 64 (bits (word h 0) 54 48))).filterMap fun p =>
      let e := s.num (a + 2112 + 16 * p) 8
      let n := bits (s.num (a + 2112 + 16 * p + 8) 8) 22 0
      if n = 0 then none else some ⟨bits e 1 0, bits e 5 2, bits e 27 6, n⟩ }

/-- R181, R182: the Meadows a map names, as a mask. -/
def PMap.dies (m : PMap) : Nat :=
  (List.range 4).foldl (fun t d =>
    if bit m.dieReq d || m.tiles.any (fun e => decide (e.1 = d)) || m.pins.any (fun p => decide (p.die = d))
        || decide (bits m.glenLeas (16 * d + 15) (16 * d) ≠ 0) || bit m.praDies d || bit m.collDies d then t + 2 ^ d
    else t) 0

/-- R466: the lea is lost, or runs 15 tiles. -/
def State.leaLost (s : State) (d l : Nat) : Bool := bit (s.reg (aMdw d 0x48)) l
/-- R466: the lea runs 15 tiles. -/
def State.leaDegraded (s : State) (d l : Nat) : Bool := bit (s.reg (aMdw d 0x24)) l

/-- R467: an engine of a Meadow failed its self-test: the Glen engine of lea `l`, or 16 the Prairie engine. -/
def State.engineOut (s : State) (d l : Nat) : Bool := (readAt (fun _ => dieFresh) s.dies d).enginesOut.contains l

/-- R181, R466, R467: the hardware present can carry the map. -/
def State.mapCarried (s : State) (m : PMap) : Bool :=
  (List.range 4).all (fun d => !bit m.dies d || s.meadowUp d) &&
  (List.range 64).all (fun b => !bit m.fullLeas b || decide (s.fld (aLea (b / 16) (b % 16) 0) 12 8 = 16)) &&
  m.tiles.all (fun e => !s.leaLost e.1 e.2.1 && !(decide (e.2.2 = 15) && s.leaDegraded e.1 e.2.1)) &&
  (List.range 64).all (fun b => !bit m.glenLeas b || !(s.leaLost (b / 16) (b % 16) || s.engineOut (b / 16) (b % 16))) &&
  (List.range 4).all (fun d => !bit m.praDies d || !s.engineOut d 16)

/-- What the choice of a map gives: a map with its address, or a status. -/
inductive MapChoice where
  | chosen (addr : Nat) (m : PMap)
  | failed (status : Nat)
  deriving DecidableEq, Repr

/-- R181: the first candidate from number `i` on, of those in `as`. -/
def State.chooseMap (s : State) (r : CmdRef) : Nat → List Nat → MapChoice
  | _, [] => .failed 8
  | i, a :: as =>
    let st := s.readStatus (whoSch r) a 4096
    if st = 0 then
      let m := s.pmapAt a i
      if s.mapCarried m then .chosen a m else s.chooseMap r (i + 1) as
    else if st = 5 ∨ st = 8 then s.chooseMap r (i + 1) as
    else .failed st

/-- R177: the entry of the map-set table: its candidates' addresses, or the status of its checks. -/
def State.mapSet (s : State) (j : Job) (r : CmdRef) (w : List Nat) : Nat × List Nat :=
  let a := bits (word j.words 3) 47 0 + 64 * wMapset w
  let st := s.tableRead r a 64
  if st ≠ 0 then (st, [])
  else
    let e := s.words a 8
    let n := bits (word e 0) 2 0
    let as := (List.range n).map fun i => bits (word e (i + 1)) 47 0
    (oneOf (
      failIf (decide (n = 0) || decide (bits (word e 0) 63 3 ≠ 0)
        || (List.range 7).any (fun i => decide (n ≤ i) && decide (word e (i + 1) ≠ 0))
        || (List.range n).any (fun i => decide (bits (word e (i + 1)) 63 48 ≠ 0))) 0x0F ++
      failIf (as.any fun a => decide (a % 4096 ≠ 0)) 3), as)

/-- Some element occurs twice. -/
def hasDup {α : Type} [DecidableEq α] : List α → Bool
  | [] => false
  | x :: t => t.contains x || hasDup t

/-- R179, R182: the statuses of the checks of the map at address `a`. -/
def State.mapFails (s : State) (j : Job) (r : CmdRef) (a : Nat) (m : PMap) : List Nat :=
  let h := s.words a 8
  let tiles := bits (word h 0) 42 32
  let pins := bits (word h 0) 54 48
  let ents := (List.range (min tiles 1024)).map fun l => s.num (a + 64 + 2 * l) 2
  let pinWords := (List.range 64).map fun p => (s.num (a + 2112 + 16 * p) 8, s.num (a + 2112 + 16 * p + 8) 8)
  let mask := if r.list = 0 then 0xC else 0x3
  failIf (decide (bits (word h 0) 31 20 ≠ 0) || decide (bits (word h 0) 47 43 ≠ 0) || decide (bits (word h 0) 63 55 ≠ 0)
    || decide (bits (word h 3) 63 8 ≠ 0) || (h.drop 4).any (fun x => decide (x ≠ 0))
    || ents.any (fun e => !bit e 15 || decide (bits e 14 10 ≠ 0))
    || decide (leNat (s.bytes (a + 64 + 2 * min tiles 1024) (2 * (1024 - min tiles 1024))) ≠ 0)
    || decide (leNat (s.bytes (a + 3136) 960) ≠ 0)
    || hasDup m.tiles
    || (List.range 4).any (fun d => !bit m.dieReq d && (m.tiles.any (fun e => decide (e.1 = d))
        || decide (bits m.glenLeas (16 * d + 15) (16 * d) ≠ 0) || bit m.praDies d || bit m.collDies d))
    || anyOverlap (m.pins.map fun p => (poolBase p.die p.lea + p.off, p.len))
    || (List.range 64).any (fun p => decide (pins ≤ p) && decide (pinWords.getD p (0, 0) ≠ (0, 0)))
    || (pinWords.take pins).any (fun p => decide (bits p.1 63 28 ≠ 0) || decide (bits p.2 63 23 ≠ 0))
    || (decide (bits (word j.words 0) 23 22 = 1) && decide (m.dies &&& mask ≠ 0))) 0x0F ++
  failIf (decide (1024 < tiles) || decide (64 < pins) || m.pins.any (fun p => allOnes 23 p.len || decide (0x400000 < p.off + p.len))) 2 ++
  failIf ((pinWords.take pins).any fun p => decide (bits p.1 27 6 % 64 ≠ 0) || decide (bits p.2 22 0 % 64 ≠ 0)) 3

/-! ## What a start knows -/

/-- Everything the start of a command has found before it checks the body. -/
structure StartEnv where
  job : Job
  cmd : Cmd
  w : List Nat
  map : PMap
  outs : List (Nat × Nat)
  ctxs : List Nat
  removed : Nat
  deriving DecidableEq, Repr

/-- What a start comes to before the conditions: a status it fails with, or its environment. -/
inductive Checked where
  | fails (status : Nat) (env : StartEnv)
  | passes (env : StartEnv)
  deriving DecidableEq, Repr

/-- R181: the map of a start: none is looked for where MAPSET names no entry of the table. -/
def State.startMap (s : State) (j : Job) (r : CmdRef) (w : List Nat) : Option MapChoice :=
  if bits (word j.words 3) 54 48 ≤ wMapset w then none
  else
    let m := s.mapSet j r w
    some (if m.1 ≠ 0 then .failed m.1 else s.chooseMap r 0 m.2)

/-- R159, R181: what a start knows of a command whose descriptor is `w`, with the map that was selected, if any. -/
def State.startEnv (s : State) (j : Job) (c : Cmd) (w : List Nat) (ch : Option MapChoice) : StartEnv :=
  let l := s.ctxLeft c w
  { job := j, cmd := c, w := w, outs := s.outBufs w, ctxs := l
    removed := if wRestores w then 0 else wCtxCount w - l.length
    map := match ch with
      | some (.chosen _ m) => m
      | _ => pmapNone }

/-- R159 to R161, R172, R177 to R182: the statuses of all the checks that a start fails. `body` gives those of the kind's
body, which like the map's own are made where a map was selected. -/
def State.startFails (s : State) (e : StartEnv) (ch : Option MapChoice) (body : StartEnv → List Nat) : List Nat :=
  let r := e.cmd.ref
  s.headerFails e.job r e.w ++ s.outFails r e.w ++ s.ctxFails e.job e.cmd e.w ++
  (match ch with
    | none => []
    | some (.failed st) => [st]
    | some (.chosen a m) => s.mapFails e.job r a m ++ body e) ++
  failIf (e.ctxs.isEmpty && decide (wCtxCount e.w ≠ 0) && !wRestores e.w) 9

/-- R68: a command descriptor as a start reads it: a re-run keeps the ARITH_CTL that the first start read. -/
def Cmd.heldWords (c : Cmd) (w : List Nat) : List Nat :=
  if c.rerun then w.set 2 (setBits (word w 2) 31 0 (bits (word c.words 2) 31 0)) else w

/-- R159 to R161, R172, R177 to R182, R574: the checks of a start. Where several fail with unlike codes the spec ranks
none. -/
def State.checkStart (s : State) (j : Job) (r : CmdRef) (body : StartEnv → List Nat) : Checked :=
  let c := j.cmdAt r
  let st := s.readStatus (whoSch r) (j.cmdAddr r) 128
  if st ≠ 0 then .fails st ⟨j, c, [], pmapNone, [], [], c.removed⟩
  else
    let w := c.heldWords (s.words (j.cmdAddr r) 16)
    let ch := s.startMap j r w
    let e := s.startEnv j c w ch
    let st := oneOf (s.startFails e ch body)
    if st ≠ 0 then .fails st e else .passes e

/-! ## The THREADS body (R125, R161) -/

/-- R125: bytes of a descriptor's tensor, scales and metadata, as (address, bytes). -/
def TDesc.parts (d : TDesc) : List (Nat × Nat) :=
  if d.outer = 0 ∨ d.rows = 0 ∨ d.cols = 0 then []
  else
    [(d.base, (d.outer - 1) * d.ostride + b4Bytes d.format d.rows d.cols)] ++
    (if d.format.isMx then [(d.scale, (d.outer - 1) * roundUp d.scaleBytes 64 + d.scaleBytes)] else []) ++
    (if d.sparse then [(d.meta_, (d.outer - 1) * roundUp d.metaBytes 64 + d.metaBytes)] else [])

/-- R14, R62, R124, R125: the statuses of the checks of one descriptor. A sparse operand is a weight operand (R84), whose reduction
dimension are its rows. -/
def descFails (w : Nat) : List Nat :=
  let d := tdesc w
  match fmtOf d.fmt with
  | none => failIf (decide (bits w 63 56 ≠ 0) || decide (bits w 255 240 ≠ 0)) 0x0F ++ [0x0C]
  | some f =>
    let axisLen := if d.axis && !d.sparse then d.cols else d.logicalK
    failIf (decide (bits w 63 56 ≠ 0) || decide (bits w 255 240 ≠ 0) || decide (d.space = 3) || decide (d.rows % 4 ≠ 0)
      || decide (d.cols % 4 ≠ 0) || (d.axis && !f.isMx) || (d.sparse && !f.sparseOk)
      || (d.sparse && (d.axis || decide (d.logicalK % 8 ≠ 0))) || (f.isMx && decide (axisLen % 32 ≠ 0))
      || decide (d.ostride % 64 ≠ 0)) 0x0F ++
    failIf (allOnes 16 d.rows || allOnes 16 d.cols || allOnes 16 d.outer) 2 ++
    failIf (decide (d.base % 64 ≠ 0) || decide (d.scale % 64 ≠ 0) || decide (d.meta_ % 64 ≠ 0)) 3 ++
    d.parts.flatMap fun p =>
      match d.space with
      | 0 => match placeOf p.1 with
        | none => [4]
        | some (.tile _ _ _, _, _) => [0x0F]
        | some (x, b, n) => if x.isReg then [4] else failIf (!inside p.1 p.2 b n) 2
      | 1 => failIf (decide (0x40000 < p.1 + p.2)) 2
      | _ => failIf (decide (0x400000 < p.1 + p.2)) 2

/-- R161: the effective TILE_COUNT of a THREADS command. -/
def threadsCount (w : List Nat) (tiles : Nat) : Nat :=
  if bits (word w 10) 53 43 = 0x7FF then tiles - bits (word w 10) 42 32 else bits (word w 10) 53 43

/-- R125, R161: the statuses of the checks of a THREADS body. -/
def State.threadsFails (s : State) (e : StartEnv) : List Nat :=
  let w := e.w
  let entry := bits (word w 8) 47 0
  let code := bits (word w 9) 47 0
  let clen := bits (word w 10) 31 0
  let first := bits (word w 10) 42 32
  let count := bits (word w 10) 53 43
  let tab := bits (word w 13) 47 0
  let n := bits (word w 13) 54 48
  let st := s.tableRead e.cmd.ref tab (32 * min n 64)
  failIf (decide (bits (word w 8) 63 48 ≠ 0) || decide (bits (word w 9) 63 48 ≠ 0) || decide (bits (word w 10) 63 58 ≠ 0)
    || decide (bits (word w 11) 63 48 ≠ 0) || decide (bits (word w 13) 63 55 ≠ 0) || decide (word w 14 ≠ 0)
    || decide (word w 15 ≠ 0)) 0x0F ++
  failIf (decide (entry % 4 ≠ 0) || decide (code % 64 ≠ 0) || decide (clen % 64 ≠ 0) || decide (tab % 64 ≠ 0)) 3 ++
  failIf (allOnes 32 clen || decide (entry < code) || decide (clen ≤ entry - code) || decide (8 < bits (word w 10) 57 54) || decide (64 < n)
    || decide (e.map.tiles.length < first)
    || (decide (count ≠ 0x7FF) && decide (e.map.tiles.length < first + count))) 2 ++
  (if tablePlace tab (32 * n) ≠ [] then tablePlace tab (32 * n) else if st ≠ 0 then [st] else (List.range (min n 64)).flatMap fun i => descFails (s.num (tab + 32 * i) 32))

/-- R136, R161: the tile-shares of a THREADS command, bound to the tiles its map gives now. Where TPT is 0 they launch no thread
and are over. -/
def State.threadsShares (s : State) (e : StartEnv) : List Share :=
  let first := bits (word e.w 10) 42 32
  let st := if bits (word e.w 10) 57 54 = 0 then 3 else 0
  (List.range (threadsCount e.w e.map.tiles.length)).filterMap fun i =>
    e.map.tiles[first + i]?.map fun t => ⟨first + i, t.1, t.2.1, t.2.2, s.mapTile t.1 t.2.1 t.2.2, st⟩

/-! ## The conditions of R158 and the other waits -/

/-- R158 conditions 1 and 2: dependencies committed with their entries written, and a barrier's predecessors over. -/
def State.depsOver (s : State) (j : Job) (r : CmdRef) (w : List Nat) : Bool :=
  (depsOf r w).all (fun d => decide ((j.cmdAt d).phase = .committed) && s.entryDone d) &&
  (!wBarrier w || (List.range r.idx).all fun i => (j.cmdAt ⟨r.list, i⟩).over)

/-- R215: the lea is reserved for a golden run. -/
def State.reserved (s : State) (d l : Nat) : Bool := s.sched.reservations.any fun x => decide (x.1 = leaKey d l)

/-- The leas a start needs: those of its shares and of its Glen engines. -/
def startLeas (e : StartEnv) (shares : List Share) : List (Nat × Nat) :=
  shares.map (fun h => (h.die, h.lea)) ++
  (if wKind e.w = 1 then ((List.range 64).filter fun b => bit e.map.glenLeas b).map fun b => (b / 16, b % 16) else [])

/-- The leas that a map names, by 16 · die + lea. -/
def PMap.leas (m : PMap) : List Nat :=
  m.tiles.map (fun t => leaKey t.1 t.2.1) ++ m.pins.map (fun p => leaKey p.die p.lea)
    ++ (List.range 64).filter fun b => bit (m.glenLeas ||| m.fullLeas) b

/-- R98, R102: work bound for the logical tile waits: its swap is under way, or the tile that serves it reported and its swap-out
waits. -/
def State.tileMoves (s : State) (d l n : Nat) : Bool :=
  decide ((s.lea (leaKey d l)).swapping = some n) || (s.tile (tileKey d l (s.mapTile d l n))).swapOut

/-- R213, R466: a lea that the map names has its control core down, or a lost tile that is not yet rebound. -/
def State.leaWaits (s : State) (m : PMap) : Bool :=
  m.leas.any fun k => !(s.lea k).coreUp || !(s.lea k).losing.isEmpty

/-- R158 condition 4: the outputs overlap none of a command in flight. -/
def State.outsFree (s : State) (outs : List (Nat × Nat)) : Bool :=
  !s.inFlight.any fun c => c.outs.any fun o => outs.any fun p => overlaps o.1 o.2 p.1 p.2

/-- R187: the collective units that commands in flight use. -/
def State.collBusy (s : State) : Nat := s.inFlight.foldl (fun m c => m ||| c.collDies) 0

/-- The contexts of a start that are not resident. -/
def State.swapped (s : State) (ctxs : List Nat) : List Nat := ctxs.filter fun c => !s.resident c

/-- R201: every context of the list that is not resident could be swapped in now. -/
def State.demandable (s : State) (ctxs : List Nat) : Bool := (s.demands ctxs (s.swapped ctxs)).isSome

/-- R138, R158, R187: conditions 3 to 5 of a start: its owned counters, its outputs and its collective units are free. -/
def State.condsHold (s : State) (e : StartEnv) (shares : List Share) (coll : Nat) : Bool :=
  let own := if wKind e.w = 0 then word e.w 12 else 0
  shares.all (fun h => !decide (s.reg (aTil h.die h.lea h.tile 0x1100) &&& own ≠ 0)) && s.outsFree e.outs
    && decide (s.collBusy &&& coll = 0)

/-- R98, R102, R213, R215, R402, R466: the waits of a start beside its conditions that any kind can meet: no reserved lea, no logical
tile of its own that moves, every lea of its map in order, and no queue taken. -/
def State.waitsOver (s : State) (e : StartEnv) (shares : List Share) : Bool :=
  (startLeas e shares).all (fun l => !s.reserved l.1 l.2)
    && shares.all (fun h => !s.tileMoves h.die h.lea h.lt) && !s.leaWaits e.map
    && (s.takeQueues (bits (word e.w 0) 19 8) e.ctxs).all fun q => (s.queue q).holder.isNone

end Sys2Proof.Machine
end

