-- ==== Sys2Proof/Machine/Rings.lean ====
section
/-! DEFINITION. The rings (R203 to R208, R218, R219): doorbells, enabling and draining of a ring set, the consumption of
submission entries, and the context operations they carry; readiness and swap-ins (R196, R199). -/

namespace Sys2Proof.Machine

/-! ## Ring sets (R204, R205, R218, R219) -/

/-- R204: the owner of a ring set. -/
def ringOwner : Nat → Nat
  | 0 => initPcieA
  | 1 => initCol
  | 2 => initSch
  | _ => initSec

/-- R205, R220: ERROR of a set set, and EVT_RING_ERROR raised. -/
def State.ringError (s : State) (set : Nat) : State :=
  (s.setFld (aRing set 0x18) 31 31 1).raise 4 0 0x1F "RING_ERROR" set 0

/-- R205: an index register of a ring written: discarded with an error where it is not below 2^LOG. -/
def State.ringIndex (s : State) (set ring off v : Nat) : State :=
  if 2 ^ s.ringLog set ring ≤ bits v 14 0 then s.ringError set else s.setReg (aRing set off) (bits v 14 0)

/-- R205: a write of SQ_TAIL by the owner of the set. -/
def execSqTailDoorbell (init : Init) (set : Fin 4) (value : Word32) (s : State) : Host.Outcome State Fault Refusal :=
  .next <| s.live (if init.toNat ≠ ringOwner set then s else s.ringIndex set 0 0x20 value.toNat)

/-- R218: a base of an enabled ring lies in DRAM. -/
def State.ringBaseOk (s : State) (set off log : Nat) : Bool :=
  let b := bits (s.reg (aRing set off)) 47 0
  decide (b % 4096 = 0) && inDram b (64 * 2 ^ log)

/-- R218, R219: RING_CTL written with EN = 1: ERROR is cleared where bit 31 is 1; a disabled set is enabled, with its indices
and counts at 0; a set that is draining, a LOG below 4 or a base outside DRAM is an error. -/
def State.ringEnable (s : State) (set v : Nat) : State :=
  let a := aRing set 0x18
  let s := if bit v 31 then s.setFld a 31 31 0 else s
  if bit (s.reg a) 13 then s.ringError set
  else if s.ringEn set then s
  else
    let s := s.setFld a 12 1 (bits v 12 1)
    if [bits v 4 1, bits v 8 5, bits v 12 9].any (fun l => decide (l < 4)) || !s.ringBaseOk set 0 (bits v 4 1)
        || !s.ringBaseOk set 8 (bits v 8 5) || !s.ringBaseOk set 0x10 (bits v 12 9) then s.ringError set
    else
      let s := [0x20, 0x24, 0x28, 0x2C, 0x30, 0x34].foldl (fun s o => s.setReg (aRing set o) 0) s
      let q := fun (m : Sparse Nat) (r : Nat) => writeAt (fun _ => 0) m (ringKey set r) 0
      { s.setFld a 0 0 1 with sched := { s.sched with ringSeq := q (q s.sched.ringSeq 1) 2 } }

/-- R218, R219: a write of RING_CTL with EN = 1 by the owner of the set. -/
def execRingEnable (init : Init) (set : Fin 4) (value : Word32) (s : State) : Host.Outcome State Fault Refusal :=
  .next <| s.live (if init.toNat ≠ ringOwner set ∨ ¬ bit value.toNat 0 then s else s.ringEnable set value.toNat)

/-- R219: a write of RING_CTL with EN = 0: consumption stops; the set is disabled at once where no job of it is left, and
drains otherwise. -/
def execRingDisable (init : Init) (set : Fin 4) (value : Word32) (s : State) : Host.Outcome State Fault Refusal :=
  .next <| s.live <|
    let a := aRing set 0x18
    let v := value.toNat
    if init.toNat ≠ ringOwner set ∨ bit v 0 then s
    else
      let s := if bit v 31 then s.setFld a 31 31 0 else s
      if s.ringEn set then (s.setFld a 13 13 1).drainSet set else s.setFld a 12 1 (bits v 12 1)

/-- R206: the oldest entry that waits for a set's completion ring is written once there is room. -/
def execCompletionEntryWrite (set : Fin 4) (s : State) : Host.Outcome State Fault Refusal :=
  .next <| s.live <|
    match s.sched.cqWait.find? fun w => decide (w.1 = set.val) with
    | none => s
    | some w =>
      if !s.schRunning || !s.ringEn set
          || ringFull (s.reg (aRing set 0x2C)) (s.reg (aRing set 0x28)) (s.ringLog set 1) then s
      else
        let s := { s with sched := { s.sched with cqWait := s.sched.cqWait.erase w } }
        (s.ringPut set 1 w.2.1 w.2.2.1).drainSet set

/-! ## Consumption (R203, R205, R208) -/

/-- The submission entry at the head of a set's ring. -/
def State.sqEntry (s : State) (set : Nat) : List Nat :=
  s.words (bits (s.reg (aRing set 0)) 47 0 + 64 * s.reg (aRing set 0x24)) 8

/-- R208: OP of a submission entry. -/
def sqOp (w : List Nat) : Nat := bits (word w 0) 7 0
/-- R208: CTX of a submission entry. -/
def sqCtx (w : List Nat) : Nat := bits (word w 0) 31 16
/-- R208: ADDR of a submission entry. -/
def sqAddr (w : List Nat) : Nat := bits (word w 1) 47 0

/-- R208: the entry is consumed as JOB: it is one, or its OP is reserved. -/
def sqIsJob (w : List Nat) : Bool := decide (sqOp w < 2) || decide (8 < sqOp w)

/-- R203: 64 jobs are queued. -/
def State.jobsFull (s : State) : Bool := decide (64 ≤ (s.sched.jobs.filter fun j => decide (j.phase = .queued)).length)

/-- R203, R219: the set has an entry that can be consumed now. -/
def State.sqWaits (s : State) (set : Nat) : Bool :=
  s.ringEn set && !bit (s.reg (aRing set 0x18)) 13 && decide (s.reg (aRing set 0x24) ≠ s.reg (aRing set 0x20))
    && !(decide (sqOp (s.sqEntry set) = 1) && s.jobsFull)

/-- R203: the set whose entry is consumed next: the sets in turn, those without an entry passed over. -/
def State.sqTurn (s : State) : Option Nat :=
  ((List.range 4).map fun i => (s.sched.nextSet + i) % 4).find? s.sqWaits

/-- R205: the head entry of a set consumed. -/
def State.sqTake (s : State) (set : Nat) : State :=
  let h := aRing set 0x24
  { s.setReg h ((s.reg h + 1) % 2 ^ s.ringLog set 0) with sched := { s.sched with nextSet := (set + 1) % 4 } }

/-- R208: a ring-operation entry. -/
def State.sqAnswer (s : State) (set : Nat) (w : List Nat) (st : Nat) : State :=
  s.cqPut set 3 [st + sqOp w * 2 ^ 8 + sqCtx w * 2 ^ 16 + bits (word w 0) 63 32 * 2 ^ 32, 0, 0, 0, 0, 0, 0] none

/-- Who the scheduler core is between jobs (R574). -/
def whoBetween : Who := ⟨initSch, none, false, true⟩

/-- R208: the checks of the row "Any" that need the entry alone. -/
def sqFails (w : List Nat) : List Nat :=
  let op := sqOp w
  failIf (decide (2 ≤ op) && decide (op ≤ 7) && decide (4096 ≤ sqCtx w)) 2 ++
  failIf ([1, 2, 6, 7].contains op && decide (sqAddr w % 64 ≠ 0)) 3 ++
  failIf (decide (op = 0) || decide (8 < op) || decide (bits (word w 0) 15 8 ≠ 0)
    || (w.drop 2).any fun x => decide (x ≠ 0)) 0x0F

/-- R208: a firewall domain is open to a ring set. -/
def State.domainOpen (s : State) (dom set : Nat) : Bool := s.domains.any fun e => decide (e.1 = dom) && bit e.2 set

/-- R208: the domain of a context is not open to the ring's owner. -/
def State.ctxDomainFails (s : State) (set c : Nat) : List Nat :=
  failIf (decide (c < 4096) && !s.domainOpen (ctxDomain (s.ctx c)) set) 4

/-- R203, R208: the entry of one operation is consumed: it is the set's turn and its OP is `isOp`. `act` gives the
statuses of the operation's own checks, and what it does where none applies. -/
def State.sqRun (s : State) (set : Nat) (isOp : List Nat → Bool) (fails : List Nat → List Nat)
    (act : List Nat → State → State) : State :=
  if !s.schRunning || decide (s.sqTurn ≠ some set) || !isOp (s.sqEntry set) then s
  else
    let w := s.sqEntry set
    let st := oneOf (sqFails w ++ fails w)
    let t := s.sqTake set
    if st ≠ 0 then t.sqAnswer set w st else act w t

/-! ## Context operations (R208, R257) -/

/-- R13, R194: a nonzero reserved field of a context image. -/
def imageBad (w : List Nat) : Bool :=
  decide (bits (word w 0) 7 6 ≠ 0) || decide (bits (word w 0) 31 28 ≠ 0) || decide (bits (word w 0) 47 41 ≠ 0)
    || decide (bits (word w 5) 63 33 ≠ 0) || decide (word w 6 ≠ 0) || decide (word w 7 ≠ 0)

/-- R208: the statuses of reading a context image, and of its reserved fields. -/
def State.imageFails (s : State) (w : List Nat) : List Nat :=
  if sqAddr w % 64 ≠ 0 then []
  else
    let st := s.readStatus whoBetween (sqAddr w) 256
    if st ≠ 0 then [st] else failIf (imageBad (s.words (sqAddr w) 32)) 0x0F

/-- The image can be read. -/
def State.imageOk (s : State) (w : List Nat) : Bool :=
  decide (sqAddr w % 64 = 0) && decide (s.readStatus whoBetween (sqAddr w) 256 = 0)

/-- R208: what an image gives a descriptor: BLOCK, NEED, IQ, IQ_EN, PT_ROOT, LAYERS and USER. -/
def imageInto (old img : List Nat) : List Nat :=
  let w := setWordBits old 0 5 5 (bits (word img 0) 5 5)
  let w := setWordBits w 0 63 48 (bits (word img 0) 63 48)
  let w := setWordBits w 0 40 32 (bits (word img 0) 40 32)
  let w := setWord w 1 (word img 1)
  w.take 8 ++ img.drop 8

/-- R197, R208, R257: context `c` allocated from an image, with TOKENS and SEQ in word 2 (0 for CTX_ALLOC). -/
def State.ctxAlloc (s : State) (c : Nat) (img : List Nat) (tokens : Nat) : State :=
  let w0 := setWordBits (setWordBits (List.replicate 32 0) 0 4 3 (bits (word img 0) 4 3)) 0 27 16 (ctxDomain img)
  let d := setWord (setWord (imageInto w0 img) 2 tokens) 3 s.now
  let d := setWordBits d 0 2 0 (if s.ctxReady d then 3 else 4)
  (s.tableAcquire (ctxRoot img) (ctxLayers img)).setCtx c d

/-- R208: CTX_ALLOC. -/
def execCtxAlloc (set : Fin 4) (s : State) : Host.Outcome State Fault Refusal :=
  .next <| s.live (s.sqRun set (fun w => decide (sqOp w = 2))
    (fun w =>
      let img := s.words (sqAddr w) 32
      s.imageFails w ++ failIf (decide (sqCtx w < 4096) && decide (ctxState (s.ctx (sqCtx w)) ≠ 0)) 0x0F ++
      (if s.imageOk w then
        failIf (!s.domainOpen (ctxDomain img) set) 4 ++ failIf (decide (s.walkStatus (ctxRoot img) (ctxLayers img) ≠ 0))
          (s.walkStatus (ctxRoot img) (ctxLayers img))
      else []))
    fun w s =>
      (s.ctxAlloc (sqCtx w) (s.words (sqAddr w) 32) 0).sqAnswer set w 0)

/-- R208, R257: CTX_FREE. -/
def execCtxFree (set : Fin 4) (s : State) : Host.Outcome State Fault Refusal :=
  .next <| s.live (s.sqRun set (fun w => decide (sqOp w = 3))
    (fun w =>
      let c := sqCtx w
      s.ctxDomainFails set c ++ failIf (decide (c < 4096) && decide (ctxState (s.ctx c) = 0)) 0x0F ++
      failIf (s.ctxInUse c || s.sched.swaps.contains c) 0x10)
    fun w s =>
      let c := sqCtx w
      let d := s.ctx c
      let s := s.tableRelease (ctxRoot d) (ctxLayers d)
      let s := { s with sched := { s.sched with ctxTable := eraseKey s.sched.ctxTable c } }
      let d := setWord (setWord (setWordBits (setWordBits d 0 2 0 0) 0 15 8 0) 4 0) 5 0
      (s.ctxStore c d).sqAnswer set w 0)

/-- R208: BLOCK of a context set to `b`. -/
def State.sqBlock (s : State) (set op : Nat) (b : Bool) : State :=
  s.sqRun set (fun w => decide (sqOp w = op))
    (fun w =>
      let c := sqCtx w
      s.ctxDomainFails set c
        ++ failIf (decide (c < 4096) && (decide (ctxState (s.ctx c) = 0) || decide (ctxState (s.ctx c) = 5))) 0x0F)
    fun w s => (s.setCtx (sqCtx w) (setWordBits (s.ctx (sqCtx w)) 0 5 5 (b2n b))).sqAnswer set w 0

/-- R208: CTX_BLOCK. -/
def execCtxBlock (set : Fin 4) (s : State) : Host.Outcome State Fault Refusal := .next <| s.live (s.sqBlock set 4 true)
/-- R208: CTX_UNBLOCK. -/
def execCtxUnblock (set : Fin 4) (s : State) : Host.Outcome State Fault Refusal := .next <| s.live (s.sqBlock set 5 false)

/-- R260, R268: a copy's references released, and EVT_KV_RETIRED. -/
def State.kvRetired (s : State) (root layers c : Nat) : State :=
  (s.tableRelease root layers).raise 4 0 0x1F "KV_RETIRED" root c

/-- R208, R257: CTX_WRITE. -/
def execCtxWrite (set : Fin 4) (s : State) : Host.Outcome State Fault Refusal :=
  .next <| s.live (s.sqRun set (fun w => decide (sqOp w = 6))
    (fun w =>
      let c := sqCtx w
      let img := s.words (sqAddr w) 32
      s.imageFails w ++ s.ctxDomainFails set c ++ failIf (s.ctxInUse c) 0x10 ++
      failIf (s.imageOk w && !s.domainOpen (ctxDomain img) set) 4 ++
      failIf (decide (c < 4096) && (decide (ctxState (s.ctx c) = 0) || decide (ctxState (s.ctx c) = 5))) 0x0F ++
      (if s.imageOk w && decide (ctxRoot img ≠ ctxRoot (s.ctx c)) then
        [s.walkStatus (ctxRoot img) (ctxLayers img)] else []))
    fun w s =>
      let c := sqCtx w
      let img := s.words (sqAddr w) 32
      let d := s.ctx c
      let moved := decide (ctxRoot img ≠ ctxRoot d)
      let s := if moved then s.tableAcquire (ctxRoot img) (ctxLayers img) else s
      let s := s.setCtx c (imageInto d img)
      let s := if moved && decide (ctxLayers d ≠ 0) then s.kvRetired (ctxRoot d) (ctxLayers d) c else s
      s.sqAnswer set w 0)

/-- R208: CTX_READ. -/
def execCtxRead (set : Fin 4) (s : State) : Host.Outcome State Fault Refusal :=
  .next <| s.live (s.sqRun set (fun w => decide (sqOp w = 7))
    (fun w => s.ctxDomainFails set (sqCtx w) ++
      (if sqAddr w % 64 = 0 then [s.access whoBetween true (sqAddr w) 256] else []))
    fun w s => (s.store (sqAddr w) (wordBytes (s.ctx (sqCtx w)))).sqAnswer set w 0)

/-! ## Jobs (R203, R208) -/

/-- R41: the current mode admits a job of the kind. -/
def State.admits (s : State) (kind : Nat) : Bool :=
  match kind with
  | 0 => decide (s.mode = 1) || decide (s.mode = 3)
  | 1 => decide (s.mode = 2) || decide (s.mode = 4)
  | 2 => decide (s.mode = 2) || decide (s.mode = 3) || decide (s.mode = 4)
  | _ => true

/-- R153: a job that runs gives way to a queued job of higher PRIO that the current mode admits. -/
def State.preemptCheck (s : State) : State :=
  match s.curJob with
  | some j => if decide (j.phase = .running) && s.sched.jobs.any (fun q =>
      decide (q.phase = .queued) && s.admits q.kind && decide (j.prio < q.prio)) then s.preempt else s
  | none => s

/-- R203, R208, R574: a JOB entry consumed: the descriptor is read and its job queued, which answers nothing; an entry
that fails, a reserved OP among them, queues nothing and is answered. -/
def execJob (set : Fin 4) (s : State) : Host.Outcome State Fault Refusal :=
  .next <| s.live (s.sqRun set sqIsJob
    (fun w => if sqOp w = 1 ∧ sqAddr w % 64 = 0 then [s.readStatus whoBetween (sqAddr w) 64] else [])
    fun w s =>
      let j : Job := ⟨s.words (sqAddr w) 8, set, s.sched.serial, .queued, false, 0, [], 0, 0, 0, [], []⟩
      ({ s with sched := { s.sched with jobs := s.sched.jobs ++ [j], serial := s.sched.serial + 1 } }).preemptCheck)

/-- R208: JOB_CANCEL: of the queued and suspended jobs of the set with JOB_ID, the one consumed first is removed. -/
def State.cancelTarget (s : State) (set : Nat) (w : List Nat) : Option Job :=
  s.sched.jobs.find? fun j => decide (j.ringSet = set) && decide (j.id = bits (word w 1) 63 48)
    && (decide (j.phase = .queued) || decide (j.phase = .suspended))

/-- R154, R208: JOB_CANCEL. -/
def execJobCancel (set : Fin 4) (s : State) : Host.Outcome State Fault Refusal :=
  .next <| s.live (s.sqRun set (fun w => decide (sqOp w = 8)) (fun w => failIf (s.cancelTarget set w).isNone 0x0F)
    fun w s => match s.cancelTarget set w with
      | some j => (s.endJob j 0x0E).sqAnswer set w 0
      | none => s)

/-! ## Readiness and swap-ins (R196, R199) -/

/-- R196: a context's STATE follows its readiness. -/
def execContextReadiness (ctx : Fin 4096) (s : State) : Host.Outcome State Fault Refusal :=
  .next <| s.live <|
    let w := s.ctx ctx
    if !s.schRunning || s.sched.swaps.contains ctx.val || decide (s.ctxSettled w = w) then s
    else s.setCtx ctx (s.ctxSettled w)

/-- R199: a swap-in that was started completes. -/
def execSwapInComplete (ctx : Fin 4096) (s : State) : Host.Outcome State Fault Refusal :=
  .next <| s.live <|
    if !s.schRunning || !s.sched.swaps.contains ctx.val then s
    else ({ s with sched := { s.sched with swaps := s.sched.swaps.erase ctx } }).swapIn ctx

end Sys2Proof.Machine
end

