-- ==== Sys2Proof/Machine/Aes.lean ====
section
/-! DEFINITION. AES-256 (FIPS 197), Galois counter mode (NIST SP 800-38D) and the AES key wrap of RFC 3394, which R518 names for
the frames and the keys of the fabric. Bytes are numbers below 256. -/

namespace Sys2Proof.Machine

/-! ## The block cipher -/

/-- Multiplication by x in GF(2^8). -/
def aesX (a : Nat) : Nat := if a < 128 then a * 2 else (a * 2 - 256) ^^^ 0x1B

/-- Multiplication in GF(2^8), bit by bit of the first factor. -/
def aesMul : Nat → Nat → Nat → Nat
  | 0, _, _ => 0
  | n + 1, a, b => (if a % 2 = 1 then b else 0) ^^^ aesMul n (a / 2) (aesX b)

/-- The product of two bytes. -/
def aesGf (a b : Nat) : Nat := aesMul 8 a b

/-- The inverse of a byte, 0 for 0: its 254th power. -/
def aesInv (a : Nat) : Nat :=
  let p2 := aesGf a a
  let p3 := aesGf p2 a
  let p12 := aesGf (aesGf p3 p3) (aesGf p3 p3)
  let p15 := aesGf p12 p3
  let sq := fun (x : Nat) => aesGf x x
  let p240 := sq (sq (sq (sq p15)))
  aesGf (aesGf p240 p12) p2

/-- A byte rotated left. -/
def rotl8 (x k : Nat) : Nat := ((x <<< k) ||| (x >>> (8 - k))) % 256

/-- SubBytes of one byte. -/
def aesSub (a : Nat) : Nat :=
  let b := aesInv a
  ((((b ^^^ rotl8 b 1) ^^^ rotl8 b 2) ^^^ rotl8 b 3) ^^^ rotl8 b 4) ^^^ 0x63

/-- The substitution table. -/
def aesTable : List Nat := (List.range 256).map aesSub

/-- SubBytes by the table. -/
def aesS (a : Nat) : Nat := aesTable.getD a 0

/-- The inverse substitution. -/
def aesSInv (a : Nat) : Nat := aesTable.idxOf a

/-- Byte-wise exclusive or. -/
def xorBytes (a b : List Nat) : List Nat := List.zipWith (fun x y => x ^^^ y) a b

/-- The key schedule, as 4-byte words, newest first: `n` words are added; `i` is the index of the next. -/
def aesExpand : Nat → Nat → Nat → List (List Nat) → List (List Nat)
  | 0, _, _, w => w
  | n + 1, i, rcon, w =>
    let t := w.headD []
    let old := w.getD 7 []
    if i % 8 = 0 then
      let t := xorBytes ((t.drop 1 ++ t.take 1).map aesS) [rcon, 0, 0, 0]
      aesExpand n (i + 1) (aesX rcon) (xorBytes old t :: w)
    else if i % 8 = 4 then aesExpand n (i + 1) rcon (xorBytes old (t.map aesS) :: w)
    else aesExpand n (i + 1) rcon (xorBytes old t :: w)

/-- The 15 round keys of a 32-byte key. -/
def aesKeys (key : List Nat) : List (List Nat) :=
  let w0 := ((List.range 8).map fun i => (key.drop (4 * i)).take 4).reverse
  let w := (aesExpand 52 8 1 w0).reverse
  (List.range 15).map fun i => ((w.drop (4 * i)).take 4).flatten

/-- ShiftRows. -/
def aesShift (s : List Nat) : List Nat := (List.range 16).map fun i => s.getD ((i + 4 * (i % 4)) % 16) 0
/-- The inverse of ShiftRows. -/
def aesUnshift (s : List Nat) : List Nat := (List.range 16).map fun i => s.getD ((i + 12 * (i % 4)) % 16) 0

/-- MixColumns with the coefficients `m` of a row. -/
def aesMix (m : List Nat) (s : List Nat) : List Nat :=
  (List.range 16).map fun i =>
    (List.range 4).foldl (fun r k => r ^^^ aesGf (m.getD ((k + 4 - i % 4) % 4) 0) (s.getD (i / 4 * 4 + k) 0)) 0

/-- One block encrypted. -/
def aesEncrypt (keys : List (List Nat)) (b : List Nat) : List Nat :=
  let s := (List.range 13).foldl (fun s i =>
    xorBytes (aesMix [2, 3, 1, 1] (aesShift (s.map aesS))) (keys.getD (i + 1) [])) (xorBytes b (keys.getD 0 []))
  xorBytes (aesShift (s.map aesS)) (keys.getD 14 [])

/-- One block decrypted. -/
def aesDecrypt (keys : List (List Nat)) (b : List Nat) : List Nat :=
  let s := (List.range 13).foldl (fun s i =>
    aesMix [14, 11, 13, 9] (xorBytes ((aesUnshift s).map aesSInv) (keys.getD (13 - i) []))) (xorBytes b (keys.getD 14 []))
  xorBytes ((aesUnshift s).map aesSInv) (keys.getD 0 [])

/-! ## Galois counter mode -/

/-- The big-endian number of bytes. -/
def numOf (l : List Nat) : Nat := l.foldl (fun a b => a * 256 + b) 0
/-- The `n` big-endian bytes of a number. -/
def bytesOf (n v : Nat) : List Nat := (beBytes n v).map (·.toNat)

/-- Multiplication in GF(2^128) by the bits of the second factor, the first one first. -/
def gcmMul : Nat → Nat → Nat → Nat → Nat
  | 0, _, _, z => z
  | n + 1, v, y, z =>
    let z := if y.testBit n then z ^^^ v else z
    gcmMul n (if v % 2 = 1 then (v / 2) ^^^ 0xE1000000000000000000000000000000 else v / 2) y z

/-- GHASH of blocks under `h`. -/
def ghash (h : Nat) : Nat → Nat → List Nat → Nat
  | 0, y, _ => y
  | n + 1, y, l =>
    if l.isEmpty then y
    else ghash h n (gcmMul 128 h (y ^^^ numOf ((l.take 16 ++ List.replicate 16 0).take 16)) 0) (l.drop 16)

/-- Counter mode from counter `c` on. -/
def gcmCtr (keys : List (List Nat)) (nonce : List Nat) : Nat → Nat → List Nat → List Nat
  | 0, _, _ => []
  | n + 1, c, l =>
    if l.isEmpty then []
    else xorBytes (l.take 16) (aesEncrypt keys (nonce ++ bytesOf 4 c)) ++ gcmCtr keys nonce n (c + 1) (l.drop 16)

/-- Bytes padded with zeros to a whole number of blocks. -/
def gcmPad (l : List Nat) : List Nat := l ++ List.replicate ((16 - l.length % 16) % 16) 0

/-- The tag of a ciphertext. -/
def gcmTag (keys : List (List Nat)) (nonce aad ct : List Nat) : List Nat :=
  let h := numOf (aesEncrypt keys (List.replicate 16 0))
  let l := gcmPad aad ++ gcmPad ct ++ bytesOf 8 (8 * aad.length) ++ bytesOf 8 (8 * ct.length)
  xorBytes (bytesOf 16 (ghash h (l.length / 16 + 1) 0 l)) (aesEncrypt keys (nonce ++ [0, 0, 0, 1]))

/-- R518: a plaintext under a key: the ciphertext and its tag. -/
def gcmSeal (key nonce aad pt : List Nat) : List Nat × List Nat :=
  let keys := aesKeys key
  let ct := gcmCtr keys nonce (pt.length / 16 + 1) 2 pt
  (ct, gcmTag keys nonce aad ct)

/-- R518: a ciphertext opened; none where its tag fails. -/
def gcmOpen (key nonce aad ct tag : List Nat) : Option (List Nat) :=
  let keys := aesKeys key
  if gcmTag keys nonce aad ct = tag then some (gcmCtr keys nonce (ct.length / 16 + 1) 2 ct) else none

/-! ## Key wrap (RFC 3394) -/

/-- The initial value. -/
def wrapIv : List Nat := List.replicate 8 0xA6

/-- One step of the wrap of four halves. -/
def wrapStep (keys : List (List Nat)) (a : List Nat) (r : List (List Nat)) (t : Nat) : List Nat × List (List Nat) :=
  let i := (t - 1) % 4
  let b := aesEncrypt keys (a ++ r.getD i [])
  (xorBytes (b.take 8) (bytesOf 8 t), r.set i (b.drop 8))

/-- One step of the unwrap. -/
def unwrapStep (keys : List (List Nat)) (a : List Nat) (r : List (List Nat)) (t : Nat) : List Nat × List (List Nat) :=
  let i := (t - 1) % 4
  let b := aesDecrypt keys (xorBytes a (bytesOf 8 t) ++ r.getD i [])
  (b.take 8, r.set i (b.drop 8))

/-- A 32-byte key wrapped under another, as 40 bytes. -/
def keyWrap (kek key : List Nat) : List Nat :=
  let keys := aesKeys kek
  let r0 := (List.range 4).map fun i => (key.drop (8 * i)).take 8
  let (a, r) := (List.range 24).foldl (fun (p : List Nat × List (List Nat)) n => wrapStep keys p.1 p.2 (n + 1)) (wrapIv, r0)
  a ++ r.flatten

/-- A wrapped key opened; none where its integrity check fails. -/
def keyUnwrap (kek wrapped : List Nat) : Option (List Nat) :=
  let keys := aesKeys kek
  let r0 := (List.range 4).map fun i => (wrapped.drop (8 + 8 * i)).take 8
  let (a, r) := (List.range 24).foldl (fun (p : List Nat × List (List Nat)) n => unwrapStep keys p.1 p.2 (24 - n))
    (wrapped.take 8, r0)
  if wrapped.length = 40 ∧ a = wrapIv then some r.flatten else none

end Sys2Proof.Machine
end

