-- ==== Sys2Proof/Machine/ColOps.lean ====
section
/-! DEFINITION. What every meaning of the module fabric shares (R510 to R528): port states, frames with their checks and
encryption, sending, routes, and what a manager publishes. -/

namespace Sys2Proof.Machine

/-- The fabric's state replaced by `f` of it. -/
def State.updCol (s : State) (f : Col → Col) : State := { s with col := f s.col }

/-! ## Ports (R511, R514) -/

/-- The register of port `p` at offset `o`. -/
def aColPort (p o : Nat) : Nat := aCol (0x100 + 0x40 * p + o)
/-- R534: STATE of a port. -/
def State.colState (s : State) (p : Nat) : Nat := s.fld (aColPort p 0) 2 0
/-- R511: DISABLED. -/
def colDisabled : Nat := 0
/-- R511: BYPASSED. -/
def colBypassed : Nat := 1
/-- R511: TRAINING. -/
def colTraining : Nat := 2
/-- R511: UP. -/
def colUp : Nat := 3
/-- R511: HELD. -/
def colHeld : Nat := 5

/-- A port beside its registers. -/
def State.colPort (s : State) (p : Nat) : ColPort := readAt (fun _ => colPortFresh) s.col.ports p
/-- A port replaced. -/
def State.setColPort (s : State) (p : Nat) (x : ColPort) : State :=
  s.updCol fun c => { c with ports := writeAt (fun _ => colPortFresh) c.ports p x }

/-- R37, R511: EFF_FABRIC: the role of the configuration block, STANDALONE while no port is UP or in TRAINING. -/
def State.effFabric (s : State) : State :=
  let on := (List.range 4).any fun p => decide (s.colState p = colTraining) || decide (s.colState p = colUp)
  s.setModeFld 11 10 (if on then s.fld (aVal 0x18) 2 1 else 0)

/-- R511: a port's STATE set; what depends on it follows. -/
def State.setColState (s : State) (p v : Nat) : State := (s.setFld (aColPort p 0) 2 0 v).effFabric

/-- R511: a port enters TRAINING. -/
def State.colTrain (s : State) (p : Nat) : State :=
  (s.setColState p colTraining).setColPort p { s.colPort p with trainAt := s.now, unc := [] }

/-- R519: firmware processes management messages: the scheduler core runs. -/
def State.manages (s : State) : Bool := s.schRunning

/-- R534: COL_STATUS.STATE. -/
def State.colMember (s : State) : Nat := s.fld (aCol 0) 15 13
/-- R534: COL_STATUS.STATE set. -/
def State.setColMember (s : State) (v : Nat) : State := s.setFld (aCol 0) 15 13 v
/-- R534: COL_STATUS.MGR: 0 none, 1 manager, 2 lead. -/
def State.mgr (s : State) : Nat := s.fld (aCol 0) 17 16
/-- R520: the UID. -/
def State.uid (s : State) : Nat := s.reg (aCol 0x10)

/-- A key as bytes. -/
def keyBytes (k : Nat) : List Nat := bytesOf 32 k

/-! ## Frames (R515, R516, R518) -/

/-- A frame as it arrived (R515): the words of its header, its payload, decrypted, and the port. -/
structure ColFrame where
  w0 : Nat
  w1 : Nat
  w2 : Nat
  w3 : Nat
  data : List Byte
  port : Nat

/-- DST. -/
def ColFrame.dst (f : ColFrame) : Nat := bits f.w0 11 0
/-- SRC. -/
def ColFrame.src (f : ColFrame) : Nat := bits f.w0 23 12
/-- TYPE. -/
def ColFrame.type (f : ColFrame) : Nat := bits f.w0 27 24
/-- TTL. -/
def ColFrame.ttl (f : ColFrame) : Nat := bits f.w0 35 28
/-- CLASS. -/
def ColFrame.cls (f : ColFrame) : Nat := bits f.w0 38 36
/-- LINES. -/
def ColFrame.lines (f : ColFrame) : Nat := bits f.w0 45 39
/-- ENC. -/
def ColFrame.enc (f : ColFrame) : Bool := bit f.w0 46
/-- KEYIDX. -/
def ColFrame.keyIdx (f : ColFrame) : Nat := bits f.w0 48 47
/-- MODE of the sender. -/
def ColFrame.mode (f : ColFrame) : Nat := bits f.w0 51 49
/-- ADDR. -/
def ColFrame.addr (f : ColFrame) : Nat := bits f.w2 47 0
/-- RTAG. -/
def ColFrame.rtag (f : ColFrame) : Nat := bits f.w2 57 48
/-- STATUS. -/
def ColFrame.status (f : ColFrame) : Nat := bits f.w3 7 0
/-- TASK. -/
def ColFrame.task (f : ColFrame) : Nat := bits f.w3 19 8
/-- SUB. -/
def ColFrame.sub (f : ColFrame) : Nat := bits f.w3 27 20

/-- R516: the types that are not reserved. -/
def colTypes : List Nat := [1, 2, 3, 4, 5, 8, 9, 10, 11]

/-- R516: the lines of payload: those that RD names are not carried. -/
def ColFrame.payloadLines (f : ColFrame) : Nat := if f.type = 1 then 0 else f.lines

/-- R515: the frame that wire bytes spell. -/
def colParse (p : Nat) (bs : List Byte) : ColFrame :=
  let w := fun (i : Nat) => leNat ((bs.drop (8 * i)).take 8)
  ⟨w 0, w 1, w 2, w 3, (bs.drop 32).take (bs.length - 48), p⟩

/-- R515, R516, R519: what TYPE asks of a header: HELLO and KEY go with ENC 0; HELLO, HEARTBEAT, MGMT and KEY have CLASS 7; SUB of
MGMT is none of the reserved ones. -/
def colTypeOk (f : ColFrame) : Bool :=
  colTypes.contains f.type && (!f.enc || decide (f.type ≠ 8 ∧ f.type ≠ 11)) && (decide (f.type < 8) || decide (f.cls = 7)) &&
    (decide (f.type ≠ 10) || (decide (1 ≤ f.sub) && decide (f.sub ≤ 16)))

/-- R515: the layout of a frame holds; with ENC 0 the trailer holds the CRC. -/
def colLayoutOk (f : ColFrame) (bs : List Byte) : Bool :=
  let trailer := bs.drop (bs.length - 16)
  decide (48 ≤ bs.length) && colTypeOk f && decide (f.lines ≤ 64) &&
    decide (bs.length = 48 + 64 * f.payloadLines) && decide (bits f.w0 63 52 = 0) && decide (bits f.w2 63 58 = 0) &&
    decide (bits f.w3 63 28 = 0) &&
    (f.enc || (decide (leNat (trailer.take 4) = crc32c (bs.take (bs.length - 16))) && (trailer.drop 4).all fun b => decide (b = 0)))

/-- R518: the nonce of a frame. -/
def colNonce (src seq : Nat) : List Nat := bytesOf 4 src ++ bytesOf 8 seq

/-- R518: the additional authenticated data: the header with TTL taken as zero. -/
def colAad (f : ColFrame) : List Nat :=
  (wordBytes [setBits f.w0 35 28 0, f.w1, f.w2, f.w3]).map (·.toNat)

/-- R518: a module holds no key. -/
def State.keyless (s : State) : Bool := s.col.keys.all Option.isNone

/-- The key of KEYIDX `k`. -/
def State.colKey (s : State) (k : Nat) : Option ColKey := (s.col.keys[k]?).join

/-- R518: the frame is new: its SEQ has not been accepted from its SRC under its key, and lies less than 1,024 below the
highest. -/
def State.seqNew (s : State) (f : ColFrame) : Bool :=
  let (top, l) := readAt (fun _ => (0, [])) s.col.seen (4096 * f.keyIdx + f.src)
  !l.contains f.w1 && decide (top < f.w1 + 1025)

/-- R518: the frame's SEQ accepted. -/
def State.seqTake (s : State) (f : ColFrame) : State :=
  let k := 4096 * f.keyIdx + f.src
  let (top, l) := readAt (fun _ => (0, [])) s.col.seen k
  let top := max top (f.w1 + 1)
  let l := (f.w1 :: l).filter fun q => decide (top < q + 1025)
  s.updCol fun c => { c with seen := writeAt (fun _ => (0, [])) c.seen k (top, l) }

/-- R518: a frame with ENC 0 is accepted: a module without a key accepts HELLO, KEY and the subtypes that come before its
admission; one that holds a key accepts HELLO, KEY and what a joiner sends. -/
def State.plainOk (s : State) (f : ColFrame) : Bool :=
  decide (f.type = 8) || decide (f.type = 11) ||
    (decide (f.type = 10) && (if s.keyless then [8, 9, 10, 16].contains f.sub else [8, 10].contains f.sub))

/-- R523: the frame cannot be authenticated. -/
def State.authFail (s : State) : State :=
  (s.count32 (aCol 0x3C)).updCol fun c => { c with authBad := some (c.authBad.getD s.now) }

/-- R515, R518: a frame of TYPE `type` that arrives at port `p` is taken for this module: the state, and the frame where its
layout, its destination (unless `any`), its encryption and its SEQ let it through. A frame of another TYPE is left to its own
command. -/
def State.colTake (s : State) (p : Nat) (bs : List Byte) (type : Nat) (any : Bool) : State × Option ColFrame :=
  let s := s.updCol fun c => { c with sent := [] }
  let f := colParse p bs
  if s.colState p ≠ colUp ∧ ¬ (s.colState p = colTraining ∧ type = 8) then (s, none)
  else if !colLayoutOk f bs then (s.count32 (aCol 0x38), none)
  else if f.type ≠ type ∨ (!any && decide (s.ownAddr ≠ some f.dst)) then (s, none)
  else if !f.enc then
    if s.plainOk f then (s, some f) else (if s.keyless then s else s.authFail, none)
  else match s.colKey f.keyIdx with
    | none => (if s.keyless then s else s.authFail, none)
    | some k =>
      let tag := (bs.drop (bs.length - 16)).map (·.toNat)
      match gcmOpen (keyBytes k.key) (colNonce f.src f.w1) (colAad f) (f.data.map (·.toNat)) tag with
      | none => (s.authFail, none)
      | some pt =>
        if !s.seqNew f then (s.authFail, none)
        else ((s.seqTake f).updCol fun c => { c with authBad := none },
          some { f with data := pt.map fun b => BitVec.ofNat 8 b })

/-- R519: a MGMT frame of subtype `sub` is taken; one of another subtype is left to its own command, and one of a reserved subtype is
dropped. -/
def State.mgmtTake (s : State) (p : Nat) (bs : List Byte) (sub : Nat) (any : Bool) (f : State → ColFrame → State) : State :=
  if (colParse p bs).sub ≠ sub ∧ colTypeOk (colParse p bs) then s
  else match s.colTake p bs 10 any with
    | (s, some x) => f s x
    | (s, none) => s

/-! ## Sending (R515, R517) -/

/-- What a frame to be sent holds beside its addresses. -/
structure ColOut where
  type : Nat
  sub : Nat := 0
  addr : Nat := 0
  rtag : Nat := 0
  status : Nat := 0
  cls : Nat := 7
  task : Nat := 0
  lines : Nat := 0
  plain : Bool := false
  data : List Byte := []
  fields : List Nat := []

/-- R518, R526: the module sends such a frame: without a current key only HELLO, KEY and the messages that come before its admission,
and as a shadow neither WR nor COLL. -/
def State.maySend (s : State) (o : ColOut) (key : Option ColKey) : Bool :=
  (key.isSome || decide (o.type = 8) || decide (o.type = 11) || (decide (o.type = 10) && [8, 9, 10, 16].contains o.sub)) &&
    !(decide (s.fld (aCol 0) 15 13 = 3) && (decide (o.type = 3) || decide (o.type = 5)))

/-- R515, R518: a frame sent on port `p` to `dst`: ENC 1 under the current key where one is held, HELLO and KEY apart. DEDUCED
(assumption 92): what a module with a key tells a joiner, which has none, goes with ENC 0 (`plain`). -/
def State.colSend (s : State) (p dst : Nat) (o : ColOut) : State :=
  let key := if o.type = 8 ∨ o.type = 11 ∨ o.plain then none else s.col.cur.bind s.colKey
  if !s.maySend o key then s else
  let idx := s.col.cur.getD 0
  let seq := match key with
    | some k => k.tx
    | none => 0
  let lines := max o.lines ((o.data.length + 63) / 64)
  let w0 := dst + (s.ownAddr.getD 0) * 2 ^ 12 + o.type * 2 ^ 24 + 32 * 2 ^ 28 + o.cls * 2 ^ 36 + lines * 2 ^ 39 +
    (b2n key.isSome) * 2 ^ 46 + (if key.isSome then idx else 0) * 2 ^ 47 + s.mode * 2 ^ 49
  let x : ColSend := ⟨p, w0, seq, o.addr + o.rtag * 2 ^ 48, o.status + o.task * 2 ^ 8 + o.sub * 2 ^ 20, o.data, o.fields⟩
  s.updCol fun c => { c with
    sent := c.sent ++ [x]
    keys := match key with
      | some k => c.keys.set idx (some { k with tx := k.tx + 1 })
      | none => c.keys }

/-- R517, R522: the port by which a frame for `dst` leaves: PORT, else ALT, where it is UP; none where PORT says that there is no
route. -/
def State.colRoute (s : State) (dst : Nat) : Option Nat :=
  let e := s.reg (aCol (0x1000 + 2 * dst))
  if bits e 2 0 = 7 then none else [bits e 2 0, bits e 5 3].find? fun p => decide (p < 4) && decide (s.colState p = colUp)

/-- R517: a frame sent to a module by the routing table; one that finds no port is dropped and counted. -/
def State.colTo (s : State) (dst : Nat) (o : ColOut) : State :=
  match s.colRoute dst with
  | some p => s.colSend p dst o
  | none => s.count32 (aCol 0x38)

/-- A frame sent on every UP port. -/
def State.colAll (s : State) (o : ColOut) : State :=
  ((List.range 4).filter fun p => decide (s.colState p = colUp)).foldl (fun s p => s.colSend p 0 o) s

/-- R527, R529: the place of the checkpoint mover among those that wait for another module. -/
def moverSlot : Nat := 2 ^ 20

/-- R529: the checkpoint mover has requests to other modules outstanding. -/
def State.moverBusy (s : State) : Bool := s.col.reqs.any fun q => decide (q.slot = moverSlot)

/-- R516: the frames of a request to another module that has been entered last: of up to 64 lines, in address order. A write carries
the bytes `bs`. -/
def State.remoteFrames (s : State) (wr : Bool) (a n : Nat) (bs : List Byte) (cls task : Nat) : State :=
  match s.col.reqs.getLast? with
  | none => s
  | some q =>
    let o := (a - 0x400000000000) % 0x400000000
    let k := (linesOf a n).length
    (List.range ((k + 63) / 64)).foldl (fun s i =>
      let x := o / 64 * 64 + 4096 * i
      let m := min 64 (k - 64 * i)
      let part := (bs.take (x + 64 * m - o)).drop (x - o)
      s.colTo q.dst
        { type := if wr then 3 else 1, addr := x, rtag := q.tag, cls := cls, task := task, lines := m, data := part }) s

/-- R150, R516, R527: an access to another module: it waits for the response, and its frames are sent. -/
def State.remoteSend (s : State) (r : Option CmdRef) (slot a n : Nat) (wr : Bool) (bs : List Byte) : State :=
  let t := s.remoteIssue slot a n wr
  if t.col.reqs.length = s.col.reqs.length then t
  else
    let c := r.bind s.cmd
    t.remoteFrames wr a n bs ((c.map fun c => bits (word c.words 0) 6 4).getD 0) ((c.map (·.task)).getD 0)

/-- The managers beside this module. -/
def State.otherManagers (s : State) : List Nat :=
  (s.col.managers.map (·.1)).filter fun a => decide (s.ownAddr ≠ some a)

/-- R520: the address of the lead: the manager with the lowest UID. -/
def State.leadAddr (s : State) : Option Nat :=
  (s.col.managers.find? fun m => s.col.managers.all fun n => decide (m.2 ≤ n.2)).map (·.1)

/-- A message to every other manager. -/
def State.toManagers (s : State) (o : ColOut) : State := s.otherManagers.foldl (fun s a => s.colTo a o) s

/-! ## Requests that end (R523, R527) -/

/-- R123, R527: a request to another module ends with a status: a thread that still waits meets it as a fault, and so does the command
of the checkpoint mover. -/
def State.remoteEnd (s : State) (q : RemoteReq) (status : Nat) : State :=
  let s := s.updCol fun c => { c with reqs := c.reqs.filter fun x => decide (x.tag ≠ q.tag) }
  let th := s.slot q.slot
  let hits := fun (r : MemReq) => overlaps r.addr r.len q.addr q.len || (match r.kind with
    | .copy dst _ _ => overlaps dst r.len q.addr q.len
    | _ => false)
  if status ≠ 0 ∧ th.busy ∧ ¬ th.faulted ∧ th.reqs.any hits then
    let k := q.slot / 8
    let l := k / 17
    (s.setSlot q.slot { th with faulted := true, reqs := th.reqs.filter fun r => !hits r }).send
      (.fault (l / 16) (l % 16) (k % 17) th.cmd (s.runOf th.cmd) status)
  else if status ≠ 0 ∧ q.slot = moverSlot then
    (s.inFlight.filter fun c => decide (c.kind = 4) && decide (bits (word c.words 8) 3 0 = 4) && decide (bits (word c.words 9) 11 0 = q.dst)).foldl
      (fun s c => s.faultCmd c.ref 4 0 0x1F status false) s
  else s

/-- R526, R528: the member address under which the module takes part in a fabric group: its own, or as a shadow that of its target,
whose COLL frames it is given. DEDUCED (assumption 146). -/
def State.groupAddr (s : State) : Option Nat := if s.colMember = 3 then some (s.fld (aCol 0x34) 11 0) else s.ownAddr

/-- R523: every request outstanding to a module is answered with DIE_ABSENT. -/
def State.remoteGone (s : State) (a : Nat) : State :=
  (s.col.reqs.filter fun q => decide (q.dst = a)).foldl (fun s q => s.remoteEnd q 8) s

/-! ## Routes and managers (R520, R522, R523) -/

/-- R528: the command is a COLLECTIVE with SCOPE 1 whose group names the module. -/
def State.groupNames (s : State) (c : Cmd) (a : Nat) : Bool :=
  let g := bits (word c.words 11) 47 0
  decide (c.kind = 3) && bit (word c.words 8) 8 &&
    (List.range (min 256 (bits (s.num g 8) 8 0))).any fun i => decide (bits (s.num (g + 16 + 2 * i) 2) 11 0 = a)

/-- R523: the module at `a` has been expelled, as a member learns at the ROUTE_COMMIT. -/
def State.memberGone (s : State) (a : Nat) : State :=
  let s := (s.remoteGone a).updCol fun c => { c with outs := c.outs.filter fun x => decide (x.dst ≠ a) }
  let s := (s.inFlight.filter fun c => s.groupNames c a).foldl (fun s c => s.faultCmd c.ref 4 0 0x1F 8 false) s
  s.raise 4 0 0x1F "COL_EXPELLED" a 0

/-- R516, R528: a COLL frame. DESIGN CHOICE (assumption 146): RTAG holds the low bits of SERIAL. -/
def State.sendColl (s : State) (x : CollOut) : State :=
  let p := x.part
  s.colTo x.dst
    { type := 5, addr := p.off, rtag := p.serial % 1024, cls := x.cls, task := x.task, data := p.data, fields := [p.group, p.serial, p.member] }

/-- R520: MGR follows the list of managers: 2 for the lowest UID. -/
def State.mgrFollows (s : State) : State :=
  let me := s.col.managers.any fun m => decide (s.ownAddr = some m.1)
  let lead := decide (s.leadAddr = s.ownAddr)
  s.setFld (aCol 0) 17 16 (if !me then 0 else if lead then 2 else 1)

/-- R522, R523, R518: the shadow bank becomes current: the table, the route epoch, the managers and the key named; a module
whose destination loses its route has been expelled. -/
def State.routeCommit (s : State) (epoch : Nat) (table : Nat → Nat) (managers : List (Nat × Nat)) (key : Option Nat) : State :=
  let own := s.ownAddr
  let lost := (List.range 4096).filter fun a =>
    decide (own ≠ some a) && s.routed a && decide (table a % 8 = 7)
  let s := (List.range 4096).foldl (fun s a => s.setReg (aCol (0x1000 + 2 * a)) (table a)) s
  let s := s.setReg (aCol 0x30) epoch
  let s := match key with
    | some k =>
      if s.col.cur = some k then s
      else s.updCol fun c => { c with
        keys := match c.cur with
          | some o => c.keys.modify o (Option.map fun (y : ColKey) => { y with stopAt := some s.now })
          | none => c.keys
        cur := some k }
    | none => s
  let s := (s.updCol fun c => { c with managers := managers, bank := [] }).mgrFollows
  lost.foldl (fun s a => s.memberGone a) s

/-- R520: the managers among the lead's members: the three MANAGER-ELIGIBLE ones with the lowest UIDs whose MODE is not
SERVICE; `out` has stepped down. -/
def State.electManagers (s : State) (out : List Nat) : List (Nat × Nat) :=
  let ok := s.col.members.filter fun m => m.eligible && !out.contains m.addr &&
    decide ((if s.ownAddr = some m.addr then s.mode else readAt (fun _ => 0) s.col.modes m.addr) ≠ 4)
  let l := ok.filter fun m => decide ((ok.filter fun n => decide (n.uid < m.uid)).length < 3)
  l.map fun m => (m.addr, m.uid)

/-- R518: a key made by the lead, in the first free place of the store: its index. -/
def State.newKey (s : State) : Nat × State :=
  let idx := ((List.range 4).find? fun k => (s.colKey k).isNone).getD ((s.col.cur.getD 0 + 1) % 4)
  let (v, s) := s.draw 6
  (idx, s.updCol fun c => { c with
    keys := c.keys.set idx (some ⟨v % 2 ^ 256, 0, none⟩)
    seen := c.seen.filter fun e => decide (e.1 / 4096 ≠ idx) })

/-- R518: a key delivered to the members, wrapped under the current one. -/
def State.sendKey (s : State) (idx : Nat) : State :=
  match s.col.cur.bind s.colKey, s.colKey idx with
  | some kek, some k =>
    let bs := (keyWrap (keyBytes kek.key) (keyBytes k.key)).map fun b => BitVec.ofNat 8 b
    (s.col.members.filter fun m => decide (s.ownAddr ≠ some m.addr)).foldl (fun s m =>
      s.colTo m.addr { type := 11, data := bs, fields := [idx] }) s
  | _, _ => s

/-- R522: the lead's routes: its own address local, each member a route of the lead's choice, which the spec leaves to it, with an ALT
that is not the same link, and no route to any other address. -/
def State.leadRoutes (s : State) : (Nat → Nat) × State :=
  let (l, s) := s.col.members.foldl (fun (r : List (Nat × Nat) × State) m =>
    let (v, s) := r.2.draw 7
    let alt := [0, 1, 2, 3, 7].getD (v / 4 % 5) 7
    (r.1 ++ [(m.addr, v % 4 + 8 * (if alt = v % 4 then 7 else alt))], s)) ([], s)
  (fun a => if s.ownAddr = some a then 4 else ((l.find? fun e => decide (e.1 = a)).map (·.2)).getD 7, s)

/-- R520, R522, R523: the lead publishes routes: a new epoch with the managers, sent to every member, and applied here. -/
def State.publishRoutes (s : State) (out : List Nat) (key : Option Nat) : State :=
  let (table, s) := s.leadRoutes
  let managers := s.electManagers out
  let epoch := (s.reg (aCol 0x30) + 1) % 2 ^ 32
  let to_ := s.col.members.filter fun m => decide (s.ownAddr ≠ some m.addr)
  let words := fun (i : Nat) => leNat ((List.range 32).flatMap fun j => leBytes 2 (table (32 * i + j)))
  let s := to_.foldl (fun s m => s.colTo m.addr
    { type := 10, sub := 6, fields := [epoch] ++ managers.flatMap (fun x => [x.1, x.2]) ++ (List.range 128).map words }) s
  let s := to_.foldl (fun s m => s.colTo m.addr { type := 10, sub := 7, fields := [epoch, key.getD (s.col.cur.getD 0)] }) s
  s.routeCommit epoch table managers key

/-- R520, R523: a module clears its keys and its address and joins again. -/
def State.colLeave (s : State) : State :=
  let s := (s.setFld (aCol 0) 12 0 0).setFld (aCol 0) 17 16 0
  let s := if s.colMember = 5 then s else s.setColMember 1
  s.updCol fun c => { c with
    keys := [none, none, none, none], cur := none, seen := [], members := [], managers := [], bank := [], probes := [],
    votes := [], compares := [], shadows := [], leadKnown := none, candidateAt := none, heardUids := [], authBad := none,
    partials := [], outs := [], busy := [], watchers := [], summaries := [] }

/-- R521: a module that joins sends ADMIT_REQ on a port. -/
def State.askAdmit (s : State) (p : Nat) : State :=
  s.colSend p 0 { type := 10, sub := 8, fields := [s.uid, s.reg (aCol 8)] }

/-- R523: the module learns that it has been expelled. -/
def State.wasExpelled (s : State) : State :=
  let a := s.ownAddr.getD 0
  (s.colLeave.updCol fun c => { c with expelled := true }).raise 4 0 0x1F "COL_EXPELLED" a 0

/-- R525: a manager probes a module that is suspected. -/
def State.probe (s : State) (who : Nat) : State :=
  if !s.manages || decide (s.mgr = 0) || s.ownAddr = some who || s.col.probes.any (fun q => decide (q.1 = who)) then s
  else (s.updCol fun c => { c with probes := c.probes ++ [(who, s.now)] }).colTo who { type := 10, sub := 1 }

/-- R524: SUSPECT for the partner of a port goes to every manager, of which this module may be one; `cause` 0 no HEARTBEAT, 1 the port
is DOWN. -/
def State.suspectPeer (s : State) (p cause : Nat) : State :=
  let who := s.fld (aColPort p 0) 17 6
  if bit (s.reg (aColPort p 0)) 18 then (s.toManagers { type := 10, sub := 3, fields := [who, cause] }).probe who else s

/-- R511, R524: a port goes DOWN and at once into TRAINING. -/
def State.colDown (s : State) (p : Nat) : State :=
  let s := s.suspectPeer p 1
  (s.setFld (aColPort p 0) 18 6 0).colTrain p

end Sys2Proof.Machine
end

