-- ==== Sys2Proof/Machine/MemoryInstr.lean ====
section
/-! DEFINITION. The memory instructions (R121 to R123, R135), copies (R145) and the acknowledgement of their requests. -/

namespace Sys2Proof.Machine

/-- R121: the effective address, formed in 64 bits. -/
def ThreadSlot.ea (th : ThreadSlot) (base : Nat) (imm : BitVec 12) : Nat :=
  (th.xget base + imm.signExtend 64).toNat

/-- R122: the status of an access of `n` bytes at an effective address aligned to `al`: ALIGN_FAULT before
FIREWALL_DENY, and the status of the access itself (R117). -/
def State.accessStatus (s : State) (who : Who) (wr : Bool) (ea n al : Nat) : Nat :=
  if ea % al ≠ 0 then 3
  else if 2 ^ 48 ≤ ea then 4
  else s.access who wr ea n

/-- R115: the write of `n` bytes at `a` would change bytes of the slot's own tile that a queued step has still to
read. -/
def stepsBar (t : SlotId) (th : ThreadSlot) (a n : Nat) : Bool :=
  th.stepReads (tileBase t.die t.lea t.tile) a n

/-- R122, R123, R147: a memory instruction issues: its fault, its stall, or its request. -/
def State.memIssue (s : State) (t : SlotId) (xs vs : List Nat) (wr : Bool) (ea : ThreadSlot → Nat) (n al : Nat)
    (mk : ThreadSlot → ReqKind × List Byte) : State :=
  s.issue t xs vs fun th _ =>
    let a := ea th
    let st := s.accessStatus (whoThread t th.cmd) wr a n al
    if th.acqHeld || decide (16 ≤ th.reqs.length) then s
    else if st ≠ 0 then s.accessFault t th st [(a, n)]
    else if (wr && stepsBar t th a n) || (decide (0x400000000000 ≤ a) && s.tagsOut) then s
    else
      let (k, bs) := mk th
      let th := match k with
        | .load rd _ _ => th.xdrop rd
        | .vload vd => th.vdrop vd
        | _ => th
      (s.setSlot (tkey t) { th with reqs := th.reqs ++ [MemReq.mk k a n bs s.now] }.pc4).remoteSend (some th.cmd) (tkey t) a n wr bs

/-- R121: the bytes of a scalar access. -/
def szBytes (sz : Fin 4) : Nat := 2 ^ sz.val

/-- R121: LD: a load, sign-extended. -/
def execLd (t : SlotId) (rt base : Fin 32) (sz : Fin 4) (imm : BitVec 12) (s : State) :
    Host.Outcome State Fault Refusal :=
  .next <| s.live (s.memIssue t [base] [] false (fun th => th.ea base imm) (szBytes sz) (szBytes sz)
    fun _ => (.load rt (szBytes sz) true, []))

/-- R121: LDU: a load, zero-extended. -/
def execLdu (t : SlotId) (rt base : Fin 32) (sz : Fin 4) (imm : BitVec 12) (s : State) :
    Host.Outcome State Fault Refusal :=
  .next <| s.live (s.memIssue t [base] [] false (fun th => th.ea base imm) (szBytes sz) (szBytes sz)
    fun _ => (.load rt (szBytes sz) false, []))

/-- R121: ST: the low bytes of rt. -/
def execSt (t : SlotId) (rt base : Fin 32) (sz : Fin 4) (imm : BitVec 12) (s : State) :
    Host.Outcome State Fault Refusal :=
  .next <| s.live (s.memIssue t [rt, base] [] true (fun th => th.ea base imm) (szBytes sz) (szBytes sz)
    fun th => (.store, leBytes (szBytes sz) (th.xget rt).toNat))

/-- R121: VLD: 256 bytes into a vector register. -/
def execVld (t : SlotId) (vt : Fin 8) (base : Fin 32) (imm : BitVec 12) (s : State) :
    Host.Outcome State Fault Refusal :=
  .next <| s.live (s.memIssue t [base] [] false (fun th => th.ea base imm) 256 64 fun _ => (.vload vt, []))

/-- R121: VST: 256 bytes from a vector register. -/
def execVst (t : SlotId) (vt : Fin 8) (base : Fin 32) (imm : BitVec 12) (s : State) :
    Host.Outcome State Fault Refusal :=
  .next <| s.live (s.memIssue t [base] [vt] true (fun th => th.ea base imm) 256 64
    fun th => (.store, leBytes 256 (th.vget vt).toNat))

/-! ## Copies (R145) -/

/-- R145: the status of a copy before it starts: the lowest of ALIGN_FAULT, LENGTH_OVER and the statuses of its two
accesses. -/
def State.copyStatus (s : State) (who : Who) (dst src len : Nat) : Nat :=
  let one := fun (wr : Bool) (a : Nat) =>
    if len = 0 then []
    else if 2 ^ 48 ≤ a then [4]
    else match placeOf a with
      | none => [4]
      | some (_, b, n) => if !inside a len b n then [2] else [s.access who wr a len]
  lowest ((if dst % 64 ≠ 0 ∨ src % 64 ≠ 0 ∨ len % 64 ≠ 0 then [3] else []) ++ one true dst ++ one false src)

/-- R145: the copies in progress on a tile. -/
def State.copiesOn (s : State) (t : SlotId) : Nat :=
  ((List.range 8).map fun k => ((s.slot (slotKey t.die t.lea t.tile k)).reqs.filter fun q => match q.kind with
    | .copy _ _ _ => true
    | _ => false).length).sum

/-- R145: COPY: the bytes move, and then 1 is posted to counter C, when the copy completes. -/
def execCopy (t : SlotId) (rd rs1 rs2 : Fin 32) (c : Fin 64) (s : State) : Host.Outcome State Fault Refusal :=
  .next <| s.live (s.issue t [rd, rs1, rs2] [] fun th _ =>
    let dst := (th.xget rd).toNat
    let src := (th.xget rs1).toNat
    let len := (th.xget rs2).toNat
    let st := s.copyStatus (whoThread t th.cmd) dst src len
    if th.acqHeld || decide (16 ≤ th.reqs.length) || decide (4 ≤ s.copiesOn t) then s
    else if st ≠ 0 then s.accessFault t th st [(src, len), (dst, len)]
    else if stepsBar t th dst len || s.tagsOut then s
    else
      let s := s.setSlot (tkey t) { th with reqs := th.reqs ++ [MemReq.mk (.copy dst c th.steps.length) src len [] s.now] }.pc4
      (s.remoteSend (some th.cmd) (tkey t) src len false []).remoteSend (some th.cmd) (tkey t) dst len true (s.bytes src len))

/-! ## Requests (R123, R146) -/

/-- The whole lines that a request of the slot reads or writes: the first byte and the number of bytes of each stretch. -/
def MemReq.spans (q : MemReq) : List (Nat × Nat) :=
  let span := fun (a : Nat) => (a / 64 * 64, 64 * (linesOf a q.len).length)
  span q.addr :: match q.kind with
    | .copy dst _ _ => [span dst]
    | _ => []

/-- R146, R371: an earlier request of the slot must be performed first: the two touch one 64-byte line, so that their messages arrive
in the order in which they were sent. -/
def earlierBars (l : List MemReq) (q : MemReq) : Bool :=
  l.any fun p => p.spans.any fun a => q.spans.any fun b => overlaps a.1 a.2 b.1 b.2

/-- The value a load puts into its register: `size` bytes, sign- or zero-extended (R121). -/
def loadValue (size : Nat) (signed : Bool) (bs : List Byte) : Word :=
  let v := leNat bs
  if signed then BitVec.ofInt 64 (sext (8 * size) v) else BitVec.ofNat 64 v

/-- R385: a read of DRAM that a class 7 command asked for is measured by the Meadow of its thread. -/
def State.measureLoad (s : State) (t : SlotId) (cls : Nat) (q : MemReq) : State :=
  match placeOf q.addr with
  | some (.dram, _, _) => if cls = 7 then s.measureC7 t.die (s.now - q.since) q.addr else s
  | _ => s

/-- R123, R329: request `i` of a slot is performed and acknowledged, once the DRAM it goes to takes it. A read whose data cannot be
used ends the thread (R117), or
has the command done again (R95). `ecc` is what the memory that is read finds, by a load or by the merge read of a store. -/
def execMemoryRequestAck (t : SlotId) (i : Fin 16) (ecc : Ecc) (s : State) : Host.Outcome State Fault Refusal :=
  .next <| s.live <|
    let th := s.slot (tkey t)
    match th.reqs[i.val]? with
    | none => s
    | some q =>
      let who := whoThread t th.cmd
      let rest := { th with reqs := th.reqs.eraseIdx i }
      let cls := s.cmdClass th.cmd
      let wr := match q.kind with
        | .store => true
        | _ => false
      if earlierBars (th.reqs.take i) q || s.remoteWaits (tkey t) q.addr q.len || !s.dramTakes cls wr q.addr q.len then s
      else match q.kind with
      | .copy _ _ _ => s
      | .store =>
        let st := s.access who true q.addr q.len
        if st = 0 then
          ((s.setSlot (tkey t) rest).chargeLines th.cmd true q.addr q.len).sramStore th.cmd q.addr q.data ecc
        else s.accessFault t rest st [(q.addr, q.len)]
      | k =>
        let st := s.access who false q.addr q.len
        if st ≠ 0 then s.accessFault t rest st [(q.addr, q.len)]
        else
          match s.fetch th.cmd q.addr q.len ecc with
          | (.data bs, s) =>
            let done := match k with
              | .load rd size signed => rest.xset rd (loadValue size signed bs)
              | .vload vd => rest.vset vd (BitVec.ofNat 2048 (leNat bs))
              | _ => rest
            (s.setSlot (tkey t) done).measureLoad t cls q
          | (.fault st, s) => s.threadFault t rest st
          | (.redo, s) =>
            -- the thread may have been ended by the kill that the report began
            s.setSlot (tkey t) { s.slot (tkey t) with reqs := (s.slot (tkey t)).reqs.eraseIdx i }

end Sys2Proof.Machine
end

