-- ==== Sys2Proof/Machine/Sync.lean ====
section
/-! DEFINITION. Synchronisation and control (R132 to R148): posts, waits, fences, the end of a copy, descriptors,
identity values, logical tiles, the end of a thread, and the start of a tile-share (R161). -/

namespace Sys2Proof.Machine

/-! ## Posts (R137 to R142, R165) -/

/-- R137, R139: the die, lea, tile and counter of a TIL_SYNCc address. -/
def syncAt (a : Nat) : Option (Nat × Nat × Nat × Nat) :=
  match blockAt a with
  | some (.til d l t) =>
    let o := a - blockBase (.til d l t)
    if 0x1000 ≤ o ∧ o < 0x1100 ∧ o % 4 = 0 then some (d, l, t, (o - 0x1000) / 4) else none
  | _ => none

/-- R19, R139: the status of a POST address, for the poster. -/
def State.postStatus (s : State) (who : Who) (ea kind : Nat) : Nat :=
  lowest ((if ea % 4 ≠ 0 then [3] else []) ++ (if 2 ≤ kind then [0x0F] else []) ++
    (match syncAt ea with
    | none => [4]
    | some (d, _, _, _) => if s.meadowUp d && s.pathUp who d then [] else [8]))

/-- R141: a counter after a post: the sum modulo 2^32, or the unsigned maximum. -/
def postValue (kind old v : Nat) : Nat := if kind = 0 then (old + v) % 2 ^ 32 else max old v

/-- R143: the cycle is one up to c0 + t; an all-ones timeout never expires. -/
def WaitRec.within (w : WaitRec) (cycle : Nat) : Bool :=
  decide (w.timeout = 0xFFFFFFFF) || decide (cycle ≤ w.since + w.timeout)

/-- R143, R144: a post that leaves `v` in counter `k` in a cycle: the waits on it whose target it reaches in time are met. -/
def WaitRec.landed (w : WaitRec) (k v cycle : Nat) : WaitRec :=
  if w.counter = k ∧ w.target ≤ v ∧ w.within cycle then { w with met := true } else w

/-- R143: the waits of the threads of a tile see the value that a post has left in counter `k`. -/
def State.waitsSee (s : State) (d l t k v : Nat) : State :=
  (List.range 8).foldl (fun s i =>
    let th := s.slot (slotKey d l t i)
    s.setSlot (slotKey d l t i) { th with waits := th.waits.map fun w => w.landed k v (s.tileCycle d) }) s

/-- R140: a post applied to its counter, which the waits on it see; one to a die that has left is dropped (R169). -/
def State.postApply (s : State) (addr kind v : Nat) : State :=
  match syncAt addr with
  | some (d, l, t, k) =>
    if s.meadowUp d then
      let x := postValue kind (s.reg addr) v
      (s.setReg addr x).waitsSee d l t k x
    else s
  | none => s

/-- R140: the command owns the counter at `addr`: the counter is in its mask and the tile holds one of its
tile-shares. -/
def Cmd.ownsCounter (c : Cmd) (addr : Nat) : Bool :=
  match syncAt addr with
  | some (d, l, t, k) => bit c.owned k && c.shares.any fun h => decide (h.die = d) && decide (h.lea = l) && decide (h.tile = t)
  | none => false

/-- R165: a held post put into a commit log: merged into the last held post where that is by the same thread, to the same
counter and of the same KIND. -/
def logPost (l : List LogEntry) (addr kind v thread : Nat) : List LogEntry :=
  match l.reverse.find? fun e => match e with
    | .post _ _ _ _ => true
    | _ => false with
  | some (.post a k w th) =>
    if a = addr ∧ k = kind ∧ th = thread then
      let merged := LogEntry.post a k (postValue k w v) th
      let rest := (l.reverse.dropWhile fun e => decide (e ≠ .post a k w th)).drop 1
      let tail := l.reverse.takeWhile fun e => decide (e ≠ .post a k w th)
      rest.reverse ++ [merged] ++ tail.reverse
    else l ++ [.post addr kind v thread]
  | _ => l ++ [.post addr kind v thread]

/-- R140, R165: a post by a slot's thread: on its way to a counter the command owns, else held in the commit log; more
entries than LOG_LEN end the command with LENGTH_OVER at its commit point. -/
def State.postBy (s : State) (t : SlotId) (th : ThreadSlot) (addr kind v : Nat) : State :=
  match s.cmd th.cmd with
  | none => s
  | some c =>
    if c.ownsCounter addr then { s with posts := s.posts ++ [PostFlight.mk addr kind v (tkey t) th.cmd] }
    else s.updCmd th.cmd fun c => { c with log := logPost c.log addr kind v (tkey t) }

/-- R142, R147: a release waits until the slot's earlier loads, stores and copies, and the operand reads of its queued
steps (R115), have been performed. -/
def ThreadSlot.released (th : ThreadSlot) : Bool := th.reqs.isEmpty && th.steps.isEmpty

/-- R132, R139 to R142: POST. -/
def execPost (t : SlotId) (rs1 rs2 : Fin 32) (kind : Fin 4) (rel : Bool) (s : State) :
    Host.Outcome State Fault Refusal :=
  .next <| s.live (s.issue t [rs1, rs2] [] fun th _ =>
    let a := (th.xget rs1).toNat
    let st := s.postStatus (whoThread t th.cmd) a kind
    if rel && !th.released then s
    else if st ≠ 0 then s.accessFault t th st [(a, 4)]
    else (s.setSlot (tkey t) th.pc4).postBy t th.pc4 a kind ((th.xget rs2).toNat % 2 ^ 32))

/-- R140, R141: a post on its way reaches its counter. -/
def execPostArrive (i : Nat) (s : State) : Host.Outcome State Fault Refusal :=
  .next <| s.live <|
    match s.posts[i]? with
    | none => s
    | some p => ({ s with posts := s.posts.eraseIdx i }).postApply p.addr p.kind p.value

/-! ## Waits (R143, R144) -/

/-- The address of counter `c` of the tile of a slot. -/
def ownCounter (t : SlotId) (c : Nat) : Nat := aTil t.die t.lea t.tile (0x1000 + 4 * c)

/-- R143: WAIT begins: the first comparison is made at once. -/
def execWait (t : SlotId) (rd rs1 rs2 : Fin 32) (c : Fin 64) (acq : Bool) (s : State) :
    Host.Outcome State Fault Refusal :=
  .next <| s.live (s.issue t [rs1, rs2] [] fun th _ =>
    let target := (th.xget rs1).toNat % 2 ^ 32
    let w : WaitRec := ⟨rd, c, target, (th.xget rs2).toNat % 2 ^ 32, acq, s.tileCycle t.die,
      decide (target ≤ s.reg (ownCounter t c))⟩
    let th := th.xdrop rd
    s.setSlot (tkey t) { th with waits := th.waits ++ [w] }.pc4)

/-- R143: wait `i` of a slot completes with a result: as an arrival where a cycle up to c0 + t met its condition, as a timeout
where those cycles have passed and none did. -/
def State.waitEnd (s : State) (t : SlotId) (i : Nat) (arrived : Bool) (result : Word) : State :=
  let th := s.slot (tkey t)
  match th.waits[i]? with
  | none => s
  | some w =>
    if !th.busy || w.met != arrived || (!arrived && w.within (s.tileCycle t.die)) then s
    else s.setSlot (tkey t) ({ th with waits := th.waits.eraseIdx i }.xset w.rd result)

/-- R143: a cycle up to c0 + t met the condition: rd ← 0x00. -/
def execWaitArrival (t : SlotId) (i : Nat) (s : State) : Host.Outcome State Fault Refusal :=
  .next <| s.live (s.waitEnd t i true 0)

/-- R15, R143, R144: the cycle c0 + t has passed and none up to it met the condition: rd ← 0x07. -/
def execWaitTimeout (t : SlotId) (i : Nat) (s : State) : Host.Outcome State Fault Refusal :=
  .next <| s.live (s.waitEnd t i false 7)

/-! ## Fences (R147) -/

/-- R147: a fence; one with release ordering waits. -/
def State.fence (s : State) (t : SlotId) (release : Bool) : State :=
  s.issue t [] [] fun th _ => if release && !th.released then s else s.setSlot (tkey t) th.pc4

/-- R147: FENCE release. -/
def execFenceRelease (t : SlotId) (s : State) : Host.Outcome State Fault Refusal := .next <| s.live (s.fence t true)

/-- R147: FENCE acquire: it has happened once it has issued. -/
def execFenceAcquire (t : SlotId) (s : State) : Host.Outcome State Fault Refusal := .next <| s.live (s.fence t false)

/-- R147: FENCE full. -/
def execFenceFull (t : SlotId) (s : State) : Host.Outcome State Fault Refusal := .next <| s.live (s.fence t true)

/-! ## The end of a copy (R145) -/

/-- R142, R145: copy `i` of a slot, before which every earlier request has been acknowledged and every earlier step has read its
operands (R115), moves its bytes and posts 1 to its counter. Of several faults the lowest code counts (R117). -/
def execCopyComplete (t : SlotId) (i : Fin 16) (ecc : Ecc) (s : State) : Host.Outcome State Fault Refusal :=
  .next <| s.live <|
    let th := s.slot (tkey t)
    match th.reqs[i.val]? with
    | some ⟨.copy dst c ahead, src, len, _, since⟩ =>
      let who := whoThread t th.cmd
      let rest := { th with reqs := th.reqs.eraseIdx i }
      let post := fun (s : State) => (s.setSlot (tkey t) rest).postBy t rest (ownCounter t c) 0 1
      let cls := s.cmdClass th.cmd
      if i.val ≠ 0 ∨ ahead ≠ 0 ∨ s.remoteWaits (tkey t) src len ∨ s.remoteWaits (tkey t) dst len
          ∨ ¬ s.dramTakes cls false src len ∨ ¬ s.dramTakes cls true dst len then s
      else if len = 0 then post s
      else
        let st := lowest [s.access who false src len, s.access who true dst len]
        if st ≠ 0 then s.accessFault t rest st [(src, len), (dst, len)]
        else
          match s.fetch th.cmd src len ecc with
          | (.data bs, s) =>
            let over_ := overlaps src len dst len
            let out := if over_ then undefinedBytes s.free len else bs
            let s := ({ s with free := s.free + b2n over_ }).measureLoad t cls ⟨.copy dst c ahead, src, len, [], since⟩
            post ((s.chargeLines th.cmd true dst len).store dst out)
          | (.fault st, s) => s.threadFault t rest st
          | (.redo, s) => s.setSlot (tkey t) { s.slot (tkey t) with reqs := (s.slot (tkey t)).reqs.eraseIdx i }
    | _ => s

/-! ## Descriptors, identity and logical tiles (R132, R133, R136) -/

/-- R132: TDLD: an entry of the command's descriptor table into a descriptor register. -/
def execTdld (t : SlotId) (dreg : Fin 4) (idx : Fin 64) (s : State) : Host.Outcome State Fault Refusal :=
  .next <| s.live (s.issue t [] [] fun th c =>
    if c.descCount ≤ idx.val then s.threadFault t th 2
    else s.setSlot (tkey t)
      { th with d := insertKey th.d dreg (BitVec.ofNat 256 (s.num (c.descTable + 32 * idx) 32)) }.pc4)

/-- The number of threads a tile-share of a THREADS command has (R161). -/
def Cmd.tpt (c : Cmd) : Nat := bits (word c.words 10) 57 54

/-- A free value read as the distance of a die's copy of the time base from the Vale's (R412). -/
def useCopy : Nat := 3

/-- R412: a die's copy of the time base: within 20 ns of the Vale's value, and never moved back. -/
def State.readCopy (s : State) (d : Nat) : Nat × State :=
  let (v, s) := s.draw useCopy
  let x := max (readAt (fun _ => 0) s.tbCopy d) (s.now + v % 41 - 20)
  (x, { s with tbCopy := writeAt (fun _ => 0) s.tbCopy d x })

/-- R133: RDID: an identity or time value; any other selector is reserved. -/
def execRdid (t : SlotId) (rd sel : Fin 32) (s : State) : Host.Outcome State Fault Refusal :=
  .next <| s.live (s.issue t [] [] fun th _ =>
    let put := fun (s : State) (v : Nat) => s.setSlot (tkey t) (th.xput rd (BitVec.ofNat 64 v)).pc4
    match sel.val with
    | 0 => put s th.ltile
    | 1 => put s t.slot
    | 2 => put s th.tindex
    | 3 => put s th.nthreads
    | 4 => put s (tileBase t.die t.lea t.tile)
    | 5 => put s (poolBase t.die t.lea)
    | 6 => let (v, s) := s.readCopy t.die; put s v
    | 7 => put s (s.tileCycle t.die - th.since)
    | 8 => put s (th.cmd.idx % 256)
    | 9 => put s t.die
    | 10 => put s t.lea
    | _ => s.threadFault t th 0x0F)

/-- R136: LTA: the base that `f` gives for the physical tile of a logical tile the command holds, else FIREWALL_DENY. -/
def State.lta (s : State) (t : SlotId) (rd rs1 : Nat) (f : Share → Nat) : State :=
  s.issue t [rs1] [] fun th c =>
    match c.shares.find? fun h => decide (h.ltile = (th.xget rs1).toNat) with
    | some h => s.setSlot (tkey t) (th.xput rd (BitVec.ofNat 64 (f h))).pc4
    | none => s.threadFault t th 4

/-- R136: LTA of the SRAM window base. -/
def execLtaSram (t : SlotId) (rd rs1 : Fin 32) (s : State) : Host.Outcome State Fault Refusal :=
  .next <| s.live (s.lta t rd rs1 fun h => tileBase h.die h.lea h.tile)

/-- R136: LTA of the TIL block base. -/
def execLtaTil (t : SlotId) (rd rs1 : Fin 32) (s : State) : Host.Outcome State Fault Refusal :=
  .next <| s.live (s.lta t rd rs1 fun h => aTil h.die h.lea h.tile 0)

/-! ## The life of a thread (R113, R116, R117, R161) -/

/-- R116: EXIT. -/
def execExit (t : SlotId) (s : State) : Host.Outcome State Fault Refusal :=
  .next <| s.live (s.issue t [] [] fun th _ => s.setSlot (tkey t) { th with exited := true })

/-- R117, R118: a word whose format, operation or field is reserved ends the command with BAD_DESCRIPTOR. -/
def execReservedInstruction (t : SlotId) (w : Word32) (s : State) : Host.Outcome State Fault Refusal :=
  .next <| s.live (s.issue t [] [] fun th _ =>
    if (decodeTile 0 t w.toNat).isNone then s.threadFault t th 0x0F else s)

/-- SLOTS_BUSY of a slot's tile with the slot's bit set to `b` (R109). -/
def State.busyBit (s : State) (d l t k : Nat) (b : Bool) : State := s.setFld (aTil d l t 0) (8 + k) (8 + k) (b2n b)

/-- R116, R210: the slot of an exited thread frees once its requests, posts, copies and steps are done; with the last thread of
its tile-share the share ends, and its record goes to the scheduler core. While the completion FIFO has no room for the record, that
last slot stays occupied. -/
def execThreadSlotFree (t : SlotId) (s : State) : Host.Outcome State Fault Refusal :=
  .next <| s.live <|
    let th := s.slot (tkey t)
    if !th.busy || !th.exited || th.faulted || !th.released || s.posts.any (fun p => decide (p.slot = tkey t)) then s
    else
      let others := (List.range 8).any fun k =>
        let o := s.slot (slotKey t.die t.lea t.tile k)
        decide (k ≠ t.slot) && o.busy && decide (o.cmd = th.cmd) && decide (o.ltile = th.ltile)
      if !others && s.recordsFull then s else
      let s := (s.setSlot (tkey t) slotFree).busyBit t.die t.lea t.tile t.slot false
      match s.cmd th.cmd with
      | none => s
      | some c =>
        if others || decide (c.phase ≠ .running) then s
        else
          let s := s.updCmd th.cmd fun c => { c with shares := c.shares.map fun h =>
            if h.ltile = th.ltile ∧ h.state = 1 then { h with state := 2 } else h }
          s.send (.shareEnd t.die th.cmd c.serial th.ltile)

/-- R138: a command takes the counters of a mask on a tile: each is set to 0 and owned. -/
def State.ownCounters (s : State) (d l t mask : Nat) : State :=
  let s := s.setReg (aTil d l t 0x1100) (s.reg (aTil d l t 0x1100) ||| mask)
  (List.range 64).foldl (fun s k => if bit mask k then s.setReg (aTil d l t (0x1000 + 4 * k)) 0 else s) s

/-- R113: a thread at its start. -/
def threadFresh (c : Cmd) (h : Share) (slot k cycle : Nat) : ThreadSlot :=
  { slotFree with
    busy := true, cmd := c.ref, ltile := h.ltile
    tindex := (h.ltile - bits (word c.words 10) 42 32) * c.tpt + k
    nthreads := c.shares.length * c.tpt
    since := cycle
    pc := BitVec.ofNat 48 (word c.words 8)
    x := writeAt (fun _ => 0) [] 1 (BitVec.ofNat 64 (bits (word c.words 11) 47 0))
    lfsr := lfsrSeed (c.arith).seed h.ltile slot }

/-- R97, R113, R136, R161: a waiting tile-share starts its threads once TPT slots of the physical tile it is bound to are free,
unless the lea's control core is down (R213) or the lea is reserved for a golden run (R215); list 2 names that run itself. DESIGN
CHOICE (assumption 124): the
tile's SRAM, whose contents are undefined at the start of a command (R91), keeps what was there. -/
def execTileShareStart (list : Fin 3) (idx : BitVec 16) (ltile : Fin 1024) (s : State) :
    Host.Outcome State Fault Refusal :=
  .next <| s.live <|
    let r : CmdRef := ⟨list, idx.toNat⟩
    match s.cmd r with
    | none => s
    | some c =>
      match c.shares.find? fun h => decide (h.ltile = ltile.val) && decide (h.state = 0) with
      | none => s
      | some h =>
        let p := h.tile
        let free := (List.range 8).filter fun k => !(s.slot (slotKey h.die h.lea p k)).busy
        if decide (c.phase ≠ .running) || !s.meadowUp h.die || s.valeGone h.die || !(s.lea (leaKey h.die h.lea)).coreUp
            || (list ≠ 2 && s.sched.reservations.any fun x => decide (x.1 = leaKey h.die h.lea)) || decide (free.length < c.tpt) then s
        else
          let cycle := s.tileCycle h.die
          let s := s.updCmd r fun c => { c with shares := c.shares.map fun x =>
            if x.ltile = h.ltile then { x with state := 1 } else x }
          let slots := free.take c.tpt
          (List.range slots.length).foldl (fun s k =>
            let sl := slots.getD k 0
            (s.setSlot (slotKey h.die h.lea p sl) (threadFresh c h sl k cycle)).busyBit h.die h.lea p sl true) s

end Sys2Proof.Machine
end

