-- ==== Sys2Proof/Machine/Jobs.lean ====
section
/-! DEFINITION. The start, resumption and time limit of jobs (R152 to R154, R176, R203), the completion FIFO (R210), and
the golden test in its slot (R214 to R216). -/

namespace Sys2Proof.Machine

/-! ## The choice of the next job (R176, R203) -/

/-- R176, R203: the job that would start or resume next: of the queued and suspended jobs that the current mode admits,
the one with the highest PRIO, ties to the one consumed first. -/
def State.nextJob (s : State) : Option Job :=
  (s.sched.jobs.filter fun j => (decide (j.phase = .queued) || decide (j.phase = .suspended)) && s.admits j.kind).foldl
    (fun b j => match b with
      | none => some j
      | some k => if k.prio < j.prio ∨ (k.prio = j.prio ∧ j.serial < k.serial) then some j else b) none

/-- R41, R153, R366: a job can start: the core runs, no job does, no mode change is pending, and no Meadow is rejoining. -/
def State.jobSlot (s : State) : Bool := s.schRunning && s.curJob.isNone && !bit (s.reg (aVal 0x10)) 3 && !s.rejoining

/-- R152: the statuses of a job's start checks. -/
def State.jobFails (s : State) (j : Job) : List Nat :=
  let w := j.words
  let lists := bits (word w 0) 23 22
  let split := decide (s.fld (aVal 0x10) 9 8 = 1)
  let l0 := bits (word w 1) 47 0
  let l1 := bits (word w 2) 47 0
  let ms := bits (word w 3) 47 0
  let n := bits (word w 3) 54 48
  failIf (bit (word w 0) 19 || decide (bits (word w 0) 63 24 ≠ 0) || decide (bits (word w 3) 63 55 ≠ 0)
    || decide (bits (word w 4) 63 44 ≠ 0) || decide (word w 6 ≠ 0) || decide (word w 7 ≠ 0)
    || decide (j.kind = 3) || decide (2 ≤ lists) || decide (decide (lists = 1) ≠ split)
    || (decide (lists = 0) && decide (word w 2 ≠ 0))) 0x0F ++
  failIf (decide (l0 % 128 ≠ 0) || decide (l1 % 128 ≠ 0) || decide (ms % 64 ≠ 0)) 3 ++
  failIf (decide (64 < n) || allOnes 16 (j.count 0) || allOnes 16 (j.count 1)) 2 ++ tablePlace l0 (128 * j.count 0) ++ tablePlace l1 (128 * j.count 1) ++
  tablePlace ms (64 * n) ++
  failIf (!s.domains.any fun e => decide (e.1 = bits (word w 4) 43 32)) 4 ++
  failIf (decide (bits (word w 4) 31 0 = 0)) 7

/-! ## The golden test (R214 to R217) -/

/-- The golden command descriptor at SCH_GOLDEN_DESC. -/
def State.goldenDesc (s : State) : List Nat := s.words (bits (s.reg (aSch 0x28)) 47 0) 16

/-- R217: the statuses of the checks of a golden body that need nothing beside it. -/
def goldenBody (w : List Nat) : List Nat :=
  let off := bits (word w 9) 15 0
  let len := bits (word w 9) 32 16
  let us := bits (word w 10) 47 32
  failIf (decide (bits (word w 8) 63 48 ≠ 0) || decide (bits (word w 9) 63 33 ≠ 0)
    || decide (bits (word w 10) 63 48 ≠ 0) || (w.drop 12).any fun x => decide (x ≠ 0)) 0x0F ++
  failIf (decide (bits (word w 8) 47 0 % 128 ≠ 0) || decide (off % 64 ≠ 0) || decide (len % 64 ≠ 0)) 3 ++
  failIf (decide (65536 < off + len) || decide (us = 0) || decide (400 < us)) 2

/-- R217: the template that a golden body names, with TILE_FIRST 0 and TILE_COUNT 15. -/
def State.template (s : State) (w : List Nat) : List Nat :=
  let t := s.words (bits (word w 8) 47 0) 16
  t.set 10 (setBits (setBits (word t 10) 42 32 0) 53 43 15)

/-- R215: what the start of the golden run on lea `b` knows: the template, on the map of that lea's logical tiles 0 to 14. The
golden scratch of the lea counts among its output buffers (R214). -/
def State.templateEnv (s : State) (j : Job) (b : Nat) (w : List Nat) : StartEnv :=
  let t := s.template w
  { job := j, cmd := j.cmdAt ⟨2, b⟩, w := t, ctxs := [], removed := 0
    outs := (poolBase (b / 16) (b % 16) + 0x3F0000, 0x10000) :: s.outBufs t
    map := { pmapNone with tiles := (List.range 15).map fun n => (b / 16, b % 16, n) } }

/-- R159, R215, R217, R574: the statuses of the checks of the template that a golden body names, for lea `b`: it can be read, it is a
THREADS command, and its output table and body pass their checks. -/
def State.templateFails (s : State) (j : Job) (b : Nat) (w : List Nat) : List Nat :=
  let e := s.templateEnv j b w
  let st := s.readStatus (whoSch e.cmd.ref) (bits (word w 8) 47 0) 128
  if st ≠ 0 then [st] else failIf (decide (wKind e.w ≠ 0)) 0x0F ++ s.outFails e.cmd.ref e.w ++ s.threadsFails e

/-- R215: the record of the golden run on lea `b` that `e` describes. -/
def State.goldenCmd (s : State) (b : Nat) (e : StartEnv) : Cmd :=
  { cmdFresh ⟨2, b⟩ with
    phase := .running, words := e.w, runs := e.cmd.runs + 1, serial := s.sched.runSerial, tStart := max s.now 1
    outs := e.outs, shares := s.threadsShares e, owned := word e.w 12 }

/-- R138, R215, R217: the golden run of the body `w` begins on a lea: the template's tile-shares wait for their slots there; a template
whose checks fail ends the run with their status. -/
def State.goldenBegin (s : State) (j : Job) (b : Nat) (w : List Nat) : State :=
  let c := s.goldenCmd b (s.templateEnv j b w)
  let st := oneOf (goldenBody w ++ s.templateFails j b w)
  let t := { s with sched := { s.sched with runSerial := s.sched.runSerial + 1 } }
  if st ≠ 0 then t.updJob j.serial fun j => j.putCmd { c.ended .failed with endStatus := st }
  else (c.shares.filter fun _ => decide (c.owned ≠ 0)).foldl (fun s h => s.ownCounters h.die h.lea h.tile c.owned)
    (t.updJob j.serial fun j => j.putCmd c)

/-- R174, R216: the commands with a tile-share on an untested target are killed, and those targets are reserved at once. -/
def State.goldenForce (s : State) : State :=
  let ts := s.goldenTargets.filter fun b => !bit s.sched.goldenDone b
  let rs := (s.inFlight.filter fun c => c.shares.any fun h => ts.contains (leaKey h.die h.lea)).map (·.ref)
  let s := { s with sched := { s.sched with reservations := s.sched.reservations ++ ts.map fun b => (b, s.now) } }
  (s.raise 4 0 0x1F "GOLDEN_FORCED" 0 0).kill rs 1 false .go

/-- R215: a target of the running job has been tested: recorded in the job and in the step; when every target of the step
has been tested, the step advances and the deferrals return to 0. -/
def State.goldenTestedMark (s : State) (b : Nat) (failed : Bool) : State :=
  let s := match s.curJob with
    | some j => s.updJob j.serial fun j =>
      { j with goldenTested := j.goldenTested ||| 2 ^ b
               goldenFailed := if failed then j.goldenFailed ||| 2 ^ b else j.goldenFailed }
    | none => s
  let s := { s with sched := { s.sched with
    reservations := s.sched.reservations.filter fun r => decide (r.1 ≠ b)
    goldenDone := s.sched.goldenDone ||| 2 ^ b } }
  let s := if failed then
      match s.curJob with
      | some j => s.raiseEv ⟨b / 16, b % 16, 0x1F, j.id, 0, 0xFFFF, "GOLDEN_MISMATCH", 0, 0, 0, some j.ringSet⟩
      | none => s
    else s
  if s.goldenTargets.all fun t => bit s.sched.goldenDone t then
    let g := s.fld (aSch 0x30) 3 0
    { (s.setFld (aSch 0x30) 3 0 (g + 1)).setFld (aSch 0x30) 6 4 0 with sched := { s.sched with goldenDone := 0 } }
  else s

/-- R215: a lea holds no tile-share and no Glen step. -/
def State.leaIdle (s : State) (d l : Nat) : Bool :=
  (List.range 17).all (fun t => decide (s.fld (aTil d l t 0) 15 8 = 0)) &&
    !s.inFlight.any fun c =>
      c.shares.any (fun h => decide (h.die = d) && decide (h.lea = l) && decide (h.state = 1))
        || c.engines.any fun e => decide (e.die = d) && decide (e.lea = l) && decide (e.state < 2) && decide (c.kind = 1)

/-- R215: an idle target of the running DRIVE job is reserved, and its golden run starts; on a target that was reserved at the job's
start (R216) the run starts once the target is idle. -/
def execGoldenReserve (l : LeaId) (s : State) : Host.Outcome State Fault Refusal :=
  .next <| s.live <|
    let b := leaKey l.die l.lea
    match s.curJob with
    | none => s
    | some j =>
      if !s.schRunning || decide (j.phase ≠ .running) || decide (j.kind ≠ 0) || !bit (s.reg (aSch 0x20)) 0
          || !s.goldenTargets.contains b || bit s.sched.goldenDone b || (s.cmd ⟨2, b⟩).any (fun c => decide (c.phase ≠ .skipped))
          || !(s.lea b).coreUp || !s.leaIdle l.die l.lea then s
      else
        let rest := s.sched.reservations.filter fun r => decide (r.1 ≠ b)
        State.goldenBegin { s with sched := { s.sched with reservations := rest ++ [(b, s.now)] } } j b s.goldenDesc

/-- R215, R217: the part of a GOLDEN command on a lea, while it runs. -/
def State.goldenPart (s : State) (l : LeaId) : Option Cmd :=
  s.inFlight.find? fun c => decide (c.kind = 5) && decide (c.phase = .running) && decide (c.ref.list ≠ 2)
    && c.engines.any fun e => decide (e.die = l.die.val) && decide (e.lea = l.lea.val) && decide (e.state = 1)

/-- R215, R217: the golden run of the body `w` on a lea has ended with a status: the CRC of its output in the golden scratch is
compared. The part of a GOLDEN command ends with the run's status; in the slot the target has been tested. -/
def State.goldenEnd (s : State) (l : LeaId) (status : Nat) : State :=
  let b := leaKey l.die l.lea
  let crc := fun (w : List Nat) => crc32c (s.bytes (poolBase l.die l.lea + 0x3F0000 + bits (word w 9) 15 0) (bits (word w 9) 32 16))
  let bad := fun (w : List Nat) => decide (status ≠ 0) || decide (crc w ≠ bits (word w 10) 31 0)
  let s := s.updCmd ⟨2, b⟩ fun c => c.ended .skipped
  match s.goldenPart l with
  | some c =>
    let s := s.updCmd c.ref fun c => { c with kindInfo := crc c.words, engines := c.engines.map fun e =>
      if e.die = l.die.val ∧ e.lea = l.lea.val then { e with state := 2 } else e }
    let s := if bad c.words then s.raiseFor c.ref l.die l.lea 0x1F "GOLDEN_MISMATCH" 0 0 else s
    if status = 0 then s.send (.engineEnd l.die l.lea c.ref c.serial)
    else s.send (.fault l.die l.lea 0x1F c.ref c.serial status)
  | none => (if s.reserved l.die l.lea then s.goldenTestedMark b (bad s.goldenDesc) else s).jobCheck

/-- R215: the golden run on a lea has ended: every tile-share of the template at its end, or a status that ended it. `diag`: it is
the run of a GOLDEN command of a DIAG job, and not one of the slot (R217). -/
def execGoldenRunEnd (die : Fin 4) (lea : Fin 16) (diag : Bool) (s : State) : Host.Outcome State Fault Refusal :=
  .next <| s.live <|
    let l : LeaId := ⟨die, lea⟩
    match s.cmd ⟨2, leaKey l.die l.lea⟩ with
    | none => s
    | some c =>
      if !s.schRunning || s.recordsFull || decide (diag ≠ (s.goldenPart l).isSome) then s
      else if c.phase = .failed then s.goldenEnd l c.endStatus
      else if c.phase = .running ∧ c.shares.all (fun h => decide (h.state = 3)) then
        ((s.runOver c.ref).dropOwned c).goldenEnd l 0
      else s

/-- R215, R217: a golden run that exceeds SLOT_US is a mismatch, and its reservation ends: its threads are ended (R175), and a GOLDEN
command ends with TIMEOUT. -/
def execGoldenSlotTimeout (l : LeaId) (s : State) : Host.Outcome State Fault Refusal :=
  .next <| s.live <|
    let b := leaKey l.die l.lea
    match s.cmd ⟨2, b⟩ with
    | none => s
    | some c =>
      let body := match s.goldenPart l with
        | some p => p.words
        | none => s.goldenDesc
      if !s.schRunning || s.recordsFull || decide (c.phase ≠ .running) || c.shares.all (fun h => decide (h.state = 3))
          || decide (s.now ≤ c.tStart + 1000 * bits (word body 10) 47 32) then s
      else if (s.goldenPart l).isSome then s.kill [c.ref] 7 false .go
      else (s.goldenTestedMark b true).kill [c.ref] 7 false .go

/-! ## Start, resumption and time limit (R152 to R154, R176) -/

/-- R152, R154, R203, R216: the next job, a queued one, starts: it fails its checks, or its domain is loaded and it
runs; a job without commands ends. -/
def execJobStart (s : State) : Host.Outcome State Fault Refusal :=
  .next <| s.live <|
    match s.nextJob with
    | none => s
    | some j =>
      if !s.jobSlot || decide (j.phase ≠ .queued) then s
      else
        let st := oneOf (s.jobFails j)
        if st ≠ 0 then s.endJob { j with tStart := s.now } st
        else
          let s := s.updJob j.serial fun j => { j with phase := .running, started := true, tStart := s.now }
          let s := { s with domain := some (bits (word j.words 4) 43 32) }
          let s := if bit (s.reg (aSch 0x20)) 0 && decide (j.kind = 0) && decide (s.fld (aSch 0x30) 6 4 = 4)
            then s.goldenForce else s
          s.jobCheck

/-- R176: a suspended job resumes; the skips that a failure before its suspension calls for are decided. -/
def execJobResume (s : State) : Host.Outcome State Fault Refusal :=
  .next <| s.live <|
    match s.nextJob with
    | none => s
    | some j =>
      if !s.jobSlot || decide (j.phase ≠ .suspended) then s
      else
        let s := s.updJob j.serial fun j => { j with phase := .running }
        ({ s with domain := some (bits (word j.words 4) 43 32) }).skips.jobCheck

/-- A record of the hardware timer beside the FIFO (R210), once, while there is room: till then the expiry stands. -/
def State.timerRecord (s : State) (r : FifoRec) : State :=
  if s.sched.fifo.contains r || s.recordsFull then s
  else { s with sched := { s.sched with fifo := s.sched.fifo ++ [r] } }

/-- R154, R210: the time limit of a job that has started expires: a record enters the FIFO. -/
def execJobTimeout (serial : Nat) (s : State) : Host.Outcome State Fault Refusal :=
  .next <| s.live <|
    match s.sched.jobs.find? fun j => decide (j.serial = serial) with
    | none => s
    | some j =>
      let lim := bits (word j.words 4) 31 0
      if !j.started || decide (lim = 0xFFFFFFFF) || decide (s.now ≤ j.tStart + 1000 * lim) then s
      else s.timerRecord (.jobLimit serial)

/-- R155, R210: the time limit of a running command expires: a fault record enters the FIFO. -/
def execCommandTimeout (list : Fin 2) (idx : BitVec 16) (s : State) : Host.Outcome State Fault Refusal :=
  .next <| s.live <|
    let r : CmdRef := ⟨list, idx.toNat⟩
    match s.cmd r with
    | none => s
    | some c =>
      let lim := wTimeLimit c.words
      if decide (c.phase ≠ .running) || decide (lim = 0xFFFFFFFF) || decide (s.now ≤ c.tStart + 1000 * lim) then s
      else s.timerRecord (.fault 4 0 0x1F r c.serial 7)

/-! ## The completion FIFO (R168, R210, R212) -/

/-- R168: the run of a command that a record belongs to still goes on, and is not at its commit point. -/
def State.recordCounts (s : State) (r : CmdRef) (run : Nat) : Bool :=
  match s.cmd r with
  | some c => decide (c.phase = .running) && decide (c.serial = run) && !c.due
  | none => false

/-- R172: an engine attributes a fault to a context: it alone is torn down and the command is re-run without it; the
fifth fails the command, and every remaining context is torn down. -/
def State.attribute (s : State) (r : CmdRef) (die lea ctx status : Nat) : State :=
  match s.curJob, s.cmd r with
  | some j, some c =>
    let s := if c.kind = 1 then s.count32 (aGln die lea 0x18) else s
    let place := fun (c : Cmd) => { c with faultDie := die % 4, faultLea := lea, faultTile := 0x1F }
    if 4 ≤ c.attribs then (s.updCmd r place).kill [r] status true .go
    else
      let s := s.updCmd r fun c => { place c with
        attribs := c.attribs + 1, dropCtx := c.dropCtx ++ [ctx], removed := c.removed + 1,
        faultCtx := if c.faultCtx = 0xFFFF ∧ ctxState (s.ctx ctx) ≠ 5 ∧ ctxState (s.ctx ctx) ≠ 0 then ctx else c.faultCtx }
      (s.tearDown j r status ctx).kill [r] 1 false .go
  | _, _ => s

/-- R168, R206, R210: the scheduler core takes the oldest record of the FIFO and records it for its command. A record of an
earlier run, or of a command whose end is decided, decides nothing. While a completion entry waits for its ring, the records stay in
the FIFO. -/
def execCompletionFifoRecord (s : State) : Host.Outcome State Fault Refusal :=
  .next <| s.live <|
    match s.sched.fifo with
    | [] => s
    | x :: t =>
      if !s.schRunning || !s.sched.cqWait.isEmpty then s
      else
        let s := { s with sched := { s.sched with fifo := t } }
        match x with
        | .shareEnd _ r run n =>
          if s.recordCounts r run then
            s.updCmd r fun c => { c with shares := c.shares.map fun h =>
              if h.ltile = n ∧ h.state = 2 then { h with state := 3 } else h }
          else s
        | .engineEnd d l r run =>
          if s.recordCounts r run then
            s.updCmd r fun c => { c with engines := c.engines.map fun e =>
              if e.die = d ∧ e.lea = l ∧ e.state = 2 then { e with state := 3 } else e }
          else s
        | .fault d l t r run st =>
          if s.recordCounts r run then s.faultCmd r d l t st true else s
        | .attributed d l r run ctx st => if s.recordCounts r run then s.attribute r d l ctx st else s
        | .jobLimit n => s.jobLimit n

end Sys2Proof.Machine
end

