-- ==== Sys2Proof/Machine/Col.lean ====
section
/-! DEFINITION. The commands of the Col ports and of the data frames of the fabric (R511 to R519, R524, R527, R528, R534). -/

namespace Sys2Proof.Machine

/-! ## Ports (R511 to R514) -/

/-- R513: HELLO sent on a port: UID, FABRIC_ID, port name, address and role. -/
def State.sendHello (s : State) (p : Nat) : State :=
  s.colSend p 0 { type := 8, fields := [s.uid, s.reg (aCol 8), p, s.fld (aCol 0) 12 0, s.mgr] }

/-- R511: alignment and FEC lock on all lanes, then a HELLO: the port is UP. -/
def execColLockAchieved (p : Fin 4) (s : State) : Host.Outcome State Fault Refusal :=
  .next <| s.live <|
    if s.colState p ≠ colTraining then s
    else
      let s := (s.setColState p colUp).updCol fun c => { c with sent := [] }
      (s.setColPort p { s.colPort p with upAt := s.now, heardAt := s.now }).sendHello p

/-- R511: no lock within 20 ms: DOWN, and at once TRAINING. -/
def execColTrainingTimeout (p : Fin 4) (s : State) : Host.Outcome State Fault Refusal :=
  .next <| s.live (if s.colState p = colTraining ∧ (s.colPort p).trainAt + 20000000 < s.now then s.colDown p else s)

/-- R511: loss of lock for 1 µs, or 8 uncorrectable codewords in 1 ms; `unc` are those counted now. -/
def execColLossOfLock (p : Fin 4) (unc : Nat) (s : State) : Host.Outcome State Fault Refusal :=
  .next <| s.live (if s.colState p = colUp then (s.count (aColPort p 8) 31 0 unc).colDown p else s)

/-- R512: a lane in service fails: the first one gives way to the spare, a second one holds the port. -/
def execColLaneFail (p : Fin 4) (lane : Fin 5) (s : State) : Host.Outcome State Fault Refusal :=
  .next <| s.live <|
    let st := s.colState p
    let used := bit (s.reg (aColPort p 0)) 5
    let serves := if used then decide (lane.val ≠ s.fld (aColPort p 0) 4 3) else decide (lane.val ≠ 4)
    if (st ≠ colTraining ∧ st ≠ colUp) ∨ ¬ serves then s
    else if (s.colPort p).failed then
      let s := s.suspectPeer p 1
      (s.setFld (aColPort p 0) 18 6 0).setColState p colHeld
    else
      let s := s.setColPort p { s.colPort p with failed := true }
      let s := (s.setFld (aColPort p 0) 4 3 lane).setFld (aColPort p 0) 5 5 1
      let s := ((s.raise 4 0 0x1F "COL_SPARE_LANE" p 0).replaceReq 5).frecNote 0x06 4 p lane
      s.colDown p

/-- The ports of an axis (R514). -/
def axisPorts (axis : Nat) : List Nat := [2 * axis, 2 * axis + 1]

/-- R514: the fabric role, STANDALONE before the configuration block is applied. -/
def State.fabricRole (s : State) : Nat := if bit (s.reg (aVal 0x18)) 7 then s.fld (aVal 0x18) 2 1 else 0

/-- R514: an event that closes the bypasses has happened and still holds. -/
def State.bypassCause (s : State) : Bool :=
  !s.power.mainOk || decide (s.boot.phase = 0) || decide (s.fabricRole = 0) || s.col.expelled

/-- R514: a bypass closes, where the auxiliary input feeds it: the ports of its axis are BYPASSED, or DISABLED for a
STANDALONE module. -/
def execBypassClose (axis : Fin 2) (s : State) : Host.Outcome State Fault Refusal :=
  .next <| s.live <|
    if !s.bypassCause || !s.power.auxOk || s.col.bypass.getD axis true then s
    else
      let s := s.updCol fun c => { c with bypass := c.bypass.set axis true }
      (axisPorts axis).foldl (fun s p =>
        if s.colState p = colHeld then s
        else (s.setFld (aColPort p 0) 18 6 0).setColState p (if s.fabricRole = 0 then colDisabled else colBypassed)) s

/-- R514: a bypass opens: LOADED is 1, the role is MEMBER or MANAGER-ELIGIBLE, and the Vale is out of reset; its ports train
again. -/
def execBypassOpen (axis : Fin 2) (s : State) : Host.Outcome State Fault Refusal :=
  .next <| s.live <|
    if !s.col.bypass.getD axis true || decide (s.fabricRole = 0) || decide (s.boot.phase < 3) || s.frozen then s
    else
      let s := s.updCol fun c => { c with bypass := c.bypass.set axis false }
      (axisPorts axis).foldl (fun s p =>
        if s.colState p = colBypassed ∨ s.colState p = colDisabled then s.colTrain p else s) s

/-! ## HELLO, HEARTBEAT and keys (R513, R518, R520, R524) -/

/-- R520: the side whose lead has the higher UID stands down: its managers resign, and its modules join again. -/
def State.standDown (s : State) (p : Nat) : State :=
  let s := if s.mgr ≠ 0 then s.toManagers { type := 10, sub := 15 } else s
  s.colLeave.askAdmit p

/-- R513, R520, R521: a HELLO. `name` is the port of the partner, `lead` the UID of the lead that it names. -/
def execColHello (p : Fin 4) (frame : List Byte) (_uid fabric : Word) (name : Fin 4) (address : Option (BitVec 12))
    (lead : Option Word) (s : State) : Host.Outcome State Fault Refusal :=
  .next <| s.live <|
    match s.colTake p frame 8 true with
    | (s, none) => s
    | (s, some _) =>
      if name = p then ((s.setFld (aColPort p 0) 18 6 0).setColState p colHeld).raise 4 0 0x1F "COL_MISWIRED" p 0
      else
        let s := match address with
          | some a => (s.setFld (aColPort p 0) 17 6 a.toNat).setFld (aColPort p 0) 18 18 1
          | none => s.setFld (aColPort p 0) 18 6 0
        if s.reg (aCol 8) ≠ fabric.toNat then s
        else match lead with
          | none => s
          | some l =>
            let own := s.col.managers.map (·.2)
            let other := own ≠ [] ∧ ¬ own.contains l.toNat ∧ own.all fun u => decide (l.toNat < u)
            if other then s.standDown p
            else
              let s := s.updCol fun c => { c with leadKnown := some l.toNat }
              if s.colMember = 1 ∧ s.ownAddr = none then s.askAdmit p else s

/-- R511, R524: a HEARTBEAT of the partner of a port, with the codewords that the FEC corrected and could not correct since the last
one; 8 uncorrectable ones in 1 ms take the port DOWN. -/
def execColHeartbeat (p : Fin 4) (frame : List Byte) (fec unc : Nat) (s : State) : Host.Outcome State Fault Refusal :=
  .next <| s.live <|
    match s.colTake p frame 9 true with
    | (s, none) => s
    | (s, some f) =>
      let s := (s.count (aColPort p 4) 31 0 fec).count (aColPort p 8) 31 0 unc
      let l := ((s.now, unc) :: (s.colPort p).unc).filter fun e => decide (s.now < e.1 + 1000000)
      let s := s.setColPort p { s.colPort p with heardAt := s.now, unc := l }
      let s := s.updCol fun c => { c with modes := writeAt (fun _ => 0) c.modes f.src f.mode }
      if 8 ≤ (l.map (·.2)).sum then s.colDown p else s

/-- R524: at each multiple of 250 µs of the time base the Col hardware sends a HEARTBEAT on every UP port. -/
def execColHeartbeatSend (s : State) : Host.Outcome State Fault Refusal :=
  .next <| s.live <|
    let b := s.now / 250000 + 1
    if b ≤ s.col.beat then s
    else (s.updCol fun c => { c with beat := b, sent := [] }).colAll { type := 9 }

/-- R518: a KEY frame: a new fabric key, wrapped under the current key, or for a joiner by ECIES, is installed under KEYIDX
`idx`; SEQ starts at 0. -/
def execColKey (p : Fin 4) (frame : List Byte) (idx : Fin 4) (wrapped : List Byte) (ecies : Bool) (s : State) :
    Host.Outcome State Fault Refusal :=
  .next <| s.live <|
    match s.colTake p frame 11 s.ownAddr.isNone with
    | (s, none) => s
    | (s, some _) =>
      if ecies && !s.keyless then
        match s.col.relay.head? with
        | some e => (s.updCol fun c => { c with relay := c.relay.erase e }).colSend e.2 0 { type := 11, fields := [idx.val] }
        | none => s
      else
      let key := if ecies then
          if s.keyless then Config.eciesOpen (idKey (leBytes 32 s.fuses.secret) 256 0) wrapped else none
        else (s.col.cur.bind s.colKey).bind fun k => (keyUnwrap (keyBytes k.key) (wrapped.map (·.toNat))).map numOf
      match key with
      | none => s
      | some k => s.updCol fun c => { c with
          keys := c.keys.set idx (some ⟨k % 2 ^ 256, 0, none⟩)
          seen := c.seen.filter fun e => decide (e.1 / 4096 ≠ idx.val) }

/-- R518: a key is erased 100 ms after it stopped being current. -/
def execKeyErase (key : Fin 4) (s : State) : Host.Outcome State Fault Refusal :=
  .next <| s.live <|
    match s.colKey key with
    | some ⟨_, _, some t⟩ =>
      if t + 100000000 ≤ s.now ∧ s.col.cur ≠ some key.val then s.updCol fun c => { c with keys := c.keys.set key none } else s
    | _ => s

/-! ## Data frames (R516, R527) -/

/-- R527, R442: the status of a remote access to `n` bytes at offset `o` of the export region. -/
def State.exportStatus (s : State) (wr : Bool) (o n : Nat) : Nat :=
  let a := bits (s.reg (aCol 0x20)) 47 0 + o
  if o % 64 ≠ 0 then 3
  else if s.fld (aCol 0x28) 34 0 < o + n then 4
  else
    let st := s.accessAt whoFabric wr a n
    if st ≠ 0 then st else if !wr && s.readPoison a n then 5 else 0

/-- The answer to a data frame: its tag, class and task come back. -/
def State.colAnswer (s : State) (f : ColFrame) (type status : Nat) (data : List Byte) : State :=
  s.colTo f.src { type := type, addr := f.addr, rtag := f.rtag, status := status, cls := f.cls, task := f.task, data := data }

/-- R373, R516, R527: RD: lines of the export region are read and sent back. -/
def execColRd (p : Fin 4) (frame : List Byte) (s : State) : Host.Outcome State Fault Refusal :=
  .next <| s.live <|
    match s.colTake p frame 1 false with
    | (s, none) => s
    | (s, some f) =>
      let n := 64 * f.lines
      let st := if n = 0 then 0 else s.exportStatus false f.addr n
      let s := if st = 0 then s.chargeAs 4 0xFF8 false (bits (s.reg (aCol 0x20)) 47 0 + f.addr) n else s
      s.colAnswer f 2 st (if st = 0 then s.readOut (bits (s.reg (aCol 0x20)) 47 0 + f.addr) n else [])

/-- R373, R516, R527: WR: lines of the export region are written, and acknowledged once they are performed. -/
def execColWr (p : Fin 4) (frame : List Byte) (s : State) : Host.Outcome State Fault Refusal :=
  .next <| s.live <|
    match s.colTake p frame 3 false with
    | (s, none) => s
    | (s, some f) =>
      let st := if f.data.length = 0 then 0 else s.exportStatus true f.addr f.data.length
      let a := bits (s.reg (aCol 0x20)) 47 0 + f.addr
      (if st = 0 then (s.chargeAs 4 0xFF8 true a f.data.length).store a f.data
        else if st = 4 ∧ f.addr + f.data.length ≤ s.fld (aCol 0x28) 34 0 then
          s.storeRefused (fun a n => decide (s.accessAt whoFabric true a n = 0)) a f.data
        else s).colAnswer f 4 st []

/-- The outstanding request that a response answers. -/
def State.remoteOf (s : State) (f : ColFrame) (wr : Bool) : Option RemoteReq :=
  s.col.reqs.find? fun q => decide (q.tag = f.rtag) && decide (q.dst = f.src) && decide (q.wr = wr)

/-- Lines of a request answered. -/
def State.remoteLines (s : State) (q : RemoteReq) (n : Nat) : State :=
  if q.left ≤ n then s.remoteEnd q 0
  else s.updCol fun c => { c with reqs := c.reqs.map fun x => if x = q then { q with left := q.left - n } else x }

/-- R516, R527: RDRSP: the bytes of lines that a thread has asked for, or a status that ends its request. -/
def execColRdrsp (p : Fin 4) (frame : List Byte) (s : State) : Host.Outcome State Fault Refusal :=
  .next <| s.live <|
    match s.colTake p frame 2 false with
    | (s, none) => s
    | (s, some f) => match s.remoteOf f false with
      | none => s
      | some q =>
        if f.status ≠ 0 then s.remoteEnd q f.status
        else
          let a := 0x400000000000 + f.src * 0x400000000 + f.addr
          let put := fun (g : Sparse (Option Byte)) i =>
            if inside (a + i) 1 q.addr q.len then writeAt (fun _ => none) g (a + i) f.data[i]? else g
          (s.updCol fun c => { c with got := (List.range f.data.length).foldl put c.got }).remoteLines q f.lines

/-- R516, R527, R528: WRACK: lines of a write are performed at the other module, or a status ends the request; BUSY answers a
COLL frame. -/
def execColWrack (p : Fin 4) (frame : List Byte) (s : State) : Host.Outcome State Fault Refusal :=
  .next <| s.live <|
    match s.colTake p frame 4 false with
    | (s, none) => s
    | (s, some f) =>
      if f.status = 0x10 then s.updCol fun c => { c with busy := c.busy ++ [(s.now, f.src, f.addr, f.rtag)] }
      else match s.remoteOf f true with
        | none => s
        | some q => if f.status ≠ 0 then s.remoteEnd q f.status else s.remoteLines q 64

/-- R527: a request unanswered for 2 ms ends with DIE_ABSENT. -/
def execRemoteTimeout (tag : BitVec 10) (s : State) : Host.Outcome State Fault Refusal :=
  .next <| s.live <|
    match s.col.reqs.find? fun q => decide (q.tag = tag.toNat) with
    | some q => if q.sentAt + 2000000 < s.now then s.remoteEnd q 8 else s
    | none => s

/-- R526: a frame that the target of a shadow receives is copied to the shadow; `tags` are those of a COLL frame. -/
def State.toWatchers (s : State) (f : ColFrame) (tags : List Nat) : State :=
  s.col.watchers.foldl (fun s a =>
    s.colTo a
      { type := f.type, sub := f.sub, addr := f.addr, rtag := f.rtag, cls := f.cls, task := f.task, data := f.data, fields := tags }) s

/-- R528: partials of a member of a group: BUSY until the command for their GROUP_ID and SERIAL has started, else they are
kept for it. DESIGN CHOICE (assumption 146): ADDR is their offset in the member's package result. -/
def execColColl (p : Fin 4) (frame : List Byte) (group serial : Word32) (member : Fin 256) (s : State) :
    Host.Outcome State Fault Refusal :=
  .next <| s.live <|
    match s.colTake p frame 5 false with
    | (s, none) => s
    | (s, some f) =>
      let s := s.toWatchers f [group.toNat, serial.toNat, member]
      let runs := s.inFlight.any fun c =>
        let g := bits (word c.words 11) 47 0
        decide (c.kind = 3) && bit (word c.words 8) 8 && decide (s.num (g + 4) 4 = group.toNat) &&
          decide (s.num (g + 8) 4 = serial.toNat)
      if !runs then s.colAnswer f 4 0x10 []
      else s.updCol fun c => { c with partials := c.partials ++ [⟨group.toNat, serial.toNat, member, f.addr, f.data⟩] }

/-- R528: a COLL frame that was answered BUSY is sent again after 10 µs. -/
def execCollRetry (s : State) : Host.Outcome State Fault Refusal :=
  .next <| s.live <|
    match s.col.busy with
    | [] => s
    | (t, dst, addr, tag) :: rest =>
      if s.now < t + 10000 then s
      else
        let again := s.col.outs.filter fun x => decide (x.dst = dst) && decide (x.part.off = addr) && decide (x.part.serial % 1024 = tag)
        again.foldl (fun s x => s.sendColl x) (s.updCol fun c => { c with busy := rest, sent := [] })

/-! ## Forwarding (R517) -/

/-- R517: a frame for another module: TTL falls by 1, and it leaves by the routing table; one that reaches TTL 0, or finds no
port UP, is dropped and counted. HELLO and HEARTBEAT go to the partner of a port (R513, R524), and what a joiner may accept is left to
its own command. -/
def execFrameForward (p : Fin 4) (frame : List Byte) (s : State) : Host.Outcome State Fault Refusal :=
  .next <| s.live <|
    let s := s.updCol fun c => { c with sent := [] }
    let f := colParse p frame
    if s.colState p ≠ colUp ∨ s.ownAddr = some f.dst then s
    else if !colLayoutOk f frame then s.count32 (aCol 0x38)
    else if f.type = 8 ∨ f.type = 9 ∨ (s.ownAddr = none ∧ !f.enc ∧ s.plainOk f) then s
    else match s.colRoute f.dst with
      | none => s.count32 (aCol 0x38)
      | some q =>
        if f.ttl ≤ 1 then s.count32 (aCol 0x38)
        else s.updCol fun c => { c with sent := [⟨q, setBits f.w0 35 28 (f.ttl - 1), f.w1, f.w2, f.w3, f.data, []⟩] }

/-! ## Counters (R533, R534) -/

/-- R533, R534: COL_CNT_CLR.ERR, written by the security core or a Heath. -/
def execColCntClrErr (init : Init) (s : State) : Host.Outcome State Fault Refusal :=
  .next <| s.live <|
    if init.toNat = initSec ∨ isHeath init.toNat then
      ([aCol 0x38, aCol 0x3C] ++ (List.range 4).flatMap fun p => [aColPort p 4, aColPort p 8, aColPort p 0xC]).foldl
        (fun s a => s.setReg a 0) s
    else s

end Sys2Proof.Machine
end

