-- ==== Sys2Proof/Machine/Ingress.lean ====
section
/-! DEFINITION. Sensor ingress (R389 to R411): camera packets and network frames become items in cells of the pool; the
frozen-frame detector; replay through the apertures; the queue configuration. -/

namespace Sys2Proof.Machine

/-! ## Queue configuration (R399, R416) -/

/-- R416: QCFG of a queue. -/
def State.qcfg (s : State) (q : Nat) : Nat := s.reg (aQueue q 0)
/-- R416: the queue is an enabled camera queue. -/
def State.isCamera (s : State) (q : Nat) : Bool := bit (s.qcfg q) 0 && decide (bits (s.qcfg q) 2 1 = 0)
/-- R416: the queue is an enabled network queue. -/
def State.isNetwork (s : State) (q : Nat) : Bool := bit (s.qcfg q) 0 && decide (bits (s.qcfg q) 2 1 = 1)
/-- R416: LINE_BYTES. -/
def State.lineBytes (s : State) (q : Nat) : Nat := s.fld (aQueue q 0x0C) 19 0
/-- R416: STRIPE_LINES; 0 means 256. -/
def State.stripeLines (s : State) (q : Nat) : Nat :=
  let n := s.fld (aQueue q 0x0C) 27 20
  if n = 0 then 256 else n
/-- R399: the largest item of a queue. -/
def State.largestItem (s : State) (q : Nat) : Nat :=
  if bits (s.qcfg q) 2 1 = 0 then s.stripeLines q * s.lineBytes q else 9192

/-- R391: the enabled camera queue of a virtual channel of a port. -/
def State.cameraQueue (s : State) (port vc : Nat) : Option Nat :=
  (List.range 256).find? fun q => s.isCamera q && decide (bits (s.qcfg q) 6 3 = port) && decide (bits (s.qcfg q) 8 7 = vc)
/-- R396: the enabled network queue of a stream of a MAC. -/
def State.streamQueue (s : State) (mac stream : Nat) : Option Nat :=
  (List.range 256).find? fun q => s.isNetwork q && decide (bits (s.qcfg q) 6 3 = mac) && decide (bits (s.qcfg q) 31 16 = stream)

/-- The writer of a queue. -/
def State.writer (s : State) (q : Nat) : Writer := (s.queue q).w
/-- The writer of a queue replaced. -/
def State.setWriter (s : State) (q : Nat) (w : Writer) : State := s.setQueue q { s.queue q with w := w }

/-- The low or high 16-bit counter of a register raised. -/
def State.countHalf (s : State) (a : Nat) (high : Bool) (n : Nat) : State :=
  if high then s.count a 31 16 n else s.count a 15 0 n

/-! ## Cells (R398, R401) -/

/-- R401, R417: an item is lost: QLOST, and EVT_IQM_LOST at most once per millisecond. -/
def State.itemLost (s : State) (q : Nat) : State :=
  let s := s.count32 (aQueue q 0x1C)
  let w := s.writer q
  let due := match w.lostAt with
    | none => true
    | some t => decide (t + 1000000 ≤ s.now)
  if due then (s.setWriter q { w with lostAt := some s.now }).raise 4 0 0x1F "IQM_LOST" q (s.reg (aQueue q 0x1C)) else s

/-- R398: a cell of the free list, if there is one. -/
def State.freeCell (s : State) : Option (Nat × State) :=
  match s.iqm.freed with
  | c :: t => some (c, { s with iqm := { s.iqm with freed := t } })
  | [] => if s.iqm.next < 196608 then some (s.iqm.next, { s with iqm := { s.iqm with next := s.iqm.next + 1 } }) else none

/-- R401: rules 1 and 2: a queue takes a free cell. -/
def State.takeFree (s : State) (q : Nat) : Option (Nat × State) :=
  s.freeCell.map fun (c, s) =>
    (c, (s.setFld (aIqm 0) 17 0 (s.fld (aIqm 0) 17 0 - 1)).setFld (aQueue q 0x18) 17 0 (s.fld (aQueue q 0x18) 17 0 + 1))

/-- R401, R407: rule 3: the oldest complete item is overwritten: its cells, if there is one. -/
def State.overwrite (s : State) (q : Nat) : Option (List Nat × State) :=
  let x := s.queue q
  match x.take.find? fun i => !i.lost with
  | some i =>
    let mark := fun (j : Item) => if j = i then { j with lost := true, cells := [] } else j
    let s := (s.setQueue q { x with take := x.take.map mark }).itemLost q
    -- where the command is at its commit point or past it, the item counts only in QLOST
    if s.takeCommits q then some (i.cells, s.queueShow q)
    else
      let s := (s.count32 (aQueue q 0x20)).raise 4 0 0x1F "IQM_TAKE_OVERWRITTEN" q (i.seqw % 2 ^ 32)
      some (i.cells, (s.overwriteRecord q 0x0D).queueShow q)
  | none =>
    match x.items with
    | i :: t => some (i.cells, ((s.setQueue q { x with items := t }).itemLost q).queueShow q)
    | [] => none

/-- R401: a cell for the writer of a queue: none where the open item is dropped. -/
def State.takeCell (s : State) (q : Nat) : Option (Nat × State) :=
  let held := s.fld (aQueue q 0x18) 17 0
  let free := if held < 16 * s.fld (aQueue q 4) 11 0 ∨ held < 16 * s.fld (aQueue q 4) 27 16 then s.takeFree q else none
  match free with
  | some r => some r
  | none => match s.overwrite q with
    | some (c :: rest, s) => some (c, s.freeCells q rest)
    | _ => none

/-- R401: `n` cells for the open item, or none with the state in which they were not found. -/
def State.takeCells (s : State) (q : Nat) : Nat → List Nat → Bool × List Nat × State
  | 0, cs => (true, cs, s)
  | n + 1, cs => match s.takeCell q with
    | some (c, s) => s.takeCells q n (cs ++ [c])
    | none => (false, cs, s)

/-- R391, R401: bytes added to the open item of a queue: they fill its cells in order. Rule 4 of R401 drops the item. -/
def State.itemPut (s : State) (q : Nat) (bs : List Byte) : State :=
  match (s.writer q).item with
  | none => s
  | some i =>
    if i.dropped then s
    else
      let need := (i.len + bs.length + 255) / 256 - i.cells.length
      let (ok, cs, s) := s.takeCells q need i.cells
      if ok then
        let s := (List.range bs.length).foldl (fun s k =>
          let o := i.len + k
          s.putBytes (0x001040000000 + cs.getD (o / 256) 0 * 256 + o % 256) [bs.getD k 0]) s
        s.setWriter q { s.writer q with item := some { i with len := i.len + bs.length, cells := cs } }
      else
        ((s.freeCells q cs).setWriter q
          { s.writer q with item := some { i with cells := [], dropped := true } }).itemLost q

/-! ## Items (R391, R392, R404) -/

/-- R392: the valid bytes of the last word of an item. -/
def lastValid (n : Nat) : Nat := n - 8 * ((n + 7) / 8 - 1)

/-- R404: word 0 of a directory entry without OFFSET, from LEN and the flags in [63:56]. -/
def itemWord (len flags : Nat) : Nat := len * 2 ^ 32 + lastValid len * 2 ^ 52 + flags * 2 ^ 56

/-- R400, R404: the open item of a queue is complete: it takes its SEQ and becomes available. `word1` is FRAME and LINE. -/
def State.completeItem (s : State) (q w0 word1 arrival src : Nat) : State :=
  match (s.writer q).item with
  | none => s
  | some i =>
    let s := s.setWriter q { s.writer q with item := none }
    if i.dropped then s
    else if i.len = 0 then s.freeCells q i.cells
    else
      let seq := s.reg (aQueue q 0x24)
      let it : Item := ⟨w0, seq + word1 * 2 ^ 32, arrival, src, i.cells, false⟩
      let x := s.queue q
      ((s.setQueue q { x with items := x.items ++ [it] }).setReg (aQueue q 0x24) ((seq + 1) % 2 ^ 32)).queueShow q

/-- R391, R404: a stripe is complete. `eof`, `trunc` and `stale` are its flags beside SOF and LINE_ERR. -/
def State.closeStripe (s : State) (q : Nat) (eof trunc stale : Bool) : State :=
  match (s.writer q).item with
  | none => s
  | some i =>
    let fl := b2n (decide (i.first = 0)) + 2 * b2n eof + 4 * b2n trunc + 8 * b2n i.err + 16 * b2n stale
    let s := if i.dropped then s
      else
        let s := if i.err then s.countHalf (aQueue q 0x28) false 1 else s
        if trunc then s.countHalf (aQueue q 0x2C) false 1 else s
    s.completeItem q (itemWord i.len fl) ((s.writer q).frameNum + i.first * 2 ^ 16) i.arrival 0

/-- R390: the open item of a queue and its frame are marked LINE_ERR. -/
def State.lineErr (s : State) (q : Nat) : State :=
  let w := s.writer q
  let mark := fun (i : OpenItem) => { i with err := true }
  s.setWriter q { w with item := w.item.map mark, frameErr := w.frameErr || w.item.isSome }

/-- R390: the open items of every queue of a port are marked LINE_ERR. -/
def State.portErr (s : State) (port : Nat) : State :=
  ((List.range 256).filter fun q => s.isCamera q && decide (bits (s.qcfg q) 6 3 = port)).foldl State.lineErr s

/-! ## The frozen-frame detector (R408, R409) -/

/-- R408: the detector of a queue runs. -/
def State.detects (s : State) (q : Nat) : Bool := decide (s.fld (aQueue q 0x10) 7 0 ≠ 0) && decide (s.fld (aQueue q 0x10) 15 8 ≠ 0)

/-- R408: the bytes of line `y` that lie on the lattice, into a running CRC-32. -/
def State.signLine (s : State) (q y x : Nat) (bs : List Byte) (sig : Nat) : Nat :=
  let lx := s.fld (aQueue q 0x10) 7 0
  let ly := s.fld (aQueue q 0x10) 15 8
  if !s.detects q || decide (y % ly ≠ 0) then sig
  else (List.range bs.length).foldl (fun c k => if (x + k) % lx = 0 then crcByte 0xEDB88320 c (bs.getD k 0) else c) sig

/-- R409: a frame of a queue ends: whether its EOF item carries STALE, and the detector's state. `compare`: the frame
carries neither TRUNC nor LINE_ERR. -/
def State.frameEnds (s : State) (q : Nat) (compare : Bool) : Bool × State :=
  let w := s.writer q
  let num := w.frameNum
  let s := s.setFld (aQueue q 0x34) 15 0 num
  if !s.detects q then (false, s.setWriter q { w with goodAt := some s.clock })
  else if !compare then (false, s.setWriter q { w with goodAt := some s.clock })
  else
    let sig := w.sig ^^^ 0xFFFFFFFF
    let rep := decide (w.prevSig = some sig) || (decide (num ≠ 0) && decide (num = w.prevNum))
    let run := if rep then w.run + 1 else 0
    let n := max 1 (s.fld (aQueue q 0x10) 19 16)
    let stale := rep && decide (n ≤ run)
    let s := s.setWriter q { w with
      prevSig := some sig, prevNum := if num = 0 then w.prevNum else num, run := run
      goodAt := if stale then w.goodAt else some s.clock }
    let s := (s.setReg (aQueue q 0x30) sig).setFld (aQueue q 0x34) 19 16 (min run 15)
    let s := if stale then s.countHalf (aQueue q 0x28) true 1 else s
    (stale, if stale && decide (run = n) then s.raise 4 0 0x1F "IQM_STALE_FRAME" q num else s)

/-- R390, R409: a frame starts. -/
def State.frameStart (s : State) (q num : Nat) : State :=
  s.setWriter q { s.writer q with
    frameOpen := true, frameNum := num, frameAt := s.now, line := 0, frameErr := false, sig := 0xFFFFFFFF
    startAt := s.now, outage := false }

/-- R391, R409: the open frame of a queue ends, cut short or not. -/
def State.frameClose (s : State) (q : Nat) (trunc : Bool) : State :=
  let w := s.writer q
  if !w.frameOpen then s
  else
    let (stale, s) := if w.line = 0 then (false, s) else s.frameEnds q (!trunc && !w.frameErr)
    let s := s.closeStripe q true trunc stale
    s.setWriter q { s.writer q with frameOpen := false }

/-! ## Camera packets (R389 to R391) -/

/-- R391: the pixels of RAW10, RAW12 or RAW14 packets (MIPI CSI-2), each as a 16-bit little-endian word. A group cut off at
the end is no pixel. -/
def unpackGo (dt : Nat) : Nat → List Byte → List Byte
  | 0, _ => []
  | n + 1, bs =>
    let b := fun (i : Nat) => (bs.getD i 0).toNat
    let px := fun (l : List Nat) => l.flatMap (leBytes 2)
    if dt = 0x2B then
      if bs.length < 5 then []
      else px ((List.range 4).map fun i => b i * 4 + b 4 / 4 ^ i % 4) ++ unpackGo dt n (bs.drop 5)
    else if dt = 0x2C then
      if bs.length < 3 then [] else px [b 0 * 16 + b 2 % 16, b 1 * 16 + b 2 / 16] ++ unpackGo dt n (bs.drop 3)
    else
      if bs.length < 7 then []
      else
        let low := b 4 + b 5 * 2 ^ 8 + b 6 * 2 ^ 16
        px ((List.range 4).map fun i => b i * 64 + low / 64 ^ i % 64) ++ unpackGo dt n (bs.drop 7)

/-- R391: the stored bytes of a payload: unpacked where selected. -/
def unpack (dt : Nat) (on : Bool) (bs : List Byte) : List Byte :=
  if on && [0x2B, 0x2C, 0x2D].contains dt then unpackGo dt bs.length bs else bs

/-- R410, R416: a camera port receives: it is enabled, and the module does not replay. -/
def State.cameraOn (s : State) (port : Nat) : Bool := bit (s.reg (aIqm (0x1000 + 0x20 * port))) 0 && decide (s.mode ≠ 3)

/-- R416: FREE and MIN of a receive FIFO. -/
def State.fifoShow (s : State) (a free : Nat) : State :=
  (s.setFld a 8 0 free).setFld a 24 16 (min free (s.fld a 24 16))

/-- R390: a packet header: one with a larger error is dropped; the state, and whether the packet goes on. -/
def State.csiHeader (s : State) (port : Nat) (hdr : Ecc) : Bool × State :=
  let a := aIqm (0x1004 + 0x20 * port)
  match hdr with
  | .clean => (true, s)
  | .corrected => (true, s.countHalf a false 1)
  | .uncorrectable => (false, (s.countHalf a true 1).portErr port)

/-- R390, R391: a line is stored into the open stripe of a queue. -/
def State.storeLine (s : State) (q : Nat) (line : List Byte) (err : Bool) : State :=
  let full := match (s.writer q).item with
    | some i => decide (s.stripeLines q ≤ i.lines)
    | none => false
  let s := if full then s.closeStripe q false false false else s
  let w := s.writer q
  let i := w.item.getD ⟨0, [], 0, w.line, if w.line = 0 then w.frameAt else s.now, false, false⟩
  let s := s.setWriter q { w with item := some { i with lines := i.lines + 1, err := i.err || err }, line := w.line + 1,
                                  frameErr := w.frameErr || err, sig := s.signLine q w.line 0 line w.sig }
  s.itemPut q line

/-- R417: the cell at which a queue's writer stands. -/
def State.writerCell (s : State) (q : Nat) : Nat :=
  match (s.writer q).item with
  | some i => i.cells.getLast?.getD 0
  | none => 0

/-- R390, R391, R397, R417: a long packet of a camera port. `crcOk`: its CRC-16 is good; `overflow`: the receive FIFO overflowed
in it; `fifo` is what the FIFO and the link memory show as the packet is stored. -/
def execCsiLongPacket (port : Fin 16) (vc : Fin 4) (dt : BitVec 6) (payload : List Byte) (hdr : Ecc) (crcOk overflow : Bool)
    (fifo : CsiFifo) (s : State) : Host.Outcome State Fault Refusal :=
  .next <| s.live <|
    if !s.cameraOn port then s
    else
      let base := 0x1000 + 0x20 * port.val
      let s := s.fifoShow (aIqm (base + 0x10)) fifo.free
      let (go, s) := s.csiHeader port hdr
      if !go then s
      else
      let s := if crcOk || overflow then s else s.count32 (aIqm (base + 0x08))
      match s.cameraQueue port vc with
        | none => if overflow then s.countHalf (aIqm (base + 0x0C)) true 1 else s
        | some q =>
          if overflow then (s.countHalf (aIqm (base + 0x0C)) true 1).lineErr q
          else if bits (s.qcfg q) 21 16 ≠ dt.toNat then s.countHalf (aIqm (base + 0x0C)) false 1
          else if !(s.writer q).frameOpen then s
          else if fifo.linkErr then s.linkUe q (s.writerCell q)
          else
            let bs := unpack dt.toNat (bit (s.qcfg q) 22) payload
            let n := s.lineBytes q
            s.storeLine q ((bs ++ List.replicate (n - bs.length) 0).take n) (!crcOk || decide (bs.length ≠ n))

/-- R390, R409: a frame start. -/
def execCsiFrameStart (port : Fin 16) (vc : Fin 4) (num : BitVec 16) (hdr : Ecc) (s : State) :
    Host.Outcome State Fault Refusal :=
  .next <| s.live <|
    if !s.cameraOn port then s
    else
      let (go, s) := s.csiHeader port hdr
      if !go then s
      else match s.cameraQueue port vc with
        | none => s
        | some q => (s.frameClose q true).frameStart q num.toNat

/-- R391: a frame end: the last stripe of the frame is complete, with EOF. -/
def execCsiFrameEnd (port : Fin 16) (vc : Fin 4) (hdr : Ecc) (s : State) : Host.Outcome State Fault Refusal :=
  .next <| s.live <|
    if !s.cameraOn port then s
    else
      let (go, s) := s.csiHeader port hdr
      if !go then s
      else match s.cameraQueue port vc with
        | none => s
        | some q => s.frameClose q false

/-- R389: line start, line end and generic short packets: only their header counts. -/
def execCsiShortPacketIgnored (port : Fin 16) (hdr : Ecc) (s : State) : Host.Outcome State Fault Refusal :=
  .next <| s.live (if s.cameraOn port then (s.csiHeader port hdr).2 else s)

/-- R409: no frame start arrives for FT_MS ms: once per outage. -/
def execNoFrameTimeout (q : Fin 256) (s : State) : Host.Outcome State Fault Refusal :=
  .next <| s.live <|
    let ft := s.fld (aQueue q 0x10) 27 20
    let w := s.writer q
    if !s.isCamera q || decide (ft = 0) || w.outage || decide (s.now ≤ w.startAt + ft * 1000000) then s
    else ((s.setWriter q { w with outage := true }).countHalf (aQueue q 0x2C) true 1).raise 4 0 0x1F "IQM_NO_FRAME" q.val 0

/-! ## Ethernet frames (R393 to R397) -/

/-- R396: EVT_IQM_E2E of a queue, at most once per millisecond, with what frames have met since the last. -/
def State.e2eEvent (s : State) (q what : Nat) : State :=
  let w := s.writer q
  let all := w.e2eBits ||| what
  let due := match w.e2eAt with
    | none => true
    | some t => decide (t + 1000000 ≤ s.now)
  if due then (s.setWriter q { w with e2eAt := some s.now, e2eBits := 0 }).raise 4 0 0x1F "IQM_E2E" q all
  else s.setWriter q { w with e2eBits := all }

/-- R396: the counter check of a frame: GAP, REPEAT and the counters lost. -/
def counterCheck (prev : Option Nat) (c : Nat) : Bool × Bool × Nat :=
  match prev with
  | none => (false, false, 0)
  | some p =>
    if c = (p + 1) % 0x10000 then (false, false, 0)
    else if c = p then (false, true, 0)
    else (true, false, (c + 0x20000 - p - 1) % 0x10000)

/-- R396: the counter check of a frame of a queue, with its counters: GAP and REPEAT. -/
def State.frameCounter (s : State) (q c : Nat) : Bool × Bool × State :=
  let w := s.writer q
  let (gap, rep, lost) := counterCheck w.counter c
  let s := (s.setWriter q { w with counter := some c }).setFld (aQueue q 0x34) 15 0 c
  let s := if gap then s.countHalf (aQueue q 0x28) true lost else s
  (gap, rep, if rep then s.countHalf (aQueue q 0x2C) true 1 else s)

/-- R396: the frame of a time stamp is too old or too new. -/
def State.ageFlag (s : State) (q ts : Nat) : Bool :=
  let lim := s.fld (aQueue q 0x10) 15 0
  let st := s.fld (aIqm 0x20) 1 0
  let age := (s.now : Int) + sext 64 (s.reg (aIqm 0x18)) - sext 64 ts
  decide (lim ≠ 0) && decide (2 ≤ st) && decide (s.mode ≠ 3) && (decide ((lim : Int) * 1000 < age) || decide (age < -10000))

/-- R395, R396: a frame with an end-to-end header. `p` is the frame's payload; its first byte arrived at `at_`. -/
def State.e2eFrame (s : State) (mac : Nat) (p : List Byte) (at_ : Nat) : State :=
  let f := fun (a n : Nat) => beNat ((p.drop a).take n)
  let len := f 4 2
  let data := (p.drop 24).take len
  let bad := decide (p.length < 24 + len) || decide (f 6 2 ≠ 0) || decide (f 20 4 ≠ 0) ||
    decide (f 16 4 ≠ crc32c (p.take 16 ++ data))
  match s.streamQueue mac (f 0 2) with
  | none => if bad then s.count32 (aIqm (0x1414 + 0x40 * mac)) else s
  | some q =>
    if bad then (s.countHalf (aQueue q 0x28) false 1).e2eEvent q 1
    else
      let (gap, rep, s) := s.frameCounter q (f 2 2)
      let age := s.ageFlag q (f 8 8)
      let s := if age then s.countHalf (aQueue q 0x2C) false 1 else s
      let s := if gap || age || rep then s.e2eEvent q (2 * b2n gap + 4 * b2n age + 8 * b2n rep) else s
      let s := if gap || age then s else s.setWriter q { s.writer q with goodAt := some s.clock }
      if len = 0 then s
      else
        let s := s.setWriter q { s.writer q with item := some ⟨0, [], 0, 0, at_, false, false⟩ }
        (s.itemPut q data).completeItem q (itemWord len (3 + 32 * b2n gap + 64 * b2n age + 128 * b2n rep)) (f 2 2) at_ (f 8 8)

/-- R393, R394, R397: a received frame, from its destination address through its FCS. `lasted` is the time from its first to
its last byte, and `fifo` the free space of the receive FIFO. IEEE 802.1AS messages have commands of their own. -/
def execEthFrame (mac : Fin 4) (frame : List Byte) (overflow : Bool) (fifo : Fin 257) (lasted : Nat) (s : State) :
    Host.Outcome State Fault Refusal :=
  .next <| s.live <|
    let b := 0x1400 + 0x40 * mac.val
    if !bit (s.reg (aIqm b)) 0 || (decide (s.mode = 3) && decide (mac.val ≠ 0)) then s
    else
      let s := s.fifoShow (aIqm (b + 0x18)) fifo
      let n := frame.length
      if overflow then s.countHalf (aIqm (b + 0x10)) true 1
      else if n < 64 then s
      else if leNat (frame.drop (n - 4)) ≠ crc32 (frame.take (n - 4)) then s.count32 (aIqm (b + 0x0C))
      else
        let s := s.count32 (aIqm (b + 0x08))
        if 9216 < n then s.countHalf (aIqm (b + 0x10)) false 1
        else
          let tag := if beNat ((frame.drop 12).take 2) = 0x8100 then 4 else 0
          let etype := beNat ((frame.drop (12 + tag)).take 2)
          let body := (frame.take (n - 4)).drop (14 + tag)
          if etype = 0x8808 then s
          else if etype = 0x88F7 then (if mac.val = 0 then s else s.count32 (aIqm 8))
          else if s.mode = 3 then s
          else if bit (s.reg (aIqm 4)) 16 ∧ etype = s.fld (aIqm 4) 15 0 then s.e2eFrame mac body (s.now - lasted)
          else s.count32 (aIqm 8)

/-- R416: a MAC's block lock or FEC lock changes; FEC_LOCK counts while FEC is on. -/
def execEthPcsLockChange (mac : Fin 4) (lock fec : Bool) (s : State) : Host.Outcome State Fault Refusal :=
  .next <| s.live <|
    let b := 0x1400 + 0x40 * mac.val
    s.setFld (aIqm (b + 4)) 1 0 (b2n lock + 2 * b2n (fec && decide (s.fld (aIqm b) 2 1 ≠ 0)))

/-! ## Takes overwritten (R407) -/

/-- R407: the oldest record of an overwritten take reaches the scheduler core: the command fails where its run goes on. -/
def execQueueOverwrittenRecord (s : State) : Host.Outcome State Fault Refusal :=
  .next <| s.live <|
    match s.iqm.records with
    | [] => s
    | o :: t =>
      if !s.schRunning then s
      else
        let s := { s with iqm := { s.iqm with records := t } }
        match s.cmd o.cmd with
        | some c => if c.phase = .running ∧ c.serial = o.run then s.faultCmd o.cmd 4 0 0x1F o.status false else s
        | none => s

/-! ## Flushes and configuration (R399, R411) -/

/-- R399, R411: a write of a configuration register of a queue, by the security core in SERVICE; it flushes the queue. -/
def execIqmQueueConfigWrite (init : Init) (q : Fin 256) (reg : Fin 5) (value : Word32) (s : State) :
    Host.Outcome State Fault Refusal :=
  .next <| s.live <|
    let a := aQueue q (4 * reg.val)
    if init.toNat ≠ initSec ∨ s.mode ≠ 4 then s
    else match regAt a with
      | some (d, _) => (s.setReg a (d.written (s.reg a) value.toNat)).flushQueue q 0x0D
      | none => s

/-- R415: who may write IQM_CNT_CLR. -/
def iqmClears (init : Nat) : Bool := decide (init = initSec) || isHeath init

/-- R416: IQM_CNT_CLR.PORT. -/
def execIqmCntClrPort (init : Init) (s : State) : Host.Outcome State Fault Refusal :=
  .next <| s.live <|
    if !iqmClears init.toNat then s
    else
      let fifo := fun (s : State) (a : Nat) => s.setFld a 24 16 (s.fld a 8 0)
      let s := (List.range 16).foldl (fun s p =>
        let b := 0x1000 + 0x20 * p
        fifo ([4, 8, 0x0C].foldl (fun s o => s.setReg (aIqm (b + o)) 0) s) (aIqm (b + 0x10))) s
      let s := (List.range 4).foldl (fun s m =>
        let b := 0x1400 + 0x40 * m
        fifo ([8, 0x0C, 0x10, 0x14].foldl (fun s o => s.setReg (aIqm (b + o)) 0) s) (aIqm (b + 0x18))) s
      (s.setReg (aIqm 8) 0).setReg (aIqm 0x0C) 0

/-- R416: IQM_CNT_CLR.QUEUE. -/
def execIqmCntClrQueue (init : Init) (s : State) : Host.Outcome State Fault Refusal :=
  .next <| s.live <|
    if !iqmClears init.toNat then s
    else (List.range 256).foldl (fun s q => [0x1C, 0x20, 0x28, 0x2C].foldl (fun s o => s.setReg (aQueue q o) 0) s) s

/-! ## Replay (R410) -/

/-- R410: the initiator admitted to the aperture of a queue. -/
def State.replaySource (s : State) (q : Nat) : Nat := if bit (s.qcfg q) 9 then initCol else initPcieA

/-- R410: an aperture admits a write. -/
def State.apertureOpen (s : State) (init q off n : Nat) : Bool :=
  decide (s.mode = 3) && bit (s.qcfg q) 0 && decide (init = s.replaySource q) && decide (off % 64 = 0) && decide (n = 64)

/-- R410: a header line: the item that it announces. -/
def State.apertureHeader (s : State) (q : Nat) (w : List Nat) : State :=
  let w0 := word w 0
  let len := bits w0 51 32
  let bad := decide (len = 0) || decide (s.largestItem q < len) || decide (bits w0 31 0 ≠ 0) || decide (bits w0 63 60 ≠ 0) ||
    [4, 5, 6, 7].any fun i => decide (word w i ≠ 0)
  let s := if bad then s.countHalf (aIqm (0x100C + 0x20 * bits (s.qcfg q) 6 3)) false 1 else s
  if len = 0 then s
  else
    let s := if !bad && s.isCamera q && bit w0 56 then s.frameStart q (bits (word w 1) 47 32) else s
    let x := s.writer q
    s.setWriter q { x with
      aperture := some ⟨w, len, bad⟩
      item := if bad then x.item else some ⟨0, [], 0, bits (word w 1) 63 48, word w 2, false, false⟩ }

/-- R410: the last data line of an item: it is complete, with the checks of its kind. -/
def State.apertureDone (s : State) (q : Nat) (w : List Nat) : State :=
  let w0 := word w 0
  let w1 := bits (word w 1) 63 32
  let len := bits w0 51 32
  if s.isCamera q then
    let err := bit w0 58 || bit w0 59
    let s := s.setWriter q { s.writer q with frameErr := (s.writer q).frameErr || err }
    let (stale, s) := if bit w0 57 then s.frameEnds q (!(s.writer q).frameErr) else (false, s)
    let s := if bit w0 59 then s.countHalf (aQueue q 0x28) false 1 else s
    let s := if bit w0 58 then s.countHalf (aQueue q 0x2C) false 1 else s
    s.completeItem q (itemWord len (bits w0 59 56) + b2n stale * 2 ^ 60) w1 (word w 2) (word w 3)
  else
    let (gap, rep, s) := s.frameCounter q (w1 % 2 ^ 16)
    let s := if gap || rep then s.e2eEvent q (2 * b2n gap + 8 * b2n rep) else s
    let s := if gap then s else s.setWriter q { s.writer q with goodAt := some s.clock }
    s.completeItem q (itemWord len (bits w0 59 56) + b2n gap * 2 ^ 61 + b2n rep * 2 ^ 63) w1 (word w 2) (word w 3)

/-- R410: a data line of an item. -/
def State.apertureData (s : State) (q : Nat) (a : ApItem) (line : List Byte) : State :=
  let n := min a.left 64
  let bs := line.take n
  let rest := if a.left ≤ 64 then none else some { a with left := a.left - 64 }
  let w := s.writer q
  let done := bits (word a.hdr 0) 51 32 - a.left
  let lb := s.lineBytes q
  let sign := fun (c k : Nat) =>
    s.signLine q (bits (word a.hdr 1) 63 48 + (done + k) / lb) ((done + k) % lb) [bs.getD k 0] c
  let sig := if a.bad || !s.isCamera q || decide (lb = 0) then w.sig else (List.range n).foldl sign w.sig
  let s := s.setWriter q { w with aperture := rest, sig := sig }
  if a.bad then s
  else
    let s := s.itemPut q bs
    if rest.isNone then s.apertureDone q a.hdr else s

/-- R410: a write to a queue's aperture: a header line, or a data line of the item under way. A refused write has no
effect here. -/
def State.apertureWrite (s : State) (init q off : Nat) (line : List Byte) : State :=
  if !s.apertureOpen init q off line.length then s
  else match (s.writer q).aperture with
    | none => s.apertureHeader q ((List.range 8).map fun i => leNat ((line.drop (8 * i)).take 8))
    | some a => s.apertureData q a line

/-- R410: a write to a queue's aperture. -/
def execApertureWrite (init : Init) (q : Fin 256) (off : BitVec 12) (line : List Byte) (s : State) :
    Host.Outcome State Fault Refusal := .next <| s.live (s.apertureWrite init.toNat q off.toNat line)

end Sys2Proof.Machine
end

