-- ==== Sys2Proof/Machine/Manage.lean ====
section
/-! DEFINITION. The commands of the fabric management channel (R518 to R526): probes and expulsion, routes, admission, rings,
apertures and roles, and the formation of a fabric. -/

namespace Sys2Proof.Machine

/-! ## Suspicion and expulsion (R523 to R525) -/

/-- R524: no HEARTBEAT of the partner for 1,000 µs. -/
def execColHeartbeatMiss (p : Fin 4) (s : State) : Host.Outcome State Fault Refusal :=
  .next <| s.live <|
    let x := s.colPort p
    if s.colState p = colUp ∧ x.heardAt + 1000000 < s.now then
      let s := (s.count32 (aColPort p 0xC)).updCol fun c => { c with sent := [] }
      (s.setColPort p { x with heardAt := s.now }).suspectPeer p 0
    else s

/-- R525: PROBE is answered. -/
def execMgmtProbe (p : Fin 4) (frame : List Byte) (s : State) : Host.Outcome State Fault Refusal :=
  .next <| s.live (s.mgmtTake p frame 1 false fun s f => if s.manages then s.colTo f.src { type := 10, sub := 2 } else s)

/-- R525: a module that answers is kept; the lead leaves the links reported DOWN out of its routes. -/
def execMgmtProbeRsp (p : Fin 4) (frame : List Byte) (s : State) : Host.Outcome State Fault Refusal :=
  .next <| s.live (s.mgmtTake p frame 2 false fun s f =>
    if !s.manages || !s.col.probes.any (fun q => decide (q.1 = f.src)) then s
    else
      let s := s.updCol fun c => { c with
        probes := c.probes.filter fun q => decide (q.1 ≠ f.src)
        votes := c.votes.filter fun v => decide (v.1 ≠ f.src) }
      if s.mgr = 2 then s.publishRoutes [] none else s)

/-- R525: SUSPECT: a manager probes the module named. `cause` 0 no HEARTBEAT, 1 its link is DOWN. -/
def execMgmtSuspect (p : Fin 4) (frame : List Byte) (who : BitVec 12) (_cause : Fin 2) (s : State) :
    Host.Outcome State Fault Refusal :=
  .next <| s.live (s.mgmtTake p frame 3 false fun s _ => s.probe who.toNat)

/-- R520, R525: the managers that answer: this one, and those that no unanswered probe waits for. -/
def State.answering (s : State) : Nat :=
  (s.col.managers.filter fun m => !s.col.probes.any fun q => decide (q.1 = m.1)).length

/-- R523: the lead expels a module: EXPEL, a new key for the remaining members, and routes without it. -/
def State.expel (s : State) (who : Nat) : State :=
  let s := s.colTo who { type := 10, sub := 5 }
  let s := s.updCol fun c => { c with
    members := c.members.filter fun m => decide (m.addr ≠ who)
    votes := c.votes.filter fun v => decide (v.1 ≠ who)
    probes := c.probes.filter fun q => decide (q.1 ≠ who) }
  let (idx, s) := s.newKey
  let s := (s.sendKey idx).publishRoutes [] (some idx)
  -- R526: the shadows of the expelled module get a new target
  let target := (s.col.members.find? fun m => m.role).map (·.addr)
  s.col.shadows.foldl (fun s x =>
    if x.target = who then
      match target with
      | some t =>
        let s := s.updCol fun c => { c with shadows := c.shadows.map fun y => if y = x then { y with target := t, agreed := 0 } else y }
        (s.colTo x.shadow { type := 10, sub := 13, fields := [1, t] }).colTo t { type := 10, sub := 13, fields := [2, x.shadow] }
      | none => s
    else s) s

/-- R523, R525: a vote for an expulsion: two managers' votes expel at the lead. -/
def State.vote (s : State) (who by_ : Nat) : State :=
  if s.mgr ≠ 2 ∨ ¬ s.col.members.any fun m => decide (m.addr = who) then s
  else
    let s := s.updCol fun c => { c with votes := if c.votes.contains (who, by_) then c.votes else c.votes ++ [(who, by_)] }
    if 2 ≤ (s.col.votes.filter fun v => decide (v.1 = who)).length then s.expel who else s

/-- R525: VOTE EXPEL of another manager. -/
def execMgmtVote (p : Fin 4) (frame : List Byte) (who : BitVec 12) (s : State) : Host.Outcome State Fault Refusal :=
  .next <| s.live (s.mgmtTake p frame 4 false fun s f =>
    if s.manages && s.col.managers.any fun m => decide (m.1 = f.src) then s.vote who.toNat f.src else s)

/-- R520, R525: no PROBE_RSP within 250 µs: a module in SERVICE loses its links only; with fewer than two managers answering
nothing can be expelled; else the manager votes. -/
def execProbeTimeout (who : BitVec 12) (s : State) : Host.Outcome State Fault Refusal :=
  .next <| s.live <|
    let a := who.toNat
    match s.col.probes.find? fun q => decide (q.1 = a) with
    | none => s
    | some (_, t) =>
      if !s.manages || decide (s.mgr = 0) || decide (s.now ≤ t + 250000) then s
      else
        let s := s.updCol fun c => { c with sent := [] }
        let n := s.answering
        let s := s.updCol fun c => { c with probes := c.probes.filter fun q => decide (q.1 ≠ a) }
        if readAt (fun _ => 0) s.col.modes a = 4 then (if s.mgr = 2 then s.publishRoutes [] none else s)
        else if n < 2 then s.raise 4 0 0x1F "COL_NO_QUORUM" a 0
        else (s.toManagers { type := 10, sub := 4, fields := [a] }).vote a (s.ownAddr.getD 0)

/-- R523: EXPEL reaches the module that is expelled. -/
def execMgmtExpel (p : Fin 4) (frame : List Byte) (s : State) : Host.Outcome State Fault Refusal :=
  .next <| s.live (s.mgmtTake p frame 5 false fun s _ => s.wasExpelled)

/-- R523: 4 ms of frames that cannot be authenticated. -/
def execAuthFailExpulsion (s : State) : Host.Outcome State Fault Refusal :=
  .next <| s.live <|
    match s.col.authBad with
    | some t => if !s.keyless && s.ownAddr.isSome && decide (t + 4000000 < s.now) then s.wasExpelled else s
    | none => s

/-! ## Routes (R522) -/

/-- R522: a part of a routing table enters the shadow bank; a new epoch begins the bank anew. -/
def execMgmtRoute (p : Fin 4) (frame : List Byte) (epoch : Word32) (first : BitVec 12) (entries : List (BitVec 16))
    (managers : List (BitVec 12 × Word)) (s : State) : Host.Outcome State Fault Refusal :=
  .next <| s.live (s.mgmtTake p frame 6 false fun s _ => s.updCol fun c =>
    let old := if c.bankEpoch = epoch.toNat then c.bank else []
    let bank := (List.range entries.length).foldl (fun b i =>
      if first.toNat + i < 4096 then writeAt (fun _ => 7) b (first.toNat + i) ((entries.getD i 7).toNat % 64) else b) old
    { c with bank := bank, bankEpoch := epoch.toNat, bankManagers := managers.map fun m => (m.1.toNat, m.2.toNat) })

/-- R518, R522, R523: the shadow bank of the epoch becomes current in one cycle, with the key that is named. -/
def execMgmtRouteCommit (p : Fin 4) (frame : List Byte) (epoch : Word32) (key : Fin 4) (s : State) :
    Host.Outcome State Fault Refusal :=
  .next <| s.live (s.mgmtTake p frame 7 false fun s _ =>
    if s.col.bankEpoch ≠ epoch.toNat then s
    else
      let b := s.col.bank
      s.routeCommit epoch.toNat (fun a => readAt (fun _ => 7) b a) s.col.bankManagers
        (if (s.colKey key).isSome then some key.val else s.col.cur))

/-! ## Admission (R521, R526) -/

/-- R521: the address that the lead gives to a joiner. -/
def State.joinAddr (s : State) (pref : Option (BitVec 12)) : Nat :=
  let used := fun (a : Nat) => s.col.members.any fun m => decide (m.addr = a)
  match pref with
  | some a => if used a.toNat then ((List.range 4096).find? fun a => !used a).getD 0 else a.toNat
  | none => ((List.range 4096).find? fun a => !used a).getD 0

/-- R521: a frame of the lead to a joiner: on the port that its request came from, or to the neighbour that forwarded it. -/
def State.toJoiner (s : State) (p : Nat) (via : Option Nat) (o : ColOut) : State :=
  match via with
  | some a => s.colTo a o
  | none => s.colSend p 0 { o with plain := true }

/-- R526: a joiner takes a role at once where no admitted module holds one, else it becomes a shadow; the managers assign
nothing to a module in SERVICE. -/
def State.giveRole (s : State) (a : Nat) : State :=
  if readAt (fun _ => 0) s.col.modes a = 4 then s
  else match s.col.members.find? fun m => m.role with
  | none =>
    (s.updCol fun c => { c with members := c.members.map fun m => if m.addr = a then { m with role := true } else m }).colTo a
      { type := 10, sub := 13, fields := [0] }
  | some t =>
    let s := s.updCol fun c => { c with shadows := c.shadows ++ [⟨a, t.addr, 0, 0⟩] }
    (s.colTo a { type := 10, sub := 13, fields := [1, t.addr] }).colTo t.addr { type := 10, sub := 13, fields := [2, a] }

/-- R521: the lead's answer to a joiner: refused, or an address, the key for the members and the joiner, and new routes. -/
def State.admitJoiner (s : State) (p : Nat) (via : Option Nat) (r : AdmitReq) : State :=
  let own := (List.range 4).map fun i => leNat (s.measBytes (i + 1))
  if !r.attested || decide (r.fabric.toNat ≠ s.reg (aCol 8)) || decide (r.meas.map (·.toNat) ≠ own) then
    s.toJoiner p via { type := 10, sub := 9, status := 4, fields := [r.uid.toNat] }
  else
    let a := s.joinAddr r.pref
    let (idx, s) := s.newKey
    let s := s.sendKey idx
    let s := (s.toJoiner p via { type := 10, sub := 9, fields := [r.uid.toNat, a] }).toJoiner p via { type := 11, fields := [idx] }
    let s := s.updCol fun c => { c with members := c.members ++ [⟨a, r.uid.toNat, r.eligible, false⟩] }
    ((s.publishRoutes [] (some idx)).raise 4 0 0x1F "COL_ADMITTED" a 0).giveRole a

/-- R521: ADMIT_REQ: the lead decides; another module that holds an address forwards it to the lead. -/
def execMgmtAdmitReq (p : Fin 4) (frame : List Byte) (req : AdmitReq) (s : State) : Host.Outcome State Fault Refusal :=
  .next <| s.live (s.mgmtTake p frame 8 true fun s f =>
    if !s.manages || s.ownAddr.isNone then s
    else if s.mgr = 2 then s.admitJoiner p (if f.enc then some f.src else none) req
    else match s.leadAddr with
      | some l => (s.updCol fun c => { c with relay := c.relay ++ [(req.uid.toNat, p.val)] }).colTo l
          { type := 10, sub := 8, fields := [req.uid.toNat, req.fabric.toNat] }
      | none => s)

/-- R521: ADMIT: the joiner's admission or refusal; a neighbour relays it to the joiner, and then, of an admission, the key. -/
def execMgmtAdmit (p : Fin 4) (frame : List Byte) (uid : Word) (address : BitVec 12) (s : State) :
    Host.Outcome State Fault Refusal :=
  .next <| s.live (s.mgmtTake p frame 9 true fun s f =>
    if uid.toNat ≠ s.uid then
      match s.col.relay.find? fun e => decide (e.1 = uid.toNat) with
      | some e => (if f.status = 0 then s else s.updCol fun c => { c with relay := c.relay.erase e }).colSend e.2 0
          { type := 10, sub := 9, status := f.status, plain := true, fields := [uid.toNat, address.toNat] }
      | none => s
    else if s.ownAddr.isSome ∨ s.colMember = 0 then s
    else if f.status ≠ 0 then s.updCol fun c => { c with retryAt := some (s.now + 10000000000) }
    else
      let s := (s.setFld (aCol 0) 11 0 address.toNat).setFld (aCol 0) 12 12 1
      let s := if s.colMember = 5 then s else s.setColMember 2
      (s.updCol fun c => { c with expelled := false, retryAt := none }).raise 4 0 0x1F "COL_ADMITTED" address.toNat 0)

/-- R521: a refused joiner asks again after 10 s, on an UP port. -/
def execAdmitRetry (s : State) : Host.Outcome State Fault Refusal :=
  .next <| s.live <|
    match s.col.retryAt, (List.range 4).find? fun p => decide (s.colState p = colUp) with
    | some t, some p =>
      if s.now < t ∨ s.ownAddr.isSome then s else (s.updCol fun c => { c with retryAt := none, sent := [] }).askAdmit p
    | _, _ => s

/-- R526: the role granted, or the shadow target. A module in SHADOW_FAILED holds no role until module reset. -/
def execMgmtRole (p : Fin 4) (frame : List Byte) (grant : RoleGrant) (s : State) : Host.Outcome State Fault Refusal :=
  .next <| s.live (s.mgmtTake p frame 13 false fun s _ =>
    if !s.manages || decide (s.colMember = 5) || s.ownAddr.isNone then s
    else match grant with
      | .role =>
        let was := s.colMember
        let s := s.setColMember 4
        if was = 3 then s.raise 4 0 0x1F "COL_ROLE" (s.ownAddr.getD 0) 0 else s
      | .shadow t => ((s.setColMember 3).setFld (aCol 0x34) 11 0 t.toNat).setFld (aCol 0x34) 19 12 0
      | .watched a => s.updCol fun c => { c with watchers := (c.watchers.erase a.toNat) ++ [a.toNat] }
      | .unwatched a => s.updCol fun c => { c with watchers := c.watchers.erase a.toNat })

/-! ## Formation (R520) -/

/-- R520: RESIGN: a manager steps down; the lead, or the manager that is now lowest, publishes routes that leave it out. -/
def execMgmtResign (p : Fin 4) (frame : List Byte) (s : State) : Host.Outcome State Fault Refusal :=
  .next <| s.live (s.mgmtTake p frame 15 false fun s f =>
    if !s.manages || decide (s.mgr = 0) || !s.col.managers.any fun m => decide (m.1 = f.src) then s
    else
      let s := (s.updCol fun c => { c with managers := c.managers.filter fun m => decide (m.1 ≠ f.src) }).mgrFollows
      if s.mgr = 2 then s.publishRoutes [f.src] none else s)

/-- R520: a CANDIDATE frame: its UID is heard, and the frame is passed on once. -/
def execMgmtCandidate (p : Fin 4) (frame : List Byte) (uid : Word) (s : State) : Host.Outcome State Fault Refusal :=
  .next <| s.live (s.mgmtTake p frame 16 true fun s _ =>
    if s.col.heardUids.contains uid.toNat then s
    else
      let s := s.updCol fun c => { c with heardUids := c.heardUids ++ [uid.toNat] }
      ((List.range 4).filter fun q => decide (q ≠ p.val) && decide (s.colState q = colUp)).foldl (fun s q =>
        s.colSend q 0 { type := 10, sub := 16, fields := [uid.toNat] }) s)

/-- R520: a MANAGER-ELIGIBLE module whose ports have been UP for 20 ms without a HELLO that names a lead sends CANDIDATE. -/
def execCandidateWait (s : State) : Host.Outcome State Fault Refusal :=
  .next <| s.live <|
    let ups := (List.range 4).filter fun p => decide (s.colState p = colUp)
    if !s.manages || decide (s.fabricRole ≠ 2) || decide (s.mode = 4) || s.ownAddr.isSome || s.col.leadKnown.isSome ||
        s.col.candidateAt.isSome || ups.isEmpty || !ups.all (fun p => decide ((s.colPort p).upAt + 20000000 ≤ s.now)) then s
    else
      (s.updCol fun c => { c with
        candidateAt := some s.now
        heardUids := (c.heardUids.erase s.uid) ++ [s.uid]
        sent := [] }).colAll { type := 10, sub := 16, fields := [s.uid] }

/-- R520: 20 ms after candidacy the lowest UID heard becomes the lead: it makes the first key. -/
def execFormationElect (s : State) : Host.Outcome State Fault Refusal :=
  .next <| s.live <|
    match s.col.candidateAt with
    | none => s
    | some t =>
      if !s.manages || decide (s.now < t + 20000000) || s.ownAddr.isSome then s
      else if s.col.leadKnown.isSome ∨ ¬ s.col.heardUids.all (fun u => decide (s.uid ≤ u)) then
        s.updCol fun c => { c with candidateAt := none }
      else
        let pref := s.reg (aCol 0x18)
        let a := if bit pref 12 then bits pref 11 0 else 0
        let s := (s.setFld (aCol 0) 11 0 a).setFld (aCol 0) 12 12 1
        let s := (if s.colMember = 5 then s else s.setColMember 2).updCol fun c => { c with
          candidateAt := none, leadKnown := some s.uid, members := [⟨a, s.uid, true, false⟩], sent := [] }
        let (idx, s) := s.newKey
        s.publishRoutes [] (some idx)

/-! ## Rings and apertures (R519) -/

/-- R519: the entries of ring set 1 between head and tail of a ring. -/
def State.ringEntries (s : State) (ring head tail : Nat) : List Byte :=
  let log := s.ringLog 1 ring
  let h := s.reg (aRing 1 head)
  let n := (s.reg (aRing 1 tail) + 2 ^ log - h) % 2 ^ log
  (List.range n).flatMap fun i => s.bytes (bits (s.reg (aRing 1 (8 * ring))) 47 0 + 64 * ((h + i) % 2 ^ log)) 64

/-- R519, R526: the channel sends the completion and event entries of ring set 1 to the lead (a shadow's go in COMPARE) and
advances their heads. -/
def State.ringDeliver (s : State) : State :=
  match s.leadAddr with
  | none => s
  | some l =>
    if !s.manages || !s.ringEn 1 then s
    else
      let sub := if s.colMember = 3 then 14 else 11
      let go := fun (s : State) (ring head tail : Nat) =>
        let bs := s.ringEntries ring head tail
        if bs.isEmpty then s
        else (s.colTo l { type := 10, sub := sub, data := bs }).setReg (aRing 1 head) (s.reg (aRing 1 tail))
      go (go (s.updCol fun c => { c with sent := [] }) 1 0x2C 0x28) 2 0x34 0x30

/-- R519: RING: submission entries are written at ADDR, and the doorbell of ring set 1 is rung. -/
def State.ringReceive (s : State) (f : ColFrame) : State :=
  let s := s.toWatchers f []
  let st := s.access ⟨initCol, none, false, true⟩ true f.addr f.data.length
  if st = 4 then s.storeRefused (fun a n => decide (s.access ⟨initCol, none, false, true⟩ true a n = 0)) f.addr f.data
  else if st ≠ 0 ∨ f.data.length = 0 then s
  else
    let s := s.store f.addr f.data
    let base := bits (s.reg (aRing 1 0)) 47 0
    let size := 64 * 2 ^ s.ringLog 1 0
    if f.addr < base ∨ base + size < f.addr + f.data.length then s
    else s.ringIndex 1 0 0x20 ((f.addr + f.data.length - base) % size / 64)

/-- R519, R526: RING, in either direction. Submission entries come from the lead, or, for a shadow, from its target. -/
def execMgmtRing (m : RingMsg) (s : State) : Host.Outcome State Fault Refusal :=
  .next <| s.live <|
    match m with
    | .send => s.ringDeliver
    | .receive p frame => s.mgmtTake p frame 11 false fun s f =>
      if s.manages && decide (s.mgr ≠ 2) &&
        (decide (s.leadAddr = some f.src) || (decide (s.colMember = 3) && decide (s.fld (aCol 0x34) 11 0 = f.src))) then
        s.ringReceive f
      else s

/-- R410, R519: APERTURE: replay lines are written into the aperture at ADDR. -/
def execMgmtAperture (p : Fin 4) (frame : List Byte) (s : State) : Host.Outcome State Fault Refusal :=
  .next <| s.live (s.mgmtTake p frame 12 false fun s f =>
    let s := s.toWatchers f []
    (List.range (f.data.length / 64)).foldl (fun s i =>
      let a := f.addr + 64 * i
      match placeOf a with
      | some (.aperture q, b, _) => s.apertureWrite initCol q (a - b) ((f.data.drop (64 * i)).take 64)
      | _ => s) s)

end Sys2Proof.Machine
end

