-- ==== Sys2Proof/Machine/Modes.lean ====
section
/-! DEFINITION. Operating modes and settings (R33 to R45): a mode request, its decision, the change, and the effective
settings. -/

namespace Sys2Proof.Machine

/-- R37, R39: EFF_HOST: port A's link is up and the host is ATTACHED. Where it falls in a REPLAY that has no other source, the
host is missing. -/
def State.effHost (s : State) : State :=
  let v := s.reg (aVal 0x18)
  let on := bit v 7 && bit v 3 && decide (s.fld (aVal 0x200) 0 0 ≠ 0)
  let fell := bit (s.reg (aVal 0x10)) 12 && !on && decide (s.mode = 3) && decide (bits v 2 1 = 0) && bit v 3
  let s : State := if on && !bit (s.reg (aVal 0x10)) 12 then { s with debugPort := { s.debugPort with hostAt := some s.now } } else s
  let s := s.setModeFld 12 12 (b2n on)
  if fell then s.raise 4 0 0x1F "HOST_MISSING" 0 0 else s

/-- R562, R563: a reset of port A's function: its configuration, its BARs and its MSI-X state. -/
def State.pciaReset (s : State) : State :=
  let s := s.setFld (aVal 0x200) 11 9 0
  { s with
    host := { hostPortsFresh with sgmii := s.host.sgmii, missed := s.host.missed, msixDue := s.host.msixDue }
    boot := { s.boot with doe := [] } }

/-- R37, R562, R572: port A's link goes down, which resets the function. -/
def State.pciaDown (s : State) : State :=
  if s.fld (aVal 0x200) 0 0 = 0 then s
  else ((s.setFld (aVal 0x200) 7 0 0).pciaReset.effHost).raise 4 0 0x1F "PCIE_LINK" 0 0

/-- R33, R37: EFF_SAFETY of a mode: none in BOOT, WHOLE in PARK, else as the configuration block says. -/
def State.effSafety (s : State) (mode : Nat) : Nat :=
  if mode = 0 then 0 else if mode = 2 then 2 else if bit (s.reg (aVal 0x18)) 0 then 2 else 1

/-- R41, R410: a mode takes effect. The queues are flushed as REPLAY is entered or left. -/
def State.setMode (s : State) (m : Nat) : State :=
  let old := s.mode
  let s := ((s.setModeFld 2 0 m).setModeFld 3 3 0).setModeFld 6 4 m
  let s := s.setModeFld 9 8 (s.effSafety m)
  let s := if (old = 3 ∨ m = 3) ∧ old ≠ m then
      ((List.range 256).filter fun q => bit (s.reg (aQueue q 0)) 0).foldl (fun s q => s.flushQueue q 0x0D) s else s
  s.raise 4 0 0x1F "MODE_CHANGED" 0 0

/-- R44, R442: the initiators that the Vale firewall admits to VAL_MODE_REQ: port A, the management channel, the scheduler and
security cores and the Heaths. -/
def modeWriter (init : Nat) : Bool := [initPcieA, initCol, initSch, initSec, initHeath 0, initHeath 1].contains init

/-- R41, R42: a request is refused. -/
def State.modeRefused (s : State) (code arg0 arg1 : Nat) : State :=
  (s.setModeFld 23 16 code).raise 4 0 0x1F "MODE_REFUSED" arg0 arg1

/-- R41, R44: a write of VAL_MODE_REQ. While GO or PENDING is 1 it is refused; else TARGET is written, and GO = 1 latches the
request. -/
def State.modeRequest (s : State) (init value : Nat) : State :=
  if !modeWriter init then s
  else if bit (s.reg (aVal 0x14)) 31 || bit (s.reg (aVal 0x10)) 3 then s.modeRefused 2 0 0
  else
    let s := s.setFld (aVal 0x14) 2 0 value
    if bit value 31 then
      { s.setFld (aVal 0x14) 31 31 1 with sched := { s.sched with modeInit := init } }
    else s

/-- R41: a write of VAL_MODE_REQ. -/
def execModeRequest (init : Init) (value : Word32) (s : State) : Host.Outcome State Fault Refusal :=
  .next <| s.live (s.modeRequest init.toNat value.toNat)

/-- R40: the initiators that may request a transition; none where the table has no such transition. -/
def modeAsker (m t : Nat) : Option (List Nat) :=
  match m, t with
  | 2, 1 => some [initPcieA, initCol, initSch]
  | 1, 2 => some [initPcieA, initCol, initSch, initHeath 0, initHeath 1]
  | 2, 3 => some [initPcieA, initCol, initSch]
  | 3, 2 => some [initPcieA, initCol, initSch]
  | 2, 4 => some [initPcieA, initCol, initSec]
  | 3, 4 => some [initPcieA, initCol, initSec]
  | _, _ => none

/-- R40, R43: a Heath is present and in service: it answers on its Vale link and its ROLE is not OFF. -/
def State.heathServes (s : State) (h : Nat) : Bool :=
  bit (s.reg (aVal 0x20)) (5 + h) && s.valeLinked h && (s.heath h).up && decide (s.role h ≠ 0)

/-- R42, R43: the reasons to refuse the latched request that hold, each with the arguments of its event in bits 15 to 8 and
23 to 16: a veto by Heath h for the first of its conditions. -/
def State.modeReasons (s : State) : List Nat :=
  let t := s.fld (aVal 0x14) 2 0
  let m := s.mode
  if t = 0 ∨ 4 < t then [6]
  else match modeAsker m t with
    | none => [1]
    | some l =>
      failIf (!l.contains s.sched.modeInit) 8 ++
      (if m = 1 ∧ t = 2 then
        let on := (List.range 2).filter s.heathServes
        failIf (on.isEmpty || !on.all s.standstill) 3
      else if t = 3 then failIf (decide (s.fld (aVal 0x18) 2 1 = 0) && !bit (s.reg (aVal 0x18)) 3) 4
      else if t = 1 then
        failIf (!(s.heathServes 0 && s.heathServes 1)) 5 ++
        (List.range 2).filterMap (fun h => if s.heathServes h then (s.veto h).map fun c => 7 + h * 2 ^ 8 + c * 2 ^ 16 else none)
      else [])

/-- R41, R45, R520: a request for mode `t` is accepted: the change is pending; a Heath's request preempts the current job at once,
and a manager on its way to SERVICE resigns. -/
def State.modeAccept (s : State) (t : Nat) : State :=
  let s : State := ((s.setModeFld 23 16 0).setModeFld 3 3 1).setModeFld 6 4 t
  let s : State := { s with sched := { s.sched with modeAccepted := s.now } }
  let s : State :=
    if t = 4 ∧ s.mgr ≠ 0 then (s.updCol fun c => { c with sent := [] }).toManagers { type := 10, sub := 15 } else s
  if isHeath s.sched.modeInit && s.curJob.any fun j => decide (j.phase = .running) then s.preempt else s

/-- R41, R45, R520: the scheduler core accepts or refuses the latched request. A Heath's request to leave DRIVE preempts the
current job at once; a manager whose change to SERVICE is accepted resigns. -/
def execModeRequestDecide (s : State) : Host.Outcome State Fault Refusal :=
  .next <| s.live <|
    if !s.schRunning || !bit (s.reg (aVal 0x14)) 31 then s
    else
      let v := oneOf s.modeReasons
      let s := s.setFld (aVal 0x14) 31 31 0
      if v ≠ 0 then s.modeRefused (bits v 7 0) (bits v 15 8) (bits v 23 16) else s.modeAccept (s.fld (aVal 0x14) 2 0)

/-- R38, R520: a change to SERVICE waits until the routes leave this manager out, where another manager can publish them. -/
def State.handsOver (s : State) : Bool :=
  decide (s.fld (aVal 0x10) 6 4 = 4) && decide (s.mgr ≠ 0) && !s.otherManagers.isEmpty

/-- R41: at a job boundary the new mode takes effect. -/
def execModeChangeApply (s : State) : Host.Outcome State Fault Refusal :=
  .next <| s.live <|
    if !s.schRunning || !bit (s.reg (aVal 0x10)) 3 || s.curJob.isSome || s.handsOver then s
    else s.setMode (s.fld (aVal 0x10) 6 4)

/-- R41: 50 ms after acceptance the current job is preempted. -/
def execModeChangePreempt (s : State) : Host.Outcome State Fault Refusal :=
  .next <| s.live <|
    if !s.schRunning || !bit (s.reg (aVal 0x10)) 3 || decide (s.now < s.sched.modeAccepted + 50000000) then s
    else if s.curJob.any fun j => decide (j.phase = .running) then s.preempt else s

/-- R39: port A has not trained 1 s after LOADED with the host ATTACHED. -/
def execHostMissingTimeout (s : State) : Host.Outcome State Fault Refusal :=
  .next <| s.live <|
    let v := s.reg (aVal 0x18)
    if bit v 7 && bit v 3 && decide (s.fld (aVal 0x200) 0 0 = 0) && decide (s.boot.loadedAt + 1000000000 < s.now) && !s.host.missed then
      let s := { s with host := { s.host with missed := true } }
      s.effHost.raise 4 0 0x1F "HOST_MISSING" 0 0
    else s

end Sys2Proof.Machine
end

