-- ==== Sys2Proof/Machine/ConfigBlock.lean ====
section
/-! DEFINITION. The configuration block (R490, R491): its records, the registers they may reach, and the cross-checks of the
other chapters. -/

namespace Sys2Proof.Machine

/-! ## Records (R490) -/

/-- A record of the block: its index, TYPE and payload words; whether its header is well-formed and it lies in the block. -/
structure CfgRecord where
  idx : Nat
  type : Nat
  words : List Nat
  ok : Bool

/-- R490: the records from index `i` on; one that runs past the block ends the list. -/
def cfgRecords : Nat → Nat → List Byte → List CfgRecord
  | 0, _, _ => []
  | n + 1, i, l =>
    let h := leNat (l.take 8)
    let len := bits h 31 16
    if l.length < 8 ∨ l.length < 8 + len then [⟨i, 0, [], false⟩]
    else
      let p := (l.drop 8).take len
      let ws := (List.range (len / 8)).map fun k => leNat ((p.drop (8 * k)).take 8)
      ⟨i, bits h 15 0, ws, decide (len % 8 = 0) && decide (bits h 63 32 = 0)⟩ :: cfgRecords n (i + 1) (l.drop (8 + len))

/-- R490: the header of the block is good. -/
def cfgHeaderOk (l : List Byte) : Bool :=
  decide (64 ≤ l.length) && decide (leNat (l.take 4) = 0x47464E43) && decide (leNat ((l.drop 6).take 2) = 0) &&
    ((l.drop 8).take 56).all fun b => decide (b = 0)

/-! ## Registers that the block loads (R490) -/

/-- R193, R204, R214, R249, R344, R386, R399, R476, R533, R551, R570: the bits that REGWRITE may set in the register at `a`;
none where its chapter does not name it as loaded from the block. -/
def cfgMask (a : Nat) : Option Nat :=
  let addr48 := 2 ^ 48 - 1
  let one := fun (x m : Nat) => if a = x then some m else none
  let fixed := [ (aVal 0x104, 0x20), (aVal 0x210, 2 ^ 64 - 1), (aVal 0x218, 2 ^ 64 - 1), (aSch 0x10, addr48), (aSch 0x18, addr48),
    (aSch 0x20, 1), (aSch 0x28, addr48), (aRing 2 0, addr48), (aRing 2 8, addr48), (aRing 2 0x10, addr48), (aRing 2 0x18, 0x1FFF),
    (aSch 0x800, addr48), (aSch 0x808, 0x7FFFFF), (aSch 0x818, 0x7FFFFF), (aSch 0x820, addr48), (aSch 0x828, addr48),
    (aSch 0x830, addr48), (aSch 0x838, addr48), (aSch 0x840, 0x1FFFFF), (aFlr 4 0x18, 0xFFFFFFFF), (aPwr 0x10, 0xFFFFFFFF),
    (aCol 8, 2 ^ 64 - 1), (aCol 0x18, 0x1FFF), (aCol 0x20, addr48), (aCol 0x28, 0x7FFFFFFFF) ]
  let dies := (List.range 4).flatMap fun d =>
    [(aDmc d 0x18, 0xFFFF), (aDmc d 0x1C, 0xFFFF)] ++ (List.range 4).map fun i => (aDmc d (0x80 + 8 * i), 2 ^ 64 - 1)
  let c7 := (List.range 5).map fun d => (aFlr d 8, 0x1FFF1FFF1FFF1FFF)
  let budgets := (List.range 5).flatMap fun d => (List.range 5).flatMap fun q =>
    if pointExists d q then (List.range 8).map fun c => (aPoint d q (4 * c), 0xFFFFF) else []
  match (fixed ++ dies ++ c7 ++ budgets).findSome? fun e => one e.1 e.2 with
  | some m => some m
  | none =>
    if aQueue 0 0 ≤ a ∧ a < aQueue 256 0 ∧ (a - aQueue 0 0) % 0x40 ≤ 0x10 then
      match regAt a with
      | some (d, b) => if b = a then some d.rw else none
      | none => none
    else none

/-- R345, R490: REGWRITE of one register; a DMC_RH_THRESH below 256 is discarded, and RING_CTL of ring set 2 enables the set. -/
def State.cfgWrite (s : State) (a v : Nat) : State :=
  match cfgMask a with
  | none => s
  | some m =>
    let w := (s.reg a - (s.reg a &&& m)) + (v &&& m)
    if (List.range 4).any (fun d => decide (a = aDmc d 0x18)) && decide (bits w 15 0 < 256) then s
    else if a = aRing 2 0x18 then (if bit v 0 then s.ringEnable 2 (v &&& m) else s.setReg a w) else s.setReg a w

/-! ## Firewall tables and domains (R443, R490) -/

/-- R443: the rule that four words spell. -/
def cfgRule (w : List Nat) : FwRule :=
  ⟨bits (word w 0) 47 0, bits (word w 1) 47 0, bits (word w 2) 11 0, bits (word w 2) 23 12, bits (word w 2) 35 24, bit (word w 2) 36,
    bit (word w 2) 37, bit (word w 2) 38⟩

/-- R443: the words of a rule are well-formed. -/
def cfgRuleOk (w : List Nat) : Bool :=
  decide (word w 0 % 64 = 0) && decide (word w 0 < 2 ^ 48) && decide ((word w 1 + 1) % 64 = 0) && decide (word w 1 < 2 ^ 48) &&
    decide (word w 2 < 2 ^ 39) && decide (word w 3 = 0)

/-- R490: the firewall table that a word names: a DMC block base, or a LEA block base for its pool. -/
def cfgTable (a : Nat) : Option Nat :=
  match (List.range 4).find? fun d => decide (aDmc d 0 = a) with
  | some d => some (fwDram d)
  | none => ((List.range 64).find? fun i => decide (aLea (i / 16) (i % 16) 0 = a)).map fun i => fwPool (i / 16) (i % 16)

/-- The rules of a FIREWALL record. -/
def cfgRuleWords (ws : List Nat) : List (List Nat) :=
  (List.range ((ws.length - 1) / 4)).map fun i => (ws.drop (1 + 4 * i)).take 4

/-- R490: the domains of a DOMAINS record. -/
def cfgDomains (ws : List Nat) : List Nat :=
  (ws.flatMap fun w => (List.range 4).map fun i => bits w (16 * i + 15) (16 * i)).filterMap fun v =>
    if bit v 15 then some (bits v 11 0) else none

/-! ## Applying a record (R491) -/

/-- R491: the record is to be skipped: its TYPE is reserved, it runs past the block, it writes outside the allowed registers,
or it breaks the layout of its TYPE. -/
def cfgBad (r : CfgRecord) : Bool :=
  let ws := r.words
  !r.ok || (match r.type with
    | 1 => decide (ws.length ≠ 1) || decide (128 ≤ word ws 0)
    | 2 => decide (ws.length % 2 ≠ 0) || (List.range (ws.length / 2)).any fun i =>
        (cfgMask (word ws (2 * i))).isNone
    | 3 => decide (ws.length % 4 ≠ 1) || decide (257 < ws.length) || (cfgTable (word ws 0)).isNone || !(cfgRuleWords ws).all cfgRuleOk
    | 4 => decide (64 < (cfgDomains ws).length) || ws.any fun w => (List.range 4).any fun i => decide (bits w (16 * i + 14) (16 * i + 12) ≠ 0)
    | _ => true)

/-- R491: EVT_CONFIG_INVALID. -/
def State.cfgInvalid (s : State) (idx : Nat) : State := s.raise 4 0 0x1F "CONFIG_INVALID" idx 0

/-- R490, R491: a record applied; whether the block is still good. -/
def State.cfgApply (s : State) (r : CfgRecord) : State × Bool :=
  if cfgBad r then (s.cfgInvalid r.idx, false)
  else
    let ws := r.words
    match r.type with
    | 1 => (s.setFld (aVal 0x18) 6 0 (word ws 0), true)
    | 2 => ((List.range (ws.length / 2)).foldl (fun s i => s.cfgWrite (word ws (2 * i)) (word ws (2 * i + 1))) s, true)
    | 3 =>
      match cfgTable (word ws 0) with
      | some k => ({ s with fwRules := writeAt (fun _ => []) s.fwRules k ((cfgRuleWords ws).map cfgRule) }, true)
      | none => (s, true)
    | _ => ({ s with domains := (cfgDomains ws).map fun d => (d, 0xF) }, true)

/-! ## Cross-checks (R491) -/

/-- R193: the copies of the descriptor table lie in local regions behind different Meadows, on multiples of 1 MiB. -/
def State.ctxTablesOk (s : State) : Bool :=
  let p := s.reg (aSch 0x10)
  let m := s.reg (aSch 0x18)
  let ok := fun (a : Nat) => decide (a % 0x100000 = 0) && decide (a < 0x001000000000) && decide (s.regionCode (a / 0x40000000) < 4)
  ok p && ok m && decide (s.regionCode (p / 0x40000000) ≠ s.regionCode (m / 0x40000000))

/-- R249: the rules of the page store. -/
def State.kvStoreOk (s : State) : Bool :=
  let f := s.reg (aSch 0x808)
  let n := s.reg (aSch 0x840)
  let part := fun (o len : Nat) => decide (s.reg (aSch o) % 0x100000 = 0) && decide (s.reg (aSch o) + len ≤ 0x001000000000)
  decide (1024 ≤ f) && decide (f ≤ 4194304) && decide (n ≤ 1048576) && part 0x800 (f * 0x4000) && part 0x820 (2 * f) &&
    part 0x828 (4 * f) && part 0x830 0x1000000 && part 0x838 (64 * n)

/-- R320: no table holds a reserved region code, and in each every stack holds the same number of local regions. -/
def State.regionsOk (s : State) : Bool :=
  (List.range 4).all fun t =>
    let codes := (List.range 64).map fun r => s.fld (aDmc t (0x80 + 8 * (r / 16))) (4 * (r % 16) + 3) (4 * (r % 16))
    codes.all (fun c => decide (c < 4) || decide (c = 8)) &&
      (List.range 4).all fun d => decide ((codes.filter fun c => decide (c = d)).length = (codes.filter fun c => decide (c = 0)).length)

/-- R379: the budgets of the points that have a capacity. -/
def State.budgetsOk (s : State) : Bool :=
  (List.range 5).all fun d => ((List.range 5).filter (pointExists d)).all fun q =>
    let cap := if d < 4 ∧ q = 0 then 104000 else s.fdlCap d (q - 1)
    let b := fun (c : Nat) => s.fld (aPoint d q (4 * c)) 19 0
    decide (cap = 0) || (decide (b 7 ≤ (if d < 4 ∧ q = 0 then 8192 else cap / 16)) &&
      decide (((List.range 8).map b).sum ≤ cap))

/-- R386: FLR_C7_DOM is the same on the Vale and every Meadow. -/
def State.classDomOk (s : State) : Bool := (List.range 4).all fun d => decide (s.reg (aFlr d 8) = s.reg (aFlr 4 8))

/-- R399: the largest item of a queue. -/
def State.queueLargest (s : State) (q : Nat) : Nat :=
  if s.fld (aQueue q 0) 2 1 = 0 then
    let n := s.fld (aQueue q 0xC) 27 20
    (if n = 0 then 256 else n) * s.fld (aQueue q 0xC) 19 0
  else 9192

/-- R399: the source of a queue: its port and virtual channel, or its MAC and STREAM. -/
def State.queueSource (s : State) (q : Nat) : Nat × Nat × Nat :=
  let c := s.reg (aQueue q 0)
  if bits c 2 1 = 0 then (0, bits c 6 3, bits c 8 7) else (bits c 2 1, bits c 6 3, bits c 31 16)

/-- R399: the enabled queues that break a rule; `used` is the reserve of those before. -/
def State.badQueues (s : State) : List Nat → Nat → List Nat
  | [], _ => []
  | q :: t, used =>
    let r := 16 * s.fld (aQueue q 4) 11 0
    let quota := 16 * s.fld (aQueue q 4) 27 16
    let big := s.queueLargest q
    let shared := (List.range 256).any fun p =>
      decide (p ≠ q) && bit (s.reg (aQueue p 0)) 0 && decide (s.queueSource p = s.queueSource q)
    let bad := decide (196608 < used + r) || decide (quota < r) || decide (quota < 2 * ((big + 255) / 256)) ||
      decide (516096 < big) || shared || decide (0xFF0 ≤ s.fld (aQueue q 8) 11 0)
    if bad then q :: s.badQueues t used else s.badQueues t (used + r)

/-- R442: the INITs of a Meadow. -/
def meadowInits (d : Nat) : List Nat := ((List.range 48) ++ [0x30, 0x31, 0x32]).map fun u => d * 256 + u

/-- R444: a rule with W = 1 matches an INIT of one of the Meadows. -/
def FwRule.writes (r : FwRule) (ds : List Nat) : Bool :=
  r.w && (ds.flatMap meadowInits).any fun i => decide (i &&& r.initMask = r.initVal &&& r.initMask)

/-- R444: under SPLIT no rule lets both channels write. -/
def State.splitOk (s : State) : Bool :=
  bit (s.reg (aVal 0x18)) 0 || s.fwRules.all fun t => t.2.all fun r => !(r.writes [0, 1] && r.writes [2, 3])

/-- R540: PWR_LIMIT holds no value above its limit, and SHORT is not below CONT. -/
def State.limitsOk (s : State) : Bool :=
  let c := s.fld (aPwr 0x10) 15 0
  let h := s.fld (aPwr 0x10) 31 16
  decide (c ≤ 3600) && decide (h ≤ 4400) && decide (c ≤ h)

/-- R570: the window of port B. -/
def State.portBWindowOk (s : State) : Bool := decide (s.reg (aVal 0x210) % 4096 = 0) && decide (s.reg (aVal 0x218) % 4096 = 0)

/-- A failed cross-check: the event and the correction. -/
def State.crossCheck (p : State × Bool) (ok : State → Bool) (fix : State → State) : State × Bool :=
  if ok p.1 then p else ((fix p.1).cfgInvalid 0xFFFF, false)

/-- R35, R39, R193, R249, R320, R379, R386, R399, R444, R540, R570: the cross-checks, in this order. -/
def State.crossChecks (p : State × Bool) : State × Bool :=
  let id_ := fun (s : State) => s
  let start := fun (s : State) => s.fld (aVal 0x18) 6 4
  let fabric := fun (s : State) => s.fld (aVal 0x18) 2 1
  let queues := fun (s : State) => s.badQueues ((List.range 256).filter fun q => bit (s.reg (aQueue q 0)) 0) 0
  let p := State.crossCheck p (fun s => decide (2 ≤ start s) && decide (start s ≤ 4)) id_
  let p := State.crossCheck p (fun s => decide (fabric s ≠ 3)) fun s => s.setFld (aVal 0x18) 2 1 0
  let p := State.crossCheck p (fun s => !(decide (start s = 3) && decide (fabric s = 0) && !bit (s.reg (aVal 0x18)) 3)) id_
  let p := State.crossCheck p State.regionsOk fun s =>
    (List.range 4).foldl (fun s d => (List.range 4).foldl (fun s i => s.setReg (aDmc d (0x80 + 8 * i)) 0x8888888888888888) s) s
  let p := State.crossCheck p State.ctxTablesOk id_
  let p := State.crossCheck p State.kvStoreOk id_
  let p := State.crossCheck p State.budgetsOk id_
  let p := State.crossCheck p State.classDomOk id_
  let p := State.crossCheck p (fun s => (queues s).isEmpty) fun s => (queues s).foldl (fun s q => s.setFld (aQueue q 0) 0 0 0) s
  let p := State.crossCheck p State.splitOk id_
  let p := State.crossCheck p State.limitsOk fun s => s.setReg (aPwr 0x10) 0x11300E10
  State.crossCheck p State.portBWindowOk id_

/-! ## The page store at start (R249) -/

/-- A frame index put into a list that is sorted by the order the device chooses. -/
def kvInsert (f : Nat) : List Nat → List Nat
  | [] => [f]
  | g :: t => if Config.freeListKey f < Config.freeListKey g then f :: g :: t else g :: kvInsert f t

/-- R249: every frame is on the free list with count 0, and every hash entry and node is invalid: their tables hold zeros. -/
def State.kvInit (s : State) : State :=
  let f := s.reg (aSch 0x808)
  if !s.kvStoreOk then s
  else
    let l := ((List.range f).reverse).foldl (fun l i => kvInsert i l) []
    let part := fun (o n a : Nat) => decide (s.reg (aSch o) ≤ a) && decide (a < s.reg (aSch o) + n)
    let s := s.clearMem fun a => part 0x820 (2 * f) a || part 0x830 0x1000000 a || part 0x838 (64 * s.reg (aSch 0x840)) a
    (s.store (bits (s.reg (aSch 0x828)) 47 0) (l.flatMap (leBytes 4))).setReg (aSch 0x80C) f

/-! ## The block (R491, R506) -/

/-- R35, R491, R506: the block applied: its records in order, the cross-checks, the page store, the locks, LOADED, and the
start mode, which is SERVICE for a debug image and wherever something was not good. -/
def State.applyConfig (s : State) (block : List Byte) (debug : Bool) : State :=
  let count := leNat ((block.drop 4).take 2)
  let p := if cfgHeaderOk block then
      (cfgRecords count 0 (block.drop 64)).foldl (fun (p : State × Bool) r =>
        let (s, ok) := p.1.cfgApply r
        (s, p.2 && ok)) (s, true)
    else (s.cfgInvalid 0xFFFF, false)
  let (s, ok) := State.crossChecks p
  let s := if ok && !debug then s else s.setFld (aVal 0x18) 6 4 4
  let s := if debug then s.setFld (aVal 0x104) 6 6 1 else s
  let s := s.kvInit.setFld (aVal 0x18) 7 7 1
  let s : State := { s with fwLocked := true, boot := { s.boot with loadedAt := s.now } }
  let s := if s.fabricRole = 0 then s
    else
      let s := (s.updCol fun c => { c with bypass := [false, false] }).setColMember 1
      (List.range 4).foldl (fun s p => if s.colState p = colDisabled then s.colTrain p else s) s
  let s := if bit (s.reg (aVal 0x18)) 3 then s else s.pciaDown
  s.effHost.setMode (s.fld (aVal 0x18) 6 4)

end Sys2Proof.Machine
end

