-- ==== Sys2Proof/Machine/Checkpoint.lean ====
section
/-! DEFINITION. The CHECKPOINT command (R529 to R532): its body, the image, the checks, the mover's part and what its commit
publishes. -/

namespace Sys2Proof.Machine

/-! ## The body (R529) -/

/-- OP: 0 SNAPSHOT, 1 RESTORE. -/
def ckOp (w : List Nat) : Nat := bits (word w 8) 1 0
/-- DEST: 0 local DRAM, 1 remote module, 2 PCIe port B. -/
def ckDest (w : List Nat) : Nat := bits (word w 8) 3 2
/-- CTX. -/
def ckCtx (w : List Nat) : Bool := bit (word w 8) 4
/-- RANGES. -/
def ckRanges (w : List Nat) : Nat := bits (word w 10) 47 0
/-- RCOUNT. -/
def ckCount (w : List Nat) : Nat := bits (word w 10) 56 48

/-- The address of TARGET: in DRAM, in the remote window of its module, or, for PCIe, past every address of R26. -/
def ckTarget (w : List Nat) : Nat :=
  match ckDest w with
  | 0 => bits (word w 9) 47 0
  | 1 => 0x400000000000 + bits (word w 9) 11 0 * 0x400000000 + bits (word w 9) 63 16
  | _ => 2 ^ 64 + word w 9

/-- Bytes of the image; those behind PCIe are what the host answers. -/
def State.ckBytes (s : State) (w : List Nat) (off n : Nat) : List Byte := s.bytes (ckTarget w + off) n

/-- R516, R529: bytes of the image written; to another module or to the host they leave the module. -/
def State.ckWrite (s : State) (r : CmdRef) (w : List Nat) (off : Nat) (bs : List Byte) : State :=
  if ckDest w = 2 then s
  else (s.remoteSend (some r) moverSlot (ckTarget w + off) bs.length true bs).store (ckTarget w + off) bs

/-- A little-endian field of the image. -/
def State.ckNum (s : State) (w : List Nat) (off n : Nat) : Nat := leNat (s.ckBytes w off n)

/-- R530: where the contexts and the data of an image of `r` ranges and `n` contexts begin. -/
def ckCtxAt (r : Nat) : Nat := 4096 + roundUp (16 * r) 4096
/-- R530: where the data begin. -/
def ckDataAt (r n : Nat) : Nat := ckCtxAt r + roundUp (258 * n) 4096

/-- A range list: addresses and lengths. -/
def pairsOf : List Nat → List (Nat × Nat)
  | a :: n :: t => (a, n) :: pairsOf t
  | _ => []

/-- The ranges that a start finds: those of RANGES, or those of the image. -/
def State.ckRangeList (s : State) (w : List Nat) : List (Nat × Nat) :=
  if ckOp w = 0 then
    (List.range (min 256 (ckCount w))).map fun i => (s.num (ckRanges w + 16 * i) 8, s.num (ckRanges w + 16 * i + 8) 8)
  else
    (List.range (min 256 (s.ckNum w 18 2))).map fun i => (s.ckNum w (4096 + 16 * i) 8, s.ckNum w (4096 + 16 * i + 8) 8)

/-- R530: bytes of an image of these ranges and `n` contexts. -/
def ckTotal (rs : List (Nat × Nat)) (n : Nat) : Nat := ckDataAt rs.length n + (rs.map (·.2)).sum

/-- R532: the statuses of reading an image for a RESTORE: its manifest and range table. -/
def State.ckImageStatus (s : State) (r : CmdRef) (w : List Nat) (n : Nat) : Nat :=
  if ckDest w = 2 then 0 else s.tableRead r (ckTarget w) n

/-- R532: the statuses of the checks of a range list. -/
def ckRangeFails (rs : List (Nat × Nat)) : List Nat :=
  failIf (rs.any fun x => decide (bits x.1 63 48 ≠ 0) || decide (bits x.2 63 48 ≠ 0)) 0x0F ++
  failIf (rs.any fun x => !inDram (bits x.1 47 0) (bits x.2 47 0)) 2 ++
  failIf (rs.any fun x => decide (x.1 % 4096 ≠ 0) || decide (x.2 % 4096 ≠ 0)) 3

/-- R532: the range lies inside one declared output buffer. -/
def ckInOut (outs : List (Nat × Nat)) (a n : Nat) : Bool := decide (n = 0) || outs.any fun o => inside a n o.1 o.2

/-- R529, R532, R566: the statuses of the checks of a CHECKPOINT body. -/
def State.ckFails (s : State) (e : StartEnv) : List Nat :=
  let w := e.w
  let r := e.cmd.ref
  let snap := decide (ckOp w = 0)
  let n := e.ctxs.length
  let t := word w 9
  let common :=
    failIf (decide (2 ≤ ckOp w) || decide (ckDest w = 3) || decide (bits (word w 8) 63 5 ≠ 0)
      || decide (bits (word w 10) 63 57 ≠ 0) || (w.drop 13).any (fun x => decide (x ≠ 0))
      || (!ckCtx w && decide (wCtxCount w ≠ 0)) || (!snap && decide (bits (word w 10) 56 0 ≠ 0))
      || (decide (ckDest w = 0) && decide (bits t 63 48 ≠ 0)) || (decide (ckDest w = 1) && decide (bits t 15 12 ≠ 0))) 0x0F ++
    failIf (decide (256 < ckCount w) || allOnes 64 (word w 11)) 2 ++
    failIf (decide (ckRanges w % 64 ≠ 0) || decide ((if ckDest w = 1 then bits t 63 16 else t) % 4096 ≠ 0)) 3 ++
    failIf (decide (ckDest w = 1) && decide (s.ownAddr ≠ some (bits t 11 0)) && !s.routed (bits t 11 0)) 8 ++
    failIf (decide (ckDest w = 2) && !inside t (word w 11) (s.reg (aVal 0x210)) (s.reg (aVal 0x218))) 4 ++
    failIf (decide (ckDest w = 2) && decide (s.fld (aVal 0x208) 0 0 = 0)) 8
  let body :=
    if snap then
      let st := s.tableRead r (ckRanges w) (16 * min 256 (ckCount w))
      tablePlace (ckRanges w) (16 * min 256 (ckCount w)) ++
      (if st ≠ 0 then [st]
       else
        let rs := s.ckRangeList w
        let total := ckTotal rs n
        ckRangeFails rs ++ failIf (decide (word w 11 < total)) 2 ++
        failIf (decide (ckDest w = 0) && !ckInOut e.outs (ckTarget w) total) 4)
    else
      let st := s.ckImageStatus r w 4096
      let rc := s.ckNum w 18 2
      let st2 := s.ckImageStatus r w (4096 + roundUp (16 * min 256 rc) 4096)
      if st ≠ 0 then [st]
      else
        failIf (decide (s.ckNum w 0 4 ≠ 0x4B434C44) || decide (s.ckNum w 4 2 ≠ 1)
          || (decide (word w 12 ≠ 0) && decide (s.ckNum w 8 8 ≠ word w 12)) || decide (s.ckNum w 20 2 ≠ wCtxCount w)) 0x0F ++
        failIf (decide (256 < rc) || decide (word w 11 < s.ckNum w 24 8)) 2 ++
        (if st2 ≠ 0 then [st2]
         else
          let rs := s.ckRangeList w
          ckRangeFails rs ++ failIf (rs.any fun x => !ckInOut e.outs x.1 x.2) 4)
  common ++ (if common ≠ [] then [] else body)

/-! ## Start (R531) -/

/-- R531, R532: what a start keeps: the ranges; and then, for a SNAPSHOT, each context and its authoritative descriptor
as it stands, for a RESTORE, the digest the image holds, the image's bytes and the contexts it restores with their
images. -/
def State.ckSaved (s : State) (e : StartEnv) : List (List Nat) :=
  let w := e.w
  let rs := s.ckRangeList w
  let flat := rs.flatMap fun x => [x.1, x.2]
  if ckOp w = 0 then flat :: e.ctxs.map fun c => c :: s.ctx c
  else
    let l := if ckCtx w then s.ctxEntries w else []
    let at_ := ckCtxAt rs.length + 2 * l.length
    flat :: [leNat (s.ckBytes w 64 32), s.ckNum w 24 8] :: (List.range l.length).map fun i =>
      l.getD i 0 :: (List.range 32).map fun k => s.ckNum w (at_ + 256 * i + 8 * k) 8

/-- R531: the start of a SNAPSHOT zeroes MAGIC. -/
def State.ckStart (s : State) (r : CmdRef) (w : List Nat) : State := if ckOp w = 0 then s.ckWrite r w 0 (List.replicate 4 0) else s

/-- R531: the ranges of a SNAPSHOT that count as output buffers for condition 4 of R158. -/
def Cmd.ckHeld (c : Cmd) : List (Nat × Nat) :=
  if c.kind = 4 ∧ ckOp c.words = 0 then pairsOf (c.saved.getD 0 []) else []

/-! ## The mover's part -/

/-- R442: PCIe port B DMA, the INIT of the checkpoint mover. -/
def whoMover (r : CmdRef) : Who := ⟨0x406, some r, false, false⟩

/-- R530: the bytes of an image after its manifest: the range table, the contexts and the data. -/
def State.ckImage (s : State) (rs : List (Nat × Nat)) (cs : List (List Nat)) : List Byte :=
  let pad := fun (bs : List Byte) => bs ++ List.replicate (roundUp bs.length 4096 - bs.length) (0 : Byte)
  pad (rs.flatMap fun x => leBytes 8 x.1 ++ leBytes 8 x.2) ++
  pad (cs.flatMap (fun c => leBytes 2 (word c 0)) ++ cs.flatMap fun c => wordBytes (c.drop 1)) ++
  rs.flatMap fun x => s.bytes x.1 x.2

/-- R530: the manifest. -/
def ckManifest (j : Job) (c : Cmd) (own : Option Nat) (rs cs total now : Nat) (digest : List Byte) : List Byte :=
  leBytes 4 0x4B434C44 ++ leBytes 2 1 ++ leBytes 2 0 ++ leBytes 8 (word c.words 12) ++ leBytes 2 j.id ++ leBytes 2 rs ++
  leBytes 2 cs ++ leBytes 2 (own.getD 0xFFFF) ++ leBytes 8 total ++ leBytes 8 now ++ List.replicate 24 0 ++ digest ++
  List.replicate (4096 - 96) 0

/-- R531, R532: the part of the checkpoint mover. -/
def State.ckPart (s : State) (c : Cmd) : State × PartEnd :=
  let w := c.words
  let who := whoMover c.ref
  let rs := pairsOf (c.saved.getD 0 [])
  let moved := fun (s : State) => s.updCmd c.ref fun c => { c with kindInfo := (rs.map (·.2)).sum % 2 ^ 48 }
  let ranges := fun (wr : Bool) => (rs.filter fun x => decide (x.2 ≠ 0)).map fun x =>
    let st := s.access who wr x.1 x.2
    if st ≠ 0 then st else if !wr && s.readPoison x.1 x.2 then 5 else 0
  if ckOp w = 0 then
    let img := s.ckImage rs (c.saved.drop 1)
    let st := oneOf ((if ckDest w = 2 then 0 else s.access who true (ckTarget w) (4096 + img.length)) :: ranges false)
    if st ≠ 0 then (s, .fault st)
    else
      let s := (rs.foldl (fun s x => s.chargeLines c.ref false x.1 x.2)
        (s.chargeLines c.ref true (ckTarget w + 4096) img.length)).ckWrite c.ref w 4096 img
      (moved (s.updCmd c.ref fun c => { c with saved := c.saved ++ [(sha256 img).map (·.toNat)] }), .done)
  else
    let total := word (c.saved.getD 1 []) 1
    let data := ckDataAt rs.length (c.saved.length - 2)
    let st := oneOf ((if ckDest w = 2 then 0 else
        let st := s.access who false (ckTarget w) total
        if st ≠ 0 then st else if s.readPoison (ckTarget w) total then 5 else 0) :: ranges true)
    if st ≠ 0 then (s, .fault st)
    else
      let img := s.ckBytes w 4096 (total - 4096)
      let s := rs.foldl (fun s x => s.chargeLines c.ref true x.1 x.2) (s.chargeLines c.ref false (ckTarget w) total)
      let (s', _) := rs.foldl (fun (a : State × Nat) x =>
        (a.1.store x.1 ((img.drop (a.2 - 4096)).take x.2), a.2 + x.2)) (s, data)
      if leNat (sha256 img) ≠ word (c.saved.getD 1 []) 0 then (s', .fault 0x0F) else (moved s', .done)

/-! ## Commit (R166, R531, R532) -/

/-- R531: the publication of a SNAPSHOT: the manifest. R532: the restored contexts are allocated. -/
def State.ckCommit (s : State) (j : Job) (c : Cmd) : State :=
  let w := c.words
  let rs := pairsOf (c.saved.getD 0 [])
  if ckOp w = 0 then
    let cs := (c.saved.drop 1).take (c.saved.length - 2)
    let digest := (c.saved.getLastD []).map fun b => BitVec.ofNat 8 b
    s.ckWrite c.ref w 0 (ckManifest j c s.ownAddr rs.length cs.length (ckTotal rs cs.length) s.now digest)
  else
    (c.saved.drop 2).foldl (fun s x =>
      let img := x.drop 1
      if s.walkStatus (ctxRoot img) (ctxLayers img) = 0 then s.ctxAlloc (word x 0) img (word img 2) else s) s

end Sys2Proof.Machine
end

