-- ==== Sys2Proof/Machine/Special.lean ====
section
/-! DEFINITION. The special functions of the vector unit (R88, R89): e^x, 2^x and the reciprocal square root, held to
192 fraction bits with a sticky bit, and the choice among the results that the stated accuracy admits. -/

namespace Sys2Proof.Machine

/-- Fraction bits of the fixed-point work of this file. -/
def fixBits : Nat := 192

/-- `Σ 2^fixBits / (k · 2^k)` for k = 1 to n: ln 2 in fixed point. -/
def ln2Sum : Nat → Nat
  | 0 => 0
  | k + 1 => ln2Sum k + 2 ^ (2 * fixBits) / ((k + 1) * 2 ^ (k + 1))

/-- ln 2 with `fixBits` fraction bits. -/
def ln2Fix : Nat := ln2Sum 200 >>> fixBits

/-- The Taylor terms of e^r: `term` is r^k/k! and `acc` the sum so far, all in fixed point. -/
def expTerms : Nat → Nat → Nat → Nat → Nat → Nat
  | 0, _, _, _, acc => acc
  | n + 1, k, r, term, acc =>
    let t := ((term * r) >>> fixBits) / k
    expTerms n (k + 1) r t (acc + t)

/-- e^r for 0 ≤ r < 1 in fixed point. -/
def expFrac (r : Nat) : Nat := expTerms 48 1 r (2 ^ fixBits) (2 ^ fixBits)

/-- A signed magnitude `m · 2^e` in fixed point, rounded toward −∞. -/
def toFix (neg : Bool) (m : Nat) (e : Int) : Int :=
  let k := e + fixBits
  let v : Int := if 0 ≤ k then ((m <<< k.toNat : Nat) : Int) else
    let d := (-k).toNat
    if neg then (((m + 2 ^ d - 1) >>> d : Nat) : Int) else ((m >>> d : Nat) : Int)
  if neg then -v else v

/-- e^x as a value with a sticky lowest bit. Operands beyond ±200 stand for results beyond every range. -/
def expNum (neg : Bool) (m : Nat) (e : Int) : Num :=
  if m = 0 then .fin false 1 0
  else if 8 ≤ e + Nat.log2 m then .fin false 1 (if neg then -400 else 400)
  else
    let x := toFix neg m e
    let n := x / (ln2Fix : Int)
    .fin false (2 * expFrac (x - n * (ln2Fix : Int)).toNat + 1) (n - fixBits - 1)

/-- 2^x as a value; exact for integers, else with a sticky lowest bit. -/
def exp2Num (neg : Bool) (m : Nat) (e : Int) : Num :=
  if m = 0 then .fin false 1 0
  else if 9 ≤ e + Nat.log2 m then .fin false 1 (if neg then -600 else 600)
  else
    let x := toFix neg m e
    let n := x / (2 : Int) ^ fixBits
    let f := (x - n * (2 : Int) ^ fixBits).toNat
    if f = 0 then .fin false 1 n
    else .fin false (2 * expFrac ((f * ln2Fix) >>> fixBits) + 1) (n - fixBits - 1)

/-- The integer square root, bit by bit: the largest `r` below `2^k` above `acc` with `r² ≤ x`. -/
def isqrt : Nat → Nat → Nat → Nat
  | 0, acc, _ => acc
  | k + 1, acc, x => if (acc + 2 ^ k) * (acc + 2 ^ k) ≤ x then isqrt k (acc + 2 ^ k) x else isqrt k acc x

/-- 1/√(m · 2^e) for m ≠ 0; exact where the root is, else with a sticky lowest bit. -/
def rsqrtNum (m : Nat) (e : Int) : Num :=
  let (m', e') := if e % 2 = 0 then (m, e) else (2 * m, e - 1)
  let q := 2 ^ 300 / m'
  let r := isqrt 151 0 q
  let exact := decide (r * r * m' = 2 ^ 300)
  .fin false (2 * r + b2n (!exact)) (-(e' / 2) - 151)

/-- R51, R52, R88: a finite result written in a format. Of the results within `u` ulp (1 or 2) of the exact value `pick` says
which the unit gives: the `2u` encodings next to a value between two of them, the `2u + 1` about one that is itself exact. -/
def specialPut (ff : FloatFmt) (c : ArithCtl) (u pick : Nat) (y : Num) : Flagged :=
  let b := floatPut ff .zero 0 true false y
  let beyond := floatPut ff c.rnd.elsewhere 0 c.sat c.ftz (.fin false 1 1000)
  if b.flags &&& flagSat ≠ 0 then beyond
  else
    let exact := (floatNum ff b.val).eqv y
    let code := if exact then b.val + pick % (2 * u + 1) - u else b.val + pick % (2 * u) - (u - 1)
    if ff.maxBits < code then beyond
    else if c.ftz && decide (code < 2 ^ ff.man) && decide (code ≠ 0) then ⟨0, flagFtz⟩
    else ⟨code, 0⟩

/-- R88: the ulp of a function: e^x and 2^x of FP32 2, all others 1. -/
def specialU (f : Fmt) : Nat := if f = .fp32 then 2 else 1

/-- R89, R129: VEXP of one lane. DESIGN CHOICE (assumption 108): e^(+∞) is +∞ whatever SAT holds, as R72 has it for an infinity
that is converted. -/
def vexpLane (f : Fmt) (ff : FloatFmt) (c : ArithCtl) (w : Nat) : Flagged :=
  let (x, fl) := readElem f c.ftz w
  let r : Flagged := match x with
    | .nan => ⟨ff.nanBits, flagNanOut⟩
    | .inf true => ⟨0, 0⟩
    | .inf false => floatPut ff c.rnd.elsewhere 0 c.sat c.ftz (.inf false)
    | .fin n m e => specialPut ff c (specialU f) (Config.specialUlp 0 f.width w) (expNum n m e)
  ⟨r.val, r.flags ||| fl⟩

/-- R89, R129: VEXP2 of one lane. -/
def vexp2Lane (f : Fmt) (ff : FloatFmt) (c : ArithCtl) (w : Nat) : Flagged :=
  let (x, fl) := readElem f c.ftz w
  let r : Flagged := match x with
    | .nan => ⟨ff.nanBits, flagNanOut⟩
    | .inf true => ⟨0, 0⟩
    | .inf false => floatPut ff c.rnd.elsewhere 0 c.sat c.ftz (.inf false)
    | .fin n m e => specialPut ff c (specialU f) (Config.specialUlp 1 f.width w) (exp2Num n m e)
  ⟨r.val, r.flags ||| fl⟩

/-- R89, R129: VRSQRT of one lane. -/
def vrsqrtLane (f : Fmt) (ff : FloatFmt) (c : ArithCtl) (w : Nat) : Flagged :=
  let (x, fl) := readElem f c.ftz w
  let r : Flagged := match x with
    | .nan => ⟨ff.nanBits, flagNanOut⟩
    | .inf true => ⟨ff.nanBits, flagNanOut⟩
    | .inf false => ⟨0, 0⟩
    | .fin n 0 _ => floatPut ff c.rnd.elsewhere 0 c.sat c.ftz (.inf n)
    | .fin true _ _ => ⟨ff.nanBits, flagNanOut⟩
    | .fin false m e => specialPut ff c 1 (Config.specialUlp 2 f.width w) (rsqrtNum m e)
  ⟨r.val, r.flags ||| fl⟩

end Sys2Proof.Machine
end

