-- ==== Sys2Proof/Machine/Cells.lean ====
section
/-! DEFINITION. The tensor cells (R77 to R86): the terms of a step, the three kinds of accumulator (R54, R56, R65, R66),
and the conversion of a drain (R82, R128). -/

namespace Sys2Proof.Machine

/-- An element of a B4 operand: its bits at an offset of the window `win`. -/
def State.elemBits (s : State) (win : Nat) (d : TDesc) (o r c : Nat) : Nat :=
  let p := d.elem o r c
  (s.num (win + p.1) ((d.format.width + 7) / 8) >>> p.2) % 2 ^ d.format.width

/-- An operand element as a value with its flags: zero outside the stored extent (R127), scaled in the MX formats (R61,
R63), subnormals flushed with FTZ (R52). `lr` is its logical row, `r` its stored row. -/
def State.operand (s : State) (win : Nat) (c : ArithCtl) (d : TDesc) (o r lr col : Nat) : Num × BitVec 8 :=
  if d.rows ≤ r ∨ d.cols ≤ col then (.fin false 0 0, 0)
  else
    let w := s.elemBits win d o r col
    if d.format.isMx then
      let x := s.num (win + d.scaleAt o lr col) 1
      (mxNum d.format x w, flagIf (decide (x = 255)) flagNanIn)
    else readElem d.format c.ftz w

/-- The bits of an operand element, 0 outside the stored extent. -/
def State.operandBits (s : State) (win : Nat) (d : TDesc) (o r col : Nat) : Nat :=
  if d.rows ≤ r ∨ d.cols ≤ col then 0 else s.elemBits win d o r col

/-- The stored and logical rows of B that a step covers for one column (R77, R84 to R86). -/
def State.stepRows (s : State) (win : Nat) (b : TDesc) (o col k0 : Nat) : List (Nat × Nat) :=
  (List.range 4).map fun q =>
    if b.sparse then
      let m := s.num (win + b.metaAt o (k0 / 2) col) 1
      (k0 / 2 + q, k0 + 4 * (q / 2) + bits m (2 * q + 1) (2 * q))
    else (k0 + q, k0 + q)

/-- R65, R56: an integer sum added to a 32-bit accumulator in one saturating addition. -/
def accAddInt (acc : Nat) (sum : Int) : Nat × Bool :=
  let v := sext 32 acc + sum
  if v < -(2 : Int) ^ 31 then (wrap 32 (-(2 : Int) ^ 31), true)
  else if (2 : Int) ^ 31 ≤ v then (wrap 32 ((2 : Int) ^ 31 - 1), true)
  else (wrap 32 v, false)

/-- R51, R52, R66: the exact sum of an FP32 accumulator step rounded once; overflow is an infinity whatever SAT and RND
hold, and stochastic rounding does not act. Only a flush is a flag here, for nothing is written to an output. -/
def accPut (c : ArithCtl) (x : Num) : Flagged :=
  match x with
  | .nan => ⟨ffFp32.nanBits, 0⟩
  | .inf neg => ⟨(floatPut ffFp32 .nearest 0 false false (.inf neg)).val, 0⟩
  | .fin neg _ _ =>
    let y := floatPut ffFp32 c.rnd.elsewhere 0 false c.ftz x
    if y.flags &&& (flagSat ||| flagInfOut) ≠ 0 then ⟨(floatPut ffFp32 .nearest 0 false false (.inf neg)).val, 0⟩
    else ⟨y.val, y.flags &&& flagFtz⟩

/-- One accumulator after a step: its value, its flags and whether the addition saturated. `r` and `col` are the row and
column of the output; `acc` the old value. DESIGN CHOICE (assumption 120): a NaN that the accumulator itself holds is no NaN input
in the sense of R70, here and in a drain. -/
def State.accStep (s : State) (win : Nat) (c : ArithCtl) (a b : TDesc) (o k0 r col acc : Nat) :
    Nat × BitVec 8 × Bool :=
  let ks := s.stepRows win b o col k0
  match a.format.acc with
  | .int32 =>
    let sum := ks.foldl (fun (t : Int) k =>
      t + sext a.format.width (s.operandBits win a o r k.2) * sext b.format.width (s.operandBits win b o k.1 col)) 0
    let (v, st) := accAddInt acc sum
    (v, flagIf st flagSat, st)
  | .q8_24 =>
    let (sum, lim) := ks.foldl (fun (t : Int × Bool) k =>
      let p := log8Mul (s.operandBits win a o r k.2) (s.operandBits win b o k.1 col)
      (t.1 + p.1, t.2 || p.2)) (0, false)
    let (v, st) := accAddInt acc sum
    (v, flagIf (st || lim) flagSat, st)
  | .fp32 =>
    let ps := ks.map fun k =>
      let x := s.operand win c a o r r k.2
      let y := s.operand win c b o k.1 k.2 col
      (x.1.mul y.1, x.2 ||| y.2)
    let v := accPut c (numSum (floatNum ffFp32 acc :: ps.map (·.1)))
    (v.val, ps.foldl (fun f p => f ||| p.2) v.flags, false)

/-- A set cleared to its kind's zero (R81). -/
def accSetClear (k : AccKind) : AccSet := ⟨some k, List.replicate 256 0, [], false⟩

/-- The 256 values of a set that is read with contents not of the expected kind: free values (R81, R113). -/
def undefinedVals (n : Nat) : List Nat := (List.range 256).map fun i => Config.freeValue n i % 2 ^ 32

/-- R77 to R86: a step of a set: every accumulator of the region in turn. -/
def State.setStep (s : State) (win : Nat) (c : ArithCtl) (st : AccSet) (da db i j o k0 : Nat) : AccSet × BitVec 8 :=
  let a := tdesc da
  let b := tdesc db
  let rs := (List.range 256).map fun x =>
    s.accStep win c a b o k0 (16 * i + x / 16) (16 * j + x % 16) (st.vals.getD x 0)
  ({ st with
    vals := rs.map (·.1)
    saturated := (List.range 256).filter fun x => st.saturated.contains x || (rs.getD x (0, 0, false)).2.2 },
    rs.foldl (fun f r => f ||| r.2.1) 0)

/-- R82: position `n` of the drain's order: the region row and column. -/
def drainPos (n : Nat) : Nat × Nat := (4 * (n / 64) + n % 16 / 4, 4 * (n / 16 % 4) + n % 4)

/-- The value of an accumulator (R56, R65, R66). -/
def accNum (k : AccKind) (w : Nat) : Num :=
  match k with
  | .int32 => let i := sext 32 w; .fin (decide (i < 0)) i.natAbs 0
  | .q8_24 => let i := sext 32 w; .fin (decide (i < 0)) i.natAbs (-24)
  | .fp32 => floatNum ffFp32 w

/-- R69: a conversion with its draw: where stochastic rounding acts, the LFSR advances. -/
def putDraw (f : Fmt) (c : ArithCtl) (lfsr : Nat) (x : Num) : Flagged × Nat :=
  if c.rnd = .stochastic ∧ f.stochasticOk then
    let (r, l) := lfsrDraw lfsr
    (putElem f c r x, l)
  else (putElem f c 0 x, lfsr)

/-- Conversions in order, each with its draw. R82 states the order for a drain; DESIGN CHOICE (assumption 109): elsewhere the
elements draw in increasing place, and a value that is exact, NaN or infinite draws like every other. -/
def putDraws (f : Fmt) (c : ArithCtl) : Nat → List Num → List Flagged × Nat
  | l, [] => ([], l)
  | l, x :: t =>
    let (y, l1) := putDraw f c l x
    let (ys, l2) := putDraws f c l1 t
    (y :: ys, l2)

/-- Elements packed at `w` bits each, the first lowest (R58). -/
def packBits (w : Nat) : List Nat → Nat
  | [] => 0
  | x :: t => x % 2 ^ w + 2 ^ w * packBits w t

/-- R82, R128: the writes of a drain, whole B4 blocks inside the stored extent, as offsets in the destination's space;
the flags; and the LFSR afterwards. -/
def drainOut (c : ArithCtl) (k : AccKind) (vals : List Nat) (d : TDesc) (i j o lfsr : Nat) :
    List (Nat × List Byte) × BitVec 8 × Nat :=
  let xs := (List.range 256).map fun n => let p := drainPos n; accNum k (vals.getD (16 * p.1 + p.2) 0)
  let (ys, l) := putDraws d.format c lfsr xs
  let put := fun (n : Nat) => decide (16 * i + 4 * (n / 4) < d.rows) && decide (16 * j + 4 * (n % 4) < d.cols)
  let blocks := ((List.range 16).filter put).map fun n =>
    ((d.elem o (16 * i + 4 * (n / 4)) (16 * j + 4 * (n % 4))).1,
      leBytes (2 * d.format.width) (packBits d.format.width ((ys.drop (16 * n)).take 16 |>.map (·.val))))
  let flags := (List.range 256).foldl (fun f n =>
    let y := (ys.getD n ⟨0, 0⟩).flags
    f ||| (if put (n / 16) then y else y &&& ~~~writeFlags)) 0
  (blocks, flags, l)

/-- R99, R100: the skips of a drain that compares nothing. -/
def skipsAll (k : AccKind) : Nat × Nat :=
  match k with
  | .fp32 => (0, 16)
  | _ => (256, 0)

/-- R99, R100: the comparisons a drain skips: saturated accumulators; columns of a NaN or an infinity; all of a set that
was read undefined (R81). -/
def drainSkips (k : AccKind) (st : AccSet) (vals : List Nat) : Nat × Nat :=
  match k with
  | .fp32 =>
    (0, if st.undefinedRead then 16 else
      ((List.range 16).filter fun j => (List.range 16).any fun i =>
        let x := floatNum ffFp32 (vals.getD (16 * i + j) 0)
        x.isNan || x.isInf).length)
  | _ => (if st.undefinedRead then 256 else st.saturated.length, 0)

end Sys2Proof.Machine
end

