-- ==== Sys2Proof/Machine/VectorOps.lean ====
section
/-! DEFINITION. The lanes of the vector unit (R88, R129 to R131), its pooling (R273 to R275) and its butterfly (R276,
R277), as functions of register bits. -/

namespace Sys2Proof.Machine

/-- The lanes of a register, `n` bits each, lane 0 lowest. -/
def lanes (n : Nat) (v : BitVec 2048) : List Nat := (List.range (2048 / n)).map fun i => v.toNat >>> (n * i) % 2 ^ n

/-- A register of lanes of `n` bits; missing lanes are 0. -/
def unlanes (n : Nat) (l : List Nat) : BitVec 2048 := BitVec.ofNat 2048 (packBits n l)

/-- R129, R130: the lane width of an operation format. -/
def laneBits (f : Fmt) : Nat :=
  match f with
  | .fp32 | .q16 => 32
  | _ => 16

/-- R130: a lane read as a value of the format, with its flags; an INT8 lane holds its element in the low byte. -/
def laneRead (f : Fmt) (c : ArithCtl) (w : Nat) : Num × BitVec 8 := readElem f c.ftz (w % 2 ^ f.width)

/-- R130: an element written as a lane; INT8 sign-extended. -/
def laneWrite (f : Fmt) (w : Nat) : Nat := if f = .int8 then wrap 16 (sext 8 w) else w

/-- R129, R130: the result of an arithmetic operation written in its format, rounded once. It is no conversion, so
stochastic rounding does not act (R69). INT8 saturates (R130), Q16.16 saturates (R48); an INT16 result outside the
format is not stated and is free. -/
def laneResult (f : Fmt) (c : ArithCtl) (x : Num) : Flagged :=
  let c := { c with rnd := c.rnd.elsewhere }
  match f, x with
  | .int16, .fin neg m e =>
    let v : Int := (if neg then -1 else 1) * (m <<< e.toNat : Nat)
    if v < -32768 ∨ 32767 < v then
      let r := Config.int16Beyond v
      ⟨r.1 % 65536, flagIf r.2 flagSat⟩
    else ⟨wrap 16 v, 0⟩
  | _, _ =>
    let y := putElem f c 0 x
    ⟨laneWrite f y.val, y.flags &&& ~~~flagInexactInt⟩

/-- Lanes computed one by one, with all their flags. -/
def laneMap (n : Nat) (l : List Flagged) : BitVec 2048 × BitVec 8 :=
  (unlanes n (l.map (·.val)), l.foldl (fun f x => f ||| x.flags) 0)

/-- R129: a three-operand lane operation. -/
def vec3 (f : Fmt) (c : ArithCtl) (va vb vc : BitVec 2048) (op : Num → Num → Num → Num) : BitVec 2048 × BitVec 8 :=
  let n := laneBits f
  laneMap n ((List.range (2048 / n)).map fun i =>
    let x := laneRead f c ((lanes n va).getD i 0)
    let y := laneRead f c ((lanes n vb).getD i 0)
    let z := laneRead f c ((lanes n vc).getD i 0)
    let r := laneResult f c (op x.1 y.1 z.1)
    ⟨r.val, r.flags ||| x.2 ||| y.2 ||| z.2⟩)

/-- R129: a two-operand lane operation. -/
def vec2 (f : Fmt) (c : ArithCtl) (va vb : BitVec 2048) (op : Num → Num → Num) : BitVec 2048 × BitVec 8 :=
  let n := laneBits f
  laneMap n ((List.range (2048 / n)).map fun i =>
    let x := laneRead f c ((lanes n va).getD i 0)
    let y := laneRead f c ((lanes n vb).getD i 0)
    let r := laneResult f c (op x.1 y.1)
    ⟨r.val, r.flags ||| x.2 ||| y.2⟩)

/-- R50, R129: the minimum (`mx` false) or maximum of two values. NaN gives NaN. Zeros of unlike sign have a free sign. -/
def minMax (mx : Bool) (x y : Num) : Num :=
  if x.isNan || y.isNan then .nan
  else match x, y with
    | .fin a 0 e, .fin b 0 _ => if a = b then .fin a 0 e else .fin (Config.minMaxZeroSign (b2n mx) (b2n a)) 0 e
    | _, _ => if x.lt y == mx then y else x

/-- R129: a compare: all ones where it holds, else 0. -/
def vecCmp (f : Fmt) (c : ArithCtl) (va vb : BitVec 2048) (op : Num → Num → Bool) : BitVec 2048 × BitVec 8 :=
  let n := laneBits f
  laneMap n ((List.range (2048 / n)).map fun i =>
    let x := laneRead f c ((lanes n va).getD i 0)
    let y := laneRead f c ((lanes n vb).getD i 0)
    ⟨if op x.1 y.1 then 2 ^ n - 1 else 0, x.2 ||| y.2⟩)

/-- R89, R129: a special function of every lane. -/
def vecSpecial (f : Fmt) (ff : FloatFmt) (c : ArithCtl) (va : BitVec 2048)
    (op : Fmt → FloatFmt → ArithCtl → Nat → Flagged) : BitVec 2048 × BitVec 8 :=
  let n := laneBits f
  laneMap n ((lanes n va).map (op f ff c))

/-- R129: one level of the fixed tree: neighbours combined. -/
def pairUp (op : Flagged → Flagged → Flagged) : List Flagged → List Flagged
  | x :: y :: t => op x y :: pairUp op t
  | l => l

/-- R129: the fixed tree, level by level. -/
def treeFold (op : Flagged → Flagged → Flagged) : Nat → List Flagged → Flagged
  | _, [] => ⟨0, 0⟩
  | _, [x] => x
  | 0, x :: _ => x
  | n + 1, l => treeFold op n (pairUp op l)

/-- R129: a reduction of all lanes into lane 0, other lanes 0. Only what lane 0 receives is written to an output (R70). -/
def vecReduce (f : Fmt) (c : ArithCtl) (va : BitVec 2048) (op : Num → Num → Num) : BitVec 2048 × BitVec 8 :=
  let n := laneBits f
  let r := treeFold (fun x y =>
      let a := laneRead f c x.val
      let b := laneRead f c y.val
      let z := laneResult f c (op a.1 b.1)
      ⟨z.val, z.flags ||| a.2 ||| b.2 ||| ((x.flags ||| y.flags) &&& ~~~writeFlags)⟩) 8
    ((lanes n va).map fun w => ⟨w, 0⟩)
  (unlanes n [r.val], r.flags)

/-! ## Conversion (R131) -/

/-- The elements of a register in the packed form of a format. -/
def packed (f : Fmt) (v : BitVec 2048) : List Nat := lanes f.width v

/-- R131: the source elements a conversion takes: all, or the low ones of the half of `va` that HALF selects. -/
def cvtSource (dst src : Fmt) (half : Bool) (va : BitVec 2048) : List Nat :=
  if src.width < dst.width then
    ((packed src va).drop (if half then 1024 / src.width else 0)).take (2048 / dst.width)
  else packed src va

/-- R131: source elements as values, with the MX scales of `vc`. -/
def cvtValues (src : Fmt) (c : ArithCtl) (vc : BitVec 2048) (ws : List Nat) : List (Num × BitVec 8) :=
  (List.range ws.length).map fun i =>
    let w := ws.getD i 0
    if src.isMx then
      let x := vc.toNat >>> (8 * (i / 32)) % 256
      (mxNum src x w, flagIf (decide (x = 255)) flagNanIn)
    else readElem src c.ftz w

/-- R63: the MX blocks of a run of values: scale bytes, elements, flags. -/
def mxBlocks (f : Fmt) (c : ArithCtl) : Nat → List Num → List Nat × List Nat × BitVec 8
  | 0, _ => ([], [], 0)
  | n + 1, xs =>
    let (x, es, fl) := mxPut f c (xs.take 32)
    let (sc, r, g) := mxBlocks f c n (xs.drop 32)
    (x :: sc, es ++ r, fl ||| g)

/-- R131: the elements placed in vd: all of it, or the half that HALF selects, the other half unchanged. Where they do
not fill that half its other bytes are not stated: `open_`. -/
def cvtPlace (dst src : Fmt) (half : Bool) (vd : BitVec 2048) (open_ : Nat) (es : List Nat) : BitVec 2048 :=
  if dst.width < src.width then
    let bits_ := es.length * dst.width
    let part := packBits dst.width es + (open_ <<< bits_) % 2 ^ 1024
    let lo := vd.toNat % 2 ^ 1024
    let hi := vd.toNat / 2 ^ 1024
    BitVec.ofNat 2048 (if half then lo + part % 2 ^ 1024 * 2 ^ 1024 else part % 2 ^ 1024 + hi * 2 ^ 1024)
  else unlanes dst.width es

/-- R131: VCVT: vd, vc (written for an MX destination), flags and LFSR afterwards. -/
def vecCvt (dst src : Fmt) (half : Bool) (c : ArithCtl) (va vd vc : BitVec 2048) (open_ lfsr : Nat) :
    BitVec 2048 × BitVec 2048 × BitVec 8 × Nat :=
  let xs := cvtValues src c vc (cvtSource dst src half va)
  let fin := xs.foldl (fun f x => f ||| x.2) (0 : BitVec 8)
  if dst.isMx then
    let (sc, es, fl) := mxBlocks dst c (xs.length / 32) (xs.map (·.1))
    (cvtPlace dst src half vd open_ es, unlanes 8 sc, fl ||| fin, lfsr)
  else
    let (ys, l) := putDraws dst c lfsr (xs.map (·.1))
    (cvtPlace dst src half vd open_ (ys.map (·.val)), vc, ys.foldl (fun f y => f ||| y.flags) fin, l)

/-! ## Pooling (R273 to R275) -/

/-- R273: the fields of a VPOOL control word. -/
structure PoolCtl where
  mode : Nat
  k : Nat
  p : Nat
  stride : Nat
  d : Nat
  legal : Bool
  deriving DecidableEq, Repr

/-- R273, R274: a control word taken apart and judged for `n` blocks per register; SELECT needs k = 1 (R275). -/
def poolCtl (n w : Nat) : PoolCtl :=
  let m := bits w 1 0
  let k := bits w 3 2 + 1
  let p := bits w 5 4
  let st := bits w 6 6 + 1
  let d := bits w 11 7
  ⟨m, k, p, st, d, decide (m ≠ 3) && decide (bits w 15 12 = 0) && decide (3 * st + p + k - 1 ≤ 7)
    && decide (1 ≤ d) && decide (d ≤ n) && (decide (m ≠ 2) || decide (k = 1))⟩

/-- R274: the source elements of output element `e` of a register. -/
def poolSources (f : Fmt) (pc : PoolCtl) (va vb : BitVec 2048) (e : Nat) : List Nat :=
  let src := packed f va ++ packed f vb
  let b := e / 16
  let rho := e % 16 / 4
  let kap := e % 4
  (List.range pc.k).map fun i =>
    let t := pc.stride * rho + pc.p + i
    src.getD ((b + t / 4 * pc.d) * 16 + t % 4 * 4 + kap) 0

/-- An exact value divided by a small number, with a sticky lowest bit where it is not exact. -/
def Num.divSmall (x : Num) (k : Nat) : Num :=
  match x with
  | .fin n m e =>
    let v := m * 2 ^ 64
    .fin n (2 * (v / k) + b2n (decide (v % k ≠ 0))) (e - 65)
  | y => y

/-- R275: the greatest value; NaN if any is NaN; +0 over −0. -/
def poolMax : List Num → Num
  | [] => .nan
  | [x] => x
  | x :: t =>
    let y := poolMax t
    if x.isNan || y.isNan then .nan
    else match x, y with
      | .fin a 0 e, .fin b 0 _ => .fin (a && b) 0 e
      | _, _ => if x.lt y then y else x

/-- R275: VPOOL in a mode, element by element, with draws for the averages that round stochastically. -/
def vecPool (f : Fmt) (c : ArithCtl) (pc : PoolCtl) (va vb : BitVec 2048) (lfsr : Nat) :
    BitVec 2048 × BitVec 8 × Nat :=
  let src := (List.range (2048 / f.width)).map (poolSources f pc va vb)
  if pc.mode = 2 then (unlanes f.width (src.map fun l => l.getD 0 0), 0, lfsr)
  else
    let read := src.map fun l => l.map (readElem f c.ftz)
    let fin := read.foldl (fun g l => l.foldl (fun h x => h ||| x.2) g) (0 : BitVec 8)
    if pc.mode = 0 then
      let ys := read.map fun l => putElem f { c with rnd := c.rnd.elsewhere } 0 (poolMax (l.map (·.1)))
      (unlanes f.width (ys.map (·.val)), ys.foldl (fun g y => g ||| y.flags) fin, lfsr)
    else
      let (ys, l) := putDraws f c lfsr (read.map fun l => (numSum (l.map (·.1))).divSmall pc.k)
      (unlanes f.width (ys.map (·.val)), ys.foldl (fun g y => g ||| y.flags) fin, l)

/-! ## The radix-4 butterfly (R276, R277) -/

/-- R277: a value rounded once to FP32, to nearest, as a value again, with the flags of that rounding. -/
def toFp32 (c : ArithCtl) (x : Num) : Num × BitVec 8 :=
  let y := floatPut ffFp32 .nearest 0 c.sat c.ftz x
  (floatNum ffFp32 y.val, y.flags &&& (flagSat ||| flagFtz))

/-- A complex lane: real part in bits [15:0], imaginary in [31:16], with the flags of reading it. -/
def cplx (f : Fmt) (c : ArithCtl) (w : Nat) : Num × Num × BitVec 8 :=
  let x := readElem f c.ftz (w % 65536)
  let y := readElem f c.ftz (w / 65536 % 65536)
  (x.1, y.1, x.2 ||| y.2)

/-- R277: the product of two complex values, each sum of exact products rounded once to FP32. -/
def cplxMul (c : ArithCtl) (a b : Num × Num) : (Num × Num) × BitVec 8 :=
  let re := toFp32 c ((a.1.mul b.1).add (a.2.mul b.2).neg)
  let im := toFp32 c ((a.1.mul b.2).add (a.2.mul b.1))
  ((re.1, im.1), re.2 ||| im.2)

/-- A complex value times (−i)^n. -/
def rotate (n : Nat) (a : Num × Num) : Num × Num :=
  match n % 4 with
  | 0 => a
  | 1 => (a.2, a.1.neg)
  | 2 => (a.1.neg, a.2.neg)
  | _ => (a.2.neg, a.1)

/-- R276, R277: VBFLY4: vd, flags and LFSR afterwards. -/
def vecBfly (f : Fmt) (c : ArithCtl) (va vb : BitVec 2048) (lfsr : Nat) : BitVec 2048 × BitVec 8 × Nat :=
  let la := lanes 32 va
  let lb := lanes 32 vb
  let xs := (List.range 64).map fun i => cplx f c (la.getD i 0)
  let ws := (List.range 64).map fun i => if i % 4 = 0 then (.fin false 1 0, .fin false 0 0, 0)
    else cplx f c (lb.getD i 0)
  let ps := (List.range 64).map fun i =>
    let x := xs.getD i (.nan, .nan, 0)
    let w := ws.getD i (.nan, .nan, 0)
    if i % 4 = 0 then ((x.1, x.2.1), (0 : BitVec 8)) else cplxMul c (w.1, w.2.1) (x.1, x.2.1)
  let outs := (List.range 64).flatMap fun i =>
    let b := i / 4 * 4
    let q := i % 4
    let ts := (List.range 4).map fun m => rotate (m * q) (ps.getD (b + m) ((.nan, .nan), 0)).1
    [numSum (ts.map (·.1)), numSum (ts.map (·.2))]
  let (ys, l) := putDraws f c lfsr outs
  let fin := xs.foldl (fun g x => g ||| x.2.2) (ws.foldl (fun g w => g ||| w.2.2)
    (ps.foldl (fun g p => g ||| p.2) (0 : BitVec 8)))
  (unlanes 16 (ys.map (·.val)), ys.foldl (fun g y => g ||| y.flags) fin, l)

end Sys2Proof.Machine
end

