-- ==== Sys2Proof/Machine/Fp32.lean ====
section
/-! DEFINITION. The FP32 arithmetic of the engines (R186, R222, R232, R233, R290): single operations rounded to nearest,
the correctly rounded quotient, and e^x and the natural logarithm within their stated accuracy. -/

namespace Sys2Proof.Machine

/-- A value with the flags that its computation has set so far (R70). -/
abbrev FNum : Type := Num × BitVec 8

/-- A value that no rounding has made. -/
def FNum.of (x : Num) : FNum := (x, 0)

/-- Two values combined exactly; the flags of both. -/
def FNum.op (f : Num → Num → Num) (x y : FNum) : FNum := (f x.1 y.1, x.2 ||| y.2)

/-- The flags of a list of values. -/
def flagsOf (l : List FNum) : BitVec 8 := l.foldl (fun a x => a ||| x.2) 0

/-- R51, R52: an encoding with its flags as a value again. What is not written to an output sets no NAN_OUT and no INF_OUT
(R70). -/
def FNum.ofFlagged (fl : BitVec 8) (y : Flagged) : FNum := (floatNum ffFp32 y.val, fl ||| (y.flags &&& ~~~writeFlags))

/-- R51, R52: a value rounded once to FP32, to nearest, ties to even. -/
def f32 (c : ArithCtl) (x : FNum) : FNum := .ofFlagged x.2 (floatPut ffFp32 .nearest 0 c.sat c.ftz x.1)

/-- R51: a value rounded once into an FP32 accumulator, where overflow is an infinity whatever SAT holds. -/
def f32Acc (c : ArithCtl) (x : FNum) : FNum := .ofFlagged x.2 (floatPut ffFp32 .nearest 0 false c.ftz x.1)

/-- The sum, rounded once. -/
def f32Add (c : ArithCtl) (x y : FNum) : FNum := f32 c (.op Num.add x y)

/-- The product, rounded once. -/
def f32Mul (c : ArithCtl) (x y : FNum) : FNum := f32 c (.op Num.mul x y)

/-- The difference, rounded once. -/
def f32Sub (c : ArithCtl) (x y : FNum) : FNum := f32 c (.op (fun a b => a.add b.neg) x y)

/-- `a + x · y`, rounded once. -/
def f32Fma (c : ArithCtl) (a x y : FNum) : FNum := f32 c (.op Num.add a (.op Num.mul x y))

/-- An exact quotient held to 256 fraction bits with a sticky lowest bit. A quotient by zero is an infinity, 0/0 and
∞/∞ NaN. -/
def Num.div : Num → Num → Num
  | .fin a m e, .fin b n f =>
    if n = 0 then (if m = 0 then .nan else .inf (a != b))
    else .fin (a != b) (2 * (m * 2 ^ 256 / n) + b2n (decide (m * 2 ^ 256 % n ≠ 0))) (e - f - 257)
  | .fin a _ _, .inf b => .fin (a != b) 0 0
  | .inf a, .fin b _ _ => .inf (a != b)
  | _, _ => .nan

/-- The quotient, correctly rounded. -/
def f32Div (c : ArithCtl) (x y : FNum) : FNum := f32 c (.op Num.div x y)

/-- The greater of two values that are not NaN. -/
def Num.maxOf (x y : Num) : Num := if x.lt y then y else x

/-- The sum of a list from the left, each addition rounded once. -/
def f32Sum (c : ArithCtl) (a : FNum) (l : List FNum) : FNum := l.foldl (f32Add c) a

/-- The value is neither NaN nor an infinity. -/
def Num.finite (x : Num) : Bool := !x.isNan && !x.isInf

/-- −∞. -/
def numNegInf : Num := .inf true

/-- +0. -/
def numZero : Num := .fin false 0 0

/-- The FP32 encoding of a value that FP32 holds. -/
def f32Bits (x : Num) : Nat := (floatPut ffFp32 .nearest 0 false false x).val

/-- R88, R222: e^x of an FP32 value, within the accuracy of the exponential unit. -/
def f32Exp (c : ArithCtl) (x : FNum) : FNum := .ofFlagged x.2 (vexpLane .fp32 ffFp32 c (f32Bits x.1))

/-- Terms of the series of the inverse hyperbolic tangent of `z` in fixed point: `pow` is z^(2k+1). -/
def atanhTerms : Nat → Nat → Nat → Nat → Nat → Nat
  | 0, _, _, _, acc => acc
  | n + 1, k, zz, pow, acc => atanhTerms n (k + 1) zz ((pow * zz) >>> fixBits) (acc + pow / (2 * k + 1))

/-- The natural logarithm of `m · 2^e` for m ≠ 0, as a value with a sticky lowest bit; ln 1 is exact. -/
def lnNum (m : Nat) (e : Int) : Num :=
  let k := Nat.log2 m
  let y := m * 2 ^ fixBits / 2 ^ k
  let one := 2 ^ fixBits
  let z := (y - one) * one / (y + one)
  let v : Int := (e + k) * (ln2Fix : Int) + ((2 * atanhTerms 70 0 ((z * z) >>> fixBits) z 0 : Nat) : Int)
  if v = 0 then .fin false 0 0 else .fin (decide (v < 0)) (2 * v.natAbs + 1) (-(fixBits : Int) - 1)

/-- R222: the natural logarithm of a positive FP32 value, at most 2 ulp off; the engine's choice is free. -/
def f32Ln (c : ArithCtl) (x : FNum) : FNum :=
  match x.1 with
  | .nan => (.nan, x.2)
  | .inf true => (.nan, x.2)
  | .inf false => (.inf false, x.2)
  | .fin _ 0 _ => (numNegInf, x.2)
  | .fin true _ _ => (.nan, x.2)
  | .fin false m e =>
    match lnNum m e with
    | .fin n v q =>
      let y := FNum.ofFlagged x.2 (specialPut ffFp32 c 2 (Config.specialUlp 3 32 (f32Bits x.1)) (.fin false v q))
      if n then (y.1.neg, y.2) else y
    | y => (y, x.2)

end Sys2Proof.Machine
end

