-- ==== Sys2Proof/Machine/GlenOps.lean ====
section
/-! DEFINITION. The Glen attention engine (R221 to R245): the body of a GLEN command and its checks, the placement of its
items, and the forward, backward and combining computations. -/

namespace Sys2Proof.Machine

/-! ## The body (R223, R224) -/

/-- The body of a GLEN command. -/
structure Glen where
  mode : Nat
  paged : Bool
  mask : Nat
  append : Bool
  advance : Bool
  hd : Nat
  g : Nat
  h : Nat
  layer : Nat
  scale : Nat
  window : Nat
  qlen : Nat
  klen : Nat
  descTable : Nat
  descCount : Nat
  slots : List Nat
  kvh : Nat
  maskBase : Nat
  maskCount : Nat
  deriving DecidableEq, Repr

/-- R223: the fields of a body. -/
def glenBody (w : List Nat) : Glen :=
  let a := word w 8
  { mode := bits a 1 0, paged := bit a 2, mask := bits a 4 3, append := bit a 5, advance := bit a 6
    hd := if bit a 8 then 128 else 64, g := bits a 13 9, h := bits a 18 14, layer := bits a 47 32
    scale := bits (word w 9) 31 0, window := bits (word w 9) 63 32, qlen := bits (word w 10) 31 0
    klen := bits (word w 10) 63 32, descTable := bits (word w 11) 47 0, descCount := bits (word w 11) 54 48
    slots := (List.range 9).map fun n => bits (word w 12) (6 * n + 5) (6 * n)
    kvh := bits (word w 13) 47 0, maskBase := bits (word w 14) 47 0, maskCount := bits (word w 15) 31 0 }

/-- R223: slot `n` is present. -/
def Glen.has (b : Glen) (n : Nat) : Bool := decide (b.slots.getD n 0x3F ≠ 0x3F)

/-- The descriptor of slot `n`. -/
def State.glenDesc (s : State) (b : Glen) (n : Nat) : TDesc := tdesc (s.num (b.descTable + 32 * b.slots.getD n 0) 32)

/-- R224: the presence of slot `n` that a mode asks for: required (some true), absent (some false), or optional. -/
def glenNeeds (mode n : Nat) : Option Bool :=
  match mode with
  | 0 => if n = 0 ∨ n = 3 then some true else if n = 4 ∨ n = 1 ∨ n = 2 then none else some false
  | 1 => some true
  | _ => if n = 0 ∨ n = 1 ∨ n = 3 then some true else if n = 4 then none else some false

/-- R224: the formats of slot `n`. -/
def Glen.formatOk (b : Glen) (n : Nat) (f : Fmt) : Bool :=
  let wide := [Fmt.fp16, .bf16, .fp32].contains f
  match n with
  | 0 => if b.mode = 2 then wide else [Fmt.e4m3, .e5m2, .fp16, .bf16, .log8].contains f
  | 1 => if b.mode = 2 then decide (f = .fp32)
    else [Fmt.e4m3, .e5m2, .log8].contains f || (!b.paged && [Fmt.fp16, .bf16].contains f)
  | 2 => [Fmt.e4m3, .e5m2, .log8].contains f || (!b.paged && [Fmt.fp16, .bf16].contains f)
  | 3 | 5 => wide
  | 4 => decide (f = .fp32)
  | _ => [Fmt.bf16, .fp32].contains f

/-- R224: slot `n` holds statistics. -/
def Glen.isStats (b : Glen) (n : Nat) : Bool := decide (n = 4) || (decide (b.mode = 2) && decide (n = 1))

/-- R224: slot `n` is written. -/
def Glen.isOut (b : Glen) (n : Nat) : Bool :=
  if b.mode = 1 then decide (6 ≤ n) else decide (n = 3) || decide (n = 4)

/-- The slots that are present. -/
def Glen.present (b : Glen) : List Nat := (List.range 9).filter b.has

/-- R225: B: OUTER of I1 divided by H. -/
def State.glenB (s : State) (b : Glen) : Nat := if b.h = 0 then 0 else (s.glenDesc b 1).outer / b.h

/-- R225: the matrices and rows that the numbering reaches in slot `n`, for a context list of `c` entries. -/
def State.glenReach (s : State) (b : Glen) (c n : Nat) : Nat × Nat :=
  let keys := decide (n = 1) || decide (n = 2) || decide (n = 7) || decide (n = 8)
  if b.mode = 2 then (if n < 2 then ((s.glenDesc b 0).outer, b.qlen) else (1, b.qlen))
  else if b.paged then (1, if keys then b.h * c * b.qlen else b.h * c * b.g * b.qlen)
  else if keys then (s.glenB b * b.h, b.klen) else (s.glenB b * b.h * b.g, b.qlen)

/-- R225, R228: the rows of the command. -/
def State.glenRows (s : State) (b : Glen) (c : Nat) : Nat :=
  if b.mode = 2 then b.qlen else (if b.paged then c else s.glenB b) * b.h * b.g * b.qlen

/-- R228: the mask list as (ROW, KFIRST, KLAST). -/
def State.maskList (s : State) (b : Glen) : List (Nat × Nat × Nat) :=
  (List.range b.maskCount).map fun i =>
    let w := s.num (b.maskBase + 16 * i + 8) 8
    (bits (s.num (b.maskBase + 16 * i) 8) 31 0, bits w 31 0, bits w 63 32)

/-- R229: the placement entry of head `h` for candidate map `i`. -/
def State.placement (s : State) (b : Glen) (i h : Nat) : Nat := s.num (b.kvh + 0x80 * i + 8 * h) 8

/-- R231: the ROWs of a list rise, and no interval is empty. -/
def maskSorted : List (Nat × Nat × Nat) → Bool
  | [] => true
  | x :: t => decide (x.2.1 ≤ x.2.2) && (match t with
    | y :: _ => decide (x.1 ≤ y.1)
    | [] => true) && maskSorted t

/-- R224, R225, R231: the statuses of the checks of one slot. -/
def State.glenSlotFails (s : State) (b : Glen) (e : StartEnv) (n : Nat) : List Nat :=
  failIf (match glenNeeds b.mode n with
    | some x => decide (b.has n ≠ x)
    | none => false) 0x0F ++
  (if !b.has n then []
  else if b.descCount ≤ b.slots.getD n 0 then [2]
  else
    let d := s.glenDesc b n
    let reach := s.glenReach b (wCtxCount e.w) n
    failIf (decide (d.space ≠ 0) || d.sparse || decide (d.cols ≠ if b.isStats n then 4 else b.hd)) 0x0F ++
    failIf (match fmtOf d.fmt with
      | some f => !b.formatOk n f
      | none => true) 0x0C ++
    failIf (decide (reach.1 * reach.2 ≠ 0) && (decide (d.outer < reach.1) || decide (d.rows < reach.2))) 2 ++
    failIf (b.isOut n && d.parts.any fun p => !e.outs.any fun o => inside p.1 p.2 o.1 o.2) 4)

/-- R231: the statuses of the checks of the placement. -/
def State.glenPlaceFails (s : State) (b : Glen) (e : StartEnv) : List Nat :=
  let a := b.kvh + 0x80 * e.map.idx
  let st := s.tableRead e.cmd.ref a 0x80
  failIf (decide (b.kvh % 64 ≠ 0)) 3 ++ tablePlace a 0x80 ++
  (if st ≠ 0 then [st] else
    failIf ((List.range 16).any fun h =>
      let m := s.placement b e.map.idx h
      if h < b.h then decide (m = 0) || decide (m &&& e.map.glenLeas ≠ m) else decide (m ≠ 0)) 0x0F)

/-- R228, R231: the statuses of the checks of the mask list. -/
def State.glenMaskFails (s : State) (b : Glen) (e : StartEnv) : List Nat :=
  let st := s.tableRead e.cmd.ref b.maskBase (16 * b.maskCount)
  failIf (decide (b.maskBase % 64 ≠ 0)) 3 ++
  failIf (decide (b.mask ≠ 3) && (decide (b.maskBase ≠ 0) || decide (b.maskCount ≠ 0))) 0x0F ++
  tablePlace b.maskBase (16 * b.maskCount) ++
  (if st ≠ 0 then [st] else
    let l := s.maskList b
    failIf (!maskSorted l || (List.range b.maskCount).any fun i =>
      decide (bits (s.num (b.maskBase + 16 * i) 8) 63 32 ≠ 0)) 0x0F ++
    failIf (l.any fun x => decide (s.glenRows b (wCtxCount e.w) ≤ x.1)) 2)

/-- R125, R231, R241, R243: the statuses of the checks of a GLEN body. -/
def State.glenFails (s : State) (e : StartEnv) : List Nat :=
  let w := e.w
  let b := glenBody w
  let st := s.tableRead e.cmd.ref b.descTable (32 * min b.descCount 64)
  failIf (bit (word w 8) 7 || decide (bits (word w 8) 31 19 ≠ 0) || decide (bits (word w 8) 63 48 ≠ 0)
    || decide (bits (word w 11) 63 55 ≠ 0) || decide (bits (word w 12) 63 54 ≠ 0) || decide (bits (word w 13) 63 48 ≠ 0)
    || decide (bits (word w 14) 63 48 ≠ 0) || decide (bits (word w 15) 63 32 ≠ 0) || decide (b.mode = 3)
    || (match floatNum ffFp32 b.scale with
      | .fin false m _ => decide (m = 0)
      | _ => true)
    || (decide (b.window ≠ 0) && decide (b.mask ≠ 2))
    || (b.paged && decide (b.klen ≠ 0)) || (!b.paged && decide (wCtxCount w ≠ 0))
    || ((b.append || b.advance) && !b.paged) || (b.advance && !b.append) || (b.append && !b.has 1)
    || (decide (b.mode = 0) && (decide (b.has 1 ≠ b.has 2) || (!b.paged && !b.has 1)))
    || (decide (b.mode = 1) && (decide (e.job.kind ≠ 1) || b.paged || b.append || b.advance))
    || (decide (b.mode = 2) && (b.paged || decide (b.mask ≠ 0) || decide (b.h ≠ 1) || decide (b.g ≠ 1) || b.append
      || b.advance))) 0x0F ++
  failIf (decide (16 < b.g) || decide (16 < b.h) || decide (64 < b.descCount)
    || [b.window, b.qlen, b.klen, bits (word w 15) 31 0].any (allOnes 32)) 2 ++
  failIf (decide (b.mode = 1) && decide (256 < b.g * b.qlen)) 2 ++
  failIf (decide (b.descTable % 64 ≠ 0)) 3 ++ tablePlace b.descTable (32 * b.descCount) ++
  s.glenPlaceFails b e ++ s.glenMaskFails b e ++
  (if st ≠ 0 then [st] else
    ((List.range (min b.descCount 64)).flatMap fun i => descFails (s.num (b.descTable + 32 * i) 32)) ++
    ((List.range 9).flatMap (s.glenSlotFails b e)) ++
    (if b.has 1 && b.has 2 && decide (b.mode ≠ 2) then
      failIf (decide ((s.glenDesc b 1).fmt ≠ (s.glenDesc b 2).fmt)) 0x0C else []) ++
    failIf (!b.paged && decide (b.mode ≠ 2) && decide (b.h ≠ 0) && b.has 1 && b.has 0
      && (decide ((s.glenDesc b 1).outer % b.h ≠ 0)
        || decide ((s.glenDesc b 0).outer ≠ s.glenB b * b.h * b.g))) 0x0F ++
    (if b.mode = 2 then
      failIf (decide ((s.glenDesc b 0).outer ≠ (s.glenDesc b 1).outer)) 0x0F ++
      failIf (decide (64 < (s.glenDesc b 0).outer)) 2
    else []))

/-! ## Items and their engines (R225, R229) -/

/-- R231: the command computes nothing. -/
def Glen.nothing (b : Glen) : Bool := decide (b.g = 0) || decide (b.h = 0) || decide (b.qlen = 0)

/-- R229: the engines of a mask, as 16d + l, in increasing bit order. -/
def maskBits (m : Nat) : List Nat := (List.range 64).filter fun b => bit m b

/-- R229: the items as (head, entry or batch or block, engine), in the order in which the engines run them. `xs` are the
remaining entries, batches or blocks. -/
def State.glenItems (s : State) (b : Glen) (mapIdx : Nat) (xs : List Nat) : List (Nat × Nat × Nat) :=
  if b.nothing then []
  else (List.range b.h).flatMap fun h =>
    let es := maskBits (s.placement b mapIdx h)
    (List.range xs.length).map fun k => (h, xs.getD k 0, es.getD (k % es.length) 0)

/-- R160, R172, R229: the indices of the remaining entries of a command's context list. -/
def State.entriesLeft (s : State) (c : Cmd) : List Nat :=
  let l := s.ctxEntries c.words
  (List.range l.length).filter fun e => c.ctxs.contains (l.getD e 0)

/-- R225: what the items of a command range over beside the head. -/
def State.glenXs (s : State) (c : Cmd) (b : Glen) : List Nat :=
  if b.mode = 2 then List.range ((b.qlen + 63) / 64)
  else if b.paged then s.entriesLeft c else List.range (s.glenB b)

/-- R225: matrix and row of query row (h, x, g, t); `c` is CTX_COUNT. -/
def Glen.qAt (b : Glen) (c h x g t : Nat) : Nat × Nat :=
  if b.paged then (0, ((h * c + x) * b.g + g) * b.qlen + t) else ((x * b.h + h) * b.g + g, t)

/-- R225: matrix and row of new key `t` of item (h, x), or of key `t` with PAGED 0. -/
def Glen.kAt (b : Glen) (c h x t : Nat) : Nat × Nat :=
  if b.paged then (0, (h * c + x) * b.qlen + t) else (x * b.h + h, t)

/-! ## Reading (R232) -/

/-- An element as the engine reads it: its value in FP32. -/
def State.glenElem (s : State) (ac : ArithCtl) (d : TDesc) (o r col : Nat) : FNum :=
  let e := d.elem o r col
  let x := readElem d.format ac.ftz (s.num e.1 (d.format.width / 8))
  if d.format = .log8 then f32 ac x else x

/-- A row of a tensor. -/
def State.glenRow (s : State) (ac : ArithCtl) (d : TDesc) (at_ : Nat × Nat) : List FNum :=
  (List.range d.cols).map fun col => s.glenElem ac d at_.1 at_.2 col

/-- R250: row `t` of the keys (`off` 0) or values (`off` 0x2000) of a frame. -/
def State.frameRow (s : State) (ac : ArithCtl) (f : Fmt) (hd frame off t : Nat) : List FNum :=
  (List.range hd).map fun col =>
    let x := readElem f ac.ftz (s.num (s.frameAddr frame + off + b4Index hd t col) 1)
    if f = .log8 then f32 ac x else x

/-- A key with its position, its row and its value row. -/
structure GKey where
  pos : Nat
  k : List FNum
  v : List FNum
  deriving DecidableEq, Repr

/-- A list cut into blocks of at most `n`. -/
def blocksOf {α : Type} (n : Nat) : Nat → List α → List (List α)
  | 0, _ => []
  | f + 1, l => if l.isEmpty then [] else l.take n :: blocksOf n f (l.drop n)

/-- The pages that `te` positions take at `cap` to a page. -/
def pagesFor (te cap : Nat) : Nat := (te + cap - 1) / cap

/-- R226, R230: the page entries of the layer that a command reads, page by page and head by head, as its start finds them. -/
def State.pageSnap (s : State) (b : Glen) (root te : Nat) : List Nat :=
  let d := s.pdir root
  if !b.paged || decide (te = 0) then []
  else (List.range (min d.maxPages (pagesFor te d.cap))).flatMap fun n => (List.range b.h).map fun h =>
    s.num (pageEntryAt (s.pageList root b.layer) d.heads n h) 4

/-- The page entry of page `n` and head `h` in what a start kept. -/
def Glen.pageEntry (b : Glen) (pages : List Nat) (n h : Nat) : Nat := pages.getD (n * b.h + h) 0

/-- R254: the pages of head `h` that hold positions below `te`: page number and frame, for the VALID entries. -/
def Glen.pages (b : Glen) (pages : List Nat) (cap te h : Nat) : List (Nat × Nat) :=
  (List.range (pagesFor te cap)).filterMap fun n =>
    let e := b.pageEntry pages n h
    if bit e 31 then some (n, bits e 21 0) else none

/-- The new keys of an item, or its keys with PAGED 0; `base` is the position of the first. -/
def State.glenNew (s : State) (ac : ArithCtl) (b : Glen) (c h x base n : Nat) : List GKey :=
  (List.range n).map fun t =>
    ⟨base + t, s.glenRow ac (s.glenDesc b 1) (b.kAt c h x t), s.glenRow ac (s.glenDesc b 2) (b.kAt c h x t)⟩

/-- R226, R233: the key blocks of an item. -/
def State.glenBlocks (s : State) (ac : ArithCtl) (b : Glen) (c h x : Nat) (n : EntrySnap) : List (List GKey) :=
  if b.paged then
    let d := s.pdir n.root
    let f := (fmtOf d.fmt).getD .e4m3
    let old := (b.pages n.pages d.cap n.te h).map fun p =>
      (List.range (min d.cap (n.te - p.1 * d.cap))).map fun t =>
        GKey.mk (p.1 * d.cap + t) (s.frameRow ac f d.hd p.2 0 t) (s.frameRow ac f d.hd p.2 0x2000 t)
    old ++ (if b.has 1 then blocksOf 64 (b.qlen + 1) (s.glenNew ac b c h x n.te b.qlen) else [])
  else blocksOf 64 (b.klen + 1) (s.glenNew ac b c h x 0 b.klen)

/-- R227: key position `j` is allowed for query position `i`, of row number `r`. -/
def Glen.allows (b : Glen) (ml : List (Nat × Nat × Nat)) (r : Nat) (i : Int) (j : Nat) : Bool :=
  match b.mask with
  | 0 => true
  | 1 => decide ((j : Int) ≤ i)
  | 2 => decide (i - b.window < (j : Int)) && decide ((j : Int) ≤ i)
  | _ => ml.any fun e => decide (e.1 = r) && decide (e.2.1 ≤ j) && decide (j ≤ e.2.2)

/-- R226: the position of query `t`. -/
def Glen.qPos (b : Glen) (te t : Nat) : Int := if b.paged then (te + t : Nat) else (b.klen : Int) - b.qlen + t

/-! ## Forward (R232 to R235) -/

/-- R232: exact products added to a running sum four at a time, each group rounded once. -/
def dot4 (ac : ArithCtl) : Nat → FNum → List FNum → List FNum → FNum
  | 0, acc, _, _ => acc
  | f + 1, acc, xs, ys =>
    if xs.isEmpty then acc
    else
      let ps := ((xs.take 4).zip (ys.take 4)).map fun p => FNum.op Num.mul p.1 p.2
      dot4 ac f (f32 ac (numSum (acc.1 :: ps.map (·.1)), acc.2 ||| flagsOf ps)) (xs.drop 4) (ys.drop 4)

/-- R232: the score of a query row and a key row. -/
def score (ac : ArithCtl) (scale : Num) (q k : List FNum) : FNum :=
  f32Mul ac (dot4 ac q.length (.of numZero) q k) (.of scale)

/-- The state of one row (R233); `bad` once a score or value was NaN or infinite (R235), `n` its allowed keys, and the flags of
all its work so far. -/
structure GRow where
  m : FNum
  l : FNum
  acc : List FNum
  bad : Bool
  n : Nat
  flags : BitVec 8
  deriving DecidableEq, Repr

/-- R233: a row before its first key block. -/
def GRow.fresh (hd : Nat) : GRow := ⟨.of numNegInf, .of numZero, List.replicate hd (.of numZero), false, 0, 0⟩

/-- R51, R222, R233: one element of a row's accumulators with the keys of a block. DEDUCED (assumption 113): these are FP32
accumulators in the sense of R51. -/
def accBlock (ac : ArithCtl) (c : FNum) (ps vs : List FNum) (a : FNum) : FNum :=
  (ps.zip vs).foldl (fun a p => f32Acc ac (.op Num.add a (.op Num.mul p.1 p.2))) (f32Acc ac (.op Num.mul a c))

/-- R233: one key block for one row; `ks` are the block's keys that the row allows. -/
def GRow.block (ac : ArithCtl) (scale : Num) (q : List FNum) (r : GRow) (ks : List GKey) : GRow :=
  match ks with
  | [] => r
  | _ =>
    let ss := ks.map fun k => score ac scale q k.k
    let fl := r.flags ||| flagsOf ss ||| flagsOf (ks.flatMap (·.v))
    if ss.any (fun x => !x.1.finite) || ks.any (fun k => k.v.any fun x => !x.1.finite) then
      { r with bad := true, n := r.n + ks.length, flags := fl }
    else
      let mNew := ss.foldl (FNum.op Num.maxOf) r.m
      let c := if r.m.1 = numNegInf then .of numZero else f32Exp ac (f32Sub ac r.m mNew)
      let ps := ss.map fun x => f32Exp ac (f32Sub ac x mNew)
      let l := f32Sum ac (f32Mul ac r.l c) ps
      let acc := (List.range r.acc.length).map fun d =>
        accBlock ac c ps (ks.map fun k => k.v.getD d (.of numZero)) (r.acc.getD d (.of numZero))
      ⟨mNew, l, acc, r.bad, r.n + ks.length, fl ||| l.2 ||| flagsOf acc⟩

/-- A finished row: its outputs, its statistics, whether it is empty, whether it was not compared (R235), and the flags of its
work. -/
structure GOut where
  o : List Num
  stats : List Num
  empty : Bool
  bad : Bool
  flags : BitVec 8
  deriving DecidableEq, Repr

/-- R234: an empty row. -/
def gEmpty (hd : Nat) : GOut := ⟨List.replicate hd numZero, [numNegInf, numZero, numNegInf, numZero], true, false, 0⟩

/-- R235: a row of NaN. -/
def gNan (hd : Nat) (fl : BitVec 8) : GOut :=
  ⟨List.replicate hd .nan, [.nan, .nan, .nan, numZero], false, true, fl ||| flagNanOut⟩

/-- A row of results. -/
def gRow (o : List FNum) (m l lse : FNum) (fl : BitVec 8) : GOut :=
  ⟨o.map (·.1), [m.1, l.1, lse.1, numZero], false, false, fl ||| flagsOf o ||| lse.2⟩

/-- R233 to R235: the end of a row. -/
def GRow.finish (ac : ArithCtl) (hd : Nat) (r : GRow) : GOut :=
  if r.bad then gNan hd r.flags
  else if r.n = 0 then gEmpty hd
  else gRow (r.acc.map fun x => f32Div ac x r.l) r.m r.l (f32Add ac r.m (f32Ln ac r.l)) r.flags

/-- R233: one row over the key blocks. -/
def glenForward (ac : ArithCtl) (b : Glen) (ml : List (Nat × Nat × Nat)) (blocks : List (List GKey)) (row : Nat)
    (i : Int) (q : List FNum) : GOut :=
  let scale := floatNum ffFp32 b.scale
  (blocks.foldl (fun r bl => r.block ac scale q (bl.filter fun k => b.allows ml row i k.pos)) (GRow.fresh b.hd)).finish ac b.hd

/-! ## Combining (R243) -/

/-- R243: one row from its partials: statistics (m, l, LSE) and output rows. A partial with m = −∞ has weight 0; a single
partial is copied. -/
def glenCombine (ac : ArithCtl) (hd : Nat) (ps : List (List FNum × List FNum)) : GOut :=
  let zero := FNum.of numZero
  let fl := flagsOf (ps.flatMap fun p => p.1.take 3 ++ p.2)
  if ps.any (fun p => (p.1.take 3).any (·.1.isNan) || p.2.any (·.1.isNan)) then gNan hd fl
  else
    let m := fun (p : List FNum × List FNum) => p.1.getD 0 (.of numNegInf)
    let mx := ps.foldl (fun x p => FNum.op Num.maxOf x (m p)) (.of numNegInf)
    if mx.1 = numNegInf then { gEmpty hd with flags := fl }
    else match ps with
    | [p] => gRow p.2 (m p) (p.1.getD 1 zero) (p.1.getD 2 zero) fl
    | _ =>
      let ws := ps.map fun p => if (m p).1 = numNegInf then zero else f32Mul ac (p.1.getD 1 zero) (f32Exp ac (f32Sub ac (m p) mx))
      let l := f32Sum ac zero ws
      let o := (List.range hd).map fun d => f32Div ac ((ws.zip ps).foldl (fun a p =>
        if (m p.2).1 = numNegInf then a else f32Fma ac a p.1 (p.2.2.getD d zero)) zero) l
      gRow o mx l (f32Add ac mx (f32Ln ac l)) (fl ||| l.2)

/-! ## Backward (R242) -/

/-- Sums of a row vector scaled, each step a fused multiply-add. -/
def axpy (ac : ArithCtl) (acc : List FNum) (x : FNum) (v : List FNum) : List FNum :=
  (List.range acc.length).map fun d => f32Fma ac (acc.getD d (.of numZero)) x (v.getD d (.of numZero))

/-- R242: a dot product in increasing index, each step rounded once. -/
def dotSeq (ac : ArithCtl) (xs ys : List FNum) : FNum :=
  (xs.zip ys).foldl (fun a p => f32Fma ac a p.1 p.2) (.of numZero)

/-- One query row of the backward pass. -/
structure BRow where
  row : Nat
  pos : Int
  q : List FNum
  o : List FNum
  go : List FNum
  m : FNum
  lse : FNum
  deriving DecidableEq, Repr

/-- R227: the keys that a row allows. -/
def BRow.keys (b : Glen) (ml : List (Nat × Nat × Nat)) (keys : List GKey) (r : BRow) : List GKey :=
  keys.filter fun k => b.allows ml r.row r.pos k.pos

/-- R235, R242: the row is one of R235. -/
def BRow.bad (ac : ArithCtl) (b : Glen) (ml : List (Nat × Nat × Nat)) (keys : List GKey) (r : BRow) : Bool :=
  r.m.1.isNan || (r.keys b ml keys).any fun k =>
    !(score ac (floatNum ffFp32 b.scale) r.q k.k).1.finite || k.v.any fun x => !x.1.finite

/-- R70: the flags of what a row reads and of its scores. -/
def BRow.inFlags (ac : ArithCtl) (b : Glen) (ml : List (Nat × Nat × Nat)) (keys : List GKey) (r : BRow) : BitVec 8 :=
  flagsOf (r.o ++ r.go ++ [r.m, r.lse]) |||
    flagsOf ((r.keys b ml keys).flatMap fun k => score ac (floatNum ffFp32 b.scale) r.q k.k :: k.v)

/-- R242: what row `r` adds for key `k`: to dq of the row, and to dk and dv of the key. -/
def BRow.step (ac : ArithCtl) (b : Glen) (r : BRow) (k : GKey) (dq dk dv : List FNum) : List FNum × List FNum × List FNum :=
  let scale := floatNum ffFp32 b.scale
  let p := f32Exp ac (f32Sub ac (score ac scale r.q k.k) r.lse)
  let delta := dotSeq ac r.go r.o
  let ds := f32Mul ac p (f32Sub ac (dotSeq ac r.go k.v) delta)
  let t := f32Mul ac (.of scale) ds
  (axpy ac dq t k.k, axpy ac dk t r.q, axpy ac dv p r.go)

/-- R242: dq of one row, over the keys in order. -/
def glenDq (ac : ArithCtl) (b : Glen) (ml : List (Nat × Nat × Nat)) (keys : List GKey) (r : BRow) : List FNum :=
  let zero := List.replicate b.hd (FNum.of numZero)
  if r.bad ac b ml keys then List.replicate b.hd (.of .nan)
  else if r.m.1 = numNegInf then zero
  else (r.keys b ml keys).foldl (fun dq k => (r.step ac b k dq zero zero).1) zero

/-- R242: dk and dv of one key, over the rows in order. -/
def glenDkv (ac : ArithCtl) (b : Glen) (ml : List (Nat × Nat × Nat)) (keys : List GKey) (rows : List BRow) (k : GKey) :
    List FNum × List FNum :=
  let zero := List.replicate b.hd (FNum.of numZero)
  let hit := rows.filter fun r => b.allows ml r.row r.pos k.pos
  if hit.any fun r => r.bad ac b ml keys then (List.replicate b.hd (.of .nan), List.replicate b.hd (.of .nan))
  else (hit.filter fun r => decide (r.m.1 ≠ numNegInf)).foldl (fun a r => (r.step ac b k zero a.1 a.2).2) (zero, zero)

end Sys2Proof.Machine
end

