-- ==== Sys2Proof/Machine/Glen.lean ====
section
/-! DEFINITION. The Glen engines at work: what the start of a GLEN command takes (R230, R258, R261), an engine's part
(R233, R236 to R239, R242, R243), validation and effects at commit (R238, R258, R261, R264), and the checks' registers
(R240, R246, R247). -/

namespace Sys2Proof.Machine

/-! ## What a start takes (R229, R230, R258, R261) -/

/-- R229: the engines that the placement names. -/
def State.glenEngines (s : State) (b : Glen) (mapIdx : Nat) : List Nat :=
  if b.nothing then [] else maskBits ((List.range b.h).foldl (fun m h => m ||| s.placement b mapIdx h) 0)

/-- R226, R230, R258: the snapshot of a context. -/
def State.snapshot (s : State) (b : Glen) (c : Nat) : EntrySnap :=
  let w := s.ctx c
  ⟨c, ctxRoot w, (s.pdir (ctxRoot w)).gen, ctxTokens w, s.pageSnap b (ctxRoot w) (ctxTokens w)⟩

/-- R261: the frames that an appending command reserves for the contexts it acts for. -/
def State.kvNeed (s : State) (b : Glen) (ctxs : List Nat) : Nat :=
  if !b.append || b.nothing then 0
  else (ctxs.map fun c =>
    let w := s.ctx c
    let t := ctxTokens w
    let d := s.pdir (ctxRoot w)
    let up := fun n => (n + d.cap - 1) / d.cap
    b.h * (up (t + b.qlen) - up t + b2n (decide (t % d.cap ≠ 0)))
      + (if d.share && b.advance then (t + b.qlen) / d.cap - t / d.cap else 0)).sum

/-- R261: the reservation can be made. -/
def State.kvRoom (s : State) (n : Nat) : Bool := decide (n = 0) || decide (s.fld (aSch 0x810) 22 0 + n ≤ s.kvFree)

/-- R230, R259: a GLEN command waits for its engines, for another appending command on one of its contexts, or for a
publication that waits on one of them. -/
def State.glenWaits (s : State) (e : StartEnv) : Bool :=
  let b := glenBody e.w
  (s.glenEngines b e.map.idx).any (fun x => decide (s.fld (aGln (x / 16) (x % 16) 0) 1 0 ≠ 0)) ||
  (b.append && (s.inFlight.any (fun c => decide (c.kind = 1) && (glenBody c.words).append
      && c.ctxs.any fun x => e.ctxs.contains x)
    || match s.kv.waitingPublish with
      | some p => e.ctxs.contains p.1
      | none => false))

/-! ## An engine's part -/

/-- Who a Glen engine is (R442). -/
def whoGlen (d l : Nat) (r : CmdRef) : Who := ⟨initGlen d l, some r, false, false⟩

/-- The status of an access of an engine: that of the access, or poison that a read meets. -/
def State.spanStatus (s : State) (who : Who) (p : Bool × Nat × Nat) : Nat :=
  let st := s.access who p.1 p.2.1 p.2.2
  if st ≠ 0 then st else if !p.1 && s.readPoison p.2.1 p.2.2 then 5 else 0

/-- The status of a read that a walk makes. -/
def State.walkRead (s : State) (who : Who) (a n : Nat) : Nat := s.spanStatus who (false, a, n)

/-- R239, R254: what the walk of head `h` of an entry's tables meets: a status, 0 where it can read every page it
needs. `rows` are the row numbers and positions of the item's queries. -/
def State.glenWalk (s : State) (who : Who) (b : Glen) (ml : List (Nat × Nat × Nat)) (h layers : Nat) (n : EntrySnap)
    (rows : List (Nat × Int)) : Nat :=
  if layers ≤ b.layer then 2
  else
    let dirSt := s.walkRead who n.root 64
    if dirSt ≠ 0 then dirSt
    else
      let d := s.pdir n.root
      let list := s.pageList n.root b.layer
      if decide (d.hd ≠ b.hd) || decide (d.heads < b.h) || decide (d.layers ≠ layers)
          || (b.has 1 && decide (d.fmt ≠ (s.glenDesc b 1).fmt)) then 0x0F
      else if decide (d.maxPages * d.cap < n.te) then 2
      else
        let st := oneOf [s.walkRead who (n.root + 64 + 8 * b.layer) 8, s.walkRead who list 64]
        if st ≠ 0 then st
        else if bits (s.num list 8) 41 32 ≠ b.layer then 0x0F
        else oneOf ((List.range (pagesFor n.te d.cap)).map fun p =>
          let st := s.walkRead who (pageEntryAt list d.heads p h) 4
          let e := b.pageEntry n.pages p h
          let len := (min d.cap (n.te - p * d.cap) + 3) / 4 * 4 * b.hd
          if st ≠ 0 then st
          else if !bit e 31 then
            (if rows.any fun r => (List.range d.cap).any fun t => b.allows ml r.1 r.2 (p * d.cap + t) then 4 else 0)
          else if s.kvFrames ≤ bits e 21 0 then 4
          else oneOf [s.walkRead who (s.frameAddr (bits e 21 0)) len,
            s.walkRead who (s.frameAddr (bits e 21 0) + 0x2000) len])

/-- R69, R174: the draw of a unit that holds no thread slot, for an element that command `r` writes at `a`: the same in each
run of the command. -/
def State.engineDraw (s : State) (r : CmdRef) (a : Nat) : Nat :=
  Config.engineDraw ((s.curJob.map (·.serial)).getD 0) r.list r.idx a % 2 ^ 16

/-- The elements of a row written. -/
def State.writeRow (s : State) (d : TDesc) (at_ : Nat × Nat) (ys : List Flagged) : State :=
  (List.range d.cols).foldl (fun (s : State) col =>
    s.store (d.elem at_.1 at_.2 col).1 (leBytes (d.format.width / 8) (ys.getD col ⟨0, 0⟩).val)) s

/-- R69, R72: a row that an engine writes, and the flags of its conversions. -/
def State.putRow (s : State) (c : Cmd) (d : TDesc) (at_ : Nat × Nat) (xs : List Num) : State × BitVec 8 :=
  let ys := (List.range d.cols).map fun col =>
    putElem d.format c.arith (s.engineDraw c.ref (d.elem at_.1 at_.2 col).1) (xs.getD col numZero)
  (s.writeRow d at_ ys, ys.foldl (fun f y => f ||| y.flags) 0)

/-- The snapshot of an entry of the context list. -/
def State.entrySnap (s : State) (c : Cmd) (x : Nat) : EntrySnap :=
  (((s.entriesLeft c).zip c.snaps).find? fun p => decide (p.1 = x)).map (·.2) |>.getD snapNone

/-- R225: the query rows of item (h, x): (g, t), row number under R225, and where the row lies. -/
def State.itemRows (s : State) (b : Glen) (cc h x : Nat) : List (Nat × Nat × Nat) :=
  if b.mode = 2 then
    ((List.range 64).filter fun i => decide (64 * x + i < b.qlen)).map fun i => (64 * x + i, 0, 64 * x + i)
  else
    let n := if b.paged then cc else s.glenB b
    (List.range b.g).flatMap fun g => (List.range b.qlen).map fun t =>
      let at_ := b.qAt cc h x g t
      (if b.paged then at_.2 else ((x * b.h + h) * b.g + g) * b.qlen + t, if n = 0 then 0 else at_.1, at_.2)

/-- The slots an item reads by query row, by key row, and writes likewise. -/
def Glen.qIn (b : Glen) : List Nat := if b.mode = 1 then [0, 3, 4, 5] else [0]
/-- The slots an item writes by query row. -/
def Glen.qOut (b : Glen) : List Nat := (if b.mode = 1 then [6] else [3, 4]).filter b.has
/-- The slots an item reads by key row. -/
def Glen.kIn (b : Glen) : List Nat := [1, 2].filter b.has
/-- The slots an item writes by key row. -/
def Glen.kOut (b : Glen) : List Nat := if b.mode = 1 then [7, 8] else []

/-- The bytes of the block row that holds row `at_` of a tensor. -/
def TDesc.rowBytes (d : TDesc) (at_ : Nat × Nat) : Nat × Nat := ((d.elem at_.1 (at_.2 / 4 * 4) 0).1, 4 * d.cols * d.format.width / 8)

/-- The keys that an item reads from tensors. -/
def Glen.newKeys (b : Glen) : Nat := if b.mode = 2 then 0 else if b.paged then (if b.has 1 then b.qlen else 0) else b.klen

/-- The block rows that an item reads (false) and writes (true), each once. -/
def State.itemSpans (s : State) (c : Cmd) (b : Glen) (h x : Nat) : List (Bool × Nat × Nat) :=
  let cc := wCtxCount c.words
  let rows := s.itemRows b cc h x
  let span := fun (wr : Bool) (n : Nat) (at_ : Nat × Nat) => (wr, (s.glenDesc b n).rowBytes at_)
  ((if b.mode = 2 then (List.range (s.glenDesc b 0).outer).flatMap fun p => rows.flatMap fun r =>
      [span false 0 (p, r.2.2), span false 1 (p, r.2.2)]
    else rows.flatMap fun r => b.qIn.map fun n => span false n r.2) ++
    (List.range b.newKeys).flatMap (fun t => b.kIn.map fun n => span false n (b.kAt cc h x t)) ++
    rows.flatMap (fun r => b.qOut.map fun n => span true n r.2) ++
    (List.range b.newKeys).flatMap fun t => b.kOut.map fun n => span true n (b.kAt cc h x t)).eraseDups

/-- R239: what stops an item: a fault of its tensors, or of its entry's own structures. -/
def State.itemEnd (s : State) (c : Cmd) (b : Glen) (who : Who) (ml : List (Nat × Nat × Nat)) (h x : Nat) : PartEnd :=
  let st := oneOf ((s.itemSpans c b h x).map (s.spanStatus who))
  if st ≠ 0 then .fault st
  else if !b.paged then .done
  else
    let n := s.entrySnap c x
    let q := (s.itemRows b (wCtxCount c.words) h x).map fun r => (r.1, b.qPos n.te (if b.qlen = 0 then 0 else r.1 % b.qlen))
    let w := s.glenWalk who b ml h (ctxLayers (s.ctx n.ctx)) n q
    if w = 0 then .done else if w = 8 then .fault 8 else .attributed n.ctx w

/-- R237, R373, R376: the lines that an item reads and writes are charged: its tensors, and in each pass the pages. -/
def State.itemCharge (s : State) (c : Cmd) (b : Glen) (h x : Nat) : State :=
  let s := (s.itemSpans c b h x).foldl (fun s p => s.chargeLines c.ref p.1 p.2.1 p.2.2) s
  if !b.paged then s
  else
    let n := s.entrySnap c x
    let d := s.pdir n.root
    let passes := ((s.itemRows b (wCtxCount c.words) h x).length + 255) / 256
    (List.range passes).foldl (fun s _ => (b.pages n.pages d.cap n.te h).foldl (fun s p =>
      let len := (min d.cap (n.te - p.1 * d.cap) + 3) / 4 * 4 * b.hd
      (s.chargeLines c.ref false (s.frameAddr p.2) len).chargeLines c.ref false (s.frameAddr p.2 + 0x2000) len) s) s

/-- What items add to their engine: empty rows, pages, rows not compared, flags, and the checks that some row passed through: the
score check, the value check, the row state (R240, R247). -/
structure ItemSum where
  empty : Nat
  pages : Nat
  skips : Nat
  flags : BitVec 8
  score : Bool
  value : Bool
  rows : Bool
  deriving DecidableEq, Repr

/-- Nothing. -/
def itemZero : ItemSum := ⟨0, 0, 0, 0, false, false, false⟩

/-- Two sums together. -/
def ItemSum.join (a z : ItemSum) : ItemSum :=
  ⟨a.empty + z.empty, a.pages + z.pages, a.skips + z.skips, a.flags ||| z.flags, a.score || z.score, a.value || z.value,
    a.rows || z.rows⟩

/-- R233, R243: a forward or combining item computed and written. -/
def State.itemForward (s : State) (c : Cmd) (b : Glen) (ml : List (Nat × Nat × Nat)) (h x : Nat) : State × ItemSum :=
  let ac := c.arith
  let cc := wCtxCount c.words
  let n := s.entrySnap c x
  let blocks := if b.mode = 2 then [] else s.glenBlocks ac b cc h x n
  let out := fun (r : Nat × Nat × Nat) =>
    if b.mode = 2 then
      glenCombine ac b.hd ((List.range (s.glenDesc b 0).outer).map fun p =>
        (s.glenRow ac (s.glenDesc b 1) (p, r.2.2), s.glenRow ac (s.glenDesc b 0) (p, r.2.2)))
    else glenForward ac b ml blocks r.1 (b.qPos n.te (r.1 % b.qlen)) (s.glenRow ac (s.glenDesc b 0) r.2)
  let rows := s.itemRows b cc h x
  let outs := rows.map fun r => (r, out r)
  let s' := outs.foldl (fun (a : State × BitVec 8) p =>
    let (t, f) := a.1.putRow c (s.glenDesc b 3) p.1.2 p.2.o
    let (t, f) := if b.has 4 then
        let (t, g) := t.putRow c (s.glenDesc b 4) p.1.2 p.2.stats
        (t, f ||| g)
      else (t, f)
    (t, a.2 ||| f ||| p.2.flags)) (s, 0)
  let pages := if b.paged then (b.pages n.pages (s.pdir n.root).cap n.te h).length * ((rows.length + 255) / 256) else 0
  let checked := decide (b.mode ≠ 2) && outs.any fun p => !p.2.empty && !p.2.bad
  (s'.1, ⟨(outs.filter fun p => p.2.empty).length, pages, (outs.filter fun p => p.2.bad).length, s'.2, checked, checked,
    !rows.isEmpty⟩)

/-- R242: a backward item computed and written. Its scores pass through the score stage. -/
def State.itemBackward (s : State) (c : Cmd) (b : Glen) (ml : List (Nat × Nat × Nat)) (h x : Nat) : State × ItemSum :=
  let ac := c.arith
  let keys := s.glenNew ac b 0 h x 0 b.klen
  let rows := (s.itemRows b 0 h x).map fun r =>
    let st := s.glenRow ac (s.glenDesc b 4) r.2
    (r, BRow.mk r.1 (b.qPos 0 (r.1 % b.qlen)) (s.glenRow ac (s.glenDesc b 0) r.2) (s.glenRow ac (s.glenDesc b 3) r.2)
      (s.glenRow ac (s.glenDesc b 5) r.2) (st.getD 0 (.of .nan)) (st.getD 2 (.of .nan)))
  let brs := rows.map (·.2)
  let put := fun (a : State × BitVec 8) (n : Nat) (at_ : Nat × Nat) (l : List FNum) =>
    let (t, f) := a.1.putRow c (s.glenDesc b n) at_ (l.map (·.1))
    (t, a.2 ||| f ||| flagsOf l)
  let a := rows.foldl (fun a r => put a 6 r.1.2 (glenDq ac b ml keys r.2)) (s, 0)
  let a := keys.foldl (fun (a : State × BitVec 8) k =>
    let (dk, dv) := glenDkv ac b ml keys brs k
    put (put a 7 (b.kAt 0 h x k.pos) dk) 8 (b.kAt 0 h x k.pos) dv) a
  (a.1, ⟨(brs.filter fun r => decide (r.m.1 = numNegInf)).length, 0, (brs.filter fun r => r.bad ac b ml keys).length,
    brs.foldl (fun f r => f ||| r.inFlags ac b ml keys) a.2,
    brs.any fun r => decide (r.m.1 ≠ numNegInf) && !r.bad ac b ml keys && !(r.keys b ml keys).isEmpty, false, !brs.isEmpty⟩)

/-- R236: the rows of removed entries are written as empty rows, and padding rows as zero; with the flags of the former. -/
def State.glenPad (s : State) (c : Cmd) (b : Glen) : State × BitVec 8 :=
  let cc := wCtxCount c.words
  let gone := if b.paged then (List.range cc).filter fun e => !(s.entriesLeft c).contains e else []
  let e := gEmpty b.hd
  let rows := gone.flatMap fun x => (List.range b.h).flatMap fun h => s.itemRows b cc h x
  let (s, fl) := rows.foldl (fun (a : State × BitVec 8) r =>
    let (t, f) := a.1.putRow c (s.glenDesc b 3) r.2 e.o
    let (t, g) := if b.has 4 then t.putRow c (s.glenDesc b 4) r.2 e.stats else (t, 0)
    (t, a.2 ||| f ||| g)) (s, 0)
  ((b.present.filter b.isOut).foldl (fun s n =>
    let d := s.glenDesc b n
    let reach := s.glenReach b cc n
    (List.range reach.1).foldl (fun s o => (List.range (d.rows - reach.2)).foldl (fun s r =>
      s.writeRow d (o, reach.2 + r) []) s) s) s, fl)

/-- The items of an engine in order, until one cannot be finished. -/
def State.glenRun (s : State) (c : Cmd) (b : Glen) (who : Who) (ml : List (Nat × Nat × Nat)) :
    List (Nat × Nat) → State × ItemSum × PartEnd
  | [] => (s, itemZero, .done)
  | i :: t =>
    match s.itemEnd c b who ml i.1 i.2 with
    | .done =>
      let (s, a) := (if b.mode = 1 then s.itemBackward c b ml i.1 i.2 else s.itemForward c b ml i.1 i.2)
      let (s, z, e) := (s.itemCharge c b i.1 i.2).glenRun c b who ml t
      (s, a.join z, e)
    | e => (s, itemZero, e)

/-- R246, R247: GLN_STATUS of an engine: BUSY with the command's tag and list, or IDLE. -/
def State.glnBusy (s : State) (d l : Nat) (r : Option CmdRef) : State :=
  let a := aGln d l 0
  match r with
  | some r => ((s.setFld a 1 0 1).setFld a 15 8 (r.idx % 256)).setFld a 16 16 r.list
  | none => ((s.setFld a 1 0 0).setFld a 15 8 0).setFld a 16 16 0

/-- R105, R247: an injection armed at a check of a Glen engine is detected where the check evaluates. -/
def State.glnFire (s : State) (d l target : Nat) (evaluates : Bool) : State :=
  let a := aGln d l 0x44
  if evaluates && bit (s.reg a) 31 && decide (s.fld a 1 0 = target) then (s.setReg (aGln d l 0x48) 1).setFld a 31 31 0 else s

/-- R245: counts added to KIND_INFO of a GLEN command. -/
def glenInfo (info empty pages : Nat) : Nat :=
  min (info % 2 ^ 32 + empty) (2 ^ 32 - 1) + min (info / 2 ^ 32 + pages) (2 ^ 32 - 1) * 2 ^ 32

/-- R233 to R239: the part of the engine of lea `l` of Md runs all its items. -/
def State.glenPart (s : State) (c : Cmd) (d l : Nat) : State × PartEnd :=
  let b := glenBody c.words
  let ml := if b.mask = 3 then s.maskList b else []
  let k := leaKey d l
  let items := ((s.glenItems b c.mapIdx (s.glenXs c b)).filter fun i => decide (i.2.2 = k)).map fun i => (i.1, i.2.1)
  let first := decide ((c.engines.map fun e => leaKey e.die e.lea).all fun x => decide (k ≤ x))
  let (s, z, e) := s.glenRun c b (whoGlen d l c.ref) ml items
  let s := s.count (aGln d l 0x10) 31 0 z.skips
  let s := ((s.glnFire d l 1 z.score).glnFire d l 2 z.value).glnFire d l 3 z.rows
  let (s, fl) := if first && decide (e = .done) then s.glenPad c b else (s, 0)
  (s.updCmd c.ref fun c => { c with
    flags := c.flags ||| z.flags ||| fl
    kindInfo := glenInfo c.kindInfo z.empty z.pages
    engines := c.engines.map fun x => if x.die = d ∧ x.lea = l then { x with empty := z.empty, pages := z.pages } else x }, e)

/-! ## Validation and commit effects (R238, R258, R261, R264) -/

/-- R238: the commit-log entries that a GLEN command needs. -/
def Cmd.glenLogNeed (c : Cmd) : Nat :=
  let b := glenBody c.words
  if b.nothing then 0
  else (if b.append then c.ctxs.length * b.h else 0) + (if b.advance then c.ctxs.length else 0)

/-- R258: some snapshot of an appending command differs from its context's current tables. -/
def State.glenStale (s : State) (c : Cmd) : Bool :=
  let b := glenBody c.words
  b.append && !b.nothing && c.snaps.any fun n =>
    decide (ctxRoot (s.ctx n.ctx) ≠ n.root) || decide ((s.pdir n.root).gen ≠ n.gen)

/-- R198, R238: the entries whose context is still there, with their snapshots. -/
def State.glenLive (s : State) (c : Cmd) : List (Nat × EntrySnap) :=
  ((s.entriesLeft c).zip c.snaps).filter fun p => decide (ctxState (s.ctx p.2.ctx) ≠ 5)

/-- R261: copies on write at validation: for each entry and head whose page at T_e holds earlier positions in a shared
frame, the frame is copied into a reserved one. -/
def State.glenCow (s : State) (c : Cmd) : State :=
  let b := glenBody c.words
  if !b.append || b.nothing then s
  else (s.glenLive c).foldl (fun s p =>
    let d := s.pdir p.2.root
    if p.2.te % d.cap = 0 then s
    else (List.range b.h).foldl (fun s h =>
      let e := s.num (pageEntryAt (s.pageList p.2.root b.layer) d.heads (p.2.te / d.cap) h) 4
      if bit e 31 && decide (1 < s.frameRefs (bits e 21 0)) then
        let (f, s) := s.framePop
        let s := (s.chargeLines c.ref false (s.frameAddr (bits e 21 0)) 0x4000).chargeLines c.ref true (s.frameAddr f) 0x4000
        let s := (s.store (s.frameAddr f) (s.bytes (s.frameAddr (bits e 21 0)) 0x4000)).count32 (aSch 0x854)
        s.updCmd c.ref fun c => { c with cows := c.cows ++ [(p.1, h, f)], reserved := c.reserved - 1 }
      else s) s) s

/-- R57, R261: rows 0 to `n` − 1 of the B4 tensor of `hd` columns at `a` set to zero, and no byte of another row. -/
def State.zeroRows (s : State) (a hd n : Nat) : State :=
  let s := s.store a (List.replicate (n / 4 * 4 * hd) 0)
  (List.range (n % 4)).foldl (fun (s : State) t => (List.range hd).foldl (fun (s : State) col =>
    s.store (a + b4Index hd (n / 4 * 4 + t) col) [0]) s) s

/-- R373, R376: the lines that the append of one row writes: of its key and of its value. -/
def State.chargeRow (s : State) (r : CmdRef) (f hd row : Nat) : State :=
  let lines := (((List.range hd).map fun col => b4Index hd row col / 64 * 64)).eraseDups
  lines.foldl (fun s o =>
    (s.chargeLines r true (s.frameAddr f + o) 1).chargeLines r true (s.frameAddr f + 0x2000 + o) 1) s

/-- R261, step 5: the new rows of entry `x` and head `h` appended to the current directory. -/
def State.glenAppend (s : State) (c : Cmd) (b : Glen) (x root te h : Nat) : State :=
  let d := s.pdir root
  let list := s.pageList root b.layer
  let cc := wCtxCount c.words
  let s := match c.cows.find? fun w => decide (w.1 = x) && decide (w.2.1 = h) with
    | some w =>
      let a := pageEntryAt list d.heads (te / d.cap) h
      let old := bits (s.num a 4) 21 0
      ((((s.chargeLines c.ref true a 4).frameAcquire w.2.2).frameRelease old).store a (leBytes 4 (w.2.2 + 2 ^ 31)))
    | none => s
  (List.range b.qlen).foldl (fun s t =>
    let pos := te + t
    let a := pageEntryAt list d.heads (pos / d.cap) h
    let e := s.num a 4
    let s := if bit e 31 then s
      else
        let (f, s) := s.framePop
        let n := pos % d.cap
        let s := ((s.zeroRows (s.frameAddr f) d.hd n).zeroRows (s.frameAddr f + 0x2000) d.hd n).frameAcquire f
        let s := (s.chargeLines c.ref true a 4).store a (leBytes 4 (f + 2 ^ 31))
        s.updCmd c.ref fun c => { c with reserved := c.reserved - 1 }
    let f := bits (s.num a 4) 21 0
    let at_ := b.kAt cc h x t
    let s := s.chargeRow c.ref f d.hd (pos % d.cap)
    (List.range d.hd).foldl (fun s col =>
      let off := b4Index d.hd (pos % d.cap) col
      (s.store (s.frameAddr f + off) [s.byte ((s.glenDesc b 1).elem at_.1 at_.2 col).1]).store
        (s.frameAddr f + 0x2000 + off) [s.byte ((s.glenDesc b 2).elem at_.1 at_.2 col).1]) s) s

/-- R169: Meadow `d` holds something that the append of a GLEN command writes: a directory, a page entry or a page. -/
def State.appendsOn (s : State) (c : Cmd) (d : Nat) : Bool :=
  let b := glenBody c.words
  decide (c.kind = 1) && b.append && !b.nothing && (s.glenLive c).any fun p =>
    s.rangeOn d p.2.root 64 || (List.range b.h).any fun h => (List.range b.qlen).any fun t =>
      let k := s.pdir p.2.root
      let a := pageEntryAt (s.pageList p.2.root b.layer) k.heads ((p.2.te + t) / k.cap) h
      s.rangeOn d a 4 || s.rangeOn d (s.frameAddr (bits (s.num a 4) 21 0)) 0x4000

/-- R238, R261, R264: the KV effects and context updates of a GLEN command, in the order of R166. -/
def State.glenCommit (s : State) (c : Cmd) : State :=
  let b := glenBody c.words
  let s := c.engines.foldl (fun s e =>
    (s.count (aGln e.die e.lea 0x04) 31 0 e.empty).count (aGln e.die e.lea 0x08) 31 0 e.pages) s
  if !b.append || b.nothing then s
  else
    let live := s.glenLive c
    let s := live.foldl (fun s p =>
      ((List.range b.h).foldl (fun s h => s.glenAppend c b p.1 p.2.root p.2.te h) s).modsUp p.2.root) s
    if !b.advance then s
    else
      let s := live.foldl (fun (s : State) p =>
        let (s, used) := s.prefixEntry p.2.root p.2.te (p.2.te + b.qlen)
        s.updCmd c.ref fun c => { c with reserved := c.reserved - used }) s
      live.foldl (fun s p =>
        let w := s.ctx p.2.ctx
        let w := setWordBits w 2 31 0 (p.2.te + b.qlen)
        s.setCtx p.2.ctx (setWordBits w 2 63 32 (bits (word w 2) 63 32 + 1))) s

/-! ## Checks, injections and counters (R240, R246, R247) -/

/-- R467: an engine of a lea, or Prairie as unit 0x10, is SUSPECT: noted in the fault record, with replace cause ENGINE. -/
def State.engineSuspect (s : State) (d unit : Nat) : State := (s.replaceReq 9).frecNote 0x09 d unit 1

/-- R240: a Glen engine reports a mismatch of its score check (1) or value check (2). -/
def State.glenMismatch (s : State) (r : CmdRef) (d l check : Nat) : State :=
  let a := aGln d l
  let s := (s.count (a 0x0C) 15 0 1).setFld (a 0x0C) 17 16 check
  let s := ((s.setReg (a 0x30) (s.reg (a 0x28))).setReg (a 0x28) (s.reg (a 0x20))).setReg (a 0x20) s.now
  let s := s.raiseFor r d l 0x1F "GLN_MISMATCH" 0 0
  let s := if 3 ≤ s.fld (a 0x0C) 15 0 ∧ s.reg (a 0x20) ≤ s.reg (a 0x30) + 3600000000000 ∧ ¬ bit (s.reg (a 0)) 2 then
      ((s.setFld (a 0) 2 2 1).raise d l 0x1F "GLN_SUSPECT" 0 0).engineSuspect d l
    else s
  s.rerunOnce r d l 0x1F 6

/-- R240: an uncorrectable error of the row state or page buffer. -/
def State.glenRamUe (s : State) (r : CmdRef) (d l : Nat) : State :=
  (s.raiseFor r d l 0x1F "GLN_UE" 0 0).rerunOnce r d l 0x1F 5

/-- R247: a Heath arms an injection of a Glen engine. -/
def State.glnArm (s : State) (init : Nat) (l : LeaId) (target : Nat) : State :=
  if !isHeath init then s
  else
    let k := leaKey l.die l.lea
    (s.setReg (aGln l.die l.lea 0x44) (target + 2 ^ 31)).setLea k { s.lea k with glnArmed := s.now }

/-- R247: the score check. -/
def execGlnInjectScore (init : Init) (l : LeaId) (s : State) : Host.Outcome State Fault Refusal :=
  .next <| s.live (s.glnArm init.toNat l 1)
/-- R247: the value check. -/
def execGlnInjectValue (init : Init) (l : LeaId) (s : State) : Host.Outcome State Fault Refusal :=
  .next <| s.live (s.glnArm init.toNat l 2)
/-- R247: a single-bit error of the row state. -/
def execGlnInjectRowState (init : Init) (l : LeaId) (s : State) : Host.Outcome State Fault Refusal :=
  .next <| s.live (s.glnArm init.toNat l 3)

/-- R105, R240: an injection that has not fired within 1 ms ends with TIMEOUT. -/
def execGlnInjectTimeout (l : LeaId) (s : State) : Host.Outcome State Fault Refusal :=
  .next <| s.live <|
    let a := aGln l.die l.lea 0x44
    if bit (s.reg a) 31 && decide ((s.lea (leaKey l.die l.lea)).glnArmed + 1000000 < s.now) then
      (s.setReg (aGln l.die l.lea 0x48) 2).setFld a 31 31 0
    else s

/-- R246: the initiators that may clear a Glen engine's counters. -/
def glnClrOk (init : Nat) (l : LeaId) : Bool := isHeath init || decide (init = initLeaCore l.die l.lea)

/-- R246, R247: GLN_CNT_CLR.ECC. -/
def execGlnCntClrEcc (init : Init) (l : LeaId) (s : State) : Host.Outcome State Fault Refusal :=
  .next <| s.live (if glnClrOk init.toNat l then s.setReg (aGln l.die l.lea 0x14) 0 else s)
/-- R246, R247: GLN_CNT_CLR.SKIP. -/
def execGlnCntClrSkip (init : Init) (l : LeaId) (s : State) : Host.Outcome State Fault Refusal :=
  .next <| s.live (if glnClrOk init.toNat l then s.setReg (aGln l.die l.lea 0x10) 0 else s)
/-- R246, R247: GLN_CNT_CLR.USE. -/
def execGlnCntClrUse (init : Init) (l : LeaId) (s : State) : Host.Outcome State Fault Refusal :=
  .next <| s.live (if glnClrOk init.toNat l then [0x04, 0x08, 0x18].foldl (fun s o => s.setReg (aGln l.die l.lea o) 0) s else s)

end Sys2Proof.Machine
end

