-- ==== Sys2Proof/Machine/Collective.lean ====
section
/-! DEFINITION. The collective units (R183 to R187, R528): layouts and their checks, the reductions, and a unit's part of
a COLLECTIVE command. -/

namespace Sys2Proof.Machine

/-! ## The body and its layouts (R183, R184) -/

/-- R184: a shard of a layout: its base, the Meadow whose unit moves it, its logical offset and its bytes. -/
structure Shard where
  base : Nat
  die : Nat
  off : Nat
  len : Nat
  deriving DecidableEq, Repr

/-- OP. -/
def collOp (w : List Nat) : Nat := bits (word w 8) 3 0
/-- DTYPE: 0 INT32, 1 FP32, 2 BF16, 3 BYTES. -/
def collType (w : List Nat) : Nat := bits (word w 8) 5 4
/-- RED: 0 sum, 1 maximum, 2 minimum. -/
def collRed (w : List Nat) : Nat := bits (word w 8) 7 6
/-- SCOPE is a fabric group. -/
def collGroup (w : List Nat) : Bool := bit (word w 8) 8
/-- R184: the layout of candidate map `i`: at SRC (word 9) or DST (word 10). -/
def layoutAt (w : List Nat) (k i : Nat) : Nat := bits (word w k) 47 0 + 0x400 * i
/-- GROUP. -/
def collGroupAt (w : List Nat) : Nat := bits (word w 11) 47 0

/-- R184: the shards of the layout at `a`. -/
def State.layout (s : State) (a : Nat) : List Shard :=
  (List.range (min 63 (bits (s.num a 8) 6 0))).map fun i =>
    let x := s.num (a + 16 + 16 * i) 8
    let y := s.num (a + 24 + 16 * i) 8
    ⟨bits x 47 0, bits x 49 48, bits y 31 0, bits y 63 32⟩


/-- R184: the statuses of the checks of one layout on its own. -/
def State.layoutFails (s : State) (r : CmdRef) (a : Nat) : List Nat :=
  let st := s.tableRead r a 1024
  if st ≠ 0 then [st]
  else
    let n := bits (s.num a 8) 6 0
    let l := s.layout a
    failIf (decide (bits (s.num a 8) 63 7 ≠ 0) || decide (s.num (a + 8) 8 ≠ 0)
      || (List.range l.length).any fun i => decide (bits (s.num (a + 16 + 16 * i) 8) 63 50 ≠ 0)) 0x0F ++
    failIf (decide (63 < n) || l.any fun x => allOnes 32 x.len) 2 ++
    failIf (l.any fun x => decide (x.base % 64 ≠ 0) || decide (x.off % 64 ≠ 0) || decide (x.len % 64 ≠ 0)) 3 ++
    failIf (l.any fun x => match placeOf x.base with
      | some (.dram, _, _) | some (.pool _ _, _, _) => false
      | _ => true) 4 ++
    failIf (l.any fun x => !inRange x.base x.len && (placeOf x.base).isSome) 2 ++
    failIf (l.any fun x => !s.meadowUp x.die) 8

/-- R185: the participants: the distinct DIE values in increasing order. -/
def participants (l : List Shard) : List Nat := (List.range 4).filter fun d => l.any fun x => decide (x.die = d)

/-- R185: one shard for each participant. -/
def onePer (ps : List Nat) (l : List Shard) : Bool := decide (l.length = ps.length) && decide (participants l = ps)

/-- R185: every byte from `x` to `x + n − 1` of the logical space lies in some shard. -/
def coveredBy (l : List Shard) : Nat → Nat → Nat → Bool
  | _, _, 0 => true
  | 0, _, _ => false
  | f + 1, x, n =>
    match l.find? fun h => decide (h.off ≤ x) && decide (x < h.off + h.len) with
    | some h => coveredBy l f (h.off + h.len) (n - (h.off + h.len - x))
    | none => false

/-- R185, R528: the shapes of a source and a destination layout do not fit the operation; `m` members take part. -/
def collShapeBad (op m : Nat) (src dst : List Shard) : Bool :=
  let ps := participants src
  let n := ps.length * m
  let len := (src.map (·.len)).getD 0 0
  if op = 0 then
    anyOverlap (src.map fun x => (x.off, x.len)) || (decide (m = 1) && !dst.all fun x => coveredBy src (src.length + 1) x.off x.len)
  else
    !onePer ps src || !onePer ps dst || !src.all (fun x => decide (x.len = len)) ||
      match op with
      | 1 => !src.all (fun x => decide (x.off = 0)) || !dst.all (fun x => decide (x.len = len))
      | 2 => !dst.all fun x => decide (x.len = n * len)
      | _ => decide (len % (64 * max n 1) ≠ 0) || !dst.all fun x => decide (x.len * n = len)

/-! ## The fabric group (R528) -/

/-- R528: the members of a group descriptor, in order. -/
def State.groupMembers (s : State) (a : Nat) : List Nat :=
  (List.range (min 256 (bits (s.num a 8) 8 0))).map fun i => bits (s.num (a + 16 + 2 * i) 2) 11 0

/-- R528: the statuses of the checks of a group descriptor. -/
def State.groupFails (s : State) (r : CmdRef) (a : Nat) : List Nat :=
  let st0 := s.tableRead r a 16
  if st0 ≠ 0 then [st0]
  else
    let n := bits (s.num a 8) 8 0
    let st := s.tableRead r a (16 + 2 * min 256 n)
    if st ≠ 0 then [st]
    else
      let ms := s.groupMembers a
      failIf (decide (n = 0) || hasDup ms || !ms.any (fun m => decide (s.groupAddr = some m))
        || decide (bits (s.num a 8) 31 9 ≠ 0) || decide (bits (s.num (a + 8) 8) 63 32 ≠ 0)
        || (List.range ms.length).any fun i => decide (bits (s.num (a + 16 + 2 * i) 2) 15 12 ≠ 0)) 0x0F ++
      failIf (decide (256 < n)) 2 ++
      failIf (ms.any fun m => decide (s.groupAddr ≠ some m) && !s.routed m) 8

/-- How many members a COLLECTIVE command has: 1 within the package. -/
def State.collMembers (s : State) (w : List Nat) : List Nat := if collGroup w then s.groupMembers (collGroupAt w) else [0]

/-- R183 to R185, R528: the statuses of the checks of a COLLECTIVE body. -/
def State.collFails (s : State) (e : StartEnv) : List Nat :=
  let w := e.w
  let r := e.cmd.ref
  let a := layoutAt w 9 e.map.idx
  let b := layoutAt w 10 e.map.idx
  let lay := s.layoutFails r a ++ s.layoutFails r b
  let grp := if collGroup w then s.groupFails r (collGroupAt w) else []
  failIf (decide (bits (word w 8) 63 9 ≠ 0) || decide (3 < collOp w) || decide (collRed w = 3)
    || [9, 10, 11].any (fun i => decide (bits (word w i) 63 48 ≠ 0)) || (w.drop 12).any (fun x => decide (x ≠ 0))
    || (!collGroup w && decide (collGroupAt w ≠ 0))) 0x0F ++
  failIf (decide (collType w = 3) && decide (collOp w ≠ 0)) 0x0C ++
  failIf (decide (bits (word w 9) 47 0 % 1024 ≠ 0) || decide (bits (word w 10) 47 0 % 1024 ≠ 0)
    || decide (collGroupAt w % 64 ≠ 0)) 3 ++
  tablePlace a 1024 ++ tablePlace b 1024 ++ lay ++ grp ++
  (if lay ≠ [] ∨ grp ≠ [] then []
   else
    let src := s.layout a
    let dst := s.layout b
    let mask := if r.list = 0 then [2, 3] else [0, 1]
    failIf (dst.any fun x => decide (x.len ≠ 0) && !e.outs.any fun o => inside x.base x.len o.1 o.2) 4 ++
    failIf (collShapeBad (collOp w) (s.collMembers w).length src dst
      || (decide (bits (word e.job.words 0) 23 22 = 1) && (src ++ dst).any fun x => mask.contains x.die)) 0x0F)

/-- R187: the collective units that a command needs, as a mask of Meadows. -/
def State.collUnits (s : State) (w : List Nat) (mapIdx : Nat) : Nat :=
  ((participants (s.layout (layoutAt w 9 mapIdx) ++ s.layout (layoutAt w 10 mapIdx))).map fun d => 2 ^ d).sum

/-! ## Reductions (R186) -/

/-- An element of a reduction as it is read: DTYPE 0 INT32, 1 FP32, 2 BF16. -/
def collIn (ac : ArithCtl) (type w : Nat) : FNum :=
  if type = 0 then let i := sext 32 w; .of (.fin (decide (i < 0)) i.natAbs 0)
  else readElem (if type = 2 then .bf16 else .fp32) ac.ftz w

/-- R72, R186: an element of the destination: INT32 as it stands, a float rounded once. -/
def collOut (ac : ArithCtl) (type draw : Nat) (x : FNum) : Flagged :=
  if type = 0 then
    match x.1 with
    | .fin n m e => ⟨wrap 32 ((if n then -1 else 1) * ((m * 2 ^ e.toNat : Nat) : Int)), x.2⟩
    | _ => ⟨0, x.2⟩
  else
    let y := putElem (if type = 2 then .bf16 else .fp32) ac draw x.1
    ⟨y.val, x.2 ||| y.flags⟩

/-- Bytes of an element. -/
def collWidth (type : Nat) : Nat := if type = 2 then 2 else 4

/-- The elements of a run of bytes. -/
def collElems (ac : ArithCtl) (type : Nat) (bs : List Byte) : List FNum :=
  let k := collWidth type
  (List.range (bs.length / k)).map fun i => collIn ac type (leNat ((bs.drop (k * i)).take k))

/-- R65: a value that saturates at the ends of INT32. -/
def int32Sat (x : FNum) : FNum :=
  let y := intPut 32 0 .zero x.1
  let v := sext 32 y.val
  (.fin (decide (v < 0)) v.natAbs 0, x.2 ||| y.flags)

/-- R186: two partials combined: INT32 saturates, and a float sum is rounded to FP32. -/
def red2 (ac : ArithCtl) (type red : Nat) (x y : FNum) : FNum :=
  if red = 0 then (if type = 0 then int32Sat (.op Num.add x y) else f32Add ac x y)
  else .op (minMax (decide (red = 1))) x y

/-- R75, R186: the partials in their order of arrival, which nothing fixes: ordered by free keys. -/
def arrivalOrder (key : Nat) (xs : List FNum) : List FNum :=
  let ks := (List.range xs.length).map fun i => (Config.freeValue key i, i)
  let ord := ks.foldl (fun l k => (l.takeWhile fun x => decide (x.1 ≤ k.1)) ++ k :: l.dropWhile fun x => decide (x.1 ≤ k.1)) []
  ord.map fun k => xs.getD k.2 (.of .nan)

/-- R186: partials reduced to one, not yet rounded to a narrower destination. -/
def redAll (ac : ArithCtl) (type red key : Nat) (xs : List FNum) : FNum :=
  match (if type = 0 then xs else arrivalOrder key xs) with
  | [] => .of numZero
  | x :: t => t.foldl (red2 ac type red) x

/-- R185: equal runs of elements reduced element by element. -/
def redRows (ac : ArithCtl) (type red key : Nat) (rows : List (List FNum)) (n : Nat) : List FNum :=
  (List.range n).map fun i => redAll ac type red (key + i) (rows.map fun r => r.getD i (.of numZero))

/-! ## A unit's part -/

/-- Who a collective unit is (R442). -/
def whoColl (d : Nat) (r : CmdRef) : Who := ⟨initColl d, some r, false, false⟩

/-- R528: the tags of a command's COLL frames: GROUP_ID and SERIAL. -/
def State.groupTags (s : State) (w : List Nat) : Nat × Nat := (s.num (collGroupAt w + 4) 4, s.num (collGroupAt w + 8) 4)

/-- R528: the index of this module in a group. -/
def State.memberIndex (s : State) (w : List Nat) : Nat :=
  (s.groupMembers (collGroupAt w)).findIdx fun m => decide (s.groupAddr = some m)

/-- R528: the other members of a group, by index. -/
def State.otherMembers (s : State) (w : List Nat) : List Nat :=
  (List.range (s.groupMembers (collGroupAt w)).length).filter fun i => decide (i ≠ s.memberIndex w)

/-- R528: byte `o` of the package result of member `i`, where a COLL frame has brought it. -/
def State.farByte (s : State) (w : List Nat) (i o : Nat) : Option Byte :=
  let (g, n) := s.groupTags w
  (s.col.partials.find? fun p => decide (p.group = g) && decide (p.serial = n) && decide (p.member = i) &&
    inside o 1 p.off p.data.length).bind fun p => p.data[o - p.off]?

/-- R528: `n` bytes from `o` of the package result of member `i`. -/
def State.farBytes (s : State) (w : List Nat) (i o n : Nat) : List Byte := (List.range n).map fun k => (s.farByte w i (o + k)).getD 0

/-- R528: those bytes have all arrived. -/
def State.farReady (s : State) (w : List Nat) (i o n : Nat) : Bool := (List.range n).all fun k => (s.farByte w i (o + k)).isSome

/-- The source bytes of the participants, by rank. -/
def State.collSources (s : State) (src : List Shard) : List (List Byte) :=
  (participants src).map fun d => ((src.find? fun h => decide (h.die = d)).map fun h => s.bytes h.base h.len).getD []

/-- The source shard that holds a byte of the logical space. -/
def shardOf (src : List Shard) (x : Nat) : Option Shard := src.find? fun h => decide (h.off ≤ x) && decide (x < h.off + h.len)

/-- R185, R528: what a destination shard of a RESHARD receives; the logical space is that of the whole group. -/
def State.collReshard (s : State) (w : List Nat) (src : List Shard) (x : Shard) : List Byte :=
  (List.range x.len).map fun i =>
    match shardOf src (x.off + i) with
    | some h => s.byte (h.base + (x.off + i - h.off))
    | none => ((s.otherMembers w).findSome? fun m => s.farByte w m (x.off + i)).getD 0

/-- R185, R528: what a destination shard of an ALL_GATHER receives: by rank, and in a fabric group by member. -/
def State.collGather (s : State) (w : List Nat) (src : List Shard) : List Byte :=
  let own := (s.collSources src).flatten
  if !collGroup w then own
  else (List.range (s.groupMembers (collGroupAt w)).length).flatMap fun i =>
    if i = s.memberIndex w then own else s.farBytes w i 0 own.length

/-- R185, R186: the package result of a reduction over all of the sources, each element in FP32 or INT32. -/
def State.collWhole (s : State) (ac : ArithCtl) (w : List Nat) (src : List Shard) : List FNum :=
  let rows := (s.collSources src).map (collElems ac (collType w))
  redRows ac (collType w) (collRed w) s.free rows ((rows.map (·.length)).getD 0 0)

/-- R186: the DTYPE in which partials travel: INT32 or FP32. -/
def farType (type : Nat) : Nat := if type = 0 then 0 else 1

/-- R186, R528: what a start of a fabric reduction keeps: the words of its package result. -/
def State.collSaved (s : State) (e : StartEnv) : List (List Nat) :=
  let w := e.w
  if !collGroup w ∨ (collOp w ≠ 1 ∧ collOp w ≠ 3) then []
  else
    let ac := arithCtl (bits (word w 2) 31 0)
    [(s.collWhole ac w ((s.layout (layoutAt w 9 e.map.idx)).filter fun x => decide (x.len ≠ 0))).map
      fun x => (collOut ac (farType (collType w)) 0 x).val]

/-- The elements of a shard's rank: how many, and from which one. -/
def collSlice (w : List Nat) (src : List Shard) (x : Shard) : Nat × Nat :=
  let len := (src.map (·.len)).getD 0 0 / collWidth (collType w)
  let ps := participants src
  if collOp w = 3 then (len / max ps.length 1, ps.findIdx (fun d => decide (d = x.die)) * (len / max ps.length 1)) else (len, 0)

/-- R528: what a destination shard needs of the other members has arrived. -/
def State.collReady (s : State) (w : List Nat) (src : List Shard) (x : Shard) : Bool :=
  let far := s.otherMembers w
  !collGroup w || match collOp w with
    | 0 => (List.range x.len).all fun i => (shardOf src (x.off + i)).isSome || far.any fun m => (s.farByte w m (x.off + i)).isSome
    | 2 => far.all fun m => s.farReady w m 0 (s.collSources src).flatten.length
    | _ => let (n, at_) := collSlice w src x; far.all fun m => s.farReady w m (4 * at_) (4 * n)

/-- R185, R186, R528: what a destination shard of a reduction receives: the package result, joined in a fabric group with the
results that the other members bring, in FP32. A REDUCE_SCATTER takes the part of the shard's rank, and then of the member. -/
def State.collReduce (s : State) (c : Cmd) (src : List Shard) (x : Shard) : List FNum :=
  let w := c.words
  let ac := c.arith
  let type := collType w
  let (n, at_) := collSlice w src x
  if !collGroup w then
    redRows ac type (collRed w) s.free ((s.collSources src).map fun r => ((collElems ac type r).drop at_).take n) n
  else
    let me := s.memberIndex w
    let k := (s.groupMembers (collGroupAt w)).length
    let own := (((c.saved.getD 0 []).drop at_).take n).map (collIn ac (farType type))
    let all := redRows ac type (collRed w) s.free
      ((List.range k).map fun i => if i = me then own else collElems ac (farType type) (s.farBytes w i (4 * at_) (4 * n))) n
    if collOp w = 3 then (all.drop (me * (n / max k 1))).take (n / max k 1) else all

/-- R185: a destination shard's bytes and flags. -/
def State.collShard (s : State) (c : Cmd) (src : List Shard) (x : Shard) : List Byte × BitVec 8 :=
  let w := c.words
  match collOp w with
  | 0 => (s.collReshard w src x, 0)
  | 2 => (s.collGather w src, 0)
  | _ =>
    let type := collType w
    let k := collWidth type
    let es := s.collReduce c src x
    let ys := (List.range es.length).map fun i =>
      collOut c.arith type (s.engineDraw c.ref (x.base + k * i)) (es.getD i (.of numZero))
    (ys.flatMap fun y => leBytes k y.val, ys.foldl (fun f y => f ||| y.flags) 0)

/-- R184: the shards of a layout of a command that are not empty. -/
def State.collShards (s : State) (c : Cmd) (k : Nat) : List Shard :=
  (s.layout (layoutAt c.words k c.mapIdx)).filter fun x => decide (x.len ≠ 0)

/-- R443: the statuses of the reads of a command's sources. -/
def State.collReads (s : State) (c : Cmd) : List Nat :=
  (s.collShards c 9).map fun x => s.spanStatus (whoColl x.die c.ref) (false, x.base, x.len)

/-- Bytes in pieces of at most 64 lines, with their offsets. -/
def linesPieces (off : Nat) (bs : List Byte) : List (Nat × List Byte) :=
  (List.range ((bs.length + 4095) / 4096)).map fun i => (off + 4096 * i, (bs.drop (4096 * i)).take 4096)

/-- R528: what a member sends of its package result: the bytes, with their offsets: those of its sources in a RESHARD, else from 0 on;
partials of a reduction in FP32 or INT32. -/
def State.collPackage (s : State) (c : Cmd) : List (Nat × List Byte) :=
  let src := s.collShards c 9
  match collOp c.words with
  | 0 => src.flatMap fun h => linesPieces h.off (s.bytes h.base h.len)
  | 2 => linesPieces 0 (s.collSources src).flatten
  | _ => linesPieces 0 ((c.saved.getD 0 []).flatMap (leBytes 4))

/-- R528: the start of a command of a fabric group: its package result goes to every other member in COLL frames. -/
def State.collStart (s : State) (c : Cmd) : State :=
  let w := c.words
  if !collGroup w ∨ (s.collReads c).any (fun x => decide (x ≠ 0)) then s
  else
    let (g, n) := s.groupTags w
    let ms := s.groupMembers (collGroupAt w)
    let l := (s.otherMembers w).flatMap fun i => (s.collPackage c).map fun p =>
      CollOut.mk (ms.getD i 0) ⟨g, n, s.memberIndex w, p.1, p.2⟩ (bits (word w 0) 6 4) c.task
    let src := s.collShards c 9
    let fl := if collOp w = 1 ∨ collOp w = 3 then (s.collWhole c.arith w src).foldl (fun f x => f ||| x.2) 0 else 0
    let s := (s.addFlags c.ref fl).updCol fun y => { y with
      sent := [], outs := (y.outs.filter fun x => !(decide (x.part.group = g) && decide (x.part.serial = n))) ++ l }
    let s := l.foldl (fun s x => s.sendColl x) s
    { s with free := s.free + 0x20000000000 }

/-- R528: the partials of a command that has committed are no longer needed. -/
def State.collForget (s : State) (c : Cmd) : State :=
  let (g, n) := s.groupTags c.words
  if !collGroup c.words then s
  else s.updCol fun y => { y with partials := y.partials.filter fun p => !(decide (p.group = g) && decide (p.serial = n)) }

/-- R185 to R187, R373, R528: the part of the collective unit of Md: it reads its source shards and writes its destination
shards; each unit's transfers are charged to the command. None while partials of other members are missing. -/
def State.collPart (s : State) (c : Cmd) (d : Nat) : Option (State × PartEnd) :=
  let src := s.collShards c 9
  let dst := (s.collShards c 10).filter fun x => decide (x.die = d)
  let st := oneOf (s.collReads c ++ dst.map fun x => s.spanStatus (whoColl d c.ref) (true, x.base, x.len))
  if st ≠ 0 then some (s, .fault st)
  else if !dst.all (s.collReady c.words src) then none
  else
    let s := (src.filter fun x => decide (x.die = d)).foldl (fun s x => s.chargeLines c.ref false x.base x.len) s
    let s := dst.foldl (fun (s : State) x =>
      let (bs, fl) := s.collShard c src x
      let s := ((s.store x.base bs).addFlags c.ref fl).chargeLines c.ref true x.base x.len
      { s with free := s.free + 0x20000000000 }) s
    some (s, .done)

end Sys2Proof.Machine
end

