-- ==== Sys2Proof/Machine/Crop.lean ====
section
/-! DEFINITION. The CROP command (R279 to R288): its body and checks, crop-and-resize, and ZB64 packing and unpacking. -/

namespace Sys2Proof.Machine

/-! ## The body (R279) -/

/-- The body of a CROP command. -/
structure Crop where
  op : Nat
  first : Nat
  count : Nat
  table : Nat
  descs : Nat
  list : Nat
  lens : Nat
  boxes : Nat
  binsH : Nat
  binsW : Nat
  sr : Nat
  idx : Nat
  groups : Nat
  deriving DecidableEq, Repr

/-- R279: the fields of the body. -/
def cropBody (w : List Nat) : Crop :=
  let a := word w 8
  let x := word w 12
  { op := bits a 1 0, first := bits a 18 8, count := bits a 29 19, table := bits (word w 9) 47 0, descs := bits (word w 9) 54 48
    list := bits (word w 10) 47 0, lens := bits (word w 11) 47 0, boxes := bits x 12 0, binsH := bits x 18 13
    binsW := bits x 24 19, sr := bits x 26 25 + 1, idx := bits x 32 27, groups := word w 13 }

/-- R280: the effective TILE_COUNT on a map of `tiles` tiles. -/
def Crop.n (b : Crop) (tiles : Nat) : Nat := if b.count = 0x7FF then tiles - b.first else b.count

/-- A descriptor of the command's table. -/
def State.cropDesc (s : State) (b : Crop) (i : Nat) : TDesc := tdesc (s.num (b.table + 32 * i) 32)

/-- R281: a box: its corners in sixteenths of a pixel and its source. -/
structure Box where
  x0 : Int
  y0 : Int
  x1 : Int
  y1 : Int
  src : Nat
  deriving DecidableEq, Repr

/-- R281: box `i`. -/
def State.box (s : State) (b : Crop) (i : Nat) : Box :=
  let w := s.num (b.list + 16 * i) 8
  ⟨sext 16 (bits w 15 0), sext 16 (bits w 31 16), sext 16 (bits w 47 32), sext 16 (bits w 63 48),
    bits (s.num (b.list + 16 * i + 8) 8) 5 0⟩

/-- R287: the segments of a raw tensor, none where it is empty. -/
def zbSegments (d : TDesc) : Nat := if d.cols = 0 then 0 else d.outer * (d.rows / 4)

/-- R287: the number of flagged groups. -/
def zbFlagged (b : Crop) (d : TDesc) : Nat := ((List.range (d.cols / 16)).filter (bit b.groups)).length

/-- R287: the slot size. -/
def zbSlot (b : Crop) (d : TDesc) : Nat := 64 * ((4 * d.cols + 8 * zbFlagged b d + 63) / 64)

/-- R284: the tensor lies wholly inside one declared output buffer. -/
def inOneOut (outs : List (Nat × Nat)) (a n : Nat) : Bool := decide (n = 0) || outs.any fun o => inside a n o.1 o.2

/-- R284: the statuses of the checks of a CROP_RESIZE. -/
def State.cropResizeFails (s : State) (b : Crop) (e : StartEnv) : List Nat :=
  let st := s.tableRead e.cmd.ref b.list (16 * min b.boxes 4096)
  let n := min b.descs 64
  let out := s.cropDesc b b.idx
  let bx := if st ≠ 0 then [] else (List.range (min b.boxes 4096)).map (s.box b)
  let srcs := ((bx.map (·.src)).eraseDups.filter fun i => decide (i < n)).map (s.cropDesc b)
  let all := if b.idx < n then out :: srcs else srcs
  failIf (decide (b.lens ≠ 0) || decide (b.groups ≠ 0)
    || (decide (st = 0) && (List.range (min b.boxes 4096)).any fun i => decide (bits (s.num (b.list + 16 * i + 8) 8) 63 6 ≠ 0))
    || all.any (fun d => decide (d.space ≠ 0) || d.sparse)
    || srcs.any (fun d => srcs.any fun x => decide (x.cols ≠ d.cols) || decide (x.fmt ≠ d.fmt))
    || (decide (b.idx < n) && srcs.any fun d => decide (d.cols ≠ out.cols))) 0x0F ++
  failIf (srcs.any (fun d => match fmtOf d.fmt with
      | some f => !([Fmt.int8, Fmt.e4m3, Fmt.fp16, Fmt.bf16].contains f)
      | none => true)
    || (decide (b.idx < n) && match fmtOf out.fmt with
      | some f => !([Fmt.int8, Fmt.e4m3, Fmt.fp16, Fmt.bf16, Fmt.fp32].contains f)
      | none => true)) 0x0C ++
  failIf (bx.any (fun x => decide (b.descs ≤ x.src))
    || (decide (b.idx < n) && (decide (out.outer < b.boxes) || decide (out.rows < b.binsH * b.binsW)))) 2 ++
  tablePlace b.list (16 * b.boxes) ++ failIf (decide (st ≠ 0)) st ++
  failIf (decide (b.idx < n) && out.parts.any fun p => !inOneOut e.outs p.1 p.2) 4

/-- R284: the statuses of the checks of a ZB64 operation. -/
def State.zbFails (s : State) (b : Crop) (e : StartEnv) : List Nat :=
  let w := e.w
  let d := s.cropDesc b b.idx
  let n := zbSegments d
  let stream := n * zbSlot b d
  failIf (decide (bits (word w 12) 26 0 ≠ 0)) 0x0F ++
  (if min b.descs 64 ≤ b.idx then []
   else
    failIf (decide (d.space ≠ 0) || d.sparse || decide (d.cols % 16 ≠ 0) || decide (2 ^ (d.cols / 16) ≤ b.groups)) 0x0F ++
    failIf (match fmtOf d.fmt with
      | some f => !([Fmt.int8, Fmt.e4m3, Fmt.e5m2, Fmt.log8].contains f)
      | none => true) 0x0C ++
    failIf (decide (1024 < d.cols)) 2 ++
    failIf (inDram b.list 1 && !inDram b.list stream) 2 ++ failIf (inDram b.lens 1 && !inDram b.lens n) 2 ++
    failIf (decide (n ≠ 0) && (!inDram b.list 1 || !inDram b.lens 1)) 4 ++
    failIf (if b.op = 1 then !inOneOut e.outs b.list stream || !inOneOut e.outs b.lens n
      else d.parts.any fun p => !inOneOut e.outs p.1 p.2) 4)

/-- R125, R280, R284: the statuses of the checks of a CROP body. -/
def State.cropFails (s : State) (e : StartEnv) : List Nat :=
  let w := e.w
  let b := cropBody w
  let tiles := e.map.tiles.length
  let st := s.tableRead e.cmd.ref b.table (32 * min b.descs 64)
  failIf (decide (b.op = 3) || decide (bits (word w 8) 7 2 ≠ 0) || decide (bits (word w 8) 63 30 ≠ 0)
    || decide (bits (word w 9) 63 55 ≠ 0) || decide (bits (word w 10) 63 48 ≠ 0) || decide (bits (word w 11) 63 48 ≠ 0)
    || decide (bits (word w 12) 63 33 ≠ 0) || decide (word w 14 ≠ 0) || decide (word w 15 ≠ 0)) 0x0F ++
  failIf (decide (4096 < b.boxes) || decide (32 < b.binsH) || decide (32 < b.binsW) || decide (64 < b.descs)
    || decide (b.descs ≤ b.idx) || decide (tiles < b.first) || decide (tiles < b.first + b.n tiles)) 2 ++
  failIf (decide (b.table % 64 ≠ 0) || decide (b.list % 64 ≠ 0) || decide (b.lens % 64 ≠ 0)) 3 ++
  tablePlace b.table (32 * b.descs) ++
  (if st ≠ 0 then [st]
   else (List.range (min b.descs 64)).flatMap (fun i => descFails (s.num (b.table + 32 * i) 32)) ++
    (match b.op with
     | 0 => s.cropResizeFails b e
     | 3 => []
     | _ => s.zbFails b e))

/-! ## The tiles (R280) -/

/-- R280: the tiles of a CROP command, as (die, lea, LTILE). -/
def Crop.tiles (b : Crop) (m : PMap) : List (Nat × Nat × Nat) := (m.tiles.drop b.first).take (b.n m.tiles.length)

/-- R280: a slot of a tile that a CROP command can take now. -/
def State.cropSlot (s : State) (t : Nat × Nat × Nat) : Option (Nat × Nat) :=
  let p := s.mapTile t.1 t.2.1 t.2.2
  let lea := s.lea (leaKey t.1 t.2.1)
  if p = 0x1F ∨ lea.swapping = some t.2.2 ∨ ¬ lea.coreUp then none
  else ((List.range 8).find? fun k => !(s.slot (slotKey t.1 t.2.1 p k)).busy).map fun k => (p, k)

/-- R280: a CROP command waits for a slot on each of its tiles. -/
def State.cropWaits (s : State) (e : StartEnv) : Bool := ((cropBody e.w).tiles e.map).any fun t =>
  (s.cropSlot t).isNone || s.tileMoves t.1 t.2.1 t.2.2

/-- R69, R280: the slots taken: the device's own sequence holds them, which issues no instruction. `l` is the number of the first
of the tiles; each slot's LFSR is seeded as a thread's. -/
def State.cropHold (s : State) (c : Cmd) : Nat → List (Nat × Nat × Nat) → State
  | _, [] => s
  | l, t :: ts =>
    let s := match s.cropSlot t with
      | some (p, k) => (s.setSlot (slotKey t.1 t.2.1 p k) { slotFree with
          busy := true, faulted := true, cmd := c.ref, ltile := l, lfsr := lfsrSeed c.arith.seed l k }).setFld
          (aTil t.1 t.2.1 p 0) (8 + k) (8 + k) 1
      | none => s
    s.cropHold c (l + 1) ts

/-- R280: the slot that holds the work of logical tile `l` on a lea. -/
def State.cropSlotOf (s : State) (r : CmdRef) (d l lt : Nat) : Option Nat :=
  ((List.range (17 * 8)).map fun i => slotKey d l (i / 8) (i % 8)).find? fun k =>
    let th := s.slot k
    th.busy && decide (th.cmd = r) && decide (th.ltile = lt)

/-- R280: the slots of the command on a lea freed. -/
def State.cropFree (s : State) (r : CmdRef) (d l : Nat) : State :=
  (List.range (17 * 8)).foldl (fun s i =>
    let k := slotKey d l (i / 8) (i % 8)
    let th := s.slot k
    if th.busy ∧ th.cmd = r then (s.setSlot k slotFree).setFld (aTil d l (i / 8) 0) (8 + i % 8) (8 + i % 8) 0 else s) s

/-- The tiles of a command as they stand in what its start kept: one number for each, 256 · die + 16 · lea + LTILE. -/
def Crop.saved (b : Crop) (m : PMap) : List (List Nat) := [(b.tiles m).map fun t => t.1 * 256 + t.2.1 * 16 + t.2.2]

/-- R280: the work items of the tiles of a lea, of `n` in all. -/
def cropItems (c : Cmd) (d l n : Nat) : List Nat :=
  let ts := c.saved.getD 0 []
  (List.range n).filter fun w => decide (ts.length ≠ 0) && decide (ts.getD (w % ts.length) 0 / 16 = d * 16 + l)

/-! ## Crop-and-resize (R282, R283) -/

/-- An integer as a value. -/
def numInt (i : Int) : Num := .fin (decide (i < 0)) i.natAbs 0

/-- The integer part of a value that is not negative. -/
def numFloor : Num → Nat
  | .fin _ m e => if 0 ≤ e then m * 2 ^ e.toNat else m / 2 ^ (-e).toNat
  | _ => 0

/-- R282: the box is degenerate. -/
def Box.degenerate (x : Box) : Bool := decide (x.x1 ≤ x.x0) || decide (x.y1 ≤ x.y0)

/-- R282: the box is outside its source. -/
def Box.outside (x : Box) (d : TDesc) : Bool :=
  decide (x.x1 < 0) || decide (16 * ((d.rows : Int) - 1) < x.x0) || decide (x.y1 < 0) || decide (16 * ((d.outer : Int) - 1) < x.y0)

/-- R283: where a sample lies along one axis of extent `n`: the two pixels and the fraction. -/
structure Tap where
  lo : Nat
  hi : Nat
  f : FNum
  deriving DecidableEq, Repr

/-- R283: sample `i` of bin `k` along one axis, none where it lies outside and is 0; with the flags of its place. -/
def cropTap (ac : ArithCtl) (p0 p1 : Int) (bins sr k i n : Nat) : Option Tap × BitVec 8 :=
  let x0 := FNum.of (.fin (decide (p0 < 0)) p0.natAbs (-4))
  let x1 := FNum.of (.fin (decide (p1 < 0)) p1.natAbs (-4))
  let bw := f32Div ac (f32Sub ac x1 x0) (.of (numInt bins))
  let q := f32Div ac (.of (.fin false (2 * (k * sr + i) + 1) (-1))) (.of (numInt sr))
  let sx := f32Add ac x0 (f32Mul ac bw q)
  if sx.1.lt (numInt (-1)) ∨ (numInt n).lt sx.1 then (none, sx.2)
  else
    let last := numInt ((n : Int) - 1)
    let at_ := if sx.1.lt numZero then numZero else if last.lt sx.1 then last else sx.1
    let lo := numFloor at_
    (some ⟨lo, min (lo + 1) (n - 1), f32Sub ac (at_, sx.2) (.of (numInt lo))⟩, sx.2)

/-- R283: the bilinear sample of four values. -/
def bilinear (ac : ArithCtl) (fx fy v00 v01 v10 v11 : FNum) : FNum :=
  let mul := f32Mul ac
  let add := f32Add ac
  let gx := f32Sub ac (.of (numInt 1)) fx
  let gy := f32Sub ac (.of (numInt 1)) fy
  add (mul gy (add (mul gx v00) (mul fx v01))) (mul fy (add (mul gx v10) (mul fx v11)))

/-- R283: the taps of a bin in order: increasing j, then i; with the flags of their places. -/
def Box.taps (x : Box) (ac : ArithCtl) (b : Crop) (d : TDesc) (bin : Nat) : List (Option (Tap × Tap) × BitVec 8) :=
  (List.range (b.sr * b.sr)).map fun k =>
    let y := cropTap ac x.y0 x.y1 b.binsH b.sr (bin / b.binsW) (k / b.sr) d.outer
    let z := cropTap ac x.x0 x.x1 b.binsW b.sr (bin % b.binsW) (k % b.sr) d.rows
    (match y.1, z.1 with
      | some ty, some tx => some (ty, tx)
      | _, _ => none, y.2 ||| z.2)

/-- R283: the value of a bin in one channel. -/
def State.cropBin (s : State) (ac : ArithCtl) (b : Crop) (d : TDesc) (taps : List (Option (Tap × Tap) × BitVec 8)) (ch : Nat) :
    FNum :=
  let v : Nat → Nat → FNum := fun y x =>
    let e := d.elem y x ch
    readElem d.format ac.ftz (s.num e.1 (d.format.width / 8) % 2 ^ d.format.width)
  let zs : List FNum := taps.map fun t => match t.1 with
    | none => (numZero, t.2)
    | some (ty, tx) => bilinear ac tx.f ty.f (v ty.lo tx.lo) (v ty.lo tx.hi) (v ty.hi tx.lo) (v ty.hi tx.hi)
  f32Div ac (f32Sum ac (zs.getD 0 (.of numZero)) (zs.drop 1)) (.of (numInt (b.sr * b.sr)))

/-- R283: the source pixels a box reads. -/
def Box.reads (x : Box) (ac : ArithCtl) (b : Crop) (d : TDesc) : List (Nat × Nat) :=
  ((List.range (b.binsH * b.binsW)).flatMap fun bin => (x.taps ac b d bin).flatMap fun t => match t.1 with
    | none => []
    | some (ty, tx) => [(ty.lo, tx.lo), (ty.lo, tx.hi), (ty.hi, tx.lo), (ty.hi, tx.hi)]).eraseDups

/-- Who a tile's built-in sequence is (R280, R442): its lea's threads. -/
def whoCrop (d l : Nat) (r : CmdRef) : Who := ⟨initThreads d l, some r, true, false⟩

/-- The accesses of an item, each charged to the command (R373). -/
def State.chargeSpans (s : State) (r : CmdRef) (l : List (Bool × Nat × Nat)) : State :=
  l.foldl (fun s p => s.chargeLines r p.1 p.2.1 p.2.2) s

/-- R282: the block rows that a box reads and writes, each once. -/
def Box.spans (x : Box) (ac : ArithCtl) (b : Crop) (src out : TDesc) (i : Nat) : List (Bool × Nat × Nat) :=
  ((if x.degenerate || x.outside src then [] else (x.reads ac b src).map fun p => (false, src.rowBytes p)) ++
    (List.range (out.rows / 4)).map fun q => (true, out.rowBytes (i, 4 * q))).eraseDups

/-- R282, R283: the rows of a box's matrix, none where they hold zero, in order: each is converted with the slot's draws. -/
def State.cropRows (s : State) (c : Cmd) (b : Crop) (x : Box) (i key : Nat) : State :=
  let ac := c.arith
  let src := s.cropDesc b x.src
  let out := s.cropDesc b b.idx
  let void := x.degenerate || x.outside src
  (List.range out.rows).foldl (fun (t : State) r =>
    if void ∨ b.binsH * b.binsW ≤ r then t.writeRow out (i, r) []
    else
      let taps := x.taps ac b src r
      let l := (List.range out.cols).map fun ch => s.cropBin ac b src taps ch
      let th := t.slot key
      let (ys, lf) := putDraws out.format ac th.lfsr (l.map (·.1))
      ((t.writeRow out (i, r) ys).setSlot key { th with lfsr := lf }).addFlags c.ref
        (ys.foldl (fun f y => f ||| y.flags) (flagsOf l))) s

/-- R282: a box written by the slot `key`; or the status it ends with. -/
def State.cropBox (s : State) (c : Cmd) (b : Crop) (who : Who) (key i : Nat) : State × Nat :=
  let x := s.box b i
  let src := s.cropDesc b x.src
  let spans := x.spans c.arith b src (s.cropDesc b b.idx) i
  let st := oneOf (spans.map (s.spanStatus who))
  if st ≠ 0 then (s, st)
  else
    let n := if x.degenerate then 1 else if x.outside src then 0x10000 else 0
    (((s.cropRows c b x i key).chargeSpans c.ref spans).updCmd c.ref fun c => { c with kindInfo := c.kindInfo + n }, 0)

/-! ## ZB64 (R286, R287) -/

/-- R286: the ZB64 record of a line. -/
def zbRecord (line : List Byte) : List Byte :=
  leBytes 8 (((List.range 64).map fun i => if line.getD i 0 ≠ 0 then 2 ^ i else 0).sum) ++ line.filter fun x => decide (x ≠ 0)

/-- R286: the line of a ZB64 record, and what follows it; none where the record runs past the bytes. -/
def zbLine (bs : List Byte) : Option (List Byte × List Byte) :=
  let m := leNat (bs.take 8)
  let n := ((List.range 64).filter m.testBit).length
  if bs.length < 8 + n then none
  else
    let d := bs.drop 8
    some ((List.range 64).map fun i =>
      if m.testBit i then d.getD ((List.range i).filter m.testBit).length 0 else 0, d.drop n)

/-- R287: the address of line `g` of segment `q` of a raw tensor. -/
def zbRawAt (d : TDesc) (q g : Nat) : Nat :=
  d.base + q / (d.rows / 4) * d.ostride + q % (d.rows / 4) * (4 * d.cols) + 64 * g

/-- R287: the lines of a segment's bytes, none where a record runs past them. -/
def zbLines (b : Crop) : List Nat → List Byte → Option (List (Nat × List Byte))
  | [], _ => some []
  | g :: t, bs =>
    if bit b.groups g then
      match zbLine bs with
      | some (l, rest) => (zbLines b t rest).map fun r => (g, l) :: r
      | none => none
    else if bs.length < 64 then none
    else (zbLines b t (bs.drop 64)).map fun r => (g, bs.take 64) :: r

/-- R287: KIND_INFO counts `n` lines and a segment. -/
def State.zbCount (s : State) (r : CmdRef) (n : Nat) : State :=
  s.updCmd r fun c => { c with kindInfo := c.kindInfo + n + 2 ^ 32 }

/-- R287: segment `q` packed; or the status it ends with. -/
def State.zbPack (s : State) (c : Cmd) (b : Crop) (who : Who) (q : Nat) : State × Nat :=
  let d := s.cropDesc b b.idx
  let raw := zbRawAt d q 0
  let at_ := b.list + q * zbSlot b d
  let bs := (List.range (d.cols / 16)).flatMap fun g =>
    let l := s.bytes (zbRawAt d q g) 64
    if bit b.groups g then zbRecord l else l
  let n := (bs.length + 63) / 64
  let spans := [(false, raw, 4 * d.cols), (true, at_, 64 * n), (true, b.lens + q, 1)]
  let st := oneOf (spans.map (s.spanStatus who))
  if st ≠ 0 then (s, st)
  else
    ((((s.store at_ (bs ++ List.replicate (64 * n - bs.length) 0)).store (b.lens + q) (leBytes 1 n)).chargeSpans c.ref
      spans).zbCount c.ref n, 0)

/-- R287: segment `q` unpacked; or the status it ends with. -/
def State.zbUnpack (s : State) (c : Cmd) (b : Crop) (who : Who) (q : Nat) : State × Nat :=
  let d := s.cropDesc b b.idx
  let at_ := b.list + q * zbSlot b d
  let st := s.spanStatus who (false, b.lens + q, 1)
  let n := s.num (b.lens + q) 1
  if st ≠ 0 then (s, st)
  else
    let s := s.chargeLines c.ref false (b.lens + q) 1
    if n = 0 ∨ zbSlot b d / 64 < n then (s, 0x0F)
    else
      let spans := [(false, at_, 64 * n), (true, zbRawAt d q 0, 4 * d.cols)]
      let st := oneOf (spans.map (s.spanStatus who))
      if st ≠ 0 then (s, st)
      else match zbLines b (List.range (d.cols / 16)) (s.bytes at_ (64 * n)) with
        | none => (s, 0x0F)
        | some ls => (((ls.foldl (fun s l => s.store (zbRawAt d q l.1) l.2) s).chargeSpans c.ref spans).zbCount c.ref n, 0)

/-! ## A lea's part -/

/-- The items of a lea in order, until one ends with a status. -/
def State.cropRun (s : State) (f : State → Nat → State × Nat) : List Nat → State × PartEnd
  | [] => (s, .done)
  | w :: t => match f s w with
    | (s, 0) => s.cropRun f t
    | (s, st) => (s, .fault st)

/-- R280: the work that a CROP command gave to the tiles of a lea. -/
def State.cropPart (s : State) (c : Cmd) (d l : Nat) : State × PartEnd :=
  let b := cropBody c.words
  let who := whoCrop d l c.ref
  let raw := s.cropDesc b b.idx
  let tiles := (c.saved.getD 0 []).length
  let (s, e) := match b.op with
    | 0 => s.cropRun (fun s w => s.cropBox c b who ((s.cropSlotOf c.ref d l (b.first + w % max 1 tiles)).getD 0) w)
        (cropItems c d l b.boxes)
    | 1 => s.cropRun (fun s w => s.zbPack c b who w) (cropItems c d l (zbSegments raw))
    | _ => s.cropRun (fun s w => s.zbUnpack c b who w) (cropItems c d l (zbSegments raw))
  (s.cropFree c.ref d l, e)

end Sys2Proof.Machine
end

