-- ==== Sys2Proof/Machine/PrairieOps.lean ====
section
/-! DEFINITION. The Prairie planner (R290 to R311): grids, voxel trees and epochs, the checks of its commands, the
wavefront, collision checking, ranking and the trajectory record. -/

namespace Sys2Proof.Machine

/-! ## Maps and epochs (R291 to R298) -/

/-- R295: EPOCH and VALID of a map (0 grid, 1 voxel tree) of the engine of Md. -/
def State.praEpochWord (s : State) (d map : Nat) : Nat := readAt (fun _ => 0) s.prairie.epochs (2 * d + map)
/-- R295: the epoch of a map. -/
def State.praEpoch (s : State) (d map : Nat) : Nat := s.praEpochWord d map % 2 ^ 16
/-- R295: the map is valid. -/
def State.praValid (s : State) (d map : Nat) : Bool := bit (s.praEpochWord d map) 16

/-- R295: an epoch and VALID set, and their mirror on the Meadow. -/
def State.setPraEpoch (s : State) (d map e : Nat) (valid : Bool) : State :=
  let v := e % 2 ^ 16 + b2n valid * 2 ^ 16
  { s.setReg (aPra d (if map = 0 then 0x08 else 0x0C)) v with
    prairie := { s.prairie with epochs := writeAt (fun _ => 0) s.prairie.epochs (2 * d + map) v } }

/-- R297: the map of an engine stops being current. -/
def State.praUncurrent (s : State) (d map : Nat) : State :=
  { s with prairie := { s.prairie with held := s.prairie.held.map fun h =>
      { h with users := h.users.filter fun u => decide (u ≠ 2 * d + map) } } }

/-- R297: a range becomes the current map of an engine, and is held. -/
def State.praCurrent (s : State) (d map base len : Nat) : State :=
  let s := s.praUncurrent d map
  let known := s.prairie.held.any fun h => decide (h.base = base) && decide (h.len = len)
  let held := if known then
      s.prairie.held.map fun h => if h.base = base ∧ h.len = len then { h with users := h.users ++ [2 * d + map] } else h
    else s.prairie.held ++ [HeldMap.mk d base len [2 * d + map] []]
  { s with prairie := { s.prairie with held := held } }

/-- R297: a command records the epoch of an engine's current map, whose range stays held for it. -/
def State.praRecord (s : State) (r : CmdRef) (d map : Nat) : State :=
  let add := fun (x : HeldMap) =>
    if x.users.contains (2 * d + map) && !x.cmds.contains r then { x with cmds := x.cmds ++ [r] } else x
  { s with prairie := { s.prairie with held := s.prairie.held.map add } }

/-- R298, R317: a map of an engine invalidated. -/
def State.praInval (s : State) (d map : Nat) : State :=
  ((s.setPraEpoch d map (s.praEpoch d map + 1) false).praUncurrent d map).raise d 0 0x1F "PRA_INVALIDATED" map 0

/-- A grid as the engine reads it: BASE, BIAS. -/
structure Grid where
  base : Nat
  bias : Bool
  deriving DecidableEq, Repr

/-- R315: the current grid of an engine. -/
def State.praGrid (s : State) (d : Nat) : Grid := ⟨s.fld (aPra d 0x10) 47 0, bit (s.reg (aPra d 0x10)) 48⟩

/-- R291: the byte of cell (x, y) in its slice. -/
def cellAt (x y : Nat) : Nat := (y / 4 * 128 + x / 4) * 16 + y % 4 * 4 + x % 4

/-- R291: the occupancy of cell (x, y) of slice t. -/
def State.occ (s : State) (g : Grid) (t x y : Nat) : Nat :=
  let b := (s.byte (g.base + t * 0x40000 + cellAt x y)).toNat
  if g.bias then (b + 128) % 256 else b

/-! ## The body (R296, R300, R303) -/

/-- OP of a PRAIRIE body: 0 WAVEFRONT, 1 CHECK, 2 PUBLISH. -/
def praOp (w : List Nat) : Nat := bits (word w 8) 1 0
/-- USE_GRID, or FIELD of a WAVEFRONT and G of a PUBLISH. -/
def praGridBit (w : List Nat) : Bool := bit (word w 8) 2
/-- USE_VOX, or V of a PUBLISH. -/
def praVoxBit (w : List Nat) : Bool := bit (word w 8) 3
/-- HANDOFF. -/
def praHandoff (w : List Nat) : Bool := bit (word w 8) 4
/-- CAND. -/
def praCand (w : List Nat) : Nat := bits (word w 9) 47 0
/-- CAND_COUNT. -/
def praCount (w : List Nat) : Nat := bits (word w 9) 58 48
/-- COST_TABLE of a WAVEFRONT or a CHECK. -/
def praCost (w : List Nat) : Nat := if praOp w = 0 then bits (word w 9) 47 0 else bits (word w 11) 47 0
/-- RESULTS. -/
def praResults (w : List Nat) : Nat := bits (word w 12) 47 0
/-- FOOTPRINT. -/
def praFoot (w : List Nat) : Nat := bits (word w 10) 47 0

/-- The Meadows of a mask of four bits. -/
def diesOf (m : Nat) : List Nat := (List.range 4).filter fun d => bit m d

/-- A range lies wholly inside one of the buffers. -/
def insideOne (outs : List (Nat × Nat)) (a n : Nat) : Bool := outs.any fun o => inside a n o.1 o.2

/-- The statuses of a table the body names: alignment, place and reading. -/
def State.praTable (s : State) (r : CmdRef) (a n : Nat) : List Nat :=
  failIf (decide (a % 64 ≠ 0)) 3 ++ tablePlace a n ++ [s.tableRead r a n]

/-- R312: the statuses of a published range. -/
def State.praRange (s : State) (a n : Nat) : List Nat :=
  failIf (decide (a % 64 ≠ 0)) 3 ++ tablePlace a n ++
  failIf (!inDram a 1 || s.inFlight.any fun c => c.outs.any fun o => overlaps a n o.1 o.2) 4

/-- R296, R312: the statuses of the checks of a PUBLISH body. -/
def State.praPublishFails (s : State) (e : StartEnv) : List Nat :=
  let w := e.w
  let r := e.cmd.ref
  let vox := bits (word w 13) 47 0
  failIf (decide (bits (word w 8) 63 4 ≠ 0) || (List.range 5).any (fun i => decide (bits (word w (9 + i)) 63 48 ≠ 0))
    || decide (word w 14 ≠ 0) || decide (word w 15 ≠ 0) || (!praGridBit w && !praVoxBit w)
    || (List.range 4).any (fun d =>
      decide ((decide (bits (word w (9 + d)) 47 0 ≠ 0)) ≠ (praGridBit w && bit e.map.praDies d)))
    || decide (decide (vox ≠ 0) ≠ praVoxBit w)) 0x0F ++
  ((List.range 4).flatMap fun d =>
    let a := bits (word w (9 + d)) 47 0
    if a = 0 then []
    else
      let t := s.praTable r a 64
      t ++ (if oneOf t ≠ 0 then [] else
        let g := s.words a 8
        failIf (decide (bits (word g 0) 63 49 ≠ 0) || (g.drop 3).any fun x => decide (x ≠ 0)) 0x0F ++
        s.praRange (bits (word g 0) 47 0) 0x1000000)) ++
  (if vox = 0 then []
  else
    let t := s.praTable r vox 64
    t ++ (if oneOf t ≠ 0 then [] else
      let v := s.words vox 8
      let n := bits (word v 1) 22 0
      failIf (decide (bits (word v 0) 63 48 ≠ 0) || decide (bits (word v 1) 63 23 ≠ 0) || decide (bits (word v 3) 63 32 ≠ 0)
        || (v.drop 4).any fun x => decide (x ≠ 0)) 0x0F ++
      failIf (decide (n = 0) || decide (4194304 < n)) 2 ++ s.praRange (bits (word v 0) 47 0) (64 * n)))

/-- R300, R312: the statuses of the checks of a WAVEFRONT body. -/
def State.praWaveFails (s : State) (e : StartEnv) : List Nat :=
  let w := e.w
  let field := bits (word w 10) 47 0
  let sum := bits (word w 11) 47 0
  let d := (diesOf e.map.praDies).getD 0 0
  failIf (decide (bits (word w 8) 7 3 ≠ 0)
    || decide (bits (word w 8) 63 34 ≠ 0) || (List.range 3).any (fun i => decide (bits (word w (9 + i)) 63 48 ≠ 0))
    || (List.range 4).any (fun i => decide (word w (12 + i) ≠ 0)) || decide ((diesOf e.map.praDies).length ≠ 1)
    || (!praGridBit w && decide (field ≠ 0))) 0x0F ++
  s.praTable e.cmd.ref (praCost w) 256 ++ failIf (decide (sum % 64 ≠ 0) || decide (field % 64 ≠ 0)) 3 ++
  tablePlace sum 512 ++ failIf (!insideOne e.outs sum 512) 4 ++
  (if praGridBit w then tablePlace field 0x1000000 ++ failIf (!insideOne e.outs field 0x1000000) 4 else []) ++
  failIf (!s.praValid d 0) 0x0A

/-- R303, R304, R312: the statuses of the checks of a CHECK body. -/
def State.praCheckFails (s : State) (e : StartEnv) : List Nat :=
  let w := e.w
  let r := e.cmd.ref
  let n := praCount w
  let nd := bits (word w 8) 11 8
  let ct := s.praTable r (praCand w) (576 * min n 1024)
  let ft := s.praTable r (praFoot w) 64
  failIf (decide (bits (word w 8) 7 5 ≠ 0) || decide (bits (word w 8) 63 28 ≠ 0) || decide (bits (word w 9) 63 59 ≠ 0)
    || (List.range 3).any (fun i => decide (bits (word w (10 + i)) 63 48 ≠ 0)) || decide (bits (word w 13) 63 48 ≠ 0)
    || decide (word w 14 ≠ 0) || decide (word w 15 ≠ 0) || (!praGridBit w && !praVoxBit w)
    || decide (nd = 0) || decide (8 < nd)
    || (praVoxBit w && decide (sext 16 (bits (word w 13) 47 32) < sext 16 (bits (word w 13) 31 16)))) 0x0F ++
  failIf (decide (1024 < n)) 2 ++ ct ++
  (if lowest ct ≠ 0 then [] else (List.range (min n 1024)).flatMap fun c =>
    let h := s.num (praCand w + 576 * c) 8
    failIf (decide (bits h 63 23 ≠ 0)) 0x0F ++ failIf (decide (64 < bits h 22 16)) 2) ++
  ft ++
  (if lowest ft ≠ 0 then [] else (List.range (min nd 8)).flatMap fun i =>
    let x := s.num (praFoot w + 8 * i) 8
    failIf (decide (bits x 63 48 ≠ 0) || decide (bits x 47 32 < 46) || decide (1024 < bits x 47 32)) 0x0F) ++
  s.praTable r (praCost w) 256 ++ failIf (decide (praResults w % 64 ≠ 0)) 3 ++ tablePlace (praResults w) (16 * n) ++
  failIf (decide (n ≠ 0) && !insideOne e.outs (praResults w) (16 * n)) 4

/-- R312: the statuses of the checks of a PRAIRIE body. -/
def State.praFails (s : State) (e : StartEnv) : List Nat :=
  failIf (decide (wCtxCount e.w ≠ 0) || decide (e.map.praDies = 0) || decide (praOp e.w = 3)) 0x0F ++
  (match praOp e.w with
    | 0 => s.praWaveFails e
    | 1 => s.praCheckFails e
    | 2 => s.praPublishFails e
    | _ => [])

/-- R312: a CHECK or WAVEFRONT waits for the engines it needs. -/
def State.praWaits (s : State) (e : StartEnv) : Bool :=
  decide (praOp e.w < 2) && (diesOf e.map.praDies).any fun d => decide (s.fld (aPra d 0) 1 0 ≠ 0)

/-! ## The wavefront (R301, R302) -/

/-- R301: the least of the costs `c` of the cells within `v` of (x, y). -/
def waveMin (c : Nat → Nat → Nat) (v x y : Nat) : Nat :=
  (List.range (2 * v + 1)).foldl (fun m i => (List.range (2 * v + 1)).foldl (fun m j =>
    if v ≤ x + i ∧ x + i < 512 + v ∧ v ≤ y + j ∧ y + j < 512 + v then min m (c (x + i - v) (y + j - v)) else m) m) 255

/-- R301: the cost of cell (x, y) of slice t; `k` is the step cost of a cell of a slice. -/
def waveCost (k : Nat → Nat → Nat → Nat) (v seedr sx sy : Nat) : Nat → Nat → Nat → Nat
  | 0, x, y => if x ≤ sx + seedr ∧ sx ≤ x + seedr ∧ y ≤ sy + seedr ∧ sy ≤ y + seedr then k 0 x y else 255
  | t + 1, x, y =>
    let m := waveMin (waveCost k v seedr sx sy t) v x y
    let k := k (t + 1) x y
    if m = 255 ∨ k = 255 then 255 else min 254 (m + k)

/-- R302: the summary of a slice of costs: MIN, X, Y and REACH. -/
def waveSummary (c : Nat → Nat → Nat) : Nat :=
  let z := (List.range 512).foldl (fun (a : Nat × Nat × Nat × Nat) y => (List.range 512).foldl (fun a x =>
    let v := c x y
    let a := if v < a.1 then (v, x, y, a.2.2.2) else a
    if v < 255 then (a.1, a.2.1, a.2.2.1, a.2.2.2 + 1) else a) a) (255, 0, 0, 0)
  z.1 + z.2.1 * 2 ^ 16 + z.2.2.1 * 2 ^ 32 + z.2.2.2 * 2 ^ 44

/-- R291: the bytes of a slice of costs. -/
def waveSlice (c : Nat → Nat → Nat) : List Byte :=
  (List.range 0x40000).map fun o =>
    let b := o / 16
    BitVec.ofNat 8 (c (b % 128 * 4 + o % 4) (b / 128 * 4 + o % 16 / 4))

/-- R301, R302: the WAVEFRONT of a body over a grid: the field, where it is written, and the summary. -/
def State.wavefront (s : State) (w : List Nat) (g : Grid) : State :=
  let a := word w 8
  let k := fun t x y => (s.byte (praCost w + s.occ g t x y)).toNat
  let c := waveCost k (bits a 11 8) (bits a 15 12) (bits a 24 16) (bits a 33 25)
  let field := bits (word w 10) 47 0
  let s := if praGridBit w then (List.range 64).foldl (fun s t => s.store (field + t * 0x40000) (waveSlice (c t))) s else s
  s.store (bits (word w 11) 47 0) ((List.range 64).flatMap fun t => leBytes 8 (waveSummary (c t)))

/-! ## Collision checking (R304 to R306) -/

/-- π with 124 fraction bits. -/
def piFix : Nat := 0x3243F6A8885A308D313198A2E0370734

/-- Terms of the sine series at `x`, 124 fraction bits: `term` is x^k/k!, alternating in sign. -/
def sinTerms : Nat → Nat → Nat → Nat → Int → Int → Int
  | 0, _, _, _, _, acc => acc
  | n + 1, k, xx, term, sign, acc =>
    sinTerms n (k + 2) xx (((term * xx) >>> 124) / ((k + 1) * (k + 2))) (-sign) (acc + sign * term)

/-- R305: sin(2πa/1,024) · 16,384 for a from 0 to 256, rounded to nearest. -/
def sinQuarter (a : Nat) : Nat :=
  let x := piFix * a / 512
  ((sinTerms 30 1 ((x * x) >>> 124) x 1 0).toNat * 32768 / 2 ^ 124 + 1) / 2

/-- R305: S for the table index a. -/
def sin1024 (a : Nat) : Int :=
  let a := a % 1024
  if a ≤ 256 then sinQuarter a else if a ≤ 512 then sinQuarter (512 - a)
  else if a ≤ 768 then -(sinQuarter (a - 512) : Int) else -(sinQuarter (1024 - a) : Int)

/-- R305: C for the table index a. -/
def cos1024 (a : Nat) : Int := sin1024 (a + 256)

/-- R305: rnd, an arithmetic shift. -/
def rnd14 (v : Int) : Int := (v + 8192) / 16384

/-- R305: the centre of a disc at a pose. -/
def discCentre (pose disc : Nat) : Int × Int :=
  let x := sext 16 (bits pose 15 0)
  let y := sext 16 (bits pose 31 16)
  let a := bits pose 47 32 / 64
  let dx := sext 16 (bits disc 15 0)
  let dy := sext 16 (bits disc 31 16)
  (x + rnd14 (dx * cos1024 a - dy * sin1024 a), y + rnd14 (dx * sin1024 a + dy * cos1024 a))

/-- R305: the cells that a disc covers. -/
def discCells (pose disc : Nat) : List (Int × Int) :=
  let c := discCentre pose disc
  let r := bits disc 47 32
  let near := fun (v : Int) => (List.range 35).map fun i => v / 64 - 17 + (i : Int)
  ((near c.1).flatMap fun x => (near c.2).map fun y => (x, y)).filter fun p =>
    decide ((c.1 - 64 * p.1 - 32) ^ 2 + (c.2 - 64 * p.2 - 32) ^ 2 ≤ ((r * r : Nat) : Int))

/-- What the walk of a voxel ends on (R293, R294). -/
inductive Vox where
  | empty
  | occupied
  | bad
  | unread (status : Nat)
  deriving DecidableEq, Repr

/-- The tree of an engine: NODES and NODE_COUNT. -/
structure Tree where
  nodes : Nat
  count : Nat
  deriving DecidableEq, Repr

/-- R293, R294: the walk of voxel (i, j, k) from node `x` at level `l`. -/
def State.voxWalk (s : State) (who : Who) (t : Tree) (i j k : Nat) : Nat → Nat → Nat → Vox
  | 0, _, _ => .bad
  | f + 1, l, x =>
    let a := t.nodes + 64 * x
    let st := s.access who false a 64
    if t.count ≤ x then .bad
    else if st ≠ 0 then .unread st
    else if s.readPoison a 64 then .unread 5
    else if s.num (a + 40) 8 % 16 ≠ l then .bad
    else if l = 2 then
      if bit (s.num (a + 32) 8) (16 * (k % 4) + 4 * (j % 4) + i % 4) then .occupied else .empty
    else
      let n := 4 * (k / 2 ^ (l - 1) % 2) + 2 * (j / 2 ^ (l - 1) % 2) + i / 2 ^ (l - 1) % 2
      let c := s.num (a + 4 * n) 4
      if c = 0 then .empty else if c = 0xFFFFFFFF then .occupied else s.voxWalk who t i j k f (l - 1) c

/-- R306: the layers of the height band. -/
def bandLayers (zlo zhi : Int) : List Nat :=
  (List.range 512).filter fun k => decide (64 * (k : Int) ≤ zhi) && decide (zlo < 64 * (k : Int) + 64)

/-- R306: what a column (i, j) holds in the band: the first walk that does not end empty decides. -/
def State.voxColumn (s : State) (who : Who) (t : Tree) (band : List Nat) (i j : Int) : Vox :=
  if i < 0 ∨ 511 < i ∨ j < 0 ∨ 511 < j then .empty
  else band.foldl (fun v k => if v = .empty then s.voxWalk who t i.toNat j.toNat k 8 9 0 else v) .empty

/-- What the check of a candidate gathers (R306); `fault` is the status of a bad walk or an unreadable map. -/
structure CandSum where
  hit : Bool
  voxHit : Bool
  firstHit : Nat
  pathCost : Nat
  peak : Nat
  fault : Nat
  deriving DecidableEq, Repr

/-- What a batch checks against (R307): grid, tree, band and the offsets of the tree's columns. -/
structure CheckEnv where
  who : Who
  grid : Grid
  tree : Tree
  ox : Int
  oy : Int
  deriving DecidableEq, Repr

/-- R306: one pose of a candidate: greatest occupancy, hit, voxel hit and fault. -/
def State.checkPose (s : State) (w : List Nat) (e : CheckEnv) (p pose : Nat) : Nat × Bool × Bool × Nat :=
  let a := word w 8
  let band := bandLayers (sext 16 (bits (word w 13) 31 16)) (sext 16 (bits (word w 13) 47 32))
  let cells := (List.range (bits a 11 8)).flatMap fun i => discCells pose (s.num (praFoot w + 8 * i) 8)
  cells.foldl (fun (z : Nat × Bool × Bool × Nat) xy =>
    let inGrid := decide (0 ≤ xy.1) && decide (xy.1 ≤ 511) && decide (0 ≤ xy.2) && decide (xy.2 ≤ 511)
    let at_ := e.grid.base + p * 0x40000 + cellAt xy.1.toNat xy.2.toNat
    let gst := if praGridBit w && inGrid then
        (let st := s.access e.who false at_ 1; if st ≠ 0 then st else if s.readPoison at_ 1 then 5 else 0)
      else 0
    let o := if inGrid then s.occ e.grid p xy.1.toNat xy.2.toNat else bits a 27 20
    let v := if praVoxBit w then s.voxColumn e.who e.tree band (xy.1 + e.ox) (xy.2 + e.oy) else .empty
    let vst := match v with
      | .bad => 0x0F
      | .unread st => st
      | _ => 0
    (if praGridBit w then max z.1 o else z.1,
      z.2.1 || (praGridBit w && decide (bits a 19 12 ≤ o)) || decide (v = .occupied),
      z.2.2.1 || decide (v = .occupied), oneOf [z.2.2.2, gst, vst])) (0, false, false, 0)

/-- R306: a candidate. -/
def State.checkCand (s : State) (w : List Nat) (e : CheckEnv) (c : Nat) : CandSum :=
  let a := praCand w + 576 * c
  (List.range (bits (s.num a 8) 22 16)).foldl (fun z p =>
    let q := s.checkPose w e p (s.num (a + 64 + 8 * p) 8)
    { hit := z.hit || q.2.1, voxHit := z.voxHit || q.2.2.1
      firstHit := if q.2.1 && !z.hit then p else z.firstHit
      pathCost := if praGridBit w then min 65535 (z.pathCost + (s.byte (praCost w + q.1)).toNat) else z.pathCost
      peak := if praGridBit w then max z.peak q.1 else z.peak
      fault := oneOf [z.fault, q.2.2.2] }) ⟨false, false, 0x7F, 0, 0, 0⟩

/-! ## Results and ranking (R308 to R310) -/

/-- R308: the words of a result record. -/
def praRecordWords (w : List Nat) (r : PraResult) (stale selected : Bool) (rank : Nat) : List Nat :=
  [ b2n r.checked + b2n r.hit * 2 + b2n r.voxHit * 4 + b2n stale * 8 + b2n selected * 16 + r.firstHit * 2 ^ 8
      + r.peak * 2 ^ 16 + r.pathCost * 2 ^ 32 + rank * 2 ^ 48,
    r.score + (if praGridBit w then r.gridTag else 0) * 2 ^ 32 + (if praVoxBit w then r.voxTag else 0) * 2 ^ 48 ]

/-- R309: the candidate is valid. -/
def PraResult.valid (r : PraResult) : Bool := r.checked && !r.hit

/-- R309: the candidate is current. -/
def State.praIsCurrent (s : State) (w : List Nat) (r : PraResult) : Bool :=
  (!praGridBit w || decide (r.gridTag = s.praEpoch r.die 0)) && (!praVoxBit w || decide (r.voxTag = s.praEpoch r.die 1))

/-- A result put into a list ordered by SCORE and then candidate. -/
def rankInsert (r : PraResult) : List PraResult → List PraResult
  | [] => [r]
  | x :: t => if r.score < x.score ∨ (r.score = x.score ∧ r.cand < x.cand) then r :: x :: t else x :: rankInsert r t

/-- R309: the valid candidates in rank order. -/
def rankAll (l : List PraResult) : List PraResult := (l.filter PraResult.valid).foldr rankInsert []

/-- R310: the handed candidate: the first in rank order that is current. -/
def State.handed (s : State) (c : Cmd) : Option PraResult :=
  (rankAll c.results).find? (s.praIsCurrent c.words)

/-- R311: the trajectory record of a candidate: 576 bytes. -/
def State.trajRecord (s : State) (j : Job) (c : Cmd) (r : PraResult) (hseq : Nat) (subst : Bool) : List Byte :=
  let a := praCand c.words + 576 * r.cand
  let n := bits (s.num a 8) 22 16
  let head := wordBytes [ hseq + j.id * 2 ^ 32 + r.cand * 2 ^ 48, r.t0,
    (if praGridBit c.words then r.gridTag else 0) + (if praVoxBit c.words then r.voxTag else 0) * 2 ^ 16
      + b2n subst * 2 ^ 32 + c.ref.list * 2 ^ 33 + n * 2 ^ 34,
    r.origin, r.score + r.pathCost * 2 ^ 32 + r.peak * 2 ^ 48, 0, 0 ]
  let poses := s.bytes (a + 64) (8 * n) ++ List.replicate (512 - 8 * n) 0
  head ++ leBytes 8 (crc32c (head ++ poses)) ++ poses

end Sys2Proof.Machine
end

