-- ==== Sys2Proof/Machine/Prairie.lean ====
section
/-! DEFINITION. The Prairie engines at work (R296 to R316): publication, wavefront, batches, ranking, validation and
hand-off, and the engines' registers. -/

namespace Sys2Proof.Machine

/-- Who a Prairie engine is (R442). -/
def whoPra (d : Nat) (r : CmdRef) : Who := ⟨initPrairie d, some r, false, false⟩

/-- R316: PRA_STATUS of an engine: BUSY with the command's tag and list, or IDLE. -/
def State.praBusy (s : State) (d : Nat) (r : Option CmdRef) : State :=
  let a := aPra d 0
  match r with
  | some r => ((s.setFld a 1 0 1).setFld a 15 8 (r.idx % 256)).setFld a 16 16 r.list
  | none => ((s.setFld a 1 0 0).setFld a 15 8 0).setFld a 16 16 0

/-- R316: a comparator of an engine evaluates: an injection armed at it is detected. -/
def State.praFire (s : State) (d target : Nat) : State :=
  let a := aPra d 0x84
  if bit (s.reg a) 31 && decide (s.fld a 1 0 = target) then (s.setReg (aPra d 0x88) 1).setFld a 31 31 0 else s

/-! ## What a start takes -/

/-- R307, R309: the engines that run a PRAIRIE command; PUBLISH and an empty CHECK run none. -/
def praEngines (w : List Nat) (dies : Nat) : List Nat :=
  if praOp w = 2 ∨ (praOp w = 1 ∧ praCount w = 0) then [] else diesOf dies

/-- R296, R300: what a start reads and keeps: the descriptors of a PUBLISH by Meadow and last the voxel tree's, or the
grid of a WAVEFRONT with its epoch. -/
def State.praSaved (s : State) (w : List Nat) (dies : Nat) : List (List Nat) :=
  match praOp w with
  | 2 => ((List.range 4).map fun d => if bit dies d && praGridBit w then s.words (bits (word w (9 + d)) 47 0) 8 else []) ++
    [if praVoxBit w then s.words (bits (word w 13) 47 0) 8 else []]
  | 0 =>
    let d := (diesOf dies).getD 0 0
    [[s.reg (aPra d 0x10), s.praEpoch d 0]]
  | _ => []

/-- R296: the ranges that a PUBLISH names, which count as its output buffers. -/
def praRanges (saved : List (List Nat)) : List (Nat × Nat) :=
  ((saved.take 4).filterMap fun g => if g.isEmpty then none else some (bits (word g 0) 47 0, 0x1000000)) ++
  ((saved.drop 4).filterMap fun v => if v.isEmpty then none else some (bits (word v 0) 47 0, 64 * bits (word v 1) 22 0))

/-! ## WAVEFRONT (R300 to R302) -/

/-- R301, R312: a WAVEFRONT on the engine of Md. -/
def State.praWavePart (s : State) (c : Cmd) (d : Nat) : State × PartEnd :=
  let g : Grid := ⟨bits (word (c.saved.getD 0 []) 0) 47 0, bit (word (c.saved.getD 0 []) 0) 48⟩
  let who := whoPra d c.ref
  let field := bits (word c.words 10) 47 0
  let st := oneOf ([s.walkRead who g.base 0x1000000, s.walkRead who (praCost c.words) 256,
    s.access who true (bits (word c.words 11) 47 0) 512] ++
    (if praGridBit c.words then [s.access who true field 0x1000000] else []))
  if st ≠ 0 then (s, .fault st)
  else
    let s := (((s.chargeMaps c.ref).chargeLines c.ref false (praCost c.words) 256).chargeLines c.ref true
      (bits (word c.words 11) 47 0) 512)
    let s := if praGridBit c.words then s.chargeLines c.ref true field 0x1000000 else s
    let s := (s.wavefront c.words g).praFire d 1
    ((s.praFire d 3).updCmd c.ref fun c => { c with kindInfo := word (c.saved.getD 0 []) 1 }, .done)

/-! ## CHECK (R303 to R309) -/

/-- R307: the candidates of the engine of Md, in increasing order. -/
def praCandsOf (c : Cmd) (d : Nat) : List Nat :=
  let es := c.engines.map (·.die)
  (List.range (praCount c.words)).filter fun x => decide (es.getD (x % es.length) 4 = d)

/-- R307: how many candidates of an engine have been in a batch. -/
def praDoneOf (c : Cmd) (d : Nat) : Nat := readAt (fun _ => 0) c.praDone d

/-- R307: every batch of every engine has ended. -/
def praAllBatches (c : Cmd) : Bool := c.engines.all fun e => decide ((praCandsOf c e.die).length ≤ praDoneOf c e.die)

/-- R307: grid and tree origins differ by a multiple of 200 mm in x and in y. -/
def State.praAligned (s : State) (d : Nat) : Bool :=
  let g := s.reg (aPra d 0x20)
  let v := s.reg (aPra d 0x38)
  decide ((sext 32 (bits g 31 0) - sext 32 (bits v 31 0)) % 200 = 0)
    && decide ((sext 32 (bits g 63 32) - sext 32 (bits v 63 32)) % 200 = 0)

/-- R306, R307: what a batch of the engine of Md checks against. -/
def State.checkEnv (s : State) (c : Cmd) (d : Nat) : CheckEnv :=
  let g := s.reg (aPra d 0x20)
  let v := s.reg (aPra d 0x38)
  ⟨whoPra d c.ref, s.praGrid d, ⟨s.fld (aPra d 0x28) 47 0, s.fld (aPra d 0x30) 22 0⟩,
    (sext 32 (bits g 31 0) - sext 32 (bits v 31 0)) / 200, (sext 32 (bits g 63 32) - sext 32 (bits v 63 32)) / 200⟩

/-- R307, R308: an engine of a running CHECK runs its next batch of up to 128 candidates: it records the epochs as tags,
checks the candidates, and writes their result records. -/
def execPrairieBatch (list : Fin 2) (idx : BitVec 16) (die : Fin 4) (s : State) : Host.Outcome State Fault Refusal :=
  .next <| s.live <|
    let r : CmdRef := ⟨list, idx.toNat⟩
    let d := die.val
    match s.cmd r with
    | none => s
    | some c =>
      let w := c.words
      let todo := ((praCandsOf c d).drop (praDoneOf c d)).take 128
      if decide (c.phase ≠ .running) || decide (c.kind ≠ 2) || decide (praOp w ≠ 1) || todo.isEmpty || s.valeGone d || !s.stacksTake
          || !c.engines.any (fun e => decide (e.die = d) && decide (e.state = 1)) then s
      else
        let useG := praGridBit w
        let useV := praVoxBit w
        let s := (s.praRecord r d 0).praRecord r d 1
        let valid := (!useG || s.praValid d 0) && (!useV || s.praValid d 1)
        let off := useV && !s.praAligned d
        let s := if valid && off then s.raiseFor r d 0 0x1F "PRA_MAP_MISALIGNED" 0 0 else s
        let env := s.checkEnv c d
        let lead := (c.engines.map (·.die)).getD 0 0
        let runs := todo.map fun x =>
          let z := if valid && !off then s.checkCand w env x else ⟨false, false, 0x7F, 0, 0, 0⟩
          let h := s.num (praCand w + 576 * x) 8
          (PraResult.mk x d (valid && !off && decide (bits h 22 16 ≠ 0)) z.hit z.voxHit z.firstHit z.peak z.pathCost
            (bits h 15 0 + z.pathCost * bits (word w 13) 15 0 / 256) (s.praEpoch d 0) (s.praEpoch d 1)
            (s.reg (aPra lead 0x18)) (s.reg (aPra lead 0x20)), z.fault)
        let at_ := fun (x : Nat) => praResults w + 16 * x
        let st := oneOf (runs.map (·.2) ++ todo.map fun x =>
          oneOf [s.walkRead env.who (praCand w + 576 * x) 576, s.access env.who true (at_ x) 16])
        let s := if (useG || useV) && valid && !off then s.chargeMaps r else s
        let s := todo.foldl (fun s x => s.chargeLines r false (praCand w + 576 * x) 576) s
        if st = 8 ∧ s.cutOff d then s.kill [r] 1 false .go
        else if st ≠ 0 then s.send (.fault d 0 0x1F r c.serial st)
        else
          let s := todo.foldl (fun s x => s.chargeLines r true (at_ x) 16) s
          let s := runs.foldl (fun s x => s.store (at_ x.1.cand) (wordBytes (praRecordWords w x.1 false false 0xFFFF))) s
          s.updCmd r fun c => { c with
            praDone := writeAt (fun _ => 0) c.praDone d (praDoneOf c d + todo.length)
            results := c.results ++ runs.map (·.1) }

/-- R309: after the last batch of every engine, the output stage of the lead engine ranks the valid candidates, and the
ranking fields of the records are written. -/
def execPrairieRanking (list : Fin 2) (idx : BitVec 16) (s : State) : Host.Outcome State Fault Refusal :=
  .next <| s.live <|
    let r : CmdRef := ⟨list, idx.toNat⟩
    match s.cmd r with
    | none => s
    | some c =>
      let w := c.words
      if decide (c.phase ≠ .running) || decide (c.kind ≠ 2) || decide (praOp w ≠ 1) || c.engines.isEmpty || c.rankingDone
          || !praAllBatches c then s
      else
        let lead := (c.engines.map (·.die)).getD 0 0
        let ranked := rankAll c.results
        let rankOf := fun (x : PraResult) => if x.valid then ranked.findIdx (fun y => decide (y.cand = x.cand)) else 0xFFFF
        let s := c.results.foldl (fun s x =>
          (s.chargeLines r true (praResults w + 16 * x.cand) 16).store (praResults w + 16 * x.cand)
            (wordBytes (praRecordWords w x (!s.praIsCurrent w x) (decide (rankOf x = 0)) (rankOf x)))) s
        let stale := (ranked.filter fun x => !s.praIsCurrent w x).length
        let s := s.updCmd r fun c => { c with
          rankingDone := true, ranked := ranked.map (·.cand)
          kindInfo := 0xFFFF + ranked.length * 2 ^ 32 + stale * 2 ^ 48 }
        let s := s.praFire lead 2
        if ranked.isEmpty then (s.count32 (aPra lead 0x50)).raiseFor r lead 0 0x1F "PRA_NO_CANDIDATE" 0 0 else s

/-- The part of the engine of Md of a PRAIRIE command: a WAVEFRONT runs; a CHECK has run all its batches, and the lead
engine its ranking; none where they are still to come. -/
def State.praPart (s : State) (c : Cmd) (d : Nat) : Option (State × PartEnd) :=
  if praOp c.words = 0 then some (s.praWavePart c d)
  else
    let lead := (c.engines.map (·.die)).getD 0 0
    if (praCandsOf c d).length ≤ praDoneOf c d ∧ (d ≠ lead ∨ c.rankingDone) then
      some ((s.praFire d 2).praFire d 3, .done)
    else none

/-! ## Validation, hand-off and publication (R296, R310, R311) -/

/-- R310: the epoch validation: the status it ends the command with, 0 where it passes. -/
def State.praValidate (s : State) (c : Cmd) : State × Nat :=
  if c.kind ≠ 2 ∨ praOp c.words ≠ 1 ∨ ¬ praHandoff c.words ∨ c.ranked = [] then (s, 0)
  else
    let lead := (c.engines.map (·.die)).getD 0 0
    match s.handed c with
    | none => (s.count32 (aPra lead 0x4C), 0x0A)
    | some x =>
      let sel := c.ranked.getD 0 0
      let subst := decide (x.cand ≠ sel)
      let s := s.updCmd c.ref fun c => { c with
        kindInfo := c.kindInfo / 2 ^ 32 * 2 ^ 32 + x.cand + b2n subst * 2 ^ 16, ranked := [x.cand] }
      (if subst then s.raiseFor c.ref lead 0 0x1F "PRA_SUBSTITUTED" sel x.cand else s, 0)

/-- R311: the hand-off: the lead engine's output stage sends the trajectory record to each Heath whose link is up. -/
def State.praHandoffOut (s : State) (j : Job) (c : Cmd) : State :=
  if praOp c.words ≠ 1 ∨ ¬ praHandoff c.words then s
  else
    let lead := (c.engines.map (·.die)).getD 0 0
    match c.results.find? fun x => decide (c.ranked = [x.cand]) && decide (c.kindInfo % 2 ^ 16 = x.cand) with
    | none => s
    | some x =>
      let subst := bit c.kindInfo 16
      let h := (s.reg (aPra lead 0x44) + 1) % 2 ^ 32
      let s := s.setReg (aPra lead 0x44) h
      let s := if subst then s.count32 (aPra lead 0x48) else s
      let rec_ := s.trajRecord j c x h subst
      let s := s.updJob j.serial fun j => { j with handed := rec_ }
      let hs := (List.range 2).filter (s.heathLinked lead)
      { s with prairie := { s.prairie with records := s.prairie.records ++ hs.map fun h =>
        ⟨h, lead, rec_, j.serial, j.id, j.ringSet, c.ref, c.serial⟩ } }

/-- R296, R297, R315: one published map of an engine: its registers, VALID and the epoch. -/
def State.praPublishMap (s : State) (d map : Nat) (w : List Nat) : State :=
  let s := s.setPraEpoch d map (s.praEpoch d map + 1) true
  if map = 0 then
    let s := ((s.setReg (aPra d 0x10) (bits (word w 0) 48 0)).setReg (aPra d 0x18) (word w 1)).setReg (aPra d 0x20) (word w 2)
    s.praCurrent d 0 (bits (word w 0) 47 0) 0x1000000
  else
    let s := (s.setReg (aPra d 0x28) (bits (word w 0) 47 0)).setReg (aPra d 0x30) (bits (word w 1) 22 0)
    let s := (s.setReg (aPra d 0x34) (bits (word w 3) 31 0)).setReg (aPra d 0x38) (word w 2)
    s.praCurrent d 1 (bits (word w 0) 47 0) (64 * bits (word w 1) 22 0)

/-- R296, R313: the publication of a PUBLISH command, and its KIND_INFO. -/
def State.praPublish (s : State) (c : Cmd) : State :=
  let ds := diesOf c.praDies
  let s := ds.foldl (fun s d =>
    let g := c.saved.getD d []
    let v := c.saved.getD 4 []
    let s := if g.isEmpty then s else s.praPublishMap d 0 g
    if v.isEmpty then s else s.praPublishMap d 1 v) s
  let d := ds.getD 0 0
  s.updCmd c.ref fun c => { c with
    kindInfo := (if praGridBit c.words then s.praEpoch d 0 else 0)
      + (if praVoxBit c.words then s.praEpoch d 1 else 0) * 2 ^ 16 }

/-- R297, R317: a held range whose map is no engine's current map, and that no command still reads, is released. -/
def execPrairieMapRelease (base : Addr) (s : State) : Host.Outcome State Fault Refusal :=
  .next <| s.live <|
    match s.prairie.held.find? fun h => decide (h.base = base.toNat) && h.users.isEmpty && h.cmds.isEmpty with
    | none => s
    | some h =>
      ({ s with prairie := { s.prairie with held := s.prairie.held.erase h } }).raise h.die 0 0x1F "PRA_MAP_RELEASED" h.base 0

/-! ## Invalidation, checks and counters (R298, R314 to R316) -/

/-- R298: who may write PRA_INVAL. -/
def praInvalOk (init : Nat) : Bool := isHeath init || decide (init = initSch)

/-- R298: PRA_INVAL.GRID. -/
def execPraInvalGrid (init : Init) (die : Fin 4) (s : State) : Host.Outcome State Fault Refusal :=
  .next <| s.live (if praInvalOk init.toNat then s.praInval die 0 else s)
/-- R298: PRA_INVAL.VOX. -/
def execPraInvalVox (init : Init) (die : Fin 4) (s : State) : Host.Outcome State Fault Refusal :=
  .next <| s.live (if praInvalOk init.toNat then s.praInval die 1 else s)

/-- R314: an engine reports a mismatch: 1 wavefront, 2 disc or voxel stage, 3 ranking. -/
def State.praMismatch (s : State) (r : CmdRef) (d check : Nat) : State :=
  let a := aPra d
  let s := (s.count (a 0x58) 15 0 1).setFld (a 0x58) 17 16 check
  let s := ((s.setReg (a 0x70) (s.reg (a 0x68))).setReg (a 0x68) (s.reg (a 0x60))).setReg (a 0x60) s.now
  let s := s.raiseFor r d 0 0x1F "PRA_MISMATCH" 0 0
  let s := if 3 ≤ s.fld (a 0x58) 15 0 ∧ s.reg (a 0x60) ≤ s.reg (a 0x70) + 3600000000000 ∧ ¬ bit (s.reg (a 0)) 2 then
      ((s.setFld (a 0) 2 2 1).raise d 0 0x1F "PRA_SUSPECT" 0 0).engineSuspect d 0x10
    else s
  s.rerunOnce r d 0 0x1F 6

/-- R314: an uncorrectable error of an engine buffer. -/
def State.praRamUe (s : State) (r : CmdRef) (d : Nat) : State :=
  (s.raiseFor r d 0 0x1F "PRA_UE" 0 0).rerunOnce r d 0 0x1F 5

/-- R316: a Heath arms an injection of a Prairie engine. -/
def State.praArm (s : State) (init d target : Nat) : State :=
  if !isHeath init then s
  else { s.setReg (aPra d 0x84) (target + 2 ^ 31) with
    prairie := { s.prairie with armedAt := writeAt (fun _ => 0) s.prairie.armedAt d s.now } }

/-- R316: the wavefront comparator. -/
def execPraInjectWavefront (init : Init) (die : Fin 4) (s : State) : Host.Outcome State Fault Refusal :=
  .next <| s.live (s.praArm init.toNat die 1)
/-- R316: the disc and voxel comparator. -/
def execPraInjectDisc (init : Init) (die : Fin 4) (s : State) : Host.Outcome State Fault Refusal :=
  .next <| s.live (s.praArm init.toNat die 2)
/-- R316: a single-bit error of a buffer. -/
def execPraInjectBuffer (init : Init) (die : Fin 4) (s : State) : Host.Outcome State Fault Refusal :=
  .next <| s.live (s.praArm init.toNat die 3)

/-- R105, R314: an injection that has not fired within 1 ms ends with TIMEOUT. -/
def execPraInjectTimeout (die : Fin 4) (s : State) : Host.Outcome State Fault Refusal :=
  .next <| s.live <|
    let a := aPra die 0x84
    if bit (s.reg a) 31 && decide (readAt (fun _ => 0) s.prairie.armedAt die.val + 1000000 < s.now) then
      (s.setReg (aPra die 0x88) 2).setFld a 31 31 0
    else s

/-- R315: who may write PRA_CNT_CLR: the Heaths and the Meadow's lea control cores. -/
def praClrOk (init d : Nat) : Bool :=
  isHeath init || (decide (init / 256 = d) && decide (0x20 ≤ init % 256) && decide (init % 256 < 0x30))

/-- R315, R316: PRA_CNT_CLR.ECC. -/
def execPraCntClrEcc (init : Init) (die : Fin 4) (s : State) : Host.Outcome State Fault Refusal :=
  .next <| s.live (if praClrOk init.toNat die then s.setReg (aPra die 0x54) 0 else s)
/-- R315, R316: PRA_CNT_CLR.USE. -/
def execPraCntClrUse (init : Init) (die : Fin 4) (s : State) : Host.Outcome State Fault Refusal :=
  .next <| s.live (if praClrOk init.toNat die then [0x48, 0x4C, 0x50].foldl (fun s o => s.setReg (aPra die o) 0) s else s)

end Sys2Proof.Machine
end

