-- ==== Sys2Proof/Machine/Commands.lean ====
section
/-! DEFINITION. The start of commands, kind by kind (R158 to R161, R217, R230, R258, R261, R296, R307, R402), the end of an
engine's part (R210), and the commit point (R162, R166, R169, R198). -/

namespace Sys2Proof.Machine

/-! ## The body checks, by kind -/

/-- R159, R217, R574: the statuses of the checks of a GOLDEN body, and of the template that it names, for each lea. -/
def State.goldenFails (s : State) (e : StartEnv) : List Nat :=
  let ls := maskBits (word e.w 11)
  failIf (decide (e.job.kind ≠ 2)) 0x0F ++ goldenBody e.w ++ tablePlace (bits (word e.w 8) 47 0) 128 ++
  failIf (ls.any fun b => !s.meadowUp (b / 16)) 8 ++
  ls.flatMap fun b => s.templateFails e.job b e.w

/-- R159: the statuses of the checks of the body of a command. -/
def State.bodyFails (s : State) (e : StartEnv) : List Nat :=
  match wKind e.w with
  | 0 => s.threadsFails e
  | 1 => s.glenFails e
  | 2 => s.praFails e
  | 3 => s.collFails e
  | 4 => s.ckFails e
  | 5 => s.goldenFails e
  | 6 => s.cropFails e
  | _ => [0x0F]

/-- R159 to R161, R402: what a start of command `r` finds: the checks, and at most 16 queues to take. -/
def State.findStart (s : State) (j : Job) (r : CmdRef) : Checked :=
  s.checkStart j r fun e =>
    s.bodyFails e ++ failIf (decide (16 < (s.takeQueues (bits (word e.w 0) 19 8) e.ctxs).length)) 2

/-! ## The conditions of a start -/

/-- The tile-shares of a start; a CROP command's tiles stand as shares for the waits alone. -/
def State.startShares (s : State) (e : StartEnv) : List Share :=
  match wKind e.w with
  | 0 => s.threadsShares e
  | _ => []

/-- R187: the collective units of a start. -/
def State.startColl (s : State) (e : StartEnv) : Nat := if wKind e.w = 3 then s.collUnits e.w e.map.idx else 0

/-- R158 condition 4, R531: the ranges of a SNAPSHOT against the outputs in flight, both ways. -/
def State.snapshotFree (s : State) (e : StartEnv) : Bool :=
  let rs := if decide (wKind e.w = 4) && decide (ckOp e.w = 0) then s.ckRangeList e.w else []
  !s.inFlight.any fun c =>
    (c.outs.any fun o => rs.any fun p => overlaps o.1 o.2 p.1 p.2)
      || c.ckHeld.any fun o => e.outs.any fun p => overlaps o.1 o.2 p.1 p.2

/-- R217, R230, R259, R280, R312: the waits of one kind. -/
def State.kindWaits (s : State) (e : StartEnv) : Bool :=
  match wKind e.w with
  | 1 => s.glenWaits e
  | 2 => s.praWaits e
  | 5 => (maskBits (word e.w 11)).any fun b => (s.cmd ⟨2, b⟩).any Cmd.inFlight
  | 6 => s.cropWaits e || ((cropBody e.w).tiles e.map).any fun t => s.reserved t.1 t.2.1
  | _ => false

/-- R158: conditions 3 to 5 of a start, whose other two `inWindow` has. -/
def State.conditions (s : State) (e : StartEnv) : Bool :=
  s.condsHold e (s.startShares e) (s.startColl e) && s.snapshotFree e

/-- Every wait of a start but those for its demand swaps (R201) and KV frames (R261) is over. -/
def State.startOpen (s : State) (e : StartEnv) : Bool :=
  s.conditions e && s.waitsOver e (s.startShares e) && !s.kindWaits e

/-- R261: the frames a start reserves. -/
def State.startFrames (s : State) (e : StartEnv) : Nat := if wKind e.w = 1 then s.kvNeed (glenBody e.w) e.ctxs else 0

/-- R158: a command of the window that waits, with its dependencies over. -/
def State.inWindow (s : State) (j : Job) (r : CmdRef) : Bool :=
  let c := j.cmdAt r
  let a := j.windowFrom r.list
  decide (c.phase = .waiting) && decide (a ≤ r.idx) && decide (r.idx < a + 256) && decide (r.idx < j.count r.list)
    && (decide (s.readStatus (whoSch r) (j.cmdAddr r) 128 ≠ 0) || s.depsOver j r (s.words (j.cmdAddr r) 16))

/-- R158: the command starts now if its turn comes: its conditions hold. -/
def State.canStart (s : State) (j : Job) (r : CmdRef) : Bool :=
  s.inWindow j r && match s.findStart j r with
    | .fails _ e => s.conditions e
    | .passes e => s.startOpen e && s.demandable e.ctxs && s.kvRoom (s.startFrames e)

/-- R158: no command with a lower index, or the same index in list 0, can start. -/
def State.isTurn (s : State) (j : Job) (r : CmdRef) : Bool :=
  !(List.range (r.idx + 1)).any fun i => (List.range 2).any fun l =>
    (decide (i < r.idx) || decide (l < r.list)) && s.canStart j ⟨l, i⟩

/-- The kind and operation of a command; the operation is none where the kind has no such field. -/
def opOf (w : List Nat) : Option Nat :=
  match wKind w with
  | 1 => some (glenBody w).mode
  | 2 => some (praOp w)
  | 3 => some (collOp w)
  | 4 => some (ckOp w)
  | 6 => some (cropBody w).op
  | _ => none

/-- The number of operations a kind defines. -/
def opCount : Nat → Nat
  | 1 | 2 | 6 => 3
  | 3 => 4
  | 4 => 2
  | _ => 0

/-- The row that starts a descriptor: its kind and operation; a descriptor that cannot be read, or whose kind or operation
is reserved, fails its checks whichever row starts it. -/
def rowFits (ok : Bool) (w : List Nat) (kind : Nat) (op : Option Nat) : Bool :=
  !ok || decide (7 ≤ wKind w) || (decide (wKind w = kind) && match opOf w with
    | none => true
    | some n => decide (opCount kind ≤ n) || decide (op = some n))

/-! ## The start -/

/-- R307, R309: the engines that a start gives the command. -/
def State.startEngines (s : State) (e : StartEnv) : List EnginePart :=
  let part := fun (d l : Nat) => EnginePart.mk d l 1 0 0
  match wKind e.w with
  | 1 => (s.glenEngines (glenBody e.w) e.map.idx).map fun b => part (b / 16) (b % 16)
  | 2 => (praEngines e.w e.map.praDies).map fun d => part d 0
  | 3 => (diesOf (s.startColl e)).map fun d => part d 0
  | 4 => [part 4 0]
  | 5 => (maskBits (word e.w 11)).map fun b => part (b / 16) (b % 16)
  | 6 => (((cropBody e.w).tiles e.map).map fun t => (t.1, t.2.1)).eraseDups.map fun t => part t.1 t.2
  | _ => []

/-- What a start keeps for the run. -/
def State.startSaved (s : State) (e : StartEnv) : List (List Nat) :=
  match wKind e.w with
  | 2 => s.praSaved e.w e.map.praDies
  | 3 => s.collSaved e
  | 4 => s.ckSaved e
  | 6 => (cropBody e.w).saved e.map
  | _ => []

/-- R313: KIND_INFO before a run has written it: a CHECK has handed no candidate. -/
def startInfo (w : List Nat) : Nat := if wKind w = 2 ∧ praOp w = 1 then 0xFFFF else 0

/-- The record of a command at the start of a run. -/
def State.startCmd (s : State) (e : StartEnv) : Cmd :=
  let w := e.w
  let saved := s.startSaved e
  let takes := s.takeQueues (bits (word w 0) 19 8) e.ctxs
  let glen := decide (wKind w = 1)
  { cmdFresh e.cmd.ref with
    phase := .running, words := w, runs := e.cmd.runs + 1, serial := s.sched.runSerial, rerun := e.cmd.rerun, tStart := max s.now 1
    mapIdx := e.map.idx, mapId := e.map.id, dieReq := e.map.dies, glenLeas := e.map.glenLeas, praDies := e.map.praDies
    collDies := s.startColl e, pins := e.map.pins
    outs := if wKind w = 2 ∧ praOp w = 2 then e.outs ++ praRanges saved else e.outs
    ctxs := e.ctxs, removed := e.removed, dropCtx := e.cmd.dropCtx, attribs := e.cmd.attribs
    log := takes.map .take, checkRerun := e.cmd.checkRerun, mismTiles := e.cmd.mismTiles, faultCtx := e.cmd.faultCtx
    shares := s.startShares e, engines := s.startEngines e, takes := takes, saved := saved
    snaps := if glen && (glenBody w).paged then e.ctxs.map (s.snapshot (glenBody w)) else []
    kindInfo := startInfo w
    reserved := s.startFrames e, owned := if wKind w = 0 then word w 12 else 0 }

/-- R217, R246, R297, R300, R316, R528, R531: what a start does at the engines of its kind. -/
def State.engage (s : State) (e : StartEnv) (c : Cmd) : State :=
  match wKind e.w with
  | 1 => c.engines.foldl (fun s x => s.glnBusy x.die x.lea (some c.ref)) s
  | 2 =>
    let s := c.engines.foldl (fun s x => s.praBusy x.die (some c.ref)) s
    if praOp e.w = 0 then s.praRecord c.ref ((diesOf e.map.praDies).getD 0 0) 0 else s
  | 3 => s.collStart c
  | 4 => s.ckStart c.ref e.w
  | 5 => c.engines.foldl (fun s x => s.goldenBegin e.job (leaKey x.die x.lea) e.w) s
  | 6 => s.cropHold c (cropBody e.w).first ((cropBody e.w).tiles e.map)
  | _ => s

/-- R254: the first context of an appending command whose table has no room for its new positions. -/
def State.noRoom (s : State) (e : StartEnv) : Option Nat :=
  let b := glenBody e.w
  if wKind e.w ≠ 1 ∨ !b.append ∨ b.nothing then none
  else e.ctxs.find? fun c =>
    let w := s.ctx c
    let d := s.pdir (ctxRoot w)
    decide (d.maxPages * d.cap < ctxTokens w + b.qlen)

/-- R13, R14, R170: a command whose checks fail ends with no side effects. -/
def State.refuse (s : State) (j : Job) (e : StartEnv) (st : Nat) : State :=
  let c := { cmdFresh e.cmd.ref with
    words := e.w, runs := e.cmd.runs + 1, rerun := e.cmd.rerun, tStart := max s.now 1, mapId := e.map.id
    removed := e.removed, dropCtx := e.cmd.dropCtx, attribs := e.cmd.attribs, faultCtx := e.cmd.faultCtx, kindInfo := startInfo e.w }
  ((s.updJob j.serial fun j => j.putCmd c).failCmd j c st false).skips.jobCheck

/-- R160, R201: what a start knows once its demand swaps are done: a context that they found unreadable is removed. -/
def State.afterSwaps (s : State) (e : StartEnv) : StartEnv :=
  let l := e.ctxs.filter fun x => decide (ctxState (s.ctx x) ≠ 5)
  { e with ctxs := l, removed := e.removed + (e.ctxs.length - l.length) }

/-- R138, R158, R160, R180, R194, R201, R261, R403: a command whose checks passed starts, unless after its demand swaps no context
is left of its list, or the frames that it reserves are not there. -/
def State.begin (s : State) (j : Job) (e0 : StartEnv) : State :=
  match s.demands e0.ctxs (s.swapped e0.ctxs) with
  | none => s
  | some s =>
    let e := s.afterSwaps e0
    if e.ctxs.isEmpty && !e0.ctxs.isEmpty then s.refuse j e 9
    else if !s.kvRoom (s.startFrames e) then s.kvLow else
    let c := s.startCmd e
    let r := c.ref
    let s := { s with sched := { s.sched with runSerial := s.sched.runSerial + 1 } }
    let s := s.updJob j.serial fun j => { j.putCmd c with
      pinned := j.pinned ++ (c.pins.filter fun p => !j.pinned.any fun q => decide (q.2 = p)).map fun p => (r, p) }
    let s := e.ctxs.foldl (fun s x => s.setCtx x (setWord (s.ctx x) 3 s.now)) s
    let s := if c.owned = 0 then s else c.shares.foldl (fun s h => s.ownCounters h.die h.lea h.tile c.owned) s
    let s := c.takes.foldl (fun s q => s.takeMark r q) s
    let s := s.setFld (aSch 0x810) 22 0 (s.fld (aSch 0x810) 22 0 + c.reserved)
    let s := s.engage e c
    match s.noRoom e with
    | some x => let p := (c.engines.map fun y => (y.die, y.lea)).getD 0 (0, 0); s.attribute r p.1 p.2 x 2
    | none => s

/-- R158: the scheduler core starts command `r`, of the kind and operation of the row, if it runs a job, the conditions
hold and it is the command's turn. -/
def State.start (s : State) (list : Fin 2) (idx : BitVec 16) (kind : Nat) (op : Option Nat) : State :=
  let r : CmdRef := ⟨list, idx.toNat⟩
  match s.curJob with
  | none => s
  | some j =>
    let ok := decide (s.readStatus (whoSch r) (j.cmdAddr r) 128 = 0)
    if !s.schRunning || decide (j.phase ≠ .running) || !rowFits ok (s.words (j.cmdAddr r) 16) kind op
        || !s.inWindow j r || !s.isTurn j r then s
    else match s.findStart j r with
      | .fails st e => if !s.conditions e then s else s.refuse j e st
      | .passes e =>
        if !s.startOpen e then s
        else s.begin j e

/-- R161: THREADS. -/
def execThreads (list : Fin 2) (idx : BitVec 16) (s : State) : Host.Outcome State Fault Refusal :=
  .next <| s.live (s.start list idx 0 none)
/-- R233: GLEN forward. -/
def execGlenForward (list : Fin 2) (idx : BitVec 16) (s : State) : Host.Outcome State Fault Refusal :=
  .next <| s.live (s.start list idx 1 (some 0))
/-- R242: GLEN backward. -/
def execGlenBackward (list : Fin 2) (idx : BitVec 16) (s : State) : Host.Outcome State Fault Refusal :=
  .next <| s.live (s.start list idx 1 (some 1))
/-- R243: GLEN combine. -/
def execGlenCombine (list : Fin 2) (idx : BitVec 16) (s : State) : Host.Outcome State Fault Refusal :=
  .next <| s.live (s.start list idx 1 (some 2))
/-- R296: PRAIRIE PUBLISH. -/
def execPrairiePublish (list : Fin 2) (idx : BitVec 16) (s : State) : Host.Outcome State Fault Refusal :=
  .next <| s.live (s.start list idx 2 (some 2))
/-- R300, R301: PRAIRIE WAVEFRONT. -/
def execPrairieWavefront (list : Fin 2) (idx : BitVec 16) (s : State) : Host.Outcome State Fault Refusal :=
  .next <| s.live (s.start list idx 2 (some 0))
/-- R303, R307: PRAIRIE CHECK. -/
def execPrairieCheck (list : Fin 2) (idx : BitVec 16) (s : State) : Host.Outcome State Fault Refusal :=
  .next <| s.live (s.start list idx 2 (some 1))
/-- R185: RESHARD. -/
def execCollectiveReshard (list : Fin 2) (idx : BitVec 16) (s : State) : Host.Outcome State Fault Refusal :=
  .next <| s.live (s.start list idx 3 (some 0))
/-- R185: ALL_REDUCE. -/
def execCollectiveAllReduce (list : Fin 2) (idx : BitVec 16) (s : State) : Host.Outcome State Fault Refusal :=
  .next <| s.live (s.start list idx 3 (some 1))
/-- R185: ALL_GATHER. -/
def execCollectiveAllGather (list : Fin 2) (idx : BitVec 16) (s : State) : Host.Outcome State Fault Refusal :=
  .next <| s.live (s.start list idx 3 (some 2))
/-- R185: REDUCE_SCATTER. -/
def execCollectiveReduceScatter (list : Fin 2) (idx : BitVec 16) (s : State) : Host.Outcome State Fault Refusal :=
  .next <| s.live (s.start list idx 3 (some 3))
/-- R531: SNAPSHOT. -/
def execCheckpointSnapshot (list : Fin 2) (idx : BitVec 16) (s : State) : Host.Outcome State Fault Refusal :=
  .next <| s.live (s.start list idx 4 (some 0))
/-- R532: RESTORE. -/
def execCheckpointRestore (list : Fin 2) (idx : BitVec 16) (s : State) : Host.Outcome State Fault Refusal :=
  .next <| s.live (s.start list idx 4 (some 1))
/-- R217: GOLDEN. -/
def execGolden (list : Fin 2) (idx : BitVec 16) (s : State) : Host.Outcome State Fault Refusal :=
  .next <| s.live (s.start list idx 5 none)
/-- R282: CROP_RESIZE. -/
def execCropResize (list : Fin 2) (idx : BitVec 16) (s : State) : Host.Outcome State Fault Refusal :=
  .next <| s.live (s.start list idx 6 (some 0))
/-- R287: ZB64_PACK. -/
def execZb64Pack (list : Fin 2) (idx : BitVec 16) (s : State) : Host.Outcome State Fault Refusal :=
  .next <| s.live (s.start list idx 6 (some 1))
/-- R287: ZB64_UNPACK. -/
def execZb64Unpack (list : Fin 2) (idx : BitVec 16) (s : State) : Host.Outcome State Fault Refusal :=
  .next <| s.live (s.start list idx 6 (some 2))

/-! ## Autonomous swaps (R201) -/

/-- R201: a demand waits: a command of the running job could start but for contexts that are not resident. -/
def State.demandWaits (s : State) : Bool :=
  s.curJob.any fun j => decide (j.phase = .running) && (List.range 2).any fun l => (List.range (j.count l)).any fun i =>
    s.inWindow j ⟨l, i⟩ && match s.findStart j ⟨l, i⟩ with
      | .fails _ _ => false
      | .passes e => s.startOpen e && !(s.swapped e.ctxs).isEmpty

/-- R201: an autonomous swap starts for the SWAPPED_READY context with the oldest LAST_USED: into a free entry, or over a
BLOCKED victim where every resident context that is not in use is BLOCKED. None starts while a demand waits. -/
def execAutonomousSwap (s : State) : Host.Outcome State Fault Refusal :=
  .next <| s.live <|
    let go := oldest (fun c => ctxLastUsed (s.ctx c))
      ((List.range 4096).filter fun c => !s.sched.swaps.contains c && decide (ctxState (s.ctx c) = 3))
    match go with
    | none => s
    | some c =>
      let start := fun (s : State) => { s with sched := { s.sched with swaps := s.sched.swaps ++ [c] } }
      if !s.schRunning || decide (8 ≤ s.sched.swaps.length) || s.demandWaits then s
      else if s.ctxRoom then start s
      else if (s.victims 1 []).isEmpty then
        match s.victim false [] with
        | some v => start (s.evict v)
        | none => s
      else s

/-! ## The end of an engine's part (R210, R240, R314) -/

/-- The engine of a command that runs on (die, lea); the checkpoint mover has no Meadow. -/
def Cmd.enginePart (c : Cmd) (d l : Nat) : Option EnginePart :=
  c.engines.find? fun x => decide (x.state = 1) && (decide (c.kind = 4) || decide (x.die = d) && decide (x.lea = l))

/-- R233, R301, R307, R185, R531, R532, R280: what the part of an engine comes to, none while it still has work to do or
ends by a row of its own. -/
def State.enginePart (s : State) (c : Cmd) (d l : Nat) : Option (State × PartEnd) :=
  match c.kind with
  | 1 => some (s.glenPart c d l)
  | 2 => s.praPart c d
  | 3 => s.collPart c d
  | 4 => some (s.ckPart c)
  | 6 => some (s.cropPart c d l)
  | _ => none

/-- The engine is free again. -/
def State.engineIdle (s : State) (c : Cmd) (d l : Nat) : State :=
  match c.kind with
  | 1 => s.glnBusy d l none
  | 2 => s.praBusy d none
  | _ => s

/-- R175, R247, R316: the engine abandons its part of a killed command. -/
def State.engineAbandons (s : State) (c : Cmd) (d l : Nat) : State :=
  match c.kind with
  | 1 => s.setFld (aGln d l 0) 1 0 2
  | 2 => s.setFld (aPra d 0) 1 0 2
  | _ => s

/-- R210: an engine's part has ended: its record goes to the scheduler core. `execEngineCompletion` has seen to it that the FIFO has
room. Where a port that is DOWN answered it with DIE_ABSENT, its command is killed instead (R365). -/
def State.engineDone (s : State) (c : Cmd) (x : EnginePart) (e : PartEnd) : State :=
  let r := c.ref
  if e = .fault 8 ∧ s.cutOff x.die then s.kill [r] 1 false .go else
  let s := (s.engineIdle c x.die x.lea).updCmd r fun c => { c with engines := c.engines.map fun y =>
    if y.die = x.die ∧ y.lea = x.lea then { y with state := 2 } else y }
  let rec_ : FifoRec := match e with
    | .done => .engineEnd x.die x.lea r c.serial
    | .fault st => .fault x.die x.lea 0x1F r c.serial st
    | .attributed ctx st => .attributed x.die x.lea r c.serial ctx st
  if x.die < 4 then s.send rec_ else s.timerRecord rec_

/-- R210, R240, R314, R343: an engine ends its part of a command, with what its own hardware met. It waits while a stack is in
self-refresh, and keeps a finished command while the completion FIFO has no room for its record. -/
def execEngineCompletion (list : Fin 2) (idx : BitVec 16) (die : Fin 4) (lea : Fin 16) (err : EngineErr) (s : State) :
    Host.Outcome State Fault Refusal :=
  .next <| s.live <|
    let r : CmdRef := ⟨list, idx.toNat⟩
    match s.cmd r with
    | none => s
    | some c =>
      match c.enginePart die lea with
      | none => s
      | some x =>
        if decide (c.phase ≠ .running) || s.recordsFull || !s.stacksTake || (decide (x.die < 4) && !s.meadowUp x.die) then s
        else
          let finish := fun (s : State) => match s.enginePart c x.die x.lea with
            | some (s, e) => s.engineDone c x e
            | none => s
          match c.kind, err with
          | 1, .uncorrectable => s.glenRamUe r x.die x.lea
          | 1, .mismatch k => s.glenMismatch r x.die x.lea k
          | 1, .corrected => finish (s.count32 (aGln x.die x.lea 0x14))
          | 2, .uncorrectable => s.praRamUe r x.die
          | 2, .mismatch k => s.praMismatch r x.die k
          | 2, .corrected => finish (s.count32 (aPra x.die 0x54))
          | _, _ => finish s

/-! ## The commit point (R162, R166, R169, R198) -/

/-- R165, R238, R406: the commit-log entries that the effects of a run need. -/
def Cmd.logNeed (c : Cmd) : Nat :=
  c.log.length + match c.kind with
    | 1 => c.glenLogNeed
    | 2 => if praOp c.words = 2 ∨ (praOp c.words = 1 ∧ praHandoff c.words) then 1 else 0
    | 4 => if ckOp c.words = 0 then 1 else c.saved.length - 2
    | _ => 0

/-- R169: held posts to counters of an absent die, and appends to its pages, are dropped, which EVT_COMMIT_EFFECT_LOST names. -/
def State.lostEffects (s : State) (j : Job) (c : Cmd) : State :=
  (List.range 4).foldl (fun s d =>
    if !s.meadowUp d && (s.appendsOn c d || c.log.any (fun e => match e with
        | .post a _ _ _ => decide ((syncAt a).map (·.1) = some d)
        | _ => false)) then s.raiseCmd j c.ref 4 0 0x1F "COMMIT_EFFECT_LOST" d 0
    else s) s

/-- R166 step 5: the deferred effects in order, up to the Prairie hand-off: KV and prefix-tree effects and context updates, ingress
releases, the Prairie hand-off or publication. -/
def State.applyEffects (s : State) (j : Job) (c : Cmd) : State :=
  let s := if c.kind = 1 then s.glenCommit c else s
  let s := c.takes.foldl State.takeRelease s
  if c.kind = 2 then (if praOp c.words = 2 then s.praPublish c else s.praHandoffOut j c) else s

/-- R311: a record of the command's hand-off is not yet acknowledged. -/
def State.handing (s : State) (j : Job) (c : Cmd) : Bool :=
  s.prairie.records.any fun x => decide (x.job = j.serial) && decide (x.cmd = c.ref) && decide (x.run = c.serial)

/-- R166 steps 5 and 6, R531: the effects after the hand-off, once it is performed: checkpoint publication, which is performed when another
module has acknowledged its writes, and held posts; then the command's completion entry. -/
def State.commitEnd (s : State) (j : Job) (r : CmdRef) : State :=
  match s.cmd r with
  | none => s
  | some c =>
    if s.handing j c then s.updCmd r fun c => { c with phase := .committing, outs := [] }
    else
      let s := if c.kind = 4 ∧ c.saved ≠ [] then (s.ckCommit j c).updCmd r fun c => { c with saved := [] } else s
      if c.kind = 4 ∧ s.moverBusy then s.updCmd r fun c => { c with phase := .committing, outs := [] } else
      let s := if c.kind = 3 then s.collForget c else s
      let s := c.log.foldl (fun s e => match e with
        | .post a k v _ => s.postApply a k v
        | _ => s) s
      let s := s.lostEffects j c
      let c := (s.cmd r).getD c
      let s := ((s.runOver r).dropReserve c).dropOwned c
      let s := s.updCmd r fun c => c.ended .committed
      let s := s.cqPut j.ringSet 1 (cmdEntry j c 0 c.flags.toNat c.tEnd) (some r)
      State.killsDone (s.sched.kills.length + 1) s.skips.jobCheck

/-- R166: a run whose shares and engines have all ended is validated; it ends with a failed validation's status, or
commits: its effects are applied in order and its completion entry is written. -/
def State.commit (s : State) (j : Job) (c : Cmd) : State :=
  let r := c.ref
  let again := fun (s : State) => (s.cmd r).getD c
  if c.kind = 1 ∧ s.glenStale c then (s.failCmd j c 0x0B true).skips.jobCheck
  else
    let s := if c.kind = 1 then s.glenCow c else s
    let (s, st) := s.praValidate (again s)
    if st ≠ 0 then (s.failCmd j (again s) st true).skips.jobCheck
    else if wLogLen c.words < c.logNeed then (s.failCmd j (again s) 2 true).skips.jobCheck
    else
      let c := { again s with removed := c.removed + (c.ctxs.filter fun x => decide (ctxState (s.ctx x) = 5)).length }
      let c := { c with tEnd := max s.now 1 }
      let s := s.updCmd r fun _ => c
      (s.applyEffects j c).commitEnd j r

/-- R166, R311: the commit point of a command of the running job; and, for one whose hand-off is performed by now, what follows the
hand-off. -/
def execCommitPoint (list : Fin 2) (idx : BitVec 16) (s : State) : Host.Outcome State Fault Refusal :=
  .next <| s.live <|
    let r : CmdRef := ⟨list, idx.toNat⟩
    match s.curJob, s.cmd r with
    | some j, some c =>
      if !s.schRunning then s
      else if s.moverBusy && decide (c.kind = 4) then s
      else if c.phase = .committing then (if s.handing j c then s else s.commitEnd j r)
      else if c.due then s.commit j c
      else s
    | _, _ => s

end Sys2Proof.Machine
end

