-- ==== Sys2Proof/Machine/Departure.lean ====
section
/-! DEFINITION. Kills on their way round the dies (R175), records on their way to the completion FIFO (R210), and a die
that leaves the package or returns to it (R364 to R366). -/

namespace Sys2Proof.Machine

/-! ## Kills (R116, R175) -/

/-- R109, R116: the slots of a die that `f` picks are free. -/
def State.freeSlots (s : State) (die : Nat) (f : ThreadSlot → Bool) : State :=
  ((s.slots.filter fun e => decide (slotDie e.1 = die) && f e.2).map (·.1)).foldl (fun s k =>
    let t := k / 8
    (s.setSlot k slotFree).setFld (aTil die (t / 17 % 16) (t % 17) 0) (8 + k % 8) (8 + k % 8) 0) s

/-- The parts that engines of a die have under way for some commands, each met by `f`. -/
def State.eachPart (s : State) (die : Nat) (rs : List CmdRef) (f : State → Cmd → Nat → Nat → State) : State :=
  rs.foldl (fun s r =>
    match s.cmd r with
    | some c => (c.engines.filter fun e => decide (e.die = die) && decide (e.state = 1)).foldl (fun s e => f s c die e.lea) s
    | none => s) s

/-- R175: a die ends what it does for some commands: their threads with their requests, posts and copies; the engines abandon
their parts. -/
def State.dropWork (s : State) (die : Nat) (rs : List CmdRef) : State :=
  let s := s.freeSlots die fun th => th.busy && rs.contains th.cmd
  let s := { s with posts := s.posts.filter fun p => !(decide (slotDie p.slot = die) && rs.contains p.cmd) }
  s.eachPart die rs State.engineAbandons

/-- R175: a kill reaches a Meadow: what it holds of the killed commands is ended; it will report itself drained. -/
def execKill (die : Fin 4) (s : State) : Host.Outcome State Fault Refusal :=
  .next <| s.live <|
    let d := die.val
    let ks := s.sched.kills.filter fun k => k.dies.contains d && !k.reached.contains d
    let s := s.dropWork d (ks.flatMap (·.cmds))
    let mark := fun (k : KillRec) =>
      if k.dies.contains d && !k.reached.contains d then { k with reached := k.reached ++ [d] } else k
    { s with sched := { s.sched with kills := s.sched.kills.map mark } }

/-- R175: a Meadow is drained of the kills that have reached it, its engines are idle, and the scheduler core learns of it. -/
def execDrained (die : Fin 4) (s : State) : Host.Outcome State Fault Refusal :=
  .next <| s.live <|
    let d := die.val
    if !s.schRunning then s
    else
      let drop := fun (k : KillRec) =>
        if k.reached.contains d then { k with dies := k.dies.erase d, reached := k.reached.erase d } else k
      let s := s.eachPart d ((s.sched.kills.filter fun k => k.reached.contains d).flatMap (·.cmds)) State.engineIdle
      let s := { s with sched := { s.sched with kills := s.sched.kills.map drop } }
      s.killsDone (s.sched.kills.length)

/-! ## Records (R210) -/

/-- R210: the oldest record that a Meadow has sent enters the completion FIFO, where there is room. -/
def execRecord (die : Fin 4) (s : State) : Host.Outcome State Fault Refusal :=
  .next <| s.live <|
    match s.sched.outbox.find? fun r => decide (r.die = die.val) with
    | none => s
    | some r =>
      if 1024 ≤ s.sched.fifo.length then s
      else { s with sched := { s.sched with outbox := s.sched.outbox.erase r, fifo := s.sched.fifo ++ [r] } }

/-! ## A die leaves (R364, R365) -/

/-- R365: the command's chosen map, layouts or output buffers name Meadow `d`. -/
def State.namesDie (s : State) (c : Cmd) (d : Nat) : Bool :=
  bit c.dieReq d || bit c.praDies d || bit c.collDies d || decide (bits c.glenLeas (16 * d + 15) (16 * d) ≠ 0) ||
    c.shares.any (fun h => decide (h.die = d)) || c.engines.any (fun e => decide (e.die = d)) ||
    c.pins.any (fun p => decide (p.die = d)) || c.outs.any fun o => s.rangeOn d o.1 o.2

/-- R363, R365: the command has a request outstanding to Meadow `d`, whose tag a port has reported. -/
def State.waitsOn (s : State) (c : Cmd) (d : Nat) : Bool :=
  s.slots.any fun e => e.2.busy && decide (e.2.cmd = c.ref) && e.2.reqs.any fun q => s.rangeOn d q.addr (max q.len 1)

/-- What the scheduler core knows of a die that is gone: its records, slots, posts and reservations. -/
def State.forgetDie (s : State) (d : Nat) : State :=
  let s := s.freeSlots d fun _ => true
  { s with
    posts := s.posts.filter fun p => decide (slotDie p.slot ≠ d)
    sched := { s.sched with
      outbox := s.sched.outbox.filter fun r => decide (r.die ≠ d)
      reservations := s.sched.reservations.filter fun r => decide (r.1 / 16 ≠ d) } }

/-- R364: FENCE goes to the ring neighbours of a Meadow that is marked absent. -/
def State.sendFences (s : State) (d : Nat) : State :=
  [(ringNeighbours d).1, (ringNeighbours d).2].foldl (fun s n =>
    if s.linkState 4 n = 0 ∨ 6 ≤ s.linkState 4 n then s else s.sideSend 4 n (fencePayload d)) s

/-- R364, R365: a Meadow is marked absent: presence bits, the event, the kill decision, and the kills in progress. -/
def State.meadowGone (s : State) (d : Nat) : State :=
  let rs := (s.inFlight.filter fun c => s.namesDie c d || s.waitsOn c d).map (·.ref)
  let s := (s.setFld (aVal 0x20) d d 0).setFld (aVal 0x20) (8 + d) (8 + d) 0
  let s := s.raise 4 0 0x1F "DIE_DEPARTED" d (32 + d)
  let s := s.forgetDie d
  let drop := fun (k : KillRec) => { k with dies := k.dies.erase d, reached := k.reached.erase d }
  let s := { s with sched := { s.sched with kills := s.sched.kills.map drop } }
  let s := s.sendFences d
  (s.kill rs 1 false .go).killsDone (s.sched.kills.length + 1)

/-- R169, R365: a Heath is marked absent; no hand-off goes to it, and one that is under way to it is lost. -/
def State.heathGone (s : State) (h : Nat) : State :=
  let s := (s.setFld (aVal 0x20) (5 + h) (5 + h) 0).raise 4 0 0x1F "DIE_DEPARTED" (5 + h) (32 + 4 + h)
  let lost := s.prairie.records.filter fun r => decide (r.heath = h)
  let s := lost.foldl (fun s r =>
    s.raiseEv ⟨4, 0, 0x1F, r.jobId, r.cmd.list, r.cmd.idx, "COMMIT_EFFECT_LOST", 5 + h, 0, 0, some r.ringSet⟩) s
  { s with prairie := { s.prairie with records := s.prairie.records.filter fun r => decide (r.heath ≠ h) } }

/-- R364, R365: the Vale's port to a die is DOWN or DISABLED: the die is marked absent. -/
def execDieMarkAbsent (die : Fin 7) (s : State) : Host.Outcome State Fault Refusal :=
  .next <| s.live <|
    let d := die.val
    let p := if d < 4 then d else d - 1
    let gone := decide (s.linkState 4 p = 6) || decide (s.linkState 4 p = 7)
    if !s.schRunning || !gone || decide (d = 4) || !bit (s.reg (aVal 0x20)) d then s
    else if d < 4 then s.meadowGone d
    else s.heathGone (d - 5)

/-! ## A Meadow returns (R366) -/

/-- R17: at the start of the module, a link of a Meadow is ready: it has reached STANDBY, or the die at its other end takes no
part in this start. -/
def State.linkReady (s : State) (d p : Nat) : Bool :=
  s.linkUp d p || (decide (p ≠ 2) && (decide (s.linkState d p = 7) || !(s.dieSt (facing d p)).out))

/-- R366: a link goes ACTIVE at both ends. -/
def State.linkRejoin (s : State) (d p : Nat) : State :=
  let o := facing d p
  match portTo o d with
  | some q =>
    let s := if s.linkState d p = 3 then (s.setLink d p 4).pump d p else s
    if s.linkState o q = 3 then (s.setLink o q 4).pump o q else s
  | none => s

/-- R366: the ports at both ends of a Meadow's links are in STANDBY or ACTIVE. -/
def linksUp (d : Nat) (f : Nat → Nat → Bool) : Bool :=
  (List.range 5).all fun p => f d p && match portTo (facing d p) d with
    | some q => f (facing d p) q
    | none => false

/-- R366: REJOIN goes to the dies at both ends of a Meadow's links; the Vale's own end goes ACTIVE. -/
def State.sendRejoins (s : State) (d : Nat) : State :=
  let s := if s.linkState 4 d = 3 then (s.setLink 4 d 4).pump 4 d else s
  [d, (ringNeighbours d).1, (ringNeighbours d).2, 5, 6].foldl (fun s o =>
    match portTo 4 o with
    | some q => if s.sideSent o ((portTo o 4).getD 0) (rejoinPayload d) then s else s.sideSend 4 q (rejoinPayload d)
    | none => s) s

/-- R366: at the first moment at which no job runs, a Meadow whose links are all in STANDBY rejoins: REJOIN is sent, and the next job is
held (`State.rejoining`); once all its links are ACTIVE, its Prairie epochs advance and it is present. -/
def execDieRejoin (die : Fin 4) (s : State) : Host.Outcome State Fault Refusal :=
  .next <| s.live <|
    let d := die.val
    if !s.schRunning || s.meadowUp d || s.curJob.isSome || !linksUp d s.linkUp then s
    else if !linksUp d (fun e p => decide (s.linkState e p = 4)) then s.sendRejoins d
    else
      let s := (List.range 2).foldl (fun s m => (s.setPraEpoch d m (s.praEpoch d m + 1) false).praUncurrent d m) s
      let s := (s.setFld (aVal 0x20) d d 1).setFld (aVal 0x20) (8 + d) (8 + d) (b2n (s.dramReady d))
      s.raise 4 0 0x1F "DIE_REJOINED" d (32 + d)

end Sys2Proof.Machine
end

