-- ==== Sys2Proof/Machine/Boot.lean ====
section
/-! DEFINITION. The start of the module and the firmware processors (R479 to R501): the ROM, the security core's start, the
lea control cores, the measurements, and crashes with their restarts. -/

namespace Sys2Proof.Machine

/-- The start's state replaced by `f` of it. -/
def State.updBoot (s : State) (f : Boot → Boot) : State := { s with boot := f s.boot }

/-- A firmware processor, by its code (R481). -/
def State.proc (s : State) (c : Nat) : Proc := readAt (fun _ => procFresh) s.procs c
/-- A firmware processor replaced. -/
def State.setProc (s : State) (c : Nat) (p : Proc) : State :=
  { s with procs := writeAt (fun _ => procFresh) s.procs c p }

/-- R481: the code of a lea's control core. -/
def leaCode (d l : Nat) : Nat := 0x40 + 16 * d + l
/-- R481: the code is not reserved. -/
def codeOk (c : Nat) : Bool := decide (c < 3) || (decide (0x40 ≤ c) && decide (c < 0x80))

/-- R508: SEC_STATUS.CORE reads RUNNING. -/
def State.secRunning (s : State) : Bool := decide (s.fld (aSec 0) 1 0 = 1)

/-- The digest of a component with which its register was last extended (R492). -/
def State.digest (s : State) (t : Nat) : Nat := readAt (fun _ => 0) s.boot.digests t

/-- R484: the DIGEST of the component of a type in a slot of the Vale. -/
def State.slotDigest (s : State) (slot t : Nat) : Nat :=
  (((components (s.slotHeader (valeSlot slot))).find? fun x => decide (x.type = t)).map (·.digest)).getD 0

/-- R488: a processor is loaded from a slot with the component of a type, and started. -/
def State.procStart (s : State) (c slot t : Nat) : State :=
  s.setProc c { procFresh with st := 1, slot := slot, digest := s.slotDigest slot t }

/-! ## The ROM (R486, R487, R488) -/

/-- R487, R488, R492: the ROM chooses a slot, extends M0 and M1, and starts the security core; where no slot boots, the module
stays in BOOT. `bad` lists the component reads that fail, as (slot, component, read). -/
def execRomBoot (bad : List (Fin 2 × Fin 8 × Fin 2)) (s : State) : Host.Outcome State Fault Refusal :=
  .next <| s.live <|
    if s.boot.phase ≠ 1 then s
    else
      let (s, r) := s.romBoot valeSlot s.valeRoot false (bad.map fun b => (b.1.val, b.2.1.val, b.2.2.val))
      let rejected := r.rejected.map fun i => (i, r.results.getD i 0)
      match r.slot with
      | none => (s.setReg (aSec 4) (bootWord r 0)).updBoot fun b => { b with phase := 4, rejected := rejected }
      | some i =>
        let h := s.slotHeader (valeSlot i)
        let s := (s.setReg (aSec 4) (bootWord r (hdrKey h))).setReg (aSec 8) (hdrSvn h)
        let s := ((s.setFld (aSec 0) 1 0 1).setFld (aSec 0) 4 4 (b2n (hdrDebug h))).setFld (aSec 0) 5 5 i
        let cs := components h
        let s := s.updBoot fun b => { b with
          phase := 2, rejected := rejected, startAt := s.now
          digests := cs.foldl (fun m c => writeAt (fun _ => 0) m c.type c.digest) b.digests
          ifvers := cs.foldl (fun m c => writeAt (fun _ => 0) m c.type c.ifver) b.ifvers }
        let s := s.procStart 0 i 1
        let s := s.extend 0 (Config.romRecord (s.fld (aSec 0) 3 2) (s.reg (aSec 0x10)) (hdrKey h) (hdrDebug h)) 0
        s.extend 1 (s.digest 1) 1

/-! ## The security core's start (R488, R491) -/

/-- R520: the UID: the first 8 bytes of the SHA-256 of the identity public key, X then Y. -/
def State.ownUid (s : State) : Nat :=
  match ecMul 256 (idKey (leBytes 32 s.fuses.secret) 256 0) (some p256G) none with
  | some (x, y) => leNat ((sha256 (beBytes 32 x ++ beBytes 32 y)).take 8)
  | none => 0

/-- R17, R36, R366: at start, a Meadow whose links are ready is present, without an event. -/
def State.meadowPresent (s : State) (d : Nat) : State :=
  if (s.dieSt d).restored && (List.range 5).all (s.linkReady d) then
    let s := (List.range 5).foldl (fun s p => s.linkRejoin d p) s
    (s.setFld (aVal 0x20) d d 1).setFld (aVal 0x20) (8 + d) (8 + d) (b2n (s.dramReady d))
  else s

/-- R467, R468: what is absent at start asks for the module's replacement. -/
def State.absentAtStart (s : State) : State :=
  let s := if (List.range 4).any fun d => !s.meadowUp d then s.replaceReq 6 else s
  if (List.range 2).any fun h => !bit (s.reg (aVal 0x20)) (5 + h) then s.replaceReq 10 else s

/-- R249: the SipHash key, drawn at every start. -/
def State.drawSip (s : State) : State :=
  let (v, s) := s.draw 8
  { s with sipKey := v % 2 ^ 128 }

/-- R484: the bytes of the component of a type in a slot of the Vale. -/
def State.componentBytes (s : State) (slot t : Nat) : List Byte :=
  match (components (s.slotHeader (valeSlot slot))).find? fun c => decide (c.type = t) with
  | some c => s.slotBytes (valeSlot slot) c
  | none => []

/-- R487, R488, R491: the security core loads the Vale cores, extends M2, M3 and M5, applies the configuration block and draws
the SipHash key. -/
def execSecurityCoreStart (s : State) : Host.Outcome State Fault Refusal :=
  .next <| s.live <|
    if s.boot.phase ≠ 2 ∨ ¬ s.secRunning then s
    else
      let slot := (s.proc 0).slot
      let s := s.updBoot fun b => { b with phase := 3 }
      let s := (s.procStart 1 slot 2).procStart 2 slot 3
      let s := (s.setFld (aPwr 0) 4 3 1).setFld (aSch 0) 1 0 1
      let s := (s.extend 2 (s.digest 2) 2).extend 3 (s.digest 3) 3
      let s := s.boot.rejected.foldl (fun s e => s.raise 4 0 0x1F "BOOT_SLOT_FAILED" e.1 e.2) s
      let s := (List.range 4).foldl (fun s d => s.meadowPresent d) (s.setReg (aCol 0x10) s.ownUid)
      let s := (s.extend 5 (s.digest 5) 5).applyConfig (s.componentBytes slot 5) (bit (s.reg (aSec 0)) 4)
      s.drawSip.absentAtStart

/-- R488: a lea control core is loaded once its Meadow's Vale link is in STANDBY; M4 is extended at the first. -/
def execLeaCoreLoad (l : LeaId) (s : State) : Host.Outcome State Fault Refusal :=
  .next <| s.live <|
    let d := l.die.val
    let k := leaKey d l.lea
    if s.boot.phase ≠ 3 ∨ ¬ s.secRunning ∨ ¬ s.linkUp d 2 ∨ (s.proc (leaCode d l.lea)).st ≠ 0 then s
    else
      let s := s.setLea k { s.lea k with coreUp := true }
      let s := s.procStart (leaCode d l.lea) (s.proc 0).slot 4
      if s.boot.m4 then s else (s.extend 4 (s.digest 4) 4).updBoot fun b => { b with m4 := true }

/-- R498: HTx_MEAS, where the security core can read it. -/
def State.heathMeasure (s : State) (h : Nat) : Option Nat :=
  let v := leNat (wordBytes ((List.range 4).map fun i => s.reg (aHt h (0x100 + 8 * i))))
  if bit (s.reg (aVal 0x20)) (5 + h) && decide (v ≠ 0) then some v else none

/-- R498: M6 is extended with HTA_MEAS and HTB_MEAS once both can be read, or 1 s after the security core has started. -/
def execHeathMeasRead (s : State) : Host.Outcome State Fault Refusal :=
  .next <| s.live <|
    let a := s.heathMeasure 0
    let b := s.heathMeasure 1
    if s.boot.phase ≠ 3 ∨ ¬ s.secRunning ∨ s.boot.m6 then s
    else if (a.isNone ∨ b.isNone) ∧ s.now ≤ s.boot.startAt + 1000000000 then s
    else
      let s := (s.extend 6 (a.getD 0) 6).extend 6 (b.getD 0) 7
      s.updBoot fun x => { x with m6 := true, heathMeas := [a, b] }

/-- R471, R498: a Heath has booted with another HTx_MEAS than the one entered: M7 is extended, and the event is raised; during a freeze the
security core stands, and finds it after the thaw. -/
def State.heathMeasCheck (s : State) (h : Nat) : State :=
  let v := s.heathMeasure h
  if !s.frozen && s.boot.m6 && v.isSome && decide (s.boot.heathMeas.getD h none ≠ v) then
    let s := s.updBoot fun b => { b with heathMeas := b.heathMeas.set h v }
    (s.runtime 1 h 0).raise 4 0 0x1F "HT_MEAS_CHANGED" h 0
  else s

/-- R488: 10 s after LOADED, with no processor held, the running slot is GOOD with TRIES 0. -/
def execBootSettle (s : State) : Host.Outcome State Fault Refusal :=
  .next <| s.live <|
    if s.boot.phase ≠ 3 ∨ ¬ s.secRunning ∨ s.boot.settled ∨ ¬ bit (s.reg (aVal 0x18)) 7 ∨ s.now < s.boot.loadedAt + 10000000000 ∨
        s.procs.any (fun p => decide (p.2.st = 3)) then s
    else (s.putRecord (valeSlot (s.fld (aSec 0) 5 5)) 2 0).updBoot fun b => { b with settled := true }

/-! ## Crashes (R499 to R501) -/

/-- R508, R218, R551: CORE of a Vale core's status register. A lea's control core pauses its self-test while it is down (R462). -/
def State.setCore (s : State) (c v : Nat) : State :=
  if c = 0 then s.setFld (aSec 0) 1 0 v
  else if c = 1 then s.setFld (aPwr 0) 4 3 v
  else if c = 2 then s.setFld (aSch 0) 1 0 v
  else
    let d := (c - 0x40) / 16
    let k := leaKey d (c % 16)
    let x := s.lea k
    let up := decide (v = 1)
    let at_ := if up = x.coreUp then x.testAt else if up then x.testAt + s.tileEighths d else x.testAt - s.tileEighths d
    s.setLea k { x with coreUp := up, testAt := at_ }

/-- The registers of mailbox `m` (R507). -/
def aBox (m o : Nat) : Nat := aSec (0x200 + 0x20 * m + o)

/-- R502, R508, R565: a request ends: RESULT is written, and GO clears; mailbox 0 signals its vector. -/
def State.boxEnd (s : State) (m status a b : Nat) : State :=
  let s := if m = 0 then s.msixSignal 2 else s
  (s.setReg (aBox m 0x14) (status + a * 2 ^ 8 + b * 2 ^ 16)).setFld (aBox m 0) 31 31 0

/-- R499, R500: a processor is held in reset until its restart. The security core's requests end with BUSY. -/
def State.procDown (s : State) (c cause : Nat) (reload : Bool) (crashes : List Nat) : State :=
  let s := s.setProc c { s.proc c with st := 2, since := s.now, cause := cause, reload := reload, crashes := crashes }
  let s := s.setCore c 2
  let s := if c = 2 then { s with sched := { s.sched with restartAt := s.now } } else s
  if c = 0 then
    (List.range 2).foldl (fun s m => if bit (s.reg (aBox m 0)) 31 then s.boxEnd m 0x10 0 0 else s)
      (s.updBoot fun b => { b with serving := none, heathNext := none })
  else s

/-- R499, R501: a processor crashes with a cause; the fourth crash within 60 s holds it. `imem`: its instruction memory holds an
uncorrectable error. -/
def State.crash (s : State) (c cause : Nat) (imem : Bool) : State :=
  let p := s.proc c
  if !codeOk c || decide (p.st ≠ 1) then s
  else
    let times := s.now :: p.crashes.filter fun t => decide (s.now ≤ t + 60000000000)
    let s := s.procDown c cause imem times
    if 4 ≤ times.length then
      let s := (s.setProc c { s.proc c with st := 3 }).setCore c 0
      (s.raise 4 0 0x1F "FW_RESTART_LOOP" c 0).updBoot fun b => { b with silent := true }
    else s

/-- R499: cause 0x1. -/
def execFwWatchdogExpiry (code : BitVec 8) (s : State) : Host.Outcome State Fault Refusal := .next <| s.live (s.crash code.toNat 1 false)
/-- R499: cause 0x2. -/
def execFwUnhandledTrap (code : BitVec 8) (s : State) : Host.Outcome State Fault Refusal := .next <| s.live (s.crash code.toNat 2 false)
/-- R499: cause 0x3. -/
def execFwMemoryUe (code : BitVec 8) (imem : Bool) (s : State) : Host.Outcome State Fault Refusal :=
  .next <| s.live (s.crash code.toNat 3 imem)

/-- R484: the component TYPE of a processor. -/
def codeType (c : Nat) : Nat := if c < 3 then c + 1 else 4

/-- R499, R505: the component from which a processor restarts is good: where it is reloaded, its digest is checked. -/
def State.reloadOk (s : State) (c : Nat) : Bool :=
  let p := s.proc c
  !p.reload || (components (s.slotHeader (valeSlot p.slot))).any fun x =>
    decide (x.type = codeType c) && decide (leNat (sha256 (s.slotBytes (valeSlot p.slot) x)) = x.digest)

/-- R212: the records that the FIFO holds are processed in order. -/
def State.drainFifo : Nat → State → State
  | 0, s => s
  | n + 1, s =>
    if s.sched.fifo.isEmpty then s
    else match execCompletionFifoRecord s with
      | .next s => State.drainFifo n s
      | .fault _ => s
      | .refused _ => s

/-- R212: the scheduler core returns: it processes the FIFO before anything else, and the events held are written. -/
def State.schReturns (s : State) : State :=
  let s := State.drainFifo s.sched.fifo.length s
  let l := s.sched.evWait
  let s := l.foldl (fun s e => s.eventOut e) { s with sched := { s.sched with evWait := [] } }
  s.raise 4 0 0x1F "SCH_RESTARTED" (s.now - s.sched.restartAt) 0

/-- R505: the first restart of a type under ACTIVATE extends its register, and LIVE is set. -/
def State.activated (s : State) (c : Nat) : State :=
  let t := codeType c
  let s := s.setFld (aSec 0) 6 6 1
  let dig := (s.proc c).digest
  if s.digest t = dig then s
  else (s.extend t dig t).updBoot fun b => { b with digests := writeAt (fun _ => 0) b.digests t dig }

/-- R499, R500, R505: a restarting processor is RUNNING again. Every other processor waits for the security core. -/
def execFwRestartDone (code : BitVec 8) (s : State) : Host.Outcome State Fault Refusal :=
  .next <| s.live <|
    let c := code.toNat
    let p := s.proc c
    if !codeOk c || decide (p.st ≠ 2) || (decide (c ≠ 0) && !s.secRunning) || !s.reloadOk c then s
    else
      let dig := if p.reload then s.slotDigest p.slot (codeType c) else p.digest
      let s := (s.setProc c { p with st := 1, reload := false, digest := dig }).setCore c 1
      let s := (s.count32 (aSec 0x20)).setReg (aSec 0x24) (c + p.cause * 2 ^ 8)
      let s := if p.cause = 4 then s.activated c else s
      let s := (s.runtime 0 c p.cause).raise 4 0 0x1F "FW_RESTART" c p.cause
      if c = 0 then s.setFld (aVal 0x208) 9 9 (s.fld (aVal 0x208) 0 0)
      else if c = 2 then s.schReturns
      else if 0x40 ≤ c then s.raise ((c - 0x40) / 16) (c % 16) 0x1F "LEA_CORE_RESTARTED" 0 0
      else s

end Sys2Proof.Machine
end

