-- ==== Sys2Proof/Machine/KvRequests.lean ====
section
/-! DEFINITION. The requests of the KV manager (R256, R259, R260, R265 to R268): publication, eviction, and the release of
retired copies and quarantined frames. -/

namespace Sys2Proof.Machine

/-- R266: the initiators that may write the request registers. -/
def kvOpOk (init : Nat) : Bool := decide (init = initSch) || decide (init = initSec)

/-- R267: a request ends: its status, and GO cleared. -/
def State.kvResult (s : State) (st : Nat) : State := (s.setReg (aSch 0x870) st).setFld (aSch 0x860) 31 31 0

/-- R259: an appending command in flight names the context. -/
def State.appending (s : State) (c : Nat) : Bool :=
  s.inFlight.any fun k => decide (k.kind = 1) && (glenBody k.words).append && k.ctxs.contains c

/-- R257, R259: the refusals of a publication of `root` for context `c`, found before the copy is walked. -/
def State.publishFails (s : State) (c root : Nat) : List Nat :=
  if 4096 ≤ c then [2]
  else
    let w := s.ctx c
    if ctxState w = 0 ∨ ctxState w = 5 then [0x0F]
    else
      let old := s.pdir (ctxRoot w)
      let new := s.pdir root
      failIf (decide (new.mods ≠ old.mods)) 0x0B ++ failIf (decide (new.gen ≠ (old.gen + 1) % 2 ^ 32)) 0x0F ++
      failIf (decide (64 ≤ s.kv.retired.length)) 0x10

/-- R259 steps 2 to 5: a publication applied or refused. -/
def State.publish (s : State) (c root : Nat) : State :=
  let refused := oneOf (s.publishFails c root)
  let st := if refused ≠ 0 then refused else s.walkStatus root (ctxLayers (s.ctx c))
  let s := { s with kv := { s.kv with waitingPublish := none } }
  if st ≠ 0 then s.kvResult st
  else
    let w := s.ctx c
    let s := s.tableAcquire root (ctxLayers w)
    let s := if ctxLayers w = 0 then s else s.retire (ctxRoot w) c
    let s := s.setCtx c (setWordBits w 1 47 0 root)
    s.kvResult 0

/-- R265: an eviction carried out or refused. -/
def State.evictNode (s : State) (x : Nat) : State :=
  if s.nodeMax ≤ x then s.kvResult 2
  else if !s.nodeValid x then s.kvResult 0x0F
  else if s.nodeWord x 3 ≠ 0 then s.kvResult 0x10
  else (s.nodeEvict x).kvResult 0

/-- R259, R265 to R267: a write of SCH_KV_OP. While GO is 1 it is discarded; with GO = 1 it submits the request. -/
def State.kvRequest (s : State) (v : Nat) : State :=
  let a := aSch 0x860
  if bit (s.reg a) 31 then s
  else
    let s := (s.setFld a 4 0 (bits v 4 0)).setFld a 31 31 (bits v 31 31)
    let arg := s.fld (aSch 0x864) 19 0
    let root := bits (s.reg (aSch 0x868)) 47 0
    if !bit v 31 then s
    else match bits v 3 0 with
      | 1 =>
        if s.kv.waitingPublish.isSome then s.kvResult 0x10
        else if bit v 4 ∧ s.appending arg then { s with kv := { s.kv with waitingPublish := some (arg, root) } }
        else s.publish arg root
      | 2 => s.evictNode arg
      | _ => s.kvResult 0x0F

/-- R259: a PUBLISH request. -/
def execKvPublish (init : Init) (value : Word32) (s : State) : Host.Outcome State Fault Refusal :=
  .next <| s.live (if kvOpOk init.toNat ∧ bits value.toNat 3 0 ≠ 2 then s.kvRequest value.toNat else s)

/-- R265: an EVICT request. -/
def execKvEvict (init : Init) (value : Word32) (s : State) : Host.Outcome State Fault Refusal :=
  .next <| s.live (if kvOpOk init.toNat ∧ bits value.toNat 3 0 ≠ 1 then s.kvRequest value.toNat else s)

/-- R259 step 1: the publication that waits goes on once no appending command in flight names its context. -/
def execKvPublishResume (s : State) : Host.Outcome State Fault Refusal :=
  .next <| s.live <|
    match s.kv.waitingPublish with
    | some (c, root) => if s.appending c then s else s.publish c root
    | none => s

/-- R260, R268: the oldest retired copy of a directory, all of whose commands have ended, is released. -/
def execKvRetireRelease (root : Addr) (s : State) : Host.Outcome State Fault Refusal :=
  .next <| s.live <|
    match s.kv.retired.find? fun x => decide (x.root = root.toNat) && x.cmds.isEmpty with
    | none => s
    | some x =>
      ({ s with kv := { s.kv with retired := s.kv.retired.erase x } }).kvRetired x.root (s.pdir x.root).layers x.ctx

/-- R256: a quarantined frame returns to the free list once the commands that were in flight have ended. -/
def execKvQuarantineRelease (frame : Nat) (s : State) : Host.Outcome State Fault Refusal :=
  .next <| s.live <|
    match s.kv.quarantine.find? fun x => decide (x.frame = frame) && x.cmds.isEmpty with
    | none => s
    | some x =>
      let s := { s with kv := { s.kv with quarantine := s.kv.quarantine.erase x } }
      (s.setFld (aSch 0x814) 22 0 (s.fld (aSch 0x814) 22 0 - 1)).framePush x.frame

end Sys2Proof.Machine
end

