-- ==== Sys2Proof/Machine/Dram.lean ====
section
/-! DEFINITION. The commands of the DRAM controllers (R328 to R345). -/

namespace Sys2Proof.Machine

/-- The stack and line offset of a DRAM address whose controller accepts requests (R323, R336, R343). -/
def State.dramLine (s : State) (a : Nat) : Option (Nat × Nat) :=
  if a < 0x001000000000 then
    let so := s.stackOf a
    if s.targetUp a && s.dramReady so.1 then some (so.1, so.2 / 64 * 64) else none
  else none

/-- R326, R327, R337, R339: the stack serves a line read: its codeword is decoded; `act` says whether it needed an activate, `err`
which symbols were in error, and `cmdErr` that the command met two parity errors (R340). A read that the write queue covers
does not go to the stack (R330). -/
def State.serveLine (s : State) (d a o : Nat) (act : Bool) (err : List (Fin 72 × Byte)) (cmdErr : Bool) : State :=
  let keep := (s.dramOf d).queued o
  if keep = 2 ^ 64 - 1 ∨ s.pcFailed a then s
  else
    let s := if act then s.activate d (offPc o) (s.servingLayer d o) (offBank o) (offRow o) else s
    if s.poisoned a then s else (s.dramDecode d a o (errWord err) cmdErr keep keep).2

/-- R16, R329, R330, R376, R377, R383, R385: a line read. It arrives and takes a tag, or stalls; or, `serve`, the controller serves
it in its turn, charges it, and answers it, when its tag is free again. -/
def execDramRead (req : DramReq) (act : Bool) (err : List (Fin 72 × Byte)) (cmdErr : Bool) (s : State) :
    Host.Outcome State Fault Refusal :=
  .next <| s.live <|
    match s.dramLine req.addr.toNat with
    | none => s
    | some (d, o) =>
      let a := req.addr.toNat / 64 * 64
      let x := s.dramOf d
      let u := req.who
      if req.serve then
        match x.reads.find? fun r => decide (r.init = u.init.toNat) && decide (r.cls = u.cls.val) && decide (r.task = u.task.toNat)
            && decide (r.off = o) with
        | none => s
        | some r =>
          if s.pcBusy d (offPc o) || !s.readTurn d r (!act) || (act && decide (s.dramTier d r = 6) && s.refreshNear d (offPc o)) then s
          else
            let s := (((s.tagBack d r).charge d 0 r.cls r.task 1).serveLine d a o act err cmdErr)
            if r.cls = 7 then s.measureC7 (r.init / 256) (s.now - r.since) a else s
      else if s.access ⟨u.init.toNat, none, false, false⟩ false a 64 ≠ 0 then s
      else match x.tagFor (offPc o) u.cls with
        | none => s
        | some fast => s.setDram d { x with reads := x.reads ++ [⟨u.init.toNat, u.cls, u.task.toNat, o, s.now, fast, 0⟩] }

/-- The bytes of a line that a mask selects, as runs to write. -/
def maskRuns (a mask : Nat) (data : List Byte) : List (Nat × Byte) :=
  (List.range 64).filterMap fun i => if mask.testBit i then some (a + i, data.getD i 0) else none

/-- R329, R330, R332, R339, R376: a line write. It is performed when it enters the queue or merges into its line's entry; with
64 lines queued it waits (R16). -/
def execDramWrite (who : DramUser) (addr : Addr) (mask : BitVec 64) (data : List Byte) (s : State) :
    Host.Outcome State Fault Refusal :=
  .next <| s.live <|
    match s.dramLine addr.toNat with
    | none => s
    | some (d, o) =>
      let a := addr.toNat / 64 * 64
      let x := s.dramOf d
      let m := mask.toNat
      if s.access ⟨who.init.toNat, none, false, false⟩ true a 64 ≠ 0 ∨ m = 0 ∨ s.pcFailed a then s
      else if m ≠ 2 ^ 64 - 1 ∧ s.poisoned a then s
      else if x.queued o = 0 ∧ 64 ≤ (x.queueOf (offPc o)).length then s
      else
        let s := (s.setDram d (x.enqueue o m)).charge d 0 who.cls who.task.toNat (if m = 2 ^ 64 - 1 then 1 else 2)
        let s := (maskRuns a m data).foldl (fun s b => s.putBytes b.1 [b.2]) s
        if m = 2 ^ 64 - 1 then { s with poison := s.poison.erase a, spoilt := s.spoilt.erase a } else s

/-- R332: a queued write leaves for the stack. One of part of a line is a read-modify-write: an uncorrectable merge read discards it
and poisons the line. -/
def State.performWrite (s : State) (d a : Nat) (q : QWrite) (act : Bool) (err : List Nat) (cmdErr : Bool) : State :=
  let s := if act then s.activate d (offPc q.off) (s.servingLayer d q.off) (offBank q.off) (offRow q.off) else s
  let s := s.setDram d ((s.dramOf d).dequeue q.off)
  if q.mask = 2 ^ 64 - 1 ∨ s.poisoned a then s
  else (s.dramDecode d a q.off err cmdErr q.mask 0).2

/-- R329, R332: a queued partial write leaves for the stack. -/
def execDramReadModifyWrite (addr : Addr) (act : Bool) (err : List (Fin 72 × Byte)) (cmdErr : Bool) (s : State) :
    Host.Outcome State Fault Refusal :=
  .next <| s.live <|
    match s.dramLine addr.toNat with
    | none => s
    | some (d, o) =>
      let x := s.dramOf d
      let m := x.queued o
      if m = 0 ∨ m = 2 ^ 64 - 1 ∨ x.held o ∨ s.pcBusy d (offPc o) ∨ ¬ x.drains (offPc o) then s
      else s.performWrite d (addr.toNat / 64 * 64) ⟨o, m⟩ act (errWord err) cmdErr

/-- R329, R342: a pseudo-channel's queued whole lines leave for the stack, but for those of the unit being copied. -/
def execDramWriteDrain (die : Fin 4) (pc : Fin 32) (acts : List (Fin 16 × Fin 4096)) (s : State) :
    Host.Outcome State Fault Refusal :=
  .next <| s.live <|
    let x := s.dramOf die
    if !s.dramReady die || s.pcBusy die pc || !x.drains pc then s
    else
      let out := (x.queueOf pc).filter fun q => decide (q.mask = 2 ^ 64 - 1) && !x.held q.off
      out.foldl (fun s q => s.performWrite die 0 q
        (acts.any fun e => decide (e.1.val = offBank q.off) && decide (e.2.val = offRow q.off)) [] false) s

/-- R333, R334, R335: a pseudo-channel that is due is refreshed. At pseudo-channel 0 a period starts: the epoch is the time base,
and a change of mode takes effect. After 8,192 refreshes the pseudo-channel's activate tables are cleared. -/
def execDramRefreshDue (die : Fin 4) (pc : Fin 32) (s : State) : Host.Outcome State Fault Refusal :=
  .next <| s.live <|
    if !s.dramReady die || !s.refreshDue die pc then s
    else
      let x := s.dramOf die
      let s := if pc.val = 0 then (s.setReg (aDmc die 0x10) s.now).setFld (aDmc die 0) 3 3 (b2n x.hotNext) else s
      let n := (readAt (fun _ => 0) x.refreshes pc + 1) % 8192
      let t := if n = 0 then x.tables.filter fun e => decide (e.1 / 256 ≠ pc.val) else x.tables
      s.setDram die { x with
        refreshes := writeAt (fun _ => 0) x.refreshes pc n, tables := t
        refreshed := if pc.val = 0 then [0] else x.refreshed ++ [pc.val] }

/-- The hottest of the nine layer temperatures, the lower layer on a tie. -/
def hottest (ts : List Int) : Int × Nat :=
  (List.range ts.length).foldl (fun r i => if r.1 < ts.getD i 0 then (ts.getD i 0, i) else r) (ts.getD 0 0, 0)

/-- R318: the layer select that a physical layer serves, if any. -/
def State.selectOf (s : State) (d layer : Nat) : Option Nat := (List.range 8).find? fun k => decide (s.physLayer d k = layer)

/-- R334: a millisecond has passed since the temperatures were read. -/
def State.tempDue (s : State) (d : Nat) : Bool :=
  match (s.dramOf d).tempAt with
  | some t => decide (t + 1000000 ≤ s.now)
  | none => true

/-- R334, R346: every layer temperature is read, in degrees; above 85 in any layer the next period is hot, at 83 or less in
every layer it is normal; each layer above 95 raises EVT_DMC_OVERTEMP with its layer select, which a layer out of service lacks. -/
def State.dramTemps (s : State) (d : Nat) (ts : List Int) : State :=
  let h := hottest ts
  let s := s.setReg (aDmc d 0x04) (wrap 8 h.1 + h.2 * 2 ^ 8)
  let x := s.dramOf d
  let hot := if ts.any fun t => decide (85 < t) then true else ts.any (fun t => decide (83 < t)) && x.hotNext
  let s := s.setDram d { x with hotNext := hot, tempAt := some s.now }
  (List.range 9).foldl (fun s i =>
    if 95 < ts.getD i 0 then
      let (k, s) := match s.selectOf d i with
        | some k => (k, s)
        | none => let (v, s) := s.draw useSpareSid; (v % 8, s)
      s.raise d 0 0x1F "DMC_OVERTEMP" k 0
    else s) s

/-- R328: the patrol scrubber reads one codeword of a physical layer, in service or the spare, in a cycle in which no request waits
for its pseudo-channel, and handles its errors as a read does. -/
def execDramPatrolScrub (at_ : DramLayer) (off : BitVec 34) (err : List (Fin 72 × Byte)) (cmdErr : Bool) (s : State) :
    Host.Outcome State Fault Refusal :=
  .next <| s.live <|
    let die := at_.die
    let layer := at_.layer
    let off := off.toNat / 64 * 64
    let p := offPc off
    let inLayer := fun (k : Nat) => setBits off 21 19 k
    let x := s.dramOf die
    if !s.dramReady die || bit (s.reg (aDmc die 0x0C)) p || s.pcBusy die p
        || x.reads.any (fun r => decide (offPc r.off = p)) then s
    else match (List.range 8).find? fun k => decide (s.servingLayer die (inLayer k) = layer.val) with
      | some k =>
        let o := inLayer k
        let s := s.activate die p layer (offBank o) (offRow o)
        match s.dramAddr die o with
        | none => s
        | some a => if s.poisoned a then s else (s.dramDecode die a o (errWord err) cmdErr (x.queued o) (x.queued o)).2
      | none =>
        if layer.val ≠ 8 ∨ bit (s.reg (aDmc die 0)) 5 then s
        else (s.activate die p 8 (offBank off) (offRow off)).spareDecode die off (errWord err) cmdErr

/-- R341, R342: a migration that is complete: the layer select maps to the spare, and a retirement that waited finds
none. -/
def State.migrateDone (s : State) (d : Nat) (m : Migration) : State :=
  let x := s.dramOf d
  let s := s.setDram d { x with migration := none, waiting := [] }
  let s := s.setFld (aDmc d 0x08) (4 * m.sid + 3) (4 * m.sid) 8
  let s := ((s.setFld (aDmc d 0) 4 4 0).setFld (aDmc d 0) 5 5 1).noteLayers d
  let s := (s.raise d 0 0x1F "DMC_MIGRATE_DONE" m.sid 0).replaceReq 2
  x.waiting.foldl (fun s k => s.noSpareLayer d k) s

/-- R342, R343: a pseudo-channel copies one unit of the retired layer to the spare. `errs` gives, for each column, the
symbols in error and whether the command met two parity errors (R340); an uncorrectable codeword, and a line that was found so
before, poisons its line, which the spare holds as zero data. -/
def execMigrationUnit (die : Fin 4) (pc : Fin 32) (errs : List (Fin 16 × List (Fin 72 × Byte) × Bool)) (s : State) :
    Host.Outcome State Fault Refusal :=
  .next <| s.live <|
    match (s.dramOf die).migration with
    | none => s
    | some m =>
      let u := m.ptr.getD pc 0
      if !s.dramReady die || s.pcStalled die pc || decide (65536 ≤ u) then s
      else
        let s := s.activate die pc (s.physLayer die m.sid) (u % 16) (u / 16)
        let s := s.activate die pc 8 (u % 16) (u / 16)
        let s := (List.range 16).foldl (fun s col =>
          let o := unitOff m.sid pc u col
          match s.dramAddr die o with
          | none => s
          | some a =>
            let keep := (s.dramOf die).queued o
            let s := match errs.find? fun e => decide (e.1.val = col) with
              | some e => if s.poisoned a then s else (s.dramDecode die a o (errWord e.2.1) e.2.2 keep keep).2
              | none => s
            if s.spoilt.contains a then { s with spoilt := s.spoilt.erase a }.dramPoisonLine die a o keep else s) s
        let m := { m with ptr := m.ptr.set pc (u + 1) }
        let s := s.setDram die { s.dramOf die with migration := some m }
        let s := s.setReg (aDmc die 0x38) (m.ptr.foldl min 65536)
        if m.ptr.all (fun p => decide (65536 ≤ p)) then s.migrateDone die m else s

/-- R338: every 10 ms the eye monitor updates a lane group: the width and the drift, whose events are raised where they pass their
limits. The chosen setting never moves. -/
def execEyeMonitorUpdate (die : Fin 4) (pc : Fin 32) (group : Fin 5) (width drift : Byte) (s : State) :
    Host.Outcome State Fault Refusal :=
  .next <| s.live <|
    let a := aDmc die (0x400 + 32 * pc + 4 * group)
    let x := s.dramOf die
    let k := 5 * pc.val + group.val
    if s.now < readAt (fun _ => 0) x.eyeAt k + 10000000 then s
    else
    let s := s.setDram die { x with eyeAt := writeAt (fun _ => 0) x.eyeAt k s.now }
    let old := s.reg a
    let s := (s.setFld a 15 8 width.toNat).setFld a 23 16 drift.toNat
    let oldD := (sext 8 (bits old 23 16)).natAbs
    if (8 ≤ drift.toInt.natAbs ∧ oldD < 8) ∨ (width.toNat < 24 ∧ 24 ≤ bits old 15 8) then
      s.raise die 0 0x1F "DMC_EYE_DRIFT" pc 0
    else s

/-- R336: training, which the record's marks and layer map precede (R459), ends. `pass` says whether the command bus and the
temperature readout trained; `fails` gives the lanes
of each pseudo-channel without a passing window; `eyes` the setting and width of each lane group. Marks carried over by
the fault record stand. A pseudo-channel that would need three marks is failed; the stack is FAILED with eight of them,
else READY and its STACK bit set (R36). -/
def execDramTrainingDone (die : Fin 4) (pass : Bool) (fails : List (Fin 32 × BitVec 36))
    (eyes : List (Fin 32 × Fin 5 × Byte × Byte)) (s : State) : Host.Outcome State Fault Refusal :=
  .next <| s.live <|
    let r := s.dieSt die
    if s.fld (aDmc die 0) 2 0 ≠ 1 ∨ ¬ (r.complete ∨ r.factory ∨ r.restored) then s
    else
      let s := eyes.foldl (fun s e =>
        s.setReg (aDmc die (0x400 + 32 * e.1 + 4 * e.2.1)) (e.2.2.1.toNat + e.2.2.2.toNat * 2 ^ 8)) s
      let s := fails.foldl (fun s f =>
        let m := s.reg (aDmc die (0x100 + 8 * f.1)) ||| f.2.toNat
        if lanesIn m < 3 then s.setReg (aDmc die (0x100 + 8 * f.1)) m
        else (s.setFld (aDmc die 0x0C) f.1 f.1 1).replaceReq 3) s
      let bad := ((List.range 32).filter fun p => bit (s.reg (aDmc die 0x0C)) p).length
      if !pass || decide (8 ≤ bad) then s.setFld (aDmc die 0) 2 0 4
      else
        let s := s.setFld (aDmc die 0) 2 0 2
        if s.meadowUp die then s.setFld (aVal 0x20) (8 + die) (8 + die) 1 else s

/-- R332, R343: a queued write performed before a self-refresh entry. Whether it needs an activate, and what its merge read finds, is
open. -/
def State.flushWrite (s : State) (d : Nat) (q : QWrite) : State :=
  let n := s.free
  let s := { s with free := n + 1 }
  s.performWrite d ((s.dramAddr d q.off).getD 0) q (Config.freeChoice n useFlush)
    ((List.range 72).map fun i => Config.freeValue n (0x100 + i) % 256) (Config.freeChoice n (useFlush + 1))

/-- R343: self-refresh: every queued write is performed, a migration stops at its unit, and requests are no longer
accepted. -/
def State.selfRefresh (s : State) (d : Nat) : State :=
  if s.dramReady d then ((s.dramOf d).queue.foldl (fun s q => s.flushWrite d q) s).setFld (aDmc d 0) 2 0 3 else s

/-- R343: a request for self-refresh. -/
def execSelfRefreshEntry (die : Fin 4) (s : State) : Host.Outcome State Fault Refusal := .next <| s.live (s.selfRefresh die)

/-- R340, R344, R345: a write of DMC_RETIRE by the security core or a Heath. -/
def execDmcRetire (init : Init) (die : Fin 4) (value : Word32) (s : State) : Host.Outcome State Fault Refusal :=
  .next <| s.live <|
    if init.toNat = initSec ∨ isHeath init.toNat then
      let s := s.setFld (aDmc die 0x40) 2 0 (bits value.toNat 2 0)
      if bit value.toNat 31 then (s.setFld (aDmc die 0x40) 31 31 1).retireLayer die (bits value.toNat 2 0) else s
    else s

/-- R335, R344, R345: a write of DMC_RH_THRESH by the security core; below 256 it is discarded. -/
def execDmcRhThreshWrite (init : Init) (die : Fin 4) (value : Word32) (s : State) : Host.Outcome State Fault Refusal :=
  .next <| s.live <|
    if init.toNat = initSec ∧ 256 ≤ bits value.toNat 15 0 then s.setFld (aDmc die 0x18) 15 0 (bits value.toNat 15 0) else s

/-- R344: a lea control core of Meadow `d`. -/
def isLeaCoreOf (init d : Nat) : Bool :=
  decide (init / 256 = d) && decide (0x20 ≤ init % 256) && decide (init % 256 < 0x30)

/-- R344, R345: DMC_CNT_CLR.ERR, by a lea control core of the Meadow or a Heath. -/
def execDmcCntClrErr (init : Init) (die : Fin 4) (s : State) : Host.Outcome State Fault Refusal :=
  .next <| s.live <|
    if isLeaCoreOf init.toNat die || isHeath init.toNat then
      ((s.setReg (aDmc die 0x20) 0).setReg (aDmc die 0x24) 0).setReg (aDmc die 0x28) 0
    else s

end Sys2Proof.Machine
end

