-- ==== Sys2Proof/Machine/Leas.lean ====
section
/-! DEFINITION. The commands of leas and tiles: swaps (R97), reports of mismatches (R102), injections (R105), counters
(R109), the SRAM scrubber (R94, R96), self-test (R460, R461), row repair (R463) and rebinding (R466). -/

namespace Sys2Proof.Machine

/-! ## Swaps (R97, R108) -/

/-- R97, R108: a write of LEA_SWAP by the lea's control core. -/
def execLeaSwap (init : Init) (l : LeaId) (value : Word32) (s : State) : Host.Outcome State Fault Refusal :=
  .next <| s.live <|
    let go := bit value.toNat 31
    if init.toNat ≠ initLeaCore l.die l.lea then s
    else if s.swapGo l.die l.lea then
      if go then s.swapRefused l.die l.lea (s.fld (aLea l.die l.lea 0x08) 3 0) else s
    else if go then s.swapRequest l.die l.lea (bits value.toNat 3 0)
    else s.setFld (aLea l.die l.lea 0x08) 3 0 (bits value.toNat 3 0)

/-- R97 steps 3 and 4: once the old tile holds no tile-share, the logical tile moves. DEDUCED (assumption 123): a tile-share is held
by the tile that its command's start bound it to (R136) until it ends, whether its threads run or wait for their slots. -/
def execSwapMap (l : LeaId) (s : State) : Host.Outcome State Fault Refusal :=
  .next <| s.live <|
    let k := leaKey l.die l.lea
    match (s.lea k).swapping with
    | none => s
    | some n =>
      if !(s.lea k).coreUp || !s.swapGo l.die l.lea || s.tileHeld l.die l.lea (s.mapTile l.die l.lea n) then s
      else ((s.setLea k { s.lea k with swapping := none }).moveTile l.die l.lea n).failedNext l.die l.lea

/-- R460, R461: the free tile begins its self-test, of 25,000,000 tile cycles. -/
def State.beginTest (s : State) (d l t : Nat) : State :=
  let k := leaKey d l
  ((s.setFreeState d l 2).setTileSt d l t 3 0).setLea k { s.lea k with
    testing := some t, testAt := s.tileEighths d + 8 * 25000000 }

/-- R102: the swap-out of a lea's tile that waited for the free tile, if there is one. -/
def State.waitingSwapOut (s : State) (d l : Nat) : State :=
  match (List.range 17).find? fun t => (s.tile (tileKey d l t)).swapOut with
  | some t => s.swapOut d l t
  | none => s

/-- R91, R97 steps 5 and 6: the free tile, with no tile-share left on it, is cleared to zero and becomes READY; GO clears.
A swap-out that waited takes it (R102), or a tile whose checker failed (R467), and a tile that the rotation swapped out is tested
(R460). -/
def execTileClearDone (t : TileId) (s : State) : Host.Outcome State Fault Refusal :=
  .next <| s.live <|
    let d := t.die.val
    let l := t.lea.val
    let k := leaKey d l
    if s.freeTile d l ≠ t.tile ∨ s.freeState d l ≠ 1 ∨ s.tileHeld d l t.tile then s
    else
      let s := ((s.zeroTile d l t.tile).setFreeState d l 0).setTileSt d l t.tile 1 0
      let s := s.setFld (aLea d l 0x08) 31 31 0
      let waiting := (List.range 17).any fun x => (s.tile (tileKey d l x)).swapOut
      if waiting then (s.waitingSwapOut d l).failedNext d l
      else if (List.range 17).any fun x => (s.tile (tileKey d l x)).failed && !s.tileRetired d l x then s.failedNext d l
      else if (s.lea k).testing = some t.tile.val ∧ (s.lea k).coreUp then s.beginTest d l t.tile
      else s

/-! ## Mismatches and injections (R102, R105) -/

/-- R109: TIL_MISMATCH.LAST_CHECK of a checker. -/
def checkCode : Check → Nat
  | .residue => 1
  | .checksum => 2
  | .lane => 3

/-- R102: the tile of a slot reports a checker mismatch in the work of the slot's thread. -/
def execMismatchReport (t : SlotId) (check : Check) (s : State) : Host.Outcome State Fault Refusal :=
  .next <| s.live <|
    let th := s.slot (tkey t)
    if !th.busy then s else s.mismatch th.cmd t.die t.lea t.tile (checkCode check)

/-- R105, R109: a Heath arms an injection of a target; a target that no checker has clears ARM at once. -/
def State.arm (s : State) (init : Nat) (t : TileId) (target : Nat) : State :=
  if !isHeath init then s
  else
    let a := aTil t.die t.lea t.tile 0x44
    let k := tileIdKey t
    (s.setReg a (target + 2 ^ 31)).setTile k { s.tile k with armedAt := s.now }

/-- R105: the residue checker. -/
def execTilInjectResidue (init : Init) (t : TileId) (s : State) : Host.Outcome State Fault Refusal :=
  .next <| s.live (s.arm init.toNat t 1)

/-- R105: the checksum checker. -/
def execTilInjectChecksum (init : Init) (t : TileId) (s : State) : Host.Outcome State Fault Refusal :=
  .next <| s.live (s.arm init.toNat t 2)

/-- R105: the vector check lane. -/
def execTilInjectVector (init : Init) (t : TileId) (s : State) : Host.Outcome State Fault Refusal :=
  .next <| s.live (s.arm init.toNat t 3)

/-- R105: a single check bit of the tile's SRAM. -/
def execTilInjectSramSingle (init : Init) (t : TileId) (s : State) : Host.Outcome State Fault Refusal :=
  .next <| s.live (s.arm init.toNat t 4)

/-- R105: two check bits of the tile's SRAM. -/
def execTilInjectSramDouble (init : Init) (t : TileId) (s : State) : Host.Outcome State Fault Refusal :=
  .next <| s.live (s.arm init.toNat t 5)

/-- R105: no evaluation has fired within 1 ms of arming. -/
def execTilInjectTimeout (t : TileId) (s : State) : Host.Outcome State Fault Refusal :=
  .next <| s.live <|
    let a := aTil t.die t.lea t.tile 0x44
    if bit (s.reg a) 31 && decide ((s.tile (tileIdKey t)).armedAt + 1000000 < s.now) then
      (s.setReg (aTil t.die t.lea t.tile 0x48) 2).setFld a 31 31 0
    else s

/-- R109: the lea's control core or a Heath may clear a tile's counters. -/
def mayClearTile (init : Nat) (t : TileId) : Bool := decide (init = initLeaCore t.die t.lea) || isHeath init

/-- R109: TIL_CNT_CLR.ECC. -/
def execTilCntClrEcc (init : Init) (t : TileId) (s : State) : Host.Outcome State Fault Refusal :=
  .next <| s.live <|
    if mayClearTile init.toNat t then
      (s.setReg (aTil t.die t.lea t.tile 0x08) 0).setReg (aTil t.die t.lea t.tile 0x0C) 0
    else s

/-- R109: TIL_CNT_CLR.SKIP. -/
def execTilCntClrSkip (init : Init) (t : TileId) (s : State) : Host.Outcome State Fault Refusal :=
  .next <| s.live <|
    if mayClearTile init.toNat t then s.setReg (aTil t.die t.lea t.tile 0x1C) 0 else s

/-! ## The scrubber and corrected codewords (R94, R96) -/

/-- R94: a corrected codeword is written back. -/
def execSramCeWriteback (addr : Addr) (s : State) : Host.Outcome State Fault Refusal :=
  .next <| s.live { s with sramFix := s.sramFix.erase (addr.toNat / 64 * 64) }

/-- R463: a line that the scrubber corrects in two successive passes, of 100 ms each, has its row reported. -/
def State.scrubbed (s : State) (a : Nat) : State :=
  let line := a / 64 * 64
  let pass := s.now / 100000000 + 1
  let last := readAt (fun _ => 0) s.scrubFix line
  let s := { s with scrubFix := writeAt (fun _ => 0) s.scrubFix line pass }
  if last ≠ 0 ∧ last + 1 = pass then s.reportRow a else s

/-- R96: the scrubber reads a tile or pool line and writes back what it corrects. -/
def execSramScrubRead (addr : Addr) (ecc : Ecc) (s : State) : Host.Outcome State Fault Refusal :=
  .next <| s.live <|
    let a := addr.toNat
    match placeOf a with
    | some (.tile d l t, b, _) =>
      let s := s.sramFire d l t
      match ecc with
      | .clean => s
      | .corrected => (s.tileError d l t (a - b) false).scrubbed a
      | .uncorrectable => s.tileSramError d l t a true
    | some (.pool d l, _, _) =>
      if s.readPoison a 1 then s
      else match ecc with
      | .clean => s
      | .corrected => (s.count32 (aLea d l 0x0C)).scrubbed a
      | .uncorrectable => s.poolError d l a true
    | _ => s

/-! ## Rotating self-test (R460 to R462) -/

/-- R460: the logical tile whose physical tile has gone longest since its last passing test, ties to the lower physical
index. -/
def State.testChoice (s : State) (d l : Nat) : Option Nat :=
  let served := (List.range 17).filterMap fun t =>
    ((List.range 16).find? fun n => decide (s.mapTile d l n = t)).map fun n => ((s.tile (tileKey d l t)).lastTest, n)
  served.foldl (fun r e => match r with
    | none => some e
    | some x => if e.1 < x.1 then some e else r) none |>.map (·.2)

/-- R460: a rotation step of a lea's control core, once at each multiple of 100 ms. A pending test waits while the free tile is cleared;
a step that finds a swap that is not its own is refused. -/
def execRotationStep (l : LeaId) (s : State) : Host.Outcome State Fault Refusal :=
  .next <| s.live <|
    let d := l.die.val
    let i := l.lea.val
    let k := leaKey d i
    let step := s.now / 100000000 + 1
    if !(s.lea k).coreUp || decide (s.now % 100000000 ≠ 0) || decide ((s.lea k).rotated = step) then s
    else
      let s := s.setLea k { s.lea k with rotated := step }
      let f := s.freeTile d i
      if (s.lea k).testNext.contains f ∧ s.freeState d i ≠ 3 ∧ ¬ s.swapGo d i then
        match s.freeState d i with
        | 0 => s.beginTest d i f
        | 1 => s.setLea k { s.lea k with testing := some f }
        | _ => s
      else match s.testChoice d i with
        | none => s
        | some n =>
          if s.swapGo d i then (if (s.lea k).testing.isSome then s else s.swapRefused d i n).count32 (aLea d i 0x88) else
          if s.freeState d i ≠ 0 then (s.swapRequest d i n).count32 (aLea d i 0x88)
          else
            let p := s.mapTile d i n
            (s.swapRequest d i n).setLea k { (s.swapRequest d i n).lea k with testing := some p }

/-- R461, R462: a self-test of the free tile ends, once its cycles have passed with the control core running: in a pass, or in
retirement where it failed or a repair found no spare row. -/
def execTileSelfTestDone (t : TileId) (pass : Bool) (s : State) : Host.Outcome State Fault Refusal :=
  .next <| s.live <|
    let d := t.die.val
    let l := t.lea.val
    let k := leaKey d l
    let tk := tileIdKey t
    if s.freeTile d l ≠ t.tile ∨ s.freeState d l ≠ 2 ∨ ¬ (s.lea k).coreUp ∨ s.tileEighths d < (s.lea k).testAt then s
    else
      let s := s.setLea k { s.lea k with testing := none, testNext := (s.lea k).testNext.filter fun x => decide (x ≠ t.tile.val) }
      if pass && !(s.tile tk).noSpare then
        let s := s.setTile tk { s.tile tk with lastTest := s.now }
        (((s.setFreeState d l 1).setTileSt d l t.tile 2 0).count32 (aLea d l 0x80))
      else (((s.count32 (aLea d l 0x84)).raise d l t.tile "TIL_SELFTEST_FAIL" 0 0).retireTile d l t.tile).failedNext d l

/-! ## Row repair and rebinding (R463, R466) -/

/-- R463: spare rows of a macro: 4 of a tile bank or an engine buffer, 16 of a pool bank (R457). -/
def spareRows (m : Nat) : Nat := if 0x10000 ≤ m ∧ m < 0x20000 then 16 else 4

/-- R463: a row may be repaired now: a pool row live, a tile row while its tile is in self-test, a buffer row of an engine
while its Meadow restarts. -/
def State.repairable (s : State) (m : Nat) : Bool :=
  if m < 0x10000 then
    let tk := m / 8
    decide (s.tileSt (tk / 17 / 16) (tk / 17 % 16) (tk % 17) = 3)
  else if m < 0x20000 then true
  else if m < 0x30000 then !s.meadowUp ((m - 0x20000) / 16)
  else !s.meadowUp (m - 0x30000)

/-- R477: the least spare rows left in the banks of a lea. -/
def State.showRows (s : State) (d l : Nat) : State :=
  let left := fun m => spareRows m - readAt (fun _ => 0) s.rowsUsed m
  let tiles := (List.range 17).flatMap fun t => (List.range 8).map fun b => left (macroTile d l t b)
  let pools := (List.range 16).map fun b => left (macroPool d l b)
  s.setReg (aLea d l 0x8C) (tiles.foldl min 4 + pools.foldl min 16 * 2 ^ 8)

/-- The die, lea and tile of a macro. -/
def macroPlace (m : Nat) : Nat × Nat × Nat :=
  if m < 0x10000 then (m / 8 / 17 / 16, m / 8 / 17 % 16, m / 8 % 17)
  else if m < 0x20000 then ((m - 0x10000) / 16 / 16, (m - 0x10000) / 16 % 16, 0x1F)
  else if m < 0x30000 then ((m - 0x20000) / 16, (m - 0x20000) % 16, 0x1F)
  else (m - 0x30000, 0, 0x1F)

/-- R463: a row is repaired onto a spare row of its bank. It was reported, or `bist` says that memory BIST found it. -/
def execRowRepair (mac row : Nat) (bist : Bool) (s : State) : Host.Outcome State Fault Refusal :=
  .next <| s.live <|
    if !s.repairable mac || !(bist || s.repairs.contains (mac, row)) then s
    else
      let (d, l, t) := macroPlace mac
      let s := { s with repairs := s.repairs.erase (mac, row) }
      let used := readAt (fun _ => 0) s.rowsUsed mac
      if used < spareRows mac then
        let s := { s with rowsUsed := writeAt (fun _ => 0) s.rowsUsed mac (used + 1) }
        let s := (s.raise d l t "ROW_REPAIRED" (row + mac * 2 ^ 32) 0).frecNote 0x02 d l (row + mac * 2 ^ 32)
        if mac < 0x20000 then s.showRows d l else s
      else
        let s := s.raise d l t "ROW_SPARE_EXHAUSTED" 0 0
        if mac < 0x10000 then s.setTile (mac / 8) { s.tile (mac / 8) with noSpare := true } else s.replaceReq 1

/-- R466: the lea rebinds to 15 tiles once no tile-share is left on the lost tile and on the tile of logical tile 15; a
second loss leaves it lost. -/
def execLeaRebind (l : LeaId) (s : State) : Host.Outcome State Fault Refusal :=
  .next <| s.live <|
    let d := l.die.val
    let i := l.lea.val
    let k := leaKey d i
    match (s.lea k).losing with
    | [] => s
    | t :: rest =>
      let last := s.mapTile d i 15
      if !(s.lea k).coreUp || s.tileHeld d i t || (decide (last ≠ 0x1F) && s.tileHeld d i last) then s
      else
        let s := s.setLea k { s.lea k with losing := rest }
        let n := s.fld (aTil d i t 0) 7 4
        let s := s.setTileSt d i t 4 0
        if bit (s.reg (aMdw d 0x48)) i then s
        else if s.fld (aLea d i 0) 12 8 = 15 then
          (s.setFld (aMdw d 0x48) i i 1).raise d i t "LEA_LOST" 0 0
        else
          let s := if last = t then s
            else (s.setFld (aLea d i (0x40 + 4 * n)) 4 0 last).setTileSt d i last 0 n
          let s := (s.setFld (aLea d i (0x40 + 60)) 4 0 0x1F).setFld (aLea d i 0) 12 8 15
          (s.setFld (aMdw d 0x24) i i 1).raise d i t "LEA_DEGRADED" 0 0

end Sys2Proof.Machine
end

