-- ==== Sys2Proof/Machine/TimeUnit.lean ====
section
/-! DEFINITION. The time base and the time unit (R412 to R414): copies of the time base, and IEEE 802.1AS on MAC 0. -/

namespace Sys2Proof.Machine

/-- R412: a die's copy of the time base is realigned from the Vale; it is never moved back. -/
def execTimeBaseRealign (die : Fin 7) (s : State) : Host.Outcome State Fault Refusal :=
  .next { s with tbCopy := writeAt (fun _ => 0) s.tbCopy die (max (readAt (fun _ => 0) s.tbCopy die) s.now) }

/-- R416: STATE of the time unit: 0 FREE_RUN, 1 ACQUIRING, 2 LOCKED, 3 HOLDOVER. -/
def State.tbState (s : State) : Nat := s.fld (aIqm 0x20) 1 0

/-- R414: a change of state, with its event. In FREE_RUN the rate is nominal and the offset 0. -/
def State.setTb (s : State) (st : Nat) : State :=
  let s := if st = 0 then (s.setFld (aIqm 0x20) 31 8 0).setReg (aIqm 0x18) 0 else s
  if s.tbState = st then s else (s.setFld (aIqm 0x20) 1 0 st).raise 4 0 0x1F "TB_STATE" st 0

/-- R416: the time unit runs. -/
def State.ptpOn (s : State) : Bool := bit (s.reg (aIqm 0x28)) 0
/-- R416: the path delay is static. -/
def State.ptpStatic (s : State) : Bool := bit (s.reg (aIqm 0x28)) 1
/-- R413: the path delay, where it is known. -/
def State.pathDelay (s : State) : Option Int :=
  if s.ptpStatic then some (s.fld (aIqm 0x28) 31 16) else s.ptp.delay
/-- R413: the receive time stamp of a message that arrives now. -/
def State.rxStamp (s : State) : Nat := s.now - s.fld (aIqm 0x2C) 15 0
/-- R413: the transmit time stamp of a message that leaves now. -/
def State.txStamp (s : State) : Nat := s.now + s.fld (aIqm 0x2C) 31 16

/-- A free value read as the correction of the rate servo (R414). -/
def useRate : Nat := 4
/-- A free value read as a residual that its register cannot hold (R416). -/
def useResid : Nat := 5

/-- R412, R414: the rate servo runs: RATE is what its control law gives, within ±100 ppm. The spec gives no law. -/
def State.servo (s : State) : State :=
  let (v, s) := s.draw useRate
  s.setFld (aIqm 0x20) 31 8 (wrap 24 ((v % 200001 : Nat) - 100000 : Int))

/-- R416: IQM_TB_RESID: the spec states none for a residual outside 32 bits. -/
def State.showResid (s : State) (r : Int) : State :=
  if -(2 ^ 31) ≤ r ∧ r < 2 ^ 31 then s.setReg (aIqm 0x24) (wrap 32 r)
  else
    let (v, s) := s.draw useResid
    s.setReg (aIqm 0x24) (v % 2 ^ 32)

/-- The offset of R412 moved by `d`. -/
def State.moveOffset (s : State) (d : Int) : State := s.setReg (aIqm 0x18) (wrap 64 (sext 64 (s.reg (aIqm 0x18)) + d))

/-- R414: a complete Sync: `time` is the IEEE 802.1AS time that it carries, without the path delay, and `rx` its receive time
stamp. -/
def State.syncDone (s : State) (time : Int) (rx : Nat) : State :=
  match s.pathDelay with
  | none => s
  | some delay =>
    let r := time + delay - ((rx : Int) + sext 64 (s.reg (aIqm 0x18)))
    let s := s.showResid r
    let acquire := fun (s : State) => (({ s with ptp := { s.ptp with good := 0 } }).moveOffset r).setTb 1 |>.servo
    let close := decide (-500 ≤ r) && decide (r ≤ 500)
    match s.tbState with
    | 0 => acquire s
    | 1 =>
      let n := if close then s.ptp.good + 1 else 0
      let s := ({ s with ptp := { s.ptp with good := n } }).servo
      if 8 ≤ n then s.setTb 2 else s
    | 2 => if r < -10000 ∨ 10000 < r then acquire s else (s.moveOffset (max (-100) (min 100 r))).servo
    | _ => if close then s.setTb 2 else acquire s

/-- R413: the nanoseconds of a logMessageInterval from −5 to 0, none outside. -/
def intervalNs (i : Int) : Option Nat := if -5 ≤ i ∧ i ≤ 0 then some (1000000000 / 2 ^ (-i).toNat) else none

/-- R413, R414: a Sync arrives. `origin` is its origin time stamp in ns, `correction` its correction field. A two-step Sync
waits for its Follow_Up. -/
def execPtpSync (twoStep : Bool) (seq : BitVec 16) (interval : BitVec 8) (origin : Nat) (correction : Int) (s : State) :
    Host.Outcome State Fault Refusal :=
  .next <| s.live <|
    match intervalNs interval.toInt with
    | none => s
    | some n =>
      if !s.ptpOn then s
      else
        let wait := if twoStep then some (seq.toNat, s.rxStamp) else none
        let s := { s with ptp := { s.ptp with syncAt := s.now, interval := n, waiting := wait } }
        if twoStep then s else s.syncDone (origin + correction) s.rxStamp

/-- R413: the Follow_Up of the two-step Sync that waits. -/
def execPtpFollowUp (seq : BitVec 16) (origin : Nat) (correction : Int) (s : State) : Host.Outcome State Fault Refusal :=
  .next <| s.live <|
    match s.ptp.waiting with
    | some (q, rx) =>
      if s.ptpOn ∧ q = seq.toNat then
        ({ s with ptp := { s.ptp with waiting := none } }).syncDone (origin + correction) rx
      else s
    | none => s

/-- R413: the partner's Pdelay_Req is answered with its receive time and the answer's transmit time. -/
def execPtpPdelayReq (seq : BitVec 16) (s : State) : Host.Outcome State Fault Refusal :=
  .next <| s.live (if s.ptpOn then { s with ptp := { s.ptp with answered := some (seq.toNat, s.rxStamp, s.txStamp) } } else s)

/-- R413: a Pdelay_Req is sent, once per second. -/
def execPtpPdelayReqSend (s : State) : Host.Outcome State Fault Refusal :=
  .next <| s.live <|
    let due := match s.ptp.reqAt with
      | none => true
      | some t => decide (t + 1000000000 ≤ s.now)
    if !s.ptpOn || s.ptpStatic || !due then s
    else { s with ptp := { s.ptp with
      request := some (s.ptp.reqSeq, s.txStamp), reqSeq := (s.ptp.reqSeq + 1) % 0x10000, reqAt := some s.now } }

/-- R413: the answer to our Pdelay_Req, with the partner's receive and transmit times: the neighbour rate ratio from two
answers, and the path delay. -/
def execPtpPdelayResp (seq : BitVec 16) (received sent : Nat) (s : State) : Host.Outcome State Fault Refusal :=
  .next <| s.live <|
    match s.ptp.request with
    | some (q, t1) =>
      if !s.ptpOn || decide (q ≠ seq.toNat) then s
      else
        let t4 := s.rxStamp
        let ratio := match s.ptp.lastResp with
          | some (p, o) => if p < sent ∧ o < t4 then (sent - p, t4 - o) else s.ptp.ratio
          | none => s.ptp.ratio
        let mine := ((t4 : Int) - t1) * ratio.1 / ratio.2
        let delay := (mine - ((sent : Int) - received)) / 2
        { s with ptp := { s.ptp with request := none, ratio := ratio, lastResp := some (sent, t4), delay := some delay } }
    | none => s

/-- R413: Announce and Signaling messages are discarded. -/
def execPtpAnnounceDiscard (s : State) : Host.Outcome State Fault Refusal := .next s

/-- R414: no Sync for four intervals. -/
def execPtpSyncTimeout (s : State) : Host.Outcome State Fault Refusal :=
  .next <| s.live <|
    if s.now ≤ s.ptp.syncAt + 4 * s.ptp.interval then s
    else match s.tbState with
      | 1 => s.setTb 0
      | 2 => ({ s with ptp := { s.ptp with holdAt := s.now } }).setTb 3
      | _ => s

/-- R414: HOLDOVER has lasted HOLD_S s. -/
def execHoldoverExpiry (s : State) : Host.Outcome State Fault Refusal :=
  .next <| s.live <|
    if s.tbState = 3 ∧ s.ptp.holdAt + s.fld (aIqm 0x28) 15 8 * 1000000000 < s.now then s.setTb 0 else s

end Sys2Proof.Machine
end

