-- ==== Sys2Proof/Machine/Resets.lean ====
section
/-! DEFINITION. Resets (R336, R366, R419, R439, R445, R446, R538, R539, R558): what a Meadow, the Vale, a Heath or the whole
module keeps, the fault record's way into a restarting die (R459), and the restarts that the Heaths drive. -/

namespace Sys2Proof.Machine

/-! ## What a reset clears -/

/-- The address lies in the register range of a die. -/
def inDie (die a : Nat) : Bool := decide (dieBase die ≤ a) && decide (a < dieBase die + 0x10000000)

/-- R109, R246, R315, R336, R464: a register of a Meadow that its own reset leaves: its DRAM controller, mismatch counts and
times, ageing, trips, and what the configuration block loaded into its flow regulator. -/
def keptByMeadow (a : Nat) : Bool :=
  match blockAt a with
  | some b =>
    let o := a - blockBase b
    match b with
    | .dmc _ => true
    | .til _ _ _ => decide (o = 0x18) || (decide (0x20 ≤ o) && decide (o < 0x38))
    | .gln _ _ => decide (o = 0x0C) || (decide (0x20 ≤ o) && decide (o < 0x38))
    | .pra _ => decide (o = 0x58) || (decide (0x60 ≤ o) && decide (o < 0x78))
    | .mdw _ => decide (o = 0x40)
    | .flr _ => decide (o = 8) || (decide (0x100 ≤ o) && decide (o % 0x100 < 0x20))
    | .pwrDie _ => decide (o = 0x14)
    | _ => false
  | none => false

/-- R560, R506, R508: a register of the Vale that shows fuses, pins or inputs, which no reset changes. -/
def keptByVale (a : Nat) : Bool :=
  decide (a = aSec 0x10) || decide (a = aSec 0x18) || decide (a = aVal 0x220)

/-- The registers that `keep` does not pick return to their reset values. -/
def State.clearRegs (s : State) (keep : Nat → Bool) : State := { s with regs := s.regs.filter fun e => keep e.1 }

/-- The die of a memory macro. -/
def macroDie (m : Nat) : Nat := (macroPlace m).1

/-- R464, R548: a die's reset leaves of its power controller the ageing and whether it tripped. -/
def State.powerReset (s : State) (die : Nat) : State :=
  let p := s.diePw die
  s.setDiePw die { diePowerFresh with
    tripped := p.tripped, slacks := p.slacks, measuredAt := p.measuredAt, steps := p.steps, stepAt := p.stepAt }

/-- R355: the address is FDL_STATE of a port that is DISABLED, which only module reset ends. -/
def State.linkOff (s : State) (a : Nat) : Bool :=
  (List.range 7).any fun die => (List.range 6).any fun q => decide (a = aFdl die q 0) && decide (s.linkState die q = 7)

/-- R355: a die's ports at its reset: what they hold is gone; a module disabled stays so until module reset (R361). -/
def State.portsReset (s : State) (die : Nat) : State :=
  (List.range 6).foldl (fun s q => s.setPort die q { portFresh with modsOff := (s.port die q).modsOff }) s

/-- R355, R361: module reset ends what only it ends at the ports of a die: DISABLED, and the modules disabled. A Heath, which runs
on, negotiates again. -/
def State.portsFreed (s : State) (die : Nat) : State :=
  (List.range 6).foldl (fun s q =>
    let s := s.setPort die q { s.port die q with modsOff := 0 }
    if s.linkState die q ≠ 7 then s
    else
      let s := s.setReg (aFdl die q 0) 0
      if (s.dieSt die).out then s.startNegotiate die q else s) s

/-- R355, R366, R445: a Meadow enters reset: its registers, slots, tiles, leas, engines, ports, collector and power controller.
Its stack keeps its contents where it is in self-refresh. -/
def State.meadowReset (s : State) (d : Nat) : State :=
  let x := s.dieSt d
  let kept := decide (s.fld (aDmc d 0) 2 0 = 3)
  let s := s.clearRegs fun a => !inDie d a || keptByMeadow a || s.linkOff a
  let s := s.powerReset d
  let s := s.setDram d { s.dramOf d with reads := [] }
  let s := { s with
    slots := s.slots.filter fun e => decide (slotDie e.1 ≠ d)
    tiles := s.tiles.filter fun e => decide (e.1 / (17 * 16) ≠ d)
    leas := s.leas.filter fun e => decide (e.1 / 16 ≠ d)
    posts := s.posts.filter fun e => decide (slotDie e.slot ≠ d)
    sched := { s.sched with outbox := s.sched.outbox.filter fun r => decide (r.die ≠ d) }
    collectors := s.collectors.filter fun e => decide (e.1 ≠ d)
    flr := { s.flr with levels := s.flr.levels.filter fun e => decide (e.1 / 4 ≠ d) }
    procs := s.procs.filter fun e => !(decide (0x40 ≤ e.1) && decide ((e.1 - 0x40) / 16 = d))
    rowsUsed := s.rowsUsed.filter fun e => decide (macroDie e.1 ≠ d) }
  let s := s.portsReset d
  s.setDie d { dieFresh with
    wire := x.wire, wireUntil := x.wireUntil, heldDown := x.heldDown, restarts := x.restarts, stackKept := kept }

/-- The Vale enters reset: its registers and everything it holds. The pins, the fuses and VAL_FREEZE [4:1] stay (R476), and so does
HELD of a Col port, which only module reset ends (R511). -/
def State.valeClear (s : State) : State :=
  let freeze := s.fld (aVal 0x104) 4 1
  let life := s.fld (aSec 0) 3 2
  let inputs := s.fld (aPwr 0) 1 0
  let x := s.dieSt 4
  let held := (List.range 4).filter fun p => decide (s.colState p = colHeld)
  let s := s.clearRegs fun a => !inDie 4 a || keptByVale a || s.linkOff a
  let s := held.foldl (fun s p => s.setColState p colHeld) s
  let s := ((s.setFld (aVal 0x104) 4 1 freeze).setFld (aSec 0) 3 2 life).setFld (aPwr 0) 1 0 inputs
  let s := s.clearMem fun a => decide (0x001040000000 ≤ a) && decide (a < 0x001043000000)
  let s := s.portsReset 4
  let s := s.setDie 4 { dieFresh with wire := x.wire, wireUntil := x.wireUntil }
  { s with
    sched := schedFresh
    kv := kvFresh
    prairie := { prairieFresh with records := s.prairie.records.map fun x => { x with cmd := ⟨3, 0⟩ } }
    posts := []
    queues := []
    iqm := iqmFresh
    ptp := ptpFresh
    fwRules := []
    fwLocked := false
    domain := none
    domains := []
    sipKey := 0
    collectors := s.collectors.filter fun e => decide (e.1 ≠ 4)
    flr := { s.flr with levels := s.flr.levels.filter fun e => decide (e.1 / 4 ≠ 4) }
    procs := s.procs.filter fun e => decide (3 ≤ e.1)
    boot := bootFresh
    power := { s.power with samples := [], reports := [], sent := [], hotSince := none, coolantBad := false, coolantAt := none, budgetAt := none }
    host := { hostPortsFresh with sgmii := s.host.sgmii }
    col := colFresh }

/-- R423: a restart that the Heaths drive: a held mode of DRIVE stays. -/
def State.holdDrive (s : State) : State :=
  (List.range 2).foldl (fun s h =>
    let x := s.heath h
    if x.up && decide (s.fld (aHt h 0x10) 4 2 = 1) then s.setHeath h { x with hold := true } else s) s

/-- R336, R475, R558: module reset: everything outside the Heaths, the flash and the fuses. The stacks are trained again and hold
nothing. -/
def State.moduleReset (s : State) : State :=
  let s := s.holdDrive
  let s := (List.range 4).foldl (fun s d => s.meadowReset d) s.valeClear
  let s := s.clearRegs fun a => !((List.range 4).any fun d => inDie d a) || decide (a % 0x10000000 = 0x40)
  let s := (List.range 4).foldl (fun s p => s.setColState p 0) s
  let thawed := s.frozen
  let s := (s.clearMem fun _ => true)
  let s := (List.range 5).foldl (fun s d => s.setDie d { s.dieSt d with stackKept := false }) s
  let x : State := { s with
    past := s.past + s.now
    now := 0
    frozen := false
    dram := []
    tbCopy := []
    flr := flrFresh
    rowsUsed := []
    debugPort := debugFresh }
  let x := (List.range 7).foldl (fun s die => s.portsFreed die) x
  if thawed then x.setFld (aVal 0x104) 4 4 0 else x

/-- R419, R447, R450: a Heath enters reset: its registers, its state, its ports. `before` says whether it has run. -/
def State.heathReset (s : State) (h : Nat) (before : Bool) : State :=
  let s := s.clearRegs fun a => !inDie (5 + h) a || s.linkOff a
  let s := s.setHeath h { heathFresh with before := before }
  let s : State := { s with host := { s.host with sgmii := s.host.sgmii.set h false } }
  let s := s.portsReset (5 + h)
  (s.setDie (5 + h) dieFresh).powerReset (5 + h)

/-! ## The fault record on its way into a die (R458, R459) -/

/-- R458: the bytes of an entry. -/
def FrecEntry.bytes (e : FrecEntry) : List Byte :=
  let w := wordBytes [e.type + e.die % 16 * 2 ^ 8 + e.unit % 256 * 2 ^ 12, e.seq, e.value, e.time]
  w ++ wordBytes [0, 0, 0] ++ leBytes 8 (crc32c w)

/-- R458: the item that two entries have in common, so that the later one replaces the earlier. -/
def FrecEntry.same (a b : FrecEntry) : Bool :=
  decide (a.type = b.type) && decide (a.die = b.die) && decide (a.unit = b.unit) &&
    ([3, 7, 8, 9, 0x0A].contains a.type || decide (a.value = b.value))

/-- R458: the current record: of each item its newest entry, in the order of SEQ. -/
def frecRecord : List FrecEntry → List FrecEntry
  | [] => []
  | e :: t => if t.any (fun x => e.same x) then frecRecord t else e :: frecRecord t

/-- R458: the SEQ of the last good entry. -/
def FrecCopy.lastSeq (c : FrecCopy) : Nat := c.entries.foldl (fun m e => max m e.seq) 0

/-- R459: the Heath can deliver to the die: it runs, and their link carries VC3. -/
def State.frecReaches (s : State) (h die : Nat) : Bool :=
  (s.heath h).up && match portTo (5 + h) die with
    | some p => s.linkUp (5 + h) p && s.heathLinked die h
    | none => false

/-- R459: the Heath whose copy is used: the one that can deliver, and of two the one with the higher SEQ. -/
def State.frecSource (s : State) (die : Nat) : Option Nat :=
  let l := (List.range 2).filter fun h => s.frecReaches h die
  if l = [0, 1] then some (if (s.frecCopy 0).lastSeq < (s.frecCopy 1).lastSeq then 1 else 0) else l.head?

/-- R458: a DRAM mark or failed pseudo-channel applied to its controller (R336). -/
def State.applyMark (s : State) (d v : Nat) : State :=
  let p := bits v 4 0
  if bit v 11 then s.setFld (aDmc d 0x0C) p p 1
  else
    let a := aDmc d (0x100 + 8 * p)
    s.setReg a (s.reg a ||| 2 ^ bits v 10 5)

/-- R458: a run-time repair of a link, or a disabled module, applied: VALUE holds the port, the module and the lane. -/
def State.applyRepair (s : State) (d v : Nat) : State :=
  let p := bits v 2 0
  let m := bits v 5 3
  if bit v 12 then
    let x := s.port d p
    if bit x.modsOff m then s else s.setPort d p { x with modsOff := x.modsOff + 2 ^ m }
  else
    let a := aFdl d p (0x40 + 4 * m)
    match (List.range 4).find? fun k => !bit (s.reg a) (8 * k + 7) with
    | some k => s.setFld a (8 * k + 7) (8 * k) (bits v 11 6 + 0xC0)
    | none => s

/-- R104, R466: the map of a lea whose retired tiles are known at its start: each logical tile on its own physical tile or, where
that is retired, on one that is left; with two retired, logical tile 15 is unserved; with more, the lea is lost. -/
def State.applyRetired (s : State) (d l : Nat) : State :=
  let gone := (List.range 17).filter fun t => s.tileRetired d l t
  if gone.isEmpty then s
  else
    let n := 16 - (gone.length - 1)
    let spare := ((List.range 17).drop (min n 16)).filter fun t => !gone.contains t
    let s := gone.foldl (fun s t => s.setTileSt d l t 4 0) s
    let s := ((List.range 16).foldl (fun (r : State × List Nat) i =>
      let (s, free) := r
      let put := fun (s : State) (t : Nat) => (s.setFld (aLea d l (0x40 + 4 * i)) 4 0 t).setTileSt d l t 0 i
      if n ≤ i then (s.setFld (aLea d l (0x40 + 4 * i)) 4 0 0x1F, free)
      else if !gone.contains i then (put s i, free)
      else match free with
        | t :: rest => (put s t, rest)
        | [] => (s.setFld (aLea d l (0x40 + 4 * i)) 4 0 0x1F, [])) (s, spare)).1
    let s := (((s.setFld (aLea d l 0) 4 0 0x1F).setFreeState d l 3).setFld (aMdw d 0x20) l l 0).setFld (aLea d l 0) 12 8 (max n 15)
    let s := if n < 16 then s.setFld (aMdw d 0x24) l l 1 else s
    if n < 15 then s.setFld (aMdw d 0x48) l l 1 else s

/-- R464, R543: the ageing steps of a die: its register, and a Meadow's set-point. -/
def State.setSteps (s : State) (die n : Nat) : State :=
  let s := s.setDiePw die { s.diePw die with steps := n }
  if die < 4 then
    let base := match s.fld (aMdw die 0x10) 1 0 with | 0 => 800 | 1 => 720 | _ => 620
    (s.setFld (aMdw die 0x40) 3 0 n).setReg (aPwrDie die 0x10) (base + 5 * n)
  else s

/-- R458, R366: an entry applied to the die it names. -/
def State.applyEntry (s : State) (die : Nat) (e : FrecEntry) : State :=
  if e.die ≠ die then s
  else if die < 4 then
    match e.type with
    | 0x01 => s.setFld (aLea die (bits e.value 3 0) 0x04) (bits e.value 8 4) (bits e.value 8 4) 1
    | 0x02 =>
      let m := e.value / 2 ^ 32
      { s with rowsUsed := writeAt (fun _ => 0) s.rowsUsed m (readAt (fun _ => 0) s.rowsUsed m + 1) }
    | 0x03 => (s.setReg (aDmc die 0x08) (e.value % 2 ^ 32)).setFld (aDmc die 0) 6 5 (e.value / 2 ^ 32)
    | 0x04 => s.applyMark die e.value
    | 0x05 => s.applyRepair die e.value
    | 0x07 => s.setSteps die e.value
    | 0x09 => if e.unit = 0x10 then s.setFld (aPra die 0) 2 2 1 else s.setFld (aGln die e.unit 0) 2 2 1
    | _ => s
  else
    match e.type with
    | 0x05 => s.applyRepair 4 e.value
    | 0x06 =>
      let a := aCol (0x100 + 0x40 * e.unit)
      let c := readAt (fun _ => colPortFresh) s.col.ports e.unit
      let s := { s with col := { s.col with ports := writeAt (fun _ => colPortFresh) s.col.ports e.unit { c with failed := true } } }
      (s.setFld a 4 3 e.value).setFld a 5 5 1
    | 0x07 => s.setSteps 4 e.value
    | 0x0A => s.setReg (aVal 0x100) (s.reg (aVal 0x100) ||| e.value)
    | _ => s

/-- R459, R336: RESTORE: entry `index` of the record arrives in the die's restore registers. With the last one the record is
complete; the layer map and the marks apply at once, the rest of a Meadow's as its restore ends. A record without an entry is
delivered as its end alone. -/
def execRestore (h : Fin 2) (die : Fin 5) (index : Fin 8192) (s : State) : Host.Outcome State Fault Refusal :=
  .next <| s.live <|
    let d := die.val
    let x := s.dieSt d
    let r := frecRecord (s.frecCopy h).entries
    if !x.out || x.complete || x.factory || x.restored || decide (s.frecSource d ≠ some h.val) || decide (index.val ≠ x.entries.length) then s
    else
      let got := match r[index.val]? with
        | some e => [(index.val, e.bytes)]
        | none => []
      let done := decide (r.length ≤ index.val + 1)
      let s := s.setDie d { x with entries := x.entries ++ got, complete := done }
      if !done then s
      else if d = 4 then
        let s := r.foldl (fun s e => s.applyEntry 4 e) s
        (s.setReg (aVal 0x108) (1 + (h.val + 1) * 2)).setDie 4 { s.dieSt 4 with restored := true }
      else (r.filter fun e => decide (e.type = 3) || decide (e.type = 4)).foldl (fun s e => s.applyEntry d e) s

/-- R459: a die has waited 20 ms for its record: it starts from its factory state. -/
def execFaultRecordTimeout (die : Fin 5) (s : State) : Host.Outcome State Fault Refusal :=
  .next <| s.live <|
    let x := s.dieSt die
    if !x.out || x.complete || x.factory || x.restored || decide (s.clock ≤ x.outAt + 20000000) then s
    else (s.setDie die { x with factory := true, restored := decide (die.val = 4) }).raise die 0 0x1F "FREC_MISSING" 0 0

/-- R458: an entry parsed from its bytes. -/
def frecParse (b : List Byte) : FrecEntry :=
  let w := fun (i : Nat) => leNat ((b.drop (8 * i)).take 8)
  ⟨bits (w 0) 7 0, bits (w 0) 11 8, bits (w 0) 19 12, w 1, w 2, w 3⟩

/-- R460, R461, R467: the self-tests of a start: a tile that fails is retired, every other counts as tested now; an engine that
fails leaves all selection. -/
def State.startTests (s : State) (d : Nat) (badTiles : List (Nat × Nat)) (badEngines : List Nat) : State :=
  let s := badTiles.foldl (fun s e =>
    if s.tileRetired d e.1 e.2 then s
    else
      let s := ((s.count32 (aLea d e.1 0x84)).raise d e.1 e.2 "TIL_SELFTEST_FAIL" 0 0).setFld (aLea d e.1 0x04) e.2 e.2 1
      ((s.raise d e.1 e.2 "TIL_RETIRED" 0 0).frecNote 0x01 d e.1 (e.1 + e.2 * 16)).replaceReq 0) s
  let s := (List.range 16).foldl (fun s l => (s.applyRetired d l).showRows d l) s
  let s := (List.range 272).foldl (fun s i =>
    if s.tileRetired d (i / 17) (i % 17) then s
    else s.setTile (tileKey d (i / 17) (i % 17)) { s.tile (tileKey d (i / 17) (i % 17)) with lastTest := s.now }) s
  s.setDie d { s.dieSt d with enginesOut := badEngines }

/-- R366, R445: a Meadow's restore ends: its SRAM is clear, its record is applied, its self-tests are over, and its stack is out of
self-refresh or zeroed. Its ring and Vale links that wait in TRAIN go to STANDBY. -/
def execMeadowRestoreComplete (die : Fin 4) (badTiles : List (Fin 16 × Fin 17)) (badEngines : List (Fin 17)) (s : State) :
    Host.Outcome State Fault Refusal :=
  .next <| s.live <|
    let d := die.val
    let x := s.dieSt d
    if !x.out || x.restored || !(x.complete || x.factory) then s
    else
      let s := s.clearMem fun a => decide (poolBase d 0 ≤ a) && decide (a < poolBase d 0 + 0x10000000)
      let s := if x.complete then x.entries.foldl (fun s e => s.applyEntry d (frecParse e.2)) s else s
      let s := s.startTests d (badTiles.map fun e => (e.1.val, e.2.val)) (badEngines.map fun (e : Fin 17) => e.val)
      let s := if x.stackKept then s
        else s.clearMem fun a => decide (a < 0x001000000000) && decide ((s.stackOf a).1 = d)
      let s := if s.fld (aDmc d 0) 2 0 = 3 then s.setFld (aDmc d 0) 2 0 2 else s
      let s := s.setDie d { s.dieSt d with restored := true, entries := [] }
      let release := fun (s : State) (e q : Nat) => if (s.port e q).trained && !s.waitsRestore e (facing e q) then s.standby e q else s
      (List.range 5).foldl (fun s q =>
        let o := facing d q
        match portTo o d with
        | some r => release (release s d q) o r
        | none => s) s

/-! ## Leaving reset (R355, R366, R538, R558) -/

/-- R501, R538, R539, R548: nothing holds the die in reset. -/
def State.mayLeave (s : State) (d : Nat) : Bool :=
  let x := s.dieSt d
  let cool := !(s.diePw d).tripped
  !x.out && cool &&
    if d < 5 then !x.wire && !x.heldDown && decide (s.boot.phase ≠ 0) && s.power.mainOk && !s.power.resetLow
    else s.power.auxOk && decide (s.power.auxAt + 12000000 ≤ s.clock)

/-- R336, R355, R362, R366: a die is out of reset: it sends HELLO on every port, the repairs made at assembly are applied, its ports
negotiate, and an untrained stack of it is trained. A port that is DISABLED stays quiet. -/
def State.leaveReset (s : State) (d : Nat) : State :=
  let s := (s.setDie d { s.dieSt d with out := true, outAt := s.clock }).factoryRepairs d
  let s := if d < 4 ∧ s.fld (aDmc d 0) 2 0 = 0 then s.setFld (aDmc d 0) 2 0 1 else s
  (List.range (if d = 4 then 6 else 5)).foldl (fun s q =>
    if s.linkState d q = 0 then (s.sideSend d q (3 + s.fld (dieBase d) 31 0 * 2 ^ 16)).startNegotiate d q else s) s

/-- R355, R366: a die's PLLs have locked: it sends HELLO, and its ports leave RESET for NEGOTIATE. -/
def execDieLeavesReset (die : Fin 7) (s : State) : Host.Outcome State Fault Refusal :=
  .next <| s.live <| if s.mayLeave die then s.leaveReset die else s

/-- R459: the Meadows that a Heath's record holds in reset stay there. -/
def State.keepHeld (s : State) (h : Nat) : State :=
  (frecRecord (s.frecCopy h).entries).foldl (fun s e =>
    if e.type = 8 ∧ e.die < 4 ∧ e.value = 1 ∧ ¬ (s.dieSt e.die).heldDown then
      (s.meadowReset e.die).setDie e.die { (s.meadowReset e.die).dieSt e.die with wire := true, heldDown := true }
    else s) s

/-- R538: each Heath leaves reset 12 ms after the auxiliary input came into range. -/
def execHeathResetRelease (s : State) : Host.Outcome State Fault Refusal :=
  .next <|
    (List.range 2).foldl (fun s h => if s.mayLeave (5 + h) then (s.leaveReset (5 + h)).keepHeld h else s) s

/-- R538, R412, R547: the Vale and the Meadows are released; the time base begins. A Vale that tripped stays in reset. -/
def State.release (s : State) : State := if (s.diePw 4).tripped then s else s.updBoot fun b => { b with phase := 1 }

/-- R538: the sequencer may release: both inputs have been in range for 20 ms. -/
def State.inputsSettled (s : State) : Bool :=
  s.power.mainOk && s.power.auxOk && decide (max s.power.mainAt s.power.auxAt + 20000000 ≤ s.clock)

/-- R538: the sequencer releases the Vale and the Meadows 20 ms after the later input came into range. -/
def execSequencerRelease (s : State) : Host.Outcome State Fault Refusal :=
  .next <|
    if s.boot.phase = 0 ∧ s.inputsSettled ∧ ¬ s.power.resetLow ∧ ¬ (s.dieSt 4).wire then s.release else s

/-- R558: the spec leaves open whether a pulse of 500 ns to 1 µs resets the module. -/
def State.resetTaken (s : State) (lowNs : Nat) : Bool × State :=
  if 1000 ≤ lowNs then (true, s)
  else if lowNs < 500 then (false, s)
  else (Config.freeChoice s.free 1, { s with free := s.free + 1 })

/-- R558: RESET_N has been low for `lowNs`. -/
def execResetNAssert (lowNs : Nat) (s : State) : Host.Outcome State Fault Refusal :=
  .next <|
    let (go, s) := s.resetTaken lowNs
    if !go then s
    else
      let s := if s.power.mainOk then s.moduleReset else s
      { s with power := { s.power with resetLow := true } }

/-- R558: RESET_N rises: the boot starts, where both inputs have been in range as R538 says. -/
def execResetNRelease (s : State) : Host.Outcome State Fault Refusal :=
  .next <|
    if !s.power.resetLow then s
    else
      let s := { s with power := { s.power with resetLow := false } }
      if s.inputsSettled && !(s.dieSt 4).wire then s.release else s

/-! ## Restarts driven by the Heaths (R437, R439, R445, R446) -/

/-- R445, R458: a die is held in reset. -/
def State.holdDown (s : State) (h d : Nat) : State :=
  let s := (s.heathEvent h "HT_DIE_HELD" d 0).replaceReq 6
  let s := (s.frecNote 0x08 d 0 1).meadowReset d
  s.setDie d { s.dieSt d with wire := true, heldDown := true }

/-- R472, R539: the Heaths may drive a restart. -/
def State.mayRestart (s : State) : Bool := s.power.mainOk && !s.frozen

/-- R356: the payload of RESET_REQ for a warm restart. -/
def resetPayload : Nat := 4

/-- R445: Heath `h` decides a warm restart of Meadow `d`. The third within 3,600 s holds the die instead. -/
def State.warmRestart (s : State) (h d : Nat) : State :=
  let x := s.dieSt d
  if !s.mayRestart || x.wire || x.heldDown || x.restartAt.isSome then s
  else
    let s := s.count32 (aHt h 0x28)
    let times := (s.clock :: x.restarts).filter fun t => decide (s.clock ≤ t + 3600000000000)
    if 3 ≤ times.length then (s.setDie d { x with restarts := times }).holdDown h d
    else (s.setDie d { x with restarts := times, restartAt := some s.clock }).sideSend (5 + h) d resetPayload

/-- R462: the self-tests in progress end unfinished, and stay pending; their tiles are to be cleared. -/
def State.testsEnd (s : State) : State :=
  (List.range 64).foldl (fun s k =>
    let d := k / 16
    let l := k % 16
    if s.freeState d l ≠ 2 then s
    else
      let f := s.freeTile d l
      ((s.setFreeState d l 1).setTileSt d l f 2 0).setLea k { s.lea k with testing := none, testNext := (s.lea k).testNext ++ [f] }) s

/-- R471, R472, R476: a freeze starts; `src` is 1 FREEZE_N, 2 Heath A, 3 Heath B. The stacks go into self-refresh, the bypasses
close, the Heaths' ports hold STANDBY, and the restarts in progress are abandoned. -/
def State.freeze (s : State) (src : Nat) : State :=
  if s.frozen || decide (s.boot.phase = 0) then s
  else
    let s := (s.runtime 2 src 0).holdDrive
    let s := ((List.range 4).foldl (fun s d => s.selfRefresh d) s).testsEnd
    let s := ((s.setFld (aVal 0x104) 0 0 0).setFld (aVal 0x104) 3 1 src).setFld (aVal 0x104) 4 4 0
    let s := s.updCol fun c => { c with bypass := [true, true] }
    let s := (List.range 2).foldl (fun s h => (List.range 5).foldl (fun s q =>
      if s.linkState (5 + h) q = 4 then s.setLink (5 + h) q 3 else s) s) s
    let s := (List.range 4).foldl (fun s d => s.setDie d { s.dieSt d with restartAt := none }) s
    { s with frozen := true, debugPort := { s.debugPort with frozenAt := s.clock, shifted := [] } }

/-- R446, R470: Heath `h` restarts the Vale and all Meadows: their wires are asserted for 1 ms, each Meadow that can be asked having
put its stack in self-refresh. In REPLAY or SERVICE with FREEZE_ON_FAULT the module freezes instead. -/
def State.valeRestart (s : State) (h : Nat) : State :=
  if !s.mayRestart || (s.dieSt 4).wire then s
  else if bit (s.reg (aVal 0x104)) 5 ∧ (s.fld (aHt h 0x10) 4 2 = 3 ∨ s.fld (aHt h 0x10) 4 2 = 4) then s.freeze (2 + h)
  else
    let s := (s.count32 (aHt h 0x28)).holdDrive
    let s := (List.range 4).foldl (fun s d =>
      if (List.range 2).any fun k => s.linkUp (5 + k) d then s.selfRefresh d else s) s
    let s := (List.range 4).foldl (fun s d => s.meadowReset d) s.valeClear
    (List.range 5).foldl (fun s d =>
      s.setDie d { s.dieSt d with wire := true, wireUntil := s.clock + 1000000, restartAt := none }) s

/-- R363, R445, R548: a Meadow that can still act puts its stack in self-refresh, sends RESET_NOTIFY on every port that carries
flits, and goes into reset. -/
def State.meadowLeaves (s : State) (d : Nat) : State :=
  let told := (List.range 5).filter fun q => s.linkUp d q
  let s := (s.selfRefresh d).meadowReset d
  s.setDie d { s.dieSt d with notified := told }

/-- R445: RESET_REQ on a Heath's port: a Meadow puts its stack in self-refresh and goes into reset. A cold reset of the Vale is a
module reset; the spec gives it no warm one. -/
def execResetReq (p : PortId) (cold : Bool) (s : State) : Host.Outcome State Fault Refusal :=
  .next <| s.live <|
    let d := p.die.val
    let s := if cold then s else s.sideTake d p.port resetPayload
    let st := s.linkState d p.port
    if !portOk p then s
    else if facing d p.port < 5 ∨ 5 ≤ d then s.count32 (aFdl d p.port 0x3C)
    else if st = 0 ∨ 6 ≤ st then s
    else if d < 4 then s.meadowLeaves d
    else if cold then
      (List.range 5).foldl (fun s d => s.setDie d { s.dieSt d with wire := true, wireUntil := s.clock + 1000000 }) s.moduleReset
    else s

/-- R445: no RESET_NOTIFY 100 µs after the decision: the reset wire is asserted for 10 µs. -/
def execResetNotifyTimeout (die : Fin 4) (s : State) : Host.Outcome State Fault Refusal :=
  .next <|
    match (s.dieSt die).restartAt with
    | some t =>
      if !s.mayRestart || decide (s.clock ≤ t + 100000) then s
      else
        let s := s.meadowReset die
        s.setDie die { s.dieSt die with wire := true, wireUntil := s.clock + 10000 }
    | none => s

/-- R445, R446: a reset wire is released after its hold time; those of the Vale and the Meadows together. -/
def execResetWireRelease (die : Fin 5) (s : State) : Host.Outcome State Fault Refusal :=
  .next <|
    let x := s.dieSt die
    if !x.wire || x.heldDown || decide (s.clock < x.wireUntil) || !s.power.mainOk then s
    else if die.val = 4 then
      let s := (List.range 5).foldl (fun s d =>
        if (s.dieSt d).heldDown then s else s.setDie d { s.dieSt d with wire := false }) s
      if s.power.resetLow then s else s.release
    else if (s.dieSt 4).wire then s
    else s.setDie die { x with wire := false }

/-- R439: a Meadow's links to both Heaths have been DOWN for 5 ms without HELLO: a warm restart. -/
def execHelloWaitTimeout (die : Fin 4) (s : State) : Host.Outcome State Fault Refusal :=
  .next <|
    let d := die.val
    let down := s.heathsCut d && (List.range 2).all fun h => decide ((s.port (5 + h) d).downAt + 5000000 < s.clock)
    match (List.range 2).find? fun h => (s.heath h).up && s.drives h with
    | some h => if down && (s.dieSt d).out then s.warmRestart h d else s
    | none => s

end Sys2Proof.Machine
end

