-- ==== Sys2Proof/Machine/RegWrite.lean ====
section
/-! DEFINITION. Writes of registers (R10 to R12): who may write a register, what a write does, and a write or read of any
address from an initiator. -/

namespace Sys2Proof.Machine

/-- The next state of an outcome. -/
def nextOf (o : Host.Outcome State Fault Refusal) (s : State) : State :=
  match o with
  | .next t => t
  | .fault _ => s
  | .refused _ => s

/-- R502: the owner of a mailbox. -/
def boxOwner (m : Nat) : Nat := if m = 0 then initPcieA else initCol

/-- R399, R415: a configuration register of the IQM block, which the security core writes in SERVICE. -/
def iqmConfig (o : Nat) : Bool :=
  [4, 0x28, 0x2C].contains o
    || (decide (0x1000 ≤ o) && decide (o < 0x1200) && decide ((o - 0x1000) % 0x20 = 0))
    || (decide (0x1400 ≤ o) && decide (o < 0x1500) && decide ((o - 0x1400) % 0x40 = 0))
    || (decide (0x8000 ≤ o) && decide (o < 0xC000) && decide ((o - 0x8000) % 0x40 < 0x14))

/-- R386: a register of an FLR block that FLR_BUDGETc, FLR_IQM_URG or FLR_TASK_SELn names. -/
def flrConfig (die o : Nat) : Bool :=
  (decide (die = 4) && decide (o = 0x18)) || (decide (0x40 ≤ o) && decide (o < 0x50))
    || (decide (0x100 ≤ o) && pointExists die ((o - 0x100) / 0x100) && decide (o % 0x100 < 0x20))

/-- R10: a write-only register, which holds nothing. -/
def writeOnly (b : Block) (o : Nat) : Bool :=
  match b with
  | .til _ _ _ | .gln _ _ | .col => decide (o = 0x40)
  | .pra _ => decide (o = 0x40) || decide (o = 0x80)
  | .dmc _ => decide (o = 0x44)
  | .fdl _ | .fdlHeath _ => decide (o % 0x1000 = 0x64) && decide (o / 0x1000 < 5)
  | .fdlVale => decide (o % 0x1000 = 0x64) && decide (o / 0x1000 < 6)
  | .flr _ | .flrVale => decide (o = 0x20)
  | .iqm => decide (o = 0x30)
  | .val | .sch | .sec | .pwr | .lea _ _ | .mdw _ | .pwrDie _ | .ht _ => false

/-- R12, R27: the block defines a register at offset `o`, where one begins. -/
def regDefined (b : Block) (o : Nat) : Bool := (regAt (blockBase b + o)).isSome || writeOnly b o

/-- R30, R44, R108, R109, R204, R246, R266, R298, R315, R344, R367, R386, R399, R415, R450, R476, R502, R533: the firewall
admits a write of the register at offset `o` of a block. A register that no rule reserves to a writer is open: a write of a
read-only one is discarded without error (R10). -/
def State.regMay (s : State) (init : Nat) (b : Block) (o : Nat) : Bool :=
  match b with
  | .val => if o = 0x14 then modeWriter init else if o = 0x104 then decide (init = initSec) && decide (s.mode = 4) else true
  | .sch =>
    if 0x100 ≤ o ∧ o < 0x500 then decide (init = ringOwner ((o - 0x100) / 0x100))
    else if [0x860, 0x864, 0x868].contains o then kvOpOk init else true
  | .sec => if 0x200 ≤ o ∧ o < 0x240 then decide (init = boxOwner ((o - 0x200) / 0x20)) else true
  | .lea d l => if o = 8 then decide (init = initLeaCore d l) else true
  | .til d l _ => if o = 0x40 then decide (init = initLeaCore d l) || isHeath init else if o = 0x44 then isHeath init else true
  | .gln d l => if o = 0x40 then decide (init = initLeaCore d l) || isHeath init else if o = 0x44 then isHeath init else true
  | .pra d =>
    if o = 0x40 then praInvalOk init else if o = 0x80 then praClrOk init d else if o = 0x84 then isHeath init else true
  | .dmc d =>
    if o = 0x18 ∨ o = 0x1C then decide (init = initSec)
    else if o = 0x40 then decide (init = initSec) || isHeath init
    else if o = 0x44 then isLeaCoreOf init d || isHeath init else true
  | .fdl _ | .fdlVale =>
    if o % 0x1000 = 0x64 then fdlClrOk init 0 else if o % 0x1000 = 0x68 then fdlTestOk init 0 else true
  | .flr d => if o = 0x20 then clrWriter init else if flrConfig d o then flrWriter init else true
  | .flrVale => if o = 0x20 then clrWriter init else if flrConfig 4 o then flrWriter init else true
  | .iqm => if o = 0x30 then iqmClears init else if iqmConfig o then decide (init = initSec) && decide (s.mode = 4) else true
  | .col => if o = 0x40 then decide (init = initSec) || isHeath init else true
  | .ht h => decide (o = 0x40) && decide (init = initHeath (1 - h))
  | .fdlHeath h => decide (o % 0x1000 = 0x64) && decide (init = initHeath h)
  | .pwr | .pwrDie _ | .mdw _ => true

/-- R10: a register written by its access code alone. -/
def State.regPlain (s : State) (a v : Nat) : State :=
  match regAt a with
  | some (r, b) => if a = b then s.setReg a (r.written (s.reg a) v) else s
  | none => s

/-- R502, R508: the request register of mailbox `m`: OP and ARG are written, and GO submits the request. Outside SERVICE, and while
the security core restarts, it ends at once; so does a reserved operation. -/
def State.boxWrite (s : State) (m v : Nat) : State :=
  let s := s.setFld (aBox m 0) 7 0 (bits v 7 0)
  let op := bits v 3 0
  if !bit v 31 then s
  else if s.mode ≠ 4 then s.boxEnd m 4 0 0
  else if !s.secRunning then s.boxEnd m 0x10 0 0
  else if op = 0 ∨ 8 < op then s.boxEnd m 0x0F 0 0
  else s.setFld (aBox m 0) 31 31 1

/-- R470, R476: VAL_FREEZE.REQ: the Heath that drives the outputs, else the other one, freezes the module. -/
def State.freezeReq (s : State) (v : Nat) : State :=
  if !bit v 0 then s
  else
    let s := s.setFld (aVal 0x104) 0 0 1
    let on := (List.range 2).filter fun h => (s.heath h).up && s.valeLinked h
    match (on.find? fun h => decide (s.role h = 2)) <|> on.head? with
    | some h => s.freeze (2 + h)
    | none => s

/-- A port of an FDL block. -/
def portAt (die o : Nat) : PortId := ⟨Fin.ofNat 7 die, Fin.ofNat 6 (o / 0x1000)⟩

/-- R105, R247, R316: an INJECT register: ARM arms the injection of TARGET; a reserved TARGET clears ARM at once. -/
def State.injectWrite (s : State) (a v width last : Nat) (arm : Nat → State → State) : State :=
  let t := bits v (width - 1) 0
  if !bit v 31 then s.setFld a (width - 1) 0 t
  else if 1 ≤ t ∧ t ≤ last then arm t s
  else (s.setReg a t).setReg (a + 4) 0

/-- R12, R367, R368: a write in an FDL block of `die`. -/
def State.fdlWrite (s : State) (init die a o v : Nat) : State :=
  let p := portAt die o
  if o % 0x1000 = 0x64 then
    if bit v 0 then nextOf (execFdlCntClrErr (BitVec.ofNat 12 init) p s) s else s
  else if o % 0x1000 = 0x68 then
    let t := bits v 1 0
    if !bit v 31 then s.setFld a 1 0 t
    else if t = 0 then
      if s.mode = 4 then ((s.setFld a 1 0 0).setFld a 31 31 0).setReg (a + 4) 0 else s.setFld a 1 0 0
    else s.fdlTest init p t
  else s

/-- R375, R386, R387: a write in the FLR block of `die`. -/
def State.flrWrite (s : State) (init die a o v : Nat) : State :=
  let i := BitVec.ofNat 12 init
  if o = 0x20 then
    let s := if bit v 0 then nextOf (execFlrCntClrLat i (Fin.ofNat 5 die) s) s else s
    if bit v 1 then nextOf (execFlrCntClrOver i (Fin.ofNat 5 die) s) s else s
  else if o = 0x18 ∧ die = 4 then nextOf (execFlrIqmUrgWrite i (BitVec.ofNat 32 v) s) s
  else if 0x100 ≤ o ∧ o % 0x100 < 0x20 then
    nextOf (execFlrBudgetWrite i (Fin.ofNat 5 die) (Fin.ofNat 5 ((o - 0x100) / 0x100)) (Fin.ofNat 8 (o % 0x100 / 4))
      (BitVec.ofNat 32 v) s) s
  else s.regPlain a v

/-- R415, R416: a write in the IQM block. A reserved value of a field, and HOLD_S 0, leave the field as it is; a time unit
that is switched off falls to FREE_RUN. -/
def State.iqmWrite (s : State) (init a o v : Nat) : State :=
  let i := BitVec.ofNat 12 init
  if o = 0x30 then
    let s := if bit v 0 then nextOf (execIqmCntClrPort i s) s else s
    if bit v 1 then nextOf (execIqmCntClrQueue i s) s else s
  else if o = 0x28 then
    let v := if bits v 15 8 = 0 then setBits v 15 8 (s.fld a 15 8) else v
    let s := s.regPlain a v
    if bit v 0 then s else s.setTb 0
  else if 0x1000 ≤ o ∧ o < 0x1500 ∧ iqmConfig o then
    s.regPlain a (if bits v 2 1 = 3 then setBits v 2 1 (s.fld a 2 1) else v)
  else if 0x8000 ≤ o ∧ iqmConfig o then
    nextOf (execIqmQueueConfigWrite i (Fin.ofNat 256 ((o - 0x8000) / 0x40)) (Fin.ofNat 5 (o % 0x40 / 4)) (BitVec.ofNat 32 v) s) s
  else s.regPlain a v

/-- R205, R218, R219, R266, R267: a write in the SCH block; the operands of a KV request stand while its GO is 1. -/
def State.schWrite (s : State) (init a o v : Nat) : State :=
  if 0x100 ≤ o ∧ o < 0x500 then
    let set := (o - 0x100) / 0x100
    let r := o % 0x100
    if r = 0x18 then
      if bit v 0 then s.ringEnable set v
      else nextOf (execRingDisable (BitVec.ofNat 12 init) (Fin.ofNat 4 set) (BitVec.ofNat 32 v) s) s
    else if r = 0x20 then s.ringIndex set 0 r v
    else if r = 0x2C then s.ringIndex set 1 r v
    else if r = 0x34 then s.ringIndex set 2 r v
    else if r < 0x18 ∧ s.ringEn set then s
    else s.regPlain a v
  else if o = 0x860 then s.kvRequest v
  else if (o = 0x864 ∨ o = 0x868) ∧ bit (s.reg (aSch 0x860)) 31 then s
  else s.regPlain a v

/-- A lea. -/
def leaAt (d l : Nat) : LeaId := ⟨Fin.ofNat 4 d, Fin.ofNat 16 l⟩

/-- R10 to R12: what an admitted write of `v` to the register at `a` does, which stands at offset `o` of a block. -/
def State.regEffect (s : State) (init : Nat) (b : Block) (a o v : Nat) : State :=
  let i := BitVec.ofNat 12 init
  match b with
  | .val => if o = 0x14 then s.modeRequest init v else if o = 0x104 then s.freezeReq v else s.regPlain a v
  | .sch => s.schWrite init a o v
  | .sec =>
    let m := (o - 0x200) / 0x20
    if o < 0x200 ∨ 2 ≤ m then s
    else if bit (s.reg (aBox m 0)) 31 then s
    else if o = 0x200 + 0x20 * m then s.boxWrite m v else s.regPlain a v
  | .lea d l => if o = 8 then nextOf (execLeaSwap i (leaAt d l) (BitVec.ofNat 32 v) s) s else s
  | .til d l t =>
    let x : TileId := ⟨Fin.ofNat 4 d, Fin.ofNat 16 l, Fin.ofNat 17 t⟩
    if o = 0x40 then
      let s := if bit v 0 then nextOf (execTilCntClrEcc i x s) s else s
      if bit v 1 then nextOf (execTilCntClrSkip i x s) s else s
    else if o = 0x44 then s.injectWrite a v 3 5 fun t s => s.arm init x t
    else s
  | .gln d l =>
    let x := leaAt d l
    if o = 0x40 then
      let s := if bit v 0 then nextOf (execGlnCntClrEcc i x s) s else s
      let s := if bit v 1 then nextOf (execGlnCntClrSkip i x s) s else s
      if bit v 2 then nextOf (execGlnCntClrUse i x s) s else s
    else if o = 0x44 then s.injectWrite a v 2 3 fun t s => s.glnArm init x t
    else s
  | .pra d =>
    let x := Fin.ofNat 4 d
    if o = 0x40 then
      let s := if bit v 0 then s.praInval d 0 else s
      if bit v 1 then s.praInval d 1 else s
    else if o = 0x80 then
      let s := if bit v 0 then nextOf (execPraCntClrEcc i x s) s else s
      if bit v 1 then nextOf (execPraCntClrUse i x s) s else s
    else if o = 0x84 then s.injectWrite a v 2 3 fun t s => s.praArm init d t
    else s
  | .dmc d =>
    let x := Fin.ofNat 4 d
    if o = 0x18 then nextOf (execDmcRhThreshWrite i x (BitVec.ofNat 32 v) s) s
    else if o = 0x40 then nextOf (execDmcRetire i x (BitVec.ofNat 32 v) s) s
    else if o = 0x44 then if bit v 0 then nextOf (execDmcCntClrErr i x s) s else s
    else s.regPlain a v
  | .fdl d => s.fdlWrite init d a o v
  | .fdlVale => s.fdlWrite init 4 a o v
  | .fdlHeath h => s.fdlWrite init (5 + h) a o v
  | .flr d => s.flrWrite init d a o v
  | .flrVale => s.flrWrite init 4 a o v
  | .iqm => s.iqmWrite init a o v
  | .col => if o = 0x40 then if bit v 0 then nextOf (execColCntClrErr i s) s else s else s
  | .ht _ => s.regPlain a v
  | .pwr | .pwrDie _ | .mdw _ => s

/-! ## Writes and reads from an initiator -/

/-- The register, or the 4 bytes without one, that hold the byte at `a`: the first byte and their number. -/
def regSpan (a : Nat) : Nat × Nat :=
  match regAt a with
  | some (r, b) => (b, r.bytes)
  | none => (a / 4 * 4, 4)

/-- The parts of a write of `bs` at `a`, register by register. -/
def regParts : Nat → Nat → List Byte → List (Nat × List Byte)
  | 0, _, _ => []
  | f + 1, a, bs =>
    if bs.isEmpty then []
    else
      let (b, w) := regSpan a
      let n := b + w - a
      (a, bs.take n) :: regParts f (a + n) (bs.drop n)

/-- R10: the value that a write of the bytes `bs` at `a` gives its register: bytes not written keep what software wrote, and
trigger, set and clear nothing. -/
def State.regValue (s : State) (a : Nat) (bs : List Byte) : Nat :=
  let b := (regSpan a).1
  let keep := match regAt b with
    | some (r, _) => s.reg b &&& r.rw
    | none => 0
  let off := 8 * (a - b)
  let mask := (2 ^ (8 * bs.length) - 1) <<< off
  (keep - (keep &&& mask)) ||| (leNat bs <<< off)

/-- R10 to R12, R27, R30: a write of the bytes `bs` to registers of block `b`: its status and the state after it. An offset that the block
does not define is discarded without error, but by a Heath's firewall. -/
def State.regWrite (s : State) (init : Nat) (b : Block) (a : Nat) (bs : List Byte) : Nat × State :=
  let parts := regParts (bs.length + 1) a bs
  let off := fun (p : Nat × List Byte) => (regSpan p.1).1 - blockBase b
  let guarded := match b with
    | .ht _ | .fdlHeath _ => true
    | _ => false
  if !parts.all (fun p => (!guarded && !regDefined b (off p)) || s.regMay init b (off p)) then (4, s)
  else if !s.targetUp a then (8, s)
  else (0, parts.foldl (fun s p =>
    if regDefined b (off p) then s.regEffect init b (regSpan p.1).1 (off p) (s.regValue p.1 p.2) else s) s)

/-- A write of the bytes `bs` at `a` by `who`: its status and the state after it; a write that is refused does nothing, but
perhaps those of its lines that are admitted (R443). -/
def State.write (s : State) (who : Who) (a : Nat) (bs : List Byte) : Nat × State :=
  match placeOf a with
  | some (.block b, base, len) => if inside a bs.length base len then s.regWrite who.init b a bs else (4, s)
  | some (.aperture q, base, _) =>
    if s.apertureOpen who.init q (a - base) bs.length then (0, s.apertureWrite who.init q (a - base) bs) else (4, s)
  | _ =>
    let st := s.access who true a bs.length
    if st = 0 then (0, s.store a bs)
    else (st, if st = 4 then s.storeRefused (fun a n => decide (s.access who true a n = 0)) a bs else s)

/-- A read of `n` bytes at `a` by `who`: its status and the bytes. -/
def State.read (s : State) (who : Who) (a n : Nat) : Nat × List Byte :=
  let st := s.access who false a n
  if st ≠ 0 then (st, []) else if s.readPoison a n then (5, []) else (0, s.readOut (s.real a) n)

/-- An initiator that serves no command. -/
def whoIs (init : Nat) : Who := ⟨init, none, false, false⟩

/-- R10: a write of a register, of its whole width. -/
def execRegisterWrite (init : Init) (addr : Addr) (value : Word) (s : State) : Host.Outcome State Fault Refusal :=
  .next <| s.live <|
    let a := addr.toNat
    match placeOf a with
    | some (.block _, _, _) =>
      let (b, w) := regSpan a
      if a = b then (s.write (whoIs init.toNat) a (leBytes w value.toNat)).2 else s
    | _ => s

/-- R470, R476: a write of VAL_FREEZE by the security core in SERVICE. -/
def execValFreezeReq (init : Init) (value : Word32) (s : State) : Host.Outcome State Fault Refusal :=
  .next <| s.live (if init.toNat = initSec ∧ s.mode = 4 then s.freezeReq value.toNat else s)

end Sys2Proof.Machine
end

