-- ==== Sys2Proof/Machine/Debug.lean ====
section
/-! DEFINITION. Freeze, thaw and the debug port (R470 to R476, R559, R561). -/

namespace Sys2Proof.Machine

/-- A free choice: whether a low pulse of FREEZE_N from 50 ns to 100 ns freezes the module (R559). -/
def usePulse : Nat := 2

/-- R559: FREEZE_N falls. `lowNs` is how long it stays low, none where it stays so. A pulse of less than 50 ns freezes
nothing; one from 50 ns to 100 ns may. -/
def execFreezeNFall (lowNs : Option Nat) (s : State) : Host.Outcome State Fault Refusal :=
  .next <|
    match lowNs with
    | none => (s.setFld (aVal 0x220) 0 0 0).freeze 1
    | some n =>
      let s := s.setFld (aVal 0x220) 0 0 1
      if 100 ≤ n then s.freeze 1
      else if n < 50 then s
      else
        let t := { s with free := s.free + 1 }
        if Config.freeChoice s.free usePulse then t.freeze 1 else t

/-! ## Read-out (R473, R474) -/

/-- R474: a scan chain is left in the middle of a turn. -/
def State.chainOpen (s : State) : Bool := s.debugPort.shifted.any fun e => decide (e.2 ≠ 0)

/-- R473, R474, R561: a frozen module is read out: a shift turns a circular chain, and a memory instrument reads bytes without
altering them. -/
def execTapScanShift (op : ScanOp) (s : State) : Host.Outcome State Fault Refusal :=
  .next <|
    if !s.power.mainOk || !s.frozen then s
    else match op with
      | .shift chain n =>
        let k := (readAt (fun _ => 0) s.debugPort.shifted chain + n) % Config.chainLength chain
        { s with debugPort := { s.debugPort with shifted := writeAt (fun _ => 0) s.debugPort.shifted chain k } }
      | .memory addr n => { s with debugPort := { s.debugPort with out := s.bytes addr.toNat n } }

/-! ## Thaw (R475) -/

/-- A time moved on by the length of the freeze. -/
def moved (d : Nat) (t : Option Nat) : Option Nat := t.map fun x => x + d

/-- R475: no time limit counts the frozen time: what the Heaths' clock timed moves on by it. -/
def State.shiftTimes (s : State) : State :=
  let d := s.clock - s.debugPort.frozenAt
  let s := (List.range 5).foldl (fun s die =>
    let s := (List.range 6).foldl (fun s p =>
      let x := s.port die p
      s.setPort die p { x with
        ackAt := x.ackAt + d, retryAt := x.retryAt.map fun t => t + d, heard := x.heard + d
        retrainAt := x.retrainAt + d, downAt := x.downAt + d }) s
    let x := s.diePw die
    let s := s.setDiePw die { x with cool105 := moved d x.cool105, cool110 := moved d x.cool110, measuredAt := x.measuredAt + d }
    s.setDie die { s.dieSt die with outAt := (s.dieSt die).outAt + d }) s
  (List.range 2).foldl (fun s h =>
    let x := s.heath h
    s.setHeath h { x with lastReport := x.lastReport.map fun e => (e.1, e.2 + d) }) s

/-- R475: the ports that carried flits pass through RETRAIN, the Heaths' with them. -/
def State.retrainAll (s : State) : State :=
  (List.range 5).foldl (fun s die => (List.range (if die = 4 then 6 else 5)).foldl (fun s p =>
    if s.linkState die p ≠ 4 then s
    else
      let other := facing die p
      let s := s.retrain die p
      if 5 ≤ other ∧ s.linkState other die = 3 then (s.setLink other die 4).retrain other die else s) s) s

/-- R475: the stacks of the dies that are out of reset leave self-refresh. -/
def State.wakeStacks (s : State) : State :=
  (List.range 4).foldl (fun s d =>
    if s.fld (aDmc d 0) 2 0 = 3 ∧ (s.dieSt d).restored then s.setFld (aDmc d 0) 2 0 2 else s) s

/-- R511, R514: the Col ports, whose bypasses closed as the freeze began, are BYPASSED. -/
def State.bypassPorts (s : State) : State :=
  (List.range 4).foldl (fun s p =>
    if s.colState p = colUp ∨ s.colState p = colTraining then (s.setFld (aColPort p 0) 18 6 0).setColState p colBypassed
    else s) s

/-- R414, R475: the time unit acquires anew. -/
def State.ptpAcquire (s : State) : State :=
  if s.ptpOn && decide (s.tbState ≠ 0) then
    let t : State := { s with ptp := { s.ptp with good := 0 } }
    t.setTb 1
  else s

/-- R475: the thaw instrument: accepted under THAW_OK where every chain has been turned whole. -/
def execThaw (s : State) : Host.Outcome State Fault Refusal :=
  .next <|
    if !s.power.mainOk || !s.frozen || !bit (s.reg (aVal 0x104)) 6 || s.chainOpen then s
    else
      let t := s.shiftTimes
      let t : State := { t with frozen := false }
      let s := t.wakeStacks.retrainAll.bypassPorts.pciaDown.ptpAcquire
      let s := (s.setFld (aVal 0x104) 4 4 1).runtime 3 0 0
      ([0, 1].foldl (fun s h => s.heathMeasCheck h) s).raise 4 0 0x1F "THAWED" 0 0

/-! ## The register access instrument (R561) -/

/-- R561: a request of the instrument: a read or a write of 4 bytes of a register under INIT 0x405. A disabled instrument
answers zeros and sets ERROR; a request that the firewall refuses has no answer. -/
def execDebugRegisterAccess (wr : Bool) (addr : Addr) (value : Word32) (s : State) : Host.Outcome State Fault Refusal :=
  .next <| s.live <|
    let a := addr.toNat
    let answer := fun (s : State) (b : List Byte) => { s with debugPort := { s.debugPort with answer := b } }
    if !s.power.mainOk then s
    else if !s.debugEnabled then answer (s.setFld (aVal 0x224) 1 1 1) (List.replicate 4 0)
    else match placeOf a with
      | some (.block _, _, _) =>
        if wr then answer (s.write (whoIs initPcieA) a (leBytes 4 value.toNat)).2 []
        else answer s (s.read (whoIs initPcieA) a 4).2
      | _ => answer s []

end Sys2Proof.Machine
end

