-- ==== Sys2Proof/Machine/HeathCheck.lean ====
section
/-! DEFINITION. What a Heath makes of trajectory records (R304, R311, R429 to R438): the comparator of SPLIT with the object lists,
the plausibility checker of WHOLE, and the fallback. All of it is exact in integers, but for the rounding of the fallback. -/

namespace Sys2Proof.Machine

/-! ## Records (R304, R311) -/

/-- R304: a pose of 8 bytes. -/
def poseOf (w : Nat) : Pose := ⟨sext 16 (bits w 15 0), sext 16 (bits w 31 16), bits w 47 32, bits w 63 48⟩

/-- R304: the bytes of a pose. -/
def Pose.bytes (p : Pose) : List Byte := leBytes 8 (wrap 16 p.x + wrap 16 p.y * 2 ^ 16 + p.head % 2 ^ 16 * 2 ^ 32 + p.speed % 2 ^ 16 * 2 ^ 48)

/-- Word `i` of bytes. -/
def wordAt (b : List Byte) (i : Nat) : Nat := leNat ((b.drop (8 * i)).take 8)

/-- R311: the CRC of a record is good. -/
def recCrcOk (b : List Byte) : Bool := decide (wordAt b 7 % 2 ^ 32 = crc32c (b.take 56 ++ b.drop 64))

/-- R311: a record that arrived on the link to the Meadow `lead`. -/
def recOf (lead : Nat) (b : List Byte) : TrajRec :=
  let n := min 64 (bits (wordAt b 2) 40 34)
  { hseq := bits (wordAt b 0) 31 0, job := bits (wordAt b 0) 47 32, cand := bits (wordAt b 0) 63 48
    t0 := wordAt b 1, gridTag := bits (wordAt b 2) 15 0, channel := bits (wordAt b 2) 33 33
    ox := sext 32 (bits (wordAt b 3) 31 0), oy := sext 32 (bits (wordAt b 3) 63 32)
    poses := (List.range n).map fun p => poseOf (wordAt b (8 + p)), lead := lead }

/-- Pose `p` of a record. -/
def TrajRec.pose (r : TrajRec) (p : Nat) : Pose := r.poses.getD p ⟨0, 0, 0, 0⟩

/-- R430: the position of a pose in eighths of a mm. -/
def TrajRec.pos8 (r : TrajRec) (p : Nat) : Int × Int := (8 * r.ox + 25 * (r.pose p).x, 8 * r.oy + 25 * (r.pose p).y)

/-! ## Object lists (R431) -/

/-- R431: an entry of an object list. -/
structure Obj where
  track : Nat
  cls : Nat
  x : Int
  y : Int
  vx : Int
  vy : Int
  deriving DecidableEq, Repr

/-- R431: an object list: the JOB_ID of its header, its time, its entries; none where a Heath cannot read it. -/
structure ObjList where
  job : Nat
  time : Nat
  objs : List Obj
  deriving DecidableEq, Repr

/-- R442: a Heath as the issuer of a read. -/
def whoHeath (h : Nat) : Who := ⟨initHeath h, none, false, false⟩

/-- A Heath reads bytes; none where the access is refused or meets poison, and none in a freeze, when nothing serves it (R471). -/
def State.heathRead (s : State) (h a n : Nat) : Option (List Byte) :=
  if !s.frozen && s.access (whoHeath h) false a n = 0 && !s.readPoison a n then some (s.readOut a n) else none

/-- R431: the object list of channel `c`, 1 or 2, for a JOB_ID. -/
def State.objList (s : State) (h c job : Nat) : Option ObjList :=
  let p := (s.heath h).params
  let a := (if c = 1 then p.objBase1 else p.objBase2) + job % 2 * 0x10000
  match s.heathRead h a 64 with
  | none => none
  | some hd =>
    let n := bits (wordAt hd 0) 15 0
    if 2046 < n then none
    else
      let body := if n = 0 then some [] else s.heathRead h (a + 64) (32 * n)
      body.map fun b =>
        { job := bits (wordAt hd 0) 31 16, time := wordAt hd 1
          objs := (List.range n).map fun i =>
            let w := fun (k : Nat) => wordAt b (4 * i + k)
            ⟨bits (w 0) 31 0, bits (w 0) 39 32, sext 32 (bits (w 1) 31 0), sext 32 (bits (w 1) 63 32),
              sext 32 (bits (w 2) 31 0), sext 32 (bits (w 2) 63 32)⟩ }

/-- R431: two entries of one TRACK agree. -/
def Obj.agrees (p : HeathParams) (a b : Obj) : Bool :=
  decide (a.cls = b.cls) && decide ((a.x - b.x).natAbs ≤ p.objPosTol) && decide ((a.y - b.y).natAbs ≤ p.objPosTol) &&
    decide ((a.vx - b.vx).natAbs ≤ p.objSpdTol) && decide ((a.vy - b.vy).natAbs ≤ p.objSpdTol)

/-- R431: the entries of two lists agree: the same TRACK values, and each pair of one TRACK. -/
def objsAgree (p : HeathParams) (l m : List Obj) : Bool :=
  l.all (fun a => m.any fun b => decide (a.track = b.track)) && m.all (fun b => l.any fun a => decide (a.track = b.track)) &&
    l.all fun a => m.all fun b => decide (a.track ≠ b.track) || a.agrees p b

/-- R431, R434: the cause for which the object lists of a frame do not agree, 0 where they do. -/
def State.objCause (s : State) (h job : Nat) : Nat :=
  match s.objList h 1 job, s.objList h 2 job with
  | some a, some b =>
    if a.job ≠ job ∨ b.job ≠ job then 5
    else if objsAgree (s.heath h).params a.objs b.objs then 0 else 4
  | _, _ => 4

/-! ## The comparator (R430) -/

/-- R430: the poses of two records agree in place. -/
def posesAgree (p : HeathParams) (a b : TrajRec) : Bool :=
  (List.range a.poses.length).all fun i =>
    decide (((a.pos8 i).1 - (b.pos8 i).1).natAbs ≤ 8 * p.posTol) && decide (((a.pos8 i).2 - (b.pos8 i).2).natAbs ≤ 8 * p.posTol)

/-- R430: the poses of two records agree in speed. -/
def speedsAgree (p : HeathParams) (a b : TrajRec) : Bool :=
  (List.range a.poses.length).all fun i => decide ((((a.pose i).speed : Int) - (b.pose i).speed).natAbs ≤ p.spdTol)

/-- R430, R434: the cause for which two records do not agree, 0 where they do. Where several hold, the spec ranks none. -/
def State.compareCause (s : State) (h : Nat) (a b : TrajRec) : Nat :=
  let p := (s.heath h).params
  oneOf ((if a.poses.length ≠ b.poses.length ∨ a.t0 ≠ b.t0 then [3]
    else failIf (!posesAgree p a b) 1 ++ failIf (!speedsAgree p a b) 2) ++ [s.objCause h a.job])

/-! ## The plausibility checker (R432) -/

/-- R432: a heading difference wrapped to ±π, in units of 2π/65,536. -/
def headDiff (a b : Nat) : Nat := (sext 16 (a + 65536 - b % 65536)).natAbs

/-- R432: the step from one pose to the next is plausible. AMAX over 0.1 s; ALATMAX over 0.1 s at the speed, at least 1 m/s; the
distance covered at the greater speed in 0.1 s, and 100 mm. -/
def stepPlausible (p : HeathParams) (a b : Pose) : Bool :=
  decide (10 * (((b.speed : Int) - a.speed).natAbs) ≤ 256 * p.amax) &&
    decide (piFix * (20 * headDiff b.head a.head * max b.speed 256) ≤ 16777216 * p.alatmax * 2 ^ 124) &&
    decide (64 * ((b.x - a.x) * (b.x - a.x) + (b.y - a.y) * (b.y - a.y)) ≤ ((max a.speed b.speed + 256 : Nat) : Int) ^ 2)

/-- R432: the kinematic check. -/
def kinematicOk (p : HeathParams) (r : TrajRec) : Bool :=
  r.poses.all (fun q => decide (q.speed ≤ 256 * p.vmax)) &&
    (List.range (r.poses.length - 1)).all fun i => stepPlausible p (r.pose i) (r.pose (i + 1))

/-- R432: the lead's map may be used: VALID, and an EPOCH equal to GRID_TAG. -/
def State.clearanceUsable (s : State) (r : TrajRec) : Bool :=
  s.meadowUp r.lead && decide (s.reg (aPra r.lead 0x08) = r.gridTag + 2 ^ 16)

/-- R432: the clearance check: the cell that holds each pose, in its slice of the lead's grid. -/
def State.clearanceOk (s : State) (h : Nat) (r : TrajRec) : Bool :=
  let g := s.praGrid r.lead
  (List.range r.poses.length).all fun p =>
    let q := r.pose p
    let x := (q.x / 64).toNat
    let y := (q.y / 64).toNat
    decide (0 ≤ q.x) && decide (0 ≤ q.y) && decide (x < 512) && decide (y < 512) &&
      (s.heathRead h ((g.base + p * 0x40000 + cellAt x y) / 64 * 64) 64).isSome &&
      decide (s.occ g p x y < (s.heath h).params.clrThresh)

/-- R432: a trajectory's position at a time, in units of 1/8 mm over 10^8, interpolated linearly between its poses. -/
def TrajRec.posAt (r : TrajRec) (t : Nat) : Int × Int :=
  let dt := t - r.t0
  let n := r.poses.length
  let i := min (dt / 100000000) (n - 1)
  let f : Int := if i + 1 < n then ((dt % 100000000 : Nat) : Int) else 0
  let a := r.pos8 i
  let b := r.pos8 (min (i + 1) (n - 1))
  (a.1 * (100000000 - f) + b.1 * f, a.2 * (100000000 - f) + b.2 * f)

/-- R432: the continuity check against the previous accepted trajectory. -/
def continuityOk (p : HeathParams) (prev : Option Traj) (r : TrajRec) : Bool :=
  match prev with
  | none => true
  | some q =>
    if q.rec_.poses.isEmpty || r.poses.isEmpty || decide (q.rec_.t0 + 6400000000 < r.t0) then true
    else
      let a := r.pos8 0
      let b := q.rec_.posAt r.t0
      let dx := a.1 * 100000000 - b.1
      let dy := a.2 * 100000000 - b.2
      decide (dx * dx + dy * dy ≤ (((8 * p.contTol * 100000000 : Nat) : Int)) ^ 2)

/-- R432: the coarse occupancy check of a record against an object list. -/
def occupancyOk (p : HeathParams) (r : TrajRec) (l : ObjList) : Bool :=
  (List.range r.poses.length).all fun i => l.objs.all fun o =>
    let t : Int := ((r.t0 + 100000000 * i : Nat) : Int) - l.time
    let q := r.pos8 i
    let dx := q.1 * 1000000000 - 8 * (o.x * 1000000000 + o.vx * t)
    let dy := q.2 * 1000000000 - 8 * (o.y * 1000000000 + o.vy * t)
    decide ((((8 * p.objClear * 1000000000 : Nat) : Int)) ^ 2 ≤ dx * dx + dy * dy)

/-- R432, R438: the channel, 1 or 2, whose object list the checker reads: channel 1, or in SPLIT the channel that is left. -/
def HeathSt.listChannel (x : HeathSt) (r : TrajRec) : Nat := if x.concept = 1 then r.channel + 1 else 1

/-- R432, R434: the cause for which the checker of Heath `h` vetoes a record, 0 where all four checks pass, and whether the clearance
check was skipped. Where several fail, the spec ranks none. -/
def State.checkerCause (s : State) (h : Nat) (r : TrajRec) : Nat × Bool :=
  let x := s.heath h
  let use := s.clearanceUsable r
  let near := match s.objList h (x.listChannel r) r.job with
    | none => 9
    | some l => if l.job ≠ r.job then 5 else if occupancyOk x.params r l then 0 else 9
  (oneOf (failIf (!kinematicOk x.params r) 6 ++ failIf (use && !s.clearanceOk h r) 7
    ++ failIf (!continuityOk x.params x.accepted r) 8 ++ [near]), !use)

/-- R376, R431, R432: the bytes that a Heath reads, at class 7, to decide a frame: the object lists, and the grid cells of the poses
where the clearance check is made. A read that is refused, and any in a freeze, reaches no memory. -/
def State.decisionReads (s : State) (h : Nat) (f : FrameDec) : List (Nat × Nat) :=
  let p := (s.heath h).params
  let list := fun (c : Nat) =>
    let a := (if c = 1 then p.objBase1 else p.objBase2) + f.job % 2 * 0x10000
    let n := match s.objList h c f.job with
      | some l => l.objs.length
      | none => 0
    (a, 64 + 32 * n)
  let reads :=
    if f.split then [list 1, list 2]
    else match f.recs with
      | r :: _ =>
        let g := s.praGrid r.lead
        list ((s.heath h).listChannel r) :: if !s.clearanceUsable r then [] else
          (List.range r.poses.length).map fun i =>
            ((g.base + i * 0x40000 + cellAt ((r.pose i).x / 64).toNat ((r.pose i).y / 64).toNat) / 64 * 64, 64)
      | [] => []
  if s.frozen then [] else reads.filter fun x => decide (s.access (whoHeath h) false x.1 x.2 = 0)

/-! ## The fallback (R436) -/

/-- R436: the point `d` (in units of 2^-32) along a polyline, and its heading; beyond its end it goes on along its last segment.
`last` is the last segment seen: its steps and its length. -/
def walk : List Pose → Nat → Option (Int × Int × Nat) → Int × Int × Nat
  | [], _, _ => (0, 0, 0)
  | [a], d, last =>
    match last with
    | some (dx, dy, l) =>
      (a.x * 2 ^ 32 + dx * ((d * 2 ^ 32 : Nat) : Int) / (l : Int), a.y * 2 ^ 32 + dy * ((d * 2 ^ 32 : Nat) : Int) / (l : Int),
        Config.segmentHead dx dy)
    | none =>
      let (ex, ey) := if d = 0 then ((0 : Int), (0 : Int)) else Config.alongHead a.head d
      (a.x * 2 ^ 32 + ex, a.y * 2 ^ 32 + ey, a.head)
  | a :: b :: t, d, last =>
    let dx := b.x - a.x
    let dy := b.y - a.y
    let l := isqrt 64 0 ((dx * dx + dy * dy).toNat * 2 ^ 64)
    if l = 0 then walk (b :: t) d last
    else if d < l then
      (a.x * 2 ^ 32 + dx * ((d * 2 ^ 32 : Nat) : Int) / (l : Int), a.y * 2 ^ 32 + dy * ((d * 2 ^ 32 : Nat) : Int) / (l : Int),
        Config.segmentHead dx dy)
    else walk (b :: t) (d - l) (some (dx, dy, l))

/-- R436: a number of `den`-ths of a unit as whole units; the rounding of what is not whole is open. -/
def wholeOf (num : Int) (den : Nat) (p k : Nat) : Int :=
  let q := num / (den : Int)
  if num % (den : Int) ≠ 0 && Config.fallbackUlp p k then q + 1 else q

/-- R436: the arc length of fallback pose `p` in units of 2^-32 of a pose unit, for v0 in 1/256 m/s and a deceleration in mm/s². -/
def arcLength (v0 a p : Nat) : Nat :=
  if v0 * 10000 ≤ a * p * 256 then v0 * v0 * 625 * 2 ^ 32 / (256 * a)
  else (2500 * v0 * p - 32 * a * p * p) * 2 ^ 32 / 20000

/-- R304, R436: a coordinate of a fallback as its 16-bit field holds it; the spec states none beyond the field's range. -/
def poseField (v : Int) : Int :=
  if -(32768 : Int) ≤ v ∧ v < 32768 then v else sext 16 (Config.poseBeyond v % 65536)

/-- R436: pose `p` of the fallback of an accepted record. -/
def fallbackPose (r : TrajRec) (a p : Nat) : Pose :=
  let v0 := (r.pose 0).speed
  let (x, y, hd) := walk r.poses (arcLength v0 a p) none
  { x := poseField (wholeOf x (2 ^ 32) p 0), y := poseField (wholeOf y (2 ^ 32) p 1), head := hd % 65536
    speed := (max 0 (wholeOf ((v0 : Int) * 10000 - ((a * p * 256 : Nat) : Int)) 10000 p 2)).toNat }

/-- R436: the fallback of an accepted record: 30 poses. -/
def fallbackOf (r : TrajRec) (a : Nat) : TrajRec :=
  if r.poses.isEmpty then r else { r with poses := (List.range 30).map (fallbackPose r a) }

end Sys2Proof.Machine
end

