-- ==== Sys2Proof/Machine/Heath.lean ====
section
/-! DEFINITION. The commands of the safety islands (R419 to R441, R447, R453 to R459): slots, cross frames, roles, records, verdicts
and outcomes, fault reports, the self-test of the checkers, and a Heath's own restart. -/

namespace Sys2Proof.Machine

/-! ## Slots and messages (R422 to R424) -/

/-- R412, R422: a Heath's copy of the time base; it counts on while the Vale's stands. -/
def State.heathTime (s : State) : Nat := if s.frozen || decide (s.boot.phase = 0) then s.clock else s.now

/-- R451: HELD_MODE. -/
def State.heldMode (s : State) (h : Nat) : Nat := s.fld (aHt h 0x10) 4 2

/-- A time of a trajectory's own time base on the Heath's clock. -/
def Traj.clockAt (t : Traj) (x : Nat) : Nat := t.base + x

/-- R423, R436: the fallback has reached its final pose, or there is none. -/
def State.fallbackOver (s : State) (h : Nat) : Bool :=
  match (s.heath h).fallback with
  | none => true
  | some f => decide (f.clockAt (f.rec_.t0 + 2900000000) ≤ s.clock)

/-- R38, R423, R447: VAL_MODE is read over an ACTIVE Vale link; a held DRIVE ends with DRIVE read again or with the fallback; while the
parameter blocks differ, BOOT is not left. In SERVICE a Heath goes by WHOLE. -/
def State.readValMode (s : State) (h : Nat) : State :=
  let x := s.heath h
  let x := if s.valeLinked h then { x with readMode := s.mode, concept := if s.mode = 4 then 2 else s.fld (aVal 0x10) 9 8 } else x
  let hold := x.hold && !(s.valeLinked h && decide (x.readMode = 1)) && !s.fallbackOver h
  let m := if hold then 1 else if !s.paramOk h && decide (s.heldMode h = 0) then 0 else x.readMode
  (s.setHeath h { x with hold := hold }).setFld (aHt h 0x10) 4 2 m

/-- R435, R439: withholding: after a DISAGREE, or for a queue whose next good frame has not come. -/
def State.withholding (s : State) (h : Nat) : State :=
  let x := s.heath h
  let q := x.queueHold.filter fun e => match (s.queue e.1).w.goodAt with
    | some g => decide (g ≤ e.2)
    | none => true
  (s.setHeath h { x with queueHold := q }).setWithheld h (x.disagreed || !q.isEmpty)

/-- R423, R435: AGE_US of the accepted trajectory. -/
def State.ageUs (s : State) (t : Traj) : Nat := (s.clock - t.at_) / 1000

/-- R423: the accepted trajectory is the one to send. -/
def State.usesAccepted (s : State) (h : Nat) : Option Traj :=
  let x := s.heath h
  match x.accepted with
  | some t => if s.ageUs t ≤ x.params.acceptMaxMs * 1000 ∧ ¬ s.withheld h then some t else none
  | none => none

/-- R423: the fallback to send: after its last pose time, that pose alone, with its own time. -/
def State.usesFallback (s : State) (h : Nat) : Option Traj :=
  (s.heath h).fallback.map fun (f : Traj) =>
    let n := f.rec_.poses.length
    let last := f.rec_.t0 + 100000000 * (n - 1)
    if f.clockAt last < s.clock ∧ 0 < n then { f with rec_ := { f.rec_ with t0 := last, poses := f.rec_.poses.drop (n - 1) } } else f

/-- R422: the message of a Heath in a mode. With no fallback yet, a FALLBACK message carries no pose. -/
def State.outMessage (s : State) (h mode : Nat) : List Byte :=
  let x := s.heath h
  let drive := decide (mode = 1)
  let acc := if drive then s.usesAccepted h else none
  let src := if !drive then 2 else if acc.isSome then 0 else 1
  let t := if !drive then none else match acc with
    | some t => some t
    | none => s.usesFallback h
  let r := (t.map fun (y : Traj) => y.rec_).getD ⟨0, 0, 0, 0, 0, 0, 0, 0, [], 0⟩
  let age := match t with
    | some t => min (s.ageUs t) (2 ^ 32 - 1)
    | none => 0
  let n := r.poses.length
  let w0 := (if drive then 1 else 2) + src * 2 ^ 8 + b2n (decide (s.role h = 2)) * 2 ^ 10 + h * 2 ^ 11 + x.concept * 2 ^ 12
    + mode * 2 ^ 14 + b2n (s.heathDegraded h) * 2 ^ 17 + b2n s.replacePin * 2 ^ 18 + s.reg (aHt h 0x14) * 2 ^ 32
  let d := s.reg (aHt h 0x1C)
  let head := wordBytes [w0, s.heathTime, r.hseq + r.job * 2 ^ 32 + r.cand * 2 ^ 48, r.t0,
    wrap 32 r.ox + wrap 32 r.oy * 2 ^ 32, age + n * 2 ^ 32, bits d 31 24 + bits d 23 16 * 2 ^ 8]
  let poses := r.poses.flatMap Pose.bytes ++ List.replicate (512 - 8 * n) 0
  head ++ leBytes 8 (crc32c (head ++ poses)) ++ poses

/-- R424: the log frame of a message. -/
def logOf (msg : List Byte) : List Byte := msg.take 56 ++ leBytes 4 (crc32c (msg.take 56)) ++ List.replicate 4 0

/-- R424: a log frame is sent at every slot, at the faster rates of its port. -/
def logEverySlot (p : HeathParams) : Bool := decide (p.canData = 5) || (decide (p.canData = 4) && decide (p.canNominal = 1000))

/-- R426, R447: the role at a slot: a Heath returns to STANDBY, or takes its first role. -/
def State.slotRole (s : State) (h : Nat) : State :=
  let x := s.heath h
  if x.demote then (s.setHeath h { x with demote := false }).setRole h 1
  else if s.role h ≠ 0 then s
  else
    let alone := decide (s.partnerState h ≠ 0)
    let first := !x.before && decide (h = 0) && decide (x.partnerRole ≠ 2)
    s.setRole h (if alone || first then 2 else 1)

/-- R451: SOURCE, the paths and DEGRADED of HTx_STATUS. -/
def State.showStatus (s : State) (h src : Nat) : State :=
  let x := s.heath h
  let live := fun (i : Nat) => match x.heard.getD i none with
    | some t => decide (s.clock ≤ t + 240000)
    | none => false
  (((s.setFld (aHt h 0x10) 10 9 src).setFld (aHt h 0x10) 7 7 (b2n (live 0))).setFld (aHt h 0x10) 8 8 (b2n (live 1))).setFld
    (aHt h 0x10) 12 12 (b2n (s.heathDegraded h))

/-- R439, R446, R455: a Heath whose partner is silent or absent restarts the Vale on its own finding. -/
def State.loneValeRestart (s : State) (h : Nat) : State :=
  if s.partnerState h = 0 then s
  else match s.valeDown h with
    | some t => if (s.dieSt 4).out ∧ (s.dieSt 4).outAt < t then s.valeRestart h else s
    | none => if (s.heath h).valeHungAt.isSome ∧ (s.dieSt 4).out then s.valeRestart h else s

/-- R420, R422 to R426: an output slot. A STANDBY Heath moves its slots under the ACTIVE Heath's, so they keep no fixed distance. -/
def execHeathSlot (h : Fin 2) (s : State) : Host.Outcome State Fault Refusal :=
  .next <|
    let x := s.heath h
    let due := decide (x.lastSlot = 0) || (if s.role h = 1 then decide (x.lastSlot < s.clock) else decide (x.lastSlot + 250000 ≤ s.clock))
    if !x.up || !due then s
    else
      let s := ((s.slotRole h).readValMode h).withholding h
      let s := s.setReg (aHt h 0x14) ((s.reg (aHt h 0x14) + 1) % 2 ^ 32)
      let m := s.heldMode h
      let msg := s.outMessage h m
      let s := s.showStatus h (bits (wordAt msg 0) 9 8)
      let log := logOf (if m = 3 then s.outMessage h 1 else msg)
      let p := x.params
      let sent := logEverySlot p || decide (s.reg (aHt h 0x14) % 2 = 0)
      let y := s.heath h
      let s := s.setHeath h { y with lastSlot := s.clock, message := msg, logFrame := if sent then log else y.logFrame }
      ((s.crossSend h false).heathFlush h).loneValeRestart h

/-- R420: the cross frame 125 µs after a slot. -/
def execCrossFrameMidslot (h : Fin 2) (s : State) : Host.Outcome State Fault Refusal :=
  .next <|
    let x := s.heath h
    if !x.up || decide (x.lastSlot = 0) || decide (x.midAt = x.lastSlot) || decide (s.clock < x.lastSlot + 125000) then s
    else (s.setHeath h { x with midAt := x.lastSlot }).crossSend h false

/-! ## Outcomes (R433 to R437) -/

/-- The frame with this JOB_ID that a Heath decides. -/
def State.frameDec (s : State) (h job : Nat) : Option FrameDec := (s.heath h).frames.find? fun f => decide (f.job = job)

/-- A frame that a Heath decides replaced. -/
def State.setFrame (s : State) (h : Nat) (f : FrameDec) : State :=
  let x := s.heath h
  s.setHeath h { x with frames := x.frames.map fun g => if g.job = f.job then f else g }

/-- A frame closed: it is decided no more; the last 64 records that it still waited for are remembered, for they come too late. -/
def State.dropFrame (s : State) (h job : Nat) : State :=
  let x := s.heath h
  let late := (x.frames.filter fun f => decide (f.job = job)).flatMap fun f => f.need.map fun c => 4 * job + c
  s.setHeath h { x with frames := x.frames.filter fun f => decide (f.job ≠ job), closed := (late ++ x.closed).take 64 }

/-- R435: the window shifts by one place. -/
def State.shiftWindow (s : State) (h b t0 : Nat) : State :=
  let x := s.heath h
  (s.setFld (aHt h 0x1C) 31 24 (2 * s.fld (aHt h 0x1C) 31 24 + b)).setHeath h { x with window := (t0 :: x.window).take 8 }

/-- R433, R435, R436: the outcome ACCEPT: the trajectory, its fallback, and a cross frame that carries both. -/
def State.frameAccept (s : State) (h : Nat) (f : FrameDec) (r : TrajRec) : State :=
  let s := (s.dropFrame h f.job).count32 (aHt h 0x18)
  let s := (s.setReg (aHt h 0x38) s.heathTime).shiftWindow h 0 f.t0
  let x := s.heath h
  let fb := fallbackOf r x.params.fbDecel
  let s := s.setHeath h { x with
    accepted := some ⟨r, s.clock, s.past, false⟩, fallback := some ⟨fb, s.clock, s.past, false⟩, disagreed := false, queueHold := [] }
  (s.setWithheld h false).crossSend h true

/-- R435: the outcome NONE. -/
def State.frameNone (s : State) (h job : Nat) : State := (s.dropFrame h job).count32 (aHt h 0x20)

/-- R437: the reports of Meadow `d` in the collection since `t`, heartbeats left out. -/
def State.reportsOf (s : State) (h d t : Nat) : Nat :=
  ((s.heath h).collection.filter fun e => decide (e.2.ev.die = d) && decide (t ≤ e.1) && decide (e.2.ev.name ≠ "HEARTBEAT")).length

/-- R437: how far pose 0 of a record lies from the previous accepted trajectory, squared; 0 where there is none. -/
def State.farness (s : State) (h : Nat) (r : TrajRec) : Int :=
  match (s.heath h).accepted with
  | some q =>
    if q.rec_.poses.isEmpty then 0
    else
      let a := r.pos8 0
      let b := q.rec_.posAt r.t0
      let dx := a.1 * 100000000 - b.1
      let dy := a.2 * 100000000 - b.2
      dx * dx + dy * dy
  | none => 0

/-- R437: the suspect of an escalation: the present Meadow, of the channels that handed off, with the most reports during the
window; else the lead of the record that lies farther off, or of channel 2's record. -/
def State.heathSuspect (s : State) (h : Nat) (f : FrameDec) : Option Nat :=
  let since := ((s.heath h).window.getLast?).getD 0
  let cand := (List.range 4).filter fun d =>
    s.meadowUp d && (!f.split || f.recs.any fun r => decide (r.channel = d / 2))
  let n := fun (d : Nat) => s.reportsOf h d since
  let top := cand.foldl (fun m d => max m (n d)) 0
  match cand.filter fun d => decide (n d = top) && decide (0 < top) with
  | [d] => some d
  | _ => match f.recs with
    | [a, b] =>
      let (a, b) := if a.channel ≤ b.channel then (a, b) else (b, a)
      some (if s.farness h b < s.farness h a then a.lead else b.lead)
    | [a] => some a.lead
    | _ => none

/-- R437: an escalation: the event, the restart of the suspect by the Heath that drives, and an empty window. -/
def State.escalate (s : State) (h : Nat) (suspect : Option Nat) : State :=
  let s := match suspect with
    | some d =>
      let s := s.heathEvent h "HT_ESCALATE" d 0
      if s.drives h then s.warmRestart h d else s
    | none => s
  (s.setFld (aHt h 0x1C) 31 24 0).setHeath h { s.heath h with window := [] }

/-- The bits set in a number of 8 bits. -/
def ones8 (v : Nat) : Nat := ((List.range 8).filter fun i => bit v i).length

/-- R434, R435, R437: the outcome DISAGREE with its cause; two bits in the window escalate. `named` is the suspect that R439 names. -/
def State.frameDisagree (s : State) (h : Nat) (f : FrameDec) (cause : Nat) (named : Option Nat) : State :=
  let s := (s.dropFrame h f.job).count (aHt h 0x1C) 15 0 1
  let s := (s.setFld (aHt h 0x1C) 23 16 cause).shiftWindow h 1 f.t0
  let s := (s.setHeath h { s.heath h with disagreed := true }).setWithheld h true
  let s := s.heathEvent h "HT_DISAGREE" cause f.job
  if 2 ≤ ones8 (s.fld (aHt h 0x1C) 31 24) then
    s.escalate h (match named with
      | some d => some d
      | none => s.heathSuspect h f)
  else s

/-- R433: the record that becomes the accepted trajectory. -/
def FrameDec.chosen (f : FrameDec) : Option TrajRec :=
  match f.recs.find? fun r => decide (r.channel = 0) with
  | some r => some r
  | none => f.recs.head?

/-- R433: the outcome of a frame once the verdicts allow one. -/
def State.tryClose (s : State) (h job : Nat) : State :=
  match s.frameDec h job with
  | none => s
  | some f => match f.own with
    | none => s
    | some v =>
      if !v.accept then s.frameDisagree h f v.cause none
      else match f.partner with
        | some w =>
          if !w.accept then s.frameDisagree h f 0x0A none
          else match f.chosen with
            | some r => s.frameAccept h f r
            | none => s
        | none =>
          if s.partnerState h = 0 then s
          else match f.chosen with
            | some r => s.frameAccept h f r
            | none => s

/-! ## Cross frames and roles (R420, R426, R427, R439) -/

/-- R439, R455: the partner reports the same of the Vale within 1 ms: the Heath that drives restarts it. -/
def State.valeAgreed (s : State) (h : Nat) (mine theirs : Option Nat) : Bool :=
  match mine, theirs with
  | some a, some b => decide (a ≤ b + 1000000) && decide (b ≤ a + 1000000) && (s.dieSt 4).out && decide ((s.dieSt 4).outAt < a) && s.drives h
  | _, _ => false

/-- R420, R426, R433: a valid cross frame is taken in. -/
def State.crossTake (s : State) (h path : Nat) (f : CrossFrame) : State :=
  let x := s.heath h
  let s := s.setHeath h { x with
    heard := x.heard.set path (some s.clock), silentAt := none, partnerRole := f.role
    partnerVerdict := match f.verdict with | some v => some v | none => x.partnerVerdict
    demote := x.demote || (decide (h = 1) && decide (s.role h = 2) && decide (f.role = 2)) }
  let s := s.setFld (aHt h 0x10) (7 + path) (7 + path) 1
  let s := s.setFld (aHt h 0x10) 6 5 0
  let s := match f.verdict with
    | some v => match s.frameDec h v.job with
      | some g => (s.setFrame h { g with partner := some v }).tryClose h v.job
      | none => s
    | none => s
  if s.valeAgreed h (s.valeDown h) f.valeDown || s.valeAgreed h (s.heath h).valeHungAt f.valeHung then s.valeRestart h else s

/-- R420: the oldest cross frame on a path arrives; one that fails its CRC is dropped. -/
def execCrossFrame (h : Fin 2) (viaPath bad : Bool) (s : State) : Host.Outcome State Fault Refusal :=
  .next <|
    let x := s.heath h
    match if viaPath then x.via else x.xlink with
    | [] => s
    | f :: rest =>
      let s := s.setHeath h (if viaPath then { x with via := rest } else { x with xlink := rest })
      if !x.up || bad then s else s.crossTake h (b2n viaPath) f

/-- R351, R420: the Vale forwards a cross frame of Heath `h` to the other Heath. -/
def execXframe (h : Fin 2) (s : State) : Host.Outcome State Fault Refusal :=
  .next <| s.live <|
    let x := s.heath h
    match x.toVale with
    | [] => s
    | f :: rest =>
      let s := s.setHeath h { x with toVale := rest }
      if s.linkUp 4 (4 + h) && s.linkUp 4 (5 - h) then
        let p := s.heath (1 - h)
        s.setHeath (1 - h) { p with via := p.via ++ [f] }
      else s

/-- R427: no valid cross frame on either path for 240 µs: the partner is silent, or absent since reset; a STANDBY Heath takes
ACTIVE. -/
def execPartnerSilent (h : Fin 2) (s : State) : Host.Outcome State Fault Refusal :=
  .next <|
    let x := s.heath h
    let last := x.heard.foldl (fun m t => max m (t.getD x.upAt)) x.upAt
    if !x.up || x.silentAt.isSome || decide (s.clock ≤ last + 240000) then s
    else
      let never := x.heard.all fun t => t.isNone
      let s := s.setHeath h { x with silentAt := some s.clock }
      let s := (s.setFld (aHt h 0x10) 6 5 (if never then 2 else 1)).setFld (aHt h 0x10) 8 7 0
      let s := s.heathEvent h "HT_PARTNER_SILENT" 0 0
      let s := if s.role h = 1 then ((s.setRole h 2).count32 (aHt h 0x24)).heathEvent h "HT_TAKEOVER" 0 0 else s
      (x.frames.map (·.job)).foldl (fun s j => s.tryClose h j) s

/-- R560, R468: the partner has been silent for more than 1 s: the replace cause HEATH, over the Heath's Vale link. -/
def execHeathSilentReplace (h : Fin 2) (s : State) : Host.Outcome State Fault Refusal :=
  .next <|
    match (s.heath h).silentAt with
    | some t => if t + 1000000000 < s.clock ∧ s.valeLinked h then s.replaceReq 10 else s
    | none => s

/-! ## Vehicle state (R425) -/

/-- R43, R425: a vehicle state frame: its CRC and its counter; one that fails either is discarded, and the run that R40 counts begins
anew after a counter gap. DESIGN CHOICE (assumption 126): the first frame after a Heath's restart, which has no predecessor, counts
as consecutive. -/
def execVehicleStateFrame (h : Fin 2) (data : List Byte) (s : State) : Host.Outcome State Fault Refusal :=
  .next <|
    let x := s.heath h
    if !x.up || decide (data.length ≠ 16) || decide (leNat ((data.drop 8).take 4) ≠ crc32c (data.take 8)) then s
    else
      let ctr := leNat ((data.drop 4).take 2)
      let e := (s.clock, bit (leNat (data.take 1)) 0)
      match x.vehCtr with
      | some c =>
        if ctr = (c + 1) % 65536 then s.setHeath h { x with vehCtr := some ctr, vehGood := some s.clock, veh := (e :: x.veh).take 10 }
        else s.setHeath h { x with vehCtr := some ctr, veh := [] }
      | none => s.setHeath h { x with vehCtr := some ctr, vehGood := some s.clock, veh := [e] }

/-! ## Records and verdicts (R429 to R433, R438) -/

/-- R438: channel `c`, 0 or 1, has a Meadow left. -/
def State.channelUp (s : State) (c : Nat) : Bool := s.meadowUp (2 * c) || s.meadowUp (2 * c + 1)

/-- R429, R438: a record joins its frame. One that its frame was decided without comes too late. -/
def State.takeRecord (s : State) (h : Nat) (r : TrajRec) : State :=
  let x := s.heath h
  if x.closed.contains (4 * r.job + r.channel) then s.setHeath h { x with closed := x.closed.erase (4 * r.job + r.channel) }
  else match s.frameDec h r.job with
    | some f =>
      if f.need.contains r.channel then
        (s.setHeath h { x with lone := false }).setFrame h { f with recs := f.recs ++ [r], need := f.need.erase r.channel }
      else s
    | none =>
      let split := decide (x.concept = 1) && s.channelUp 0 && s.channelUp 1
      let x := { x with lone := x.lone || (decide (x.concept = 1) && !split) }
      let v := x.partnerVerdict.filter fun w => decide (w.job = r.job)
      let f : FrameDec :=
        { job := r.job, recs := [r], split := split, need := if split then [1 - r.channel] else [], t0 := s.clock
          own := none, ownAt := 0, partner := v }
      s.setHeath h { x with frames := x.frames ++ [f] }

/-- R38, R429, R311: a trajectory record arrives: it is acknowledged, its CRC is checked, and it joins its frame. `err` are the bits that
arrive wrong. A Heath whose
link is down is dropped from the hand-off. DEDUCED (assumption 127): in SERVICE nothing of a job is checked: the record is logged as
an accepted frame of WHOLE. -/
def execTrajectoryRecord (h : Fin 2) (err : List (Fin 576 × Byte)) (s : State) : Host.Outcome State Fault Refusal :=
  .next <| s.live <|
    match s.prairie.records.find? fun r => decide (r.heath = h.val) with
    | none => s
    | some e =>
      if !(s.heath h).up then s
      else
        let s := { s with prairie := { s.prairie with records := s.prairie.records.erase e } }
        if !s.heathLinked e.lead h then s else
        let b := err.foldl (fun b x => b.set x.1 (b.getD x.1 0 ^^^ x.2)) e.data
        let r := recOf e.lead b
        if s.heldMode h = 4 then s.frameAccept h ⟨r.job, [r], false, [], s.clock, none, 0, none⟩ r
        else if recCrcOk b then s.takeRecord h r
        else
          let f := (s.frameDec h r.job).getD ⟨r.job, [], false, [], s.clock, none, 0, none⟩
          s.frameDisagree h { f with recs := f.recs ++ [r] } 0x0C none

/-- R429, R438: the second channel's record has not arrived PAIR_US after the first: NONE; but where a channel was lost and no frame
since has had the records of both, the frame is decided on the one record. -/
def execPairTimeout (h : Fin 2) (job : BitVec 16) (s : State) : Host.Outcome State Fault Refusal :=
  .next <|
    match s.frameDec h job.toNat with
    | some f =>
      if f.need.isEmpty || decide (s.clock ≤ f.t0 + (s.heath h).params.pairUs * 1000) then s
      else if (s.heath h).lone then
        let x := s.heath h
        let late := f.need.map fun c => 4 * f.job + c
        (s.setHeath h { x with closed := (late ++ x.closed).take 64 }).setFrame h { f with need := [], split := false }
      else s.frameNone h f.job
    | none => s

/-- R430 to R433: a Heath finishes its verdict on a frame whose records are there, and sends it. -/
def execHeathVerdict (h : Fin 2) (job : BitVec 16) (s : State) : Host.Outcome State Fault Refusal :=
  .next <|
    match s.frameDec h job.toNat with
    | none => s
    | some f =>
      if !f.need.isEmpty || f.own.isSome then s
      else
        let found := match f.split, f.recs with
          | true, [a, b] => some (if a.channel ≤ b.channel then (s.compareCause h a b, false) else (s.compareCause h b a, false))
          | _, r :: _ => some (s.checkerCause h r)
          | _, [] => none
        match found with
        | none => s
        | some (cause, skipped) =>
          let s := if skipped then s.count32 (aHt h 0x30) else s
          let s := (s.decisionReads h f).foldl (fun s x => s.chargeAs 7 0xFFB false x.1 x.2) s
          let v : VerdictMsg := ⟨f.job, decide (cause = 0), cause⟩
          let s := s.setFrame h { f with own := some v, ownAt := s.clock }
          let s := (s.setHeath h { s.heath h with lastVerdict := some v }).crossSend h false
          s.tryClose h f.job

/-- R433: the partner's verdict has not arrived VERDICT_US after the Heath's own, and the partner is not silent: NONE. -/
def execVerdictTimeout (h : Fin 2) (job : BitVec 16) (s : State) : Host.Outcome State Fault Refusal :=
  .next <|
    match s.frameDec h job.toNat with
    | some f =>
      if f.own.isSome && f.partner.isNone && decide (s.partnerState h = 0) &&
          decide (f.ownAt + (s.heath h).params.verdictUs * 1000 < s.clock) then s.frameNone h f.job else s
    | none => s

/-- R435: the accepted trajectory exceeds ACCEPT_MAX_MS, and the output turns to FALLBACK. -/
def execAcceptStale (h : Fin 2) (s : State) : Host.Outcome State Fault Refusal :=
  .next <|
    let x := s.heath h
    match x.accepted with
    | some t =>
      if x.up && !t.stale && (s.heldMode h = 1 || s.heldMode h = 3) && decide (x.params.acceptMaxMs * 1000 < s.ageUs t) then
        let s := s.setHeath h { x with accepted := some { t with stale := true } }
        -- an output that is withheld is FALLBACK already
        if s.withheld h then s else s.heathEvent h "HT_ACCEPT_STALE" 0 0
      else s
    | none => s

/-! ## Fault reports (R439, R453 to R456) -/

/-- R439: both maps of occupancy lose their grid on every present Meadow. -/
def State.loseGrids (s : State) : State := (List.range 4).foldl (fun s d => if s.meadowUp d then s.praInval d 0 else s) s

/-- R439: what a Heath does about a report. -/
def State.reactTo (s : State) (h : Nat) (e : Ev) : State :=
  if e.name = "GOLDEN_MISMATCH" ∧ e.die < 4 then
    let f := ((s.heath h).frames.getLast?).getD ⟨e.job % 65536, [], false, [], s.clock, none, 0, none⟩
    s.frameDisagree h f 0x0B (some e.die)
  else if e.name = "IQM_STALE_FRAME" ∨ e.name = "IQM_NO_FRAME" ∨ (e.name = "IQM_E2E" ∧ (bit e.arg1 1 ∨ bit e.arg1 2)) then
    let act := (s.heath h).params.queueAct.getD e.arg0 0
    let s := if act = 0 then s else s.loseGrids
    if act = 2 then
      let x := s.heath h
      (s.setHeath h { x with queueHold := x.queueHold ++ [(e.arg0, s.clock)] }).setWithheld h true
    else s
  else s

/-- R454, R456: the oldest report of a die on its way to a Heath arrives; a bad CRC discards it, with a count in HTx_INJ_FAIL. -/
def execFaultReport (h : Fin 2) (die : Fin 5) (bad : Bool) (s : State) : Host.Outcome State Fault Refusal :=
  .next <| s.live <|
    let c := s.collector die
    match readAt (fun _ => []) c.out h.val with
    | [] => s
    | r :: rest =>
      if !(s.heath h).up || !s.heathLinked die h then s
      else
        let s := s.setCollector die { c with out := writeAt (fun _ => []) c.out h.val rest }
        if bad then s.count32 (aHt h 0x2C)
        else
          let x := s.heath h
          let s := s.setHeath h { x with
            collection := ((s.clock, r) :: x.collection).take 4096
            lastReport := writeAt (fun _ => 0) x.lastReport die s.clock
            valeHungAt := if die.val = 4 then none else x.valeHungAt }
          s.reactTo h r.ev

/-- R455: at each multiple of 10 ms of the time base a die's collector sends a heartbeat; the Vale's has stopped where R501 says
so. -/
def execCollectorHeartbeat (die : Fin 5) (s : State) : Host.Outcome State Fault Refusal :=
  .next <| s.live <|
    let beat := s.now / 10000000 + 1
    if s.now % 10000000 ≠ 0 ∨ (s.collector die).beat = beat ∨ ¬ (s.dieSt die).out ∨ (die.val = 4 ∧ s.boot.silent) then s
    else
      let n := (s.collector die).dropped
      let s := s.setCollector die { s.collector die with dropped := 0, beat := beat }
      s.report ⟨die, 0, 0x1F, 0xFFFF, 0, 0xFFFF, "HEARTBEAT", n, 0, s.now, none⟩

/-- R455: no report of any kind from a die for 25 ms over a link that is up: it is hung. -/
def execDieHung (h : Fin 2) (die : Fin 5) (s : State) : Host.Outcome State Fault Refusal :=
  .next <|
    let x := s.heath h
    let d := die.val
    let last := max (readAt (fun _ => 0) x.lastReport d) (max (s.dieSt d).outAt x.upAt)
    if !x.up || !s.mayRestart || !s.linkUp (5 + h) d || decide (s.clock ≤ last + 25000000) || !(s.dieSt d).out then s
    else if d < 4 then (if s.drives h then s.warmRestart h d else s)
    else if x.valeHungAt.isSome then s
    else
      let s := s.setHeath h { x with valeHungAt := some s.clock }
      if s.partnerState h ≠ 0 || s.valeAgreed h (some s.clock) (s.heath (1 - h)).valeHungAt then s.valeRestart h else s

/-- R458: the entries that a half of a copy holds. -/
def frecHalf : Nat := 8192

/-- R458, R459: a Heath writes the oldest change that it still has to write, after compacting a full half into the other one. -/
def execFaultRecordWrite (h : Fin 2) (s : State) : Host.Outcome State Fault Refusal :=
  .next <|
    let c := s.frecCopy h
    match c.todo with
    | [] => s
    | e :: rest =>
      if !(s.heath h).up then s
      else
        let c := if frecHalf ≤ c.entries.length then { c with half := 1 - c.half, entries := frecRecord c.entries } else c
        s.setFrec h { c with entries := c.entries ++ [{ e with seq := c.lastSeq + 1 }], todo := rest }

/-! ## Checker self-test (R441, R467) -/

/-- R441: a Heath covers a Meadow: A M0 and M1, B M2 and M3, and all four while its partner is silent or absent. -/
def State.covers (s : State) (h d : Nat) : Bool := decide (d / 2 = h) || decide (s.partnerState h ≠ 0)

/-- The number of a check of the rotation. -/
def selfTestKey : SelfTest → Nat
  | .tile t g => 8 * tileIdKey t + g
  | .glen l g => 0x10000 + 8 * leaKey l.die l.lea + g
  | .prairie d g => 0x20000 + 8 * d + g
  | .stack d _ => 0x30000 + d
  | .pool l _ => 0x40000 + leaKey l.die l.lea

/-- The Meadow of a check. -/
def selfTestDie : SelfTest → Nat
  | .tile t _ => t.die
  | .glen l _ => l.die
  | .prairie d _ => d
  | .stack d _ => d
  | .pool l _ => l.die

/-- R441: the checks of a Meadow: every target of every tile that is not retired, of its engines, and its firewalls. -/
def State.checksOf (s : State) (d : Nat) : Nat :=
  let tiles := ((List.range 272).filter fun i => !s.tileRetired d (i / 17) (i % 17)).length
  5 * tiles + 3 * 16 + 3 + 1 + 16

/-- R441: a full rotation has been made: every check of every covered Meadow that is present. -/
def State.rotationDone (s : State) (h : Nat) : Bool :=
  let ds := (List.range 4).filter fun d => s.covers h d && s.meadowUp d
  decide ((ds.map s.checksOf).sum ≤ (s.heath h).tested.length)

/-- R441, R467: a check failed: the event, the count, the replace cause. -/
def State.checkerFail (s : State) (h a : Nat) : State :=
  ((s.heathEvent h "HT_CHECKER_FAIL" a 0).count32 (aHt h 0x2C)).replaceReq 8

/-- R467: a firewall of a Meadow failed: a warm restart, or the die is held at the second failure within 3,600 s. -/
def State.failFirewall (s : State) (h d key : Nat) : State :=
  let x := s.heath h
  let again := x.fwFails.any fun e => decide (e.1 = key) && decide (s.clock ≤ e.2 + 3600000000000)
  let s := s.setHeath h { x with fwFails := (key, s.clock) :: x.fwFails.filter fun e => decide (e.1 ≠ key) }
  if !s.mayRestart || (s.dieSt d).heldDown then s else if again then s.holdDown h d else s.warmRestart h d

/-- R441: an injection's register: what it last ended with is read, then it is armed anew. -/
def State.injectNext (s : State) (h a : Nat) (fail arm : State → State) : State :=
  let s := if s.reg (a + 4) = 2 then fail (s.checkerFail h a) else s
  arm s

/-- R441: the check can be made now: its target is one of the spec's, its tile can be injected, and no injection of it is under way. -/
def State.testReady (s : State) (test : SelfTest) : Bool :=
  match test with
  | .tile t g =>
    let st := s.tileSt t.die t.lea t.tile
    decide (st < 2) && decide (1 ≤ g.val) && decide (g.val ≤ 5) && !bit (s.reg (aTil t.die t.lea t.tile 0x44)) 31
  | .glen l g => decide (1 ≤ g.val) && decide (g.val ≤ 3) && !bit (s.reg (aGln l.die l.lea 0x44)) 31
  | .prairie e g => decide (1 ≤ g.val) && decide (g.val ≤ 3) && !bit (s.reg (aPra e 0x84)) 31
  | .stack _ _ | .pool _ _ => true

/-- R441: the next check of the rotation. One that cannot be made yet is not counted. -/
def execCheckerSelfTest (h : Fin 2) (test : SelfTest) (s : State) : Host.Outcome State Fault Refusal :=
  .next <| s.live <|
    let d := selfTestDie test
    let x := s.heath h
    let who := initHeath h
    if !x.up || !s.covers h d || !s.meadowUp d || decide (s.linkState (5 + h) d ≠ 4) || !s.testReady test then s
    else
      let known := x.tested.any fun e => decide (e.1 = selfTestKey test)
      let s := s.setHeath h { x with tested := if known then x.tested else x.tested ++ [(selfTestKey test, s.clock)] }
      let s := if s.rotationDone h then s.setHeath h { s.heath h with rotated := true, tested := [] } else s
      match test with
      | .tile t g => s.injectNext h (aTil t.die t.lea t.tile 0x44) (fun s => s.failTile t.die t.lea t.tile) fun s => s.arm who t g
      | .glen l g => s.injectNext h (aGln l.die l.lea 0x44) (fun s => s.warmRestart h l.die) fun s => s.glnArm who l g
      | .prairie e g => s.injectNext h (aPra e 0x84) (fun s => s.warmRestart h e) fun s => s.praArm who e g
      | .stack e admitted =>
        match s.dramAddr e 0 with
        | some a =>
          if admitted || decide (s.access (whoHeath h) false a 64 = 0) then (s.checkerFail h a).failFirewall h e (fwDram e) else s
        | none => s
      | .pool l admitted =>
        let a := poolBase l.die l.lea
        if admitted || decide (s.access (whoHeath h) false a 64 = 0) then (s.checkerFail h a).failFirewall h l.die (fwPool l.die l.lea) else s

/-! ## A Heath's own restart (R419, R447, R448, R497, R498) -/

/-- R419: a Heath fails silent and resets itself. -/
def execHeathFailSilent (h : Fin 2) (s : State) : Host.Outcome State Fault Refusal :=
  .next <| if (s.heath h).up then s.heathReset h true else s

/-- R447, R448: the parameter blocks of a Heath that boots, and of its partner where that runs. -/
def State.matchParams (s : State) (h : Nat) : State :=
  let x := s.heath h
  let p := s.heath (1 - h)
  let good := paramsOk x.params && (!p.up || decide (p.params = x.params))
  let set := fun (s : State) (k v : Nat) => s.setFld (aHt k 0x10) 13 13 v
  if good then (if p.up then set (set s h 1) (1 - h) 1 else set s h 1)
  else
    let s := set s h 0
    let s := if p.up && decide (p.params ≠ x.params) then set s (1 - h) 0 else s
    s.heathEvent h "HT_PARAM_MISMATCH" 0 0

/-- R447: a Heath that boots takes over its partner's trajectories and window. -/
def State.copyPartner (s : State) (h : Nat) : State :=
  let p := s.heath (1 - h)
  if !p.up then s
  else
    let x := s.heath h
    (s.setHeath h { x with accepted := p.accepted, fallback := p.fallback, window := p.window, partnerRole := s.role (1 - h) }).setFld
      (aHt h 0x1C) 31 24 (s.fld (aHt (1 - h) 0x1C) 31 24)

/-- R447, R497, R498: a Heath boots from its flash: the image that its ROM chooses, its measurement, its parameter block, and its
partner's state. -/
def execHeathBoot (h : Fin 2) (params : HeathParams) (s : State) : Host.Outcome State Fault Refusal :=
  .next <|
    let x := s.heath h
    if x.up || !(s.dieSt (5 + h)).out then s
    else
      let (s, r) := s.romBoot (heathSlot h) (s.heathRoot h) true []
      match r.slot with
      | none => s.setReg (aHt h 0x128) (bootWord r 0)
      | some i =>
        let hd := s.slotHeader (heathSlot h i)
        let s := (s.setReg (aHt h 0x128) (bootWord r (hdrKey hd))).setReg (aHt h 0x120) (hdrSvn hd)
        let s := s.setReg256 (aHt h 0x100) (sha256 (hd.take 4032))
        let s := s.setHeath h { x with up := true, upAt := s.clock, params := params }
        let s := (frecRecord (s.frecCopy h).entries).foldl (fun s e =>
          if e.die = 5 + h.val ∧ e.type = 7 then s.setSteps (5 + h) e.value else s) s
        ((s.matchParams h).copyPartner h).heathMeasCheck h

end Sys2Proof.Machine
end

