-- ==== Sys2Proof/Machine/HostPorts.lean ====
section
/-! DEFINITION. The host ports (R562 to R572): PCIe port A with its configuration, its inbound requests and its messages, port B,
and the Heaths' SGMII ports. -/

namespace Sys2Proof.Machine

/-- The host ports replaced by `f` of them. -/
def State.updHost (s : State) (f : HostPorts → HostPorts) : State := { s with host := f s.host }

/-- R571: port A's link is up. -/
def State.pciaUp (s : State) : Bool := decide (s.fld (aVal 0x200) 0 0 = 1)

/-! ## Links (R562, R566, R572) -/

/-- R39, R562: port A may train: the Vale is out of reset, PERST_A_N is high, and HOST_CFG is not ABSENT. -/
def State.pciaMayTrain (s : State) : Bool :=
  decide (s.boot.phase ≠ 0) && bit (s.reg (aVal 0x220)) 1 && (!bit (s.reg (aVal 0x18)) 7 || bit (s.reg (aVal 0x18)) 3)

/-- R566: port B may train: PERST_B_N is high from LOADED on. -/
def State.pcibMayTrain (s : State) : Bool := bit (s.reg (aVal 0x18)) 7

/-- R571: LINK, SPEED and WIDTH of a link that is up. -/
def linkWord (speed width : Nat) : Nat := 1 + speed * 2 + width * 16

/-- R562: PERST_A_N falls or rises. Low, it holds port A alone in reset. -/
def execPerstAChange (low : Bool) (s : State) : Host.Outcome State Fault Refusal :=
  .next <|
    let t := s.setFld (aVal 0x220) 1 1 (b2n (!low))
    if s.frozen || !low then t else t.pciaDown.pciaReset

/-- R562, R566, R571, R572: the link of a port goes up, at a speed and width that the port supports, or down. The device behind
port B is enumerated as its link comes up. -/
def execPcieLinkChange (portB up : Bool) (speed : Fin 8) (width : Fin 16) (s : State) : Host.Outcome State Fault Refusal :=
  .next <| s.live <|
    let good := decide (1 ≤ speed.val) && decide (speed.val ≤ 5) && [1, 2, 4, 8].contains width.val
    let v := linkWord speed width
    if portB then
      let was := decide (s.fld (aVal 0x208) 0 0 = 1)
      if up && good && s.pcibMayTrain then
        let s := (s.setFld (aVal 0x208) 7 0 v).setFld (aVal 0x208) 9 9 (b2n s.secRunning)
        if was then s else s.raise 4 0 0x1F "PCIE_LINK" 1 1
      else if !up && was then (s.setReg (aVal 0x208) 0).raise 4 0 0x1F "PCIE_LINK" 1 0
      else s
    else if up && good && s.pciaMayTrain then
      let was := s.pciaUp
      let s := (s.setFld (aVal 0x200) 7 0 v).effHost
      if was then s else s.raise 4 0 0x1F "PCIE_LINK" 0 1
    else if !up then s.pciaDown
    else s

/-! ## Configuration (R562, R563) -/

/-- The bytes of `v` that the byte enables pick, in place of those of `old`. -/
def byteEnable (old v be : Nat) : Nat :=
  leNat ((List.range 4).map fun i => BitVec.ofNat 8 ((if bit be i then v else old) >>> (8 * i)))

/-- R562, R563: a dword of port A's configuration space. The BARs are of 256 MiB and 64 GiB, both of 64 bits, the second
prefetchable. The AER status and the serial number, COL_UID, stand in their capabilities. -/
def State.pciConfig (s : State) (d : Nat) : Nat :=
  let h := s.host
  let last := readAt (fun _ => 0) h.config d
  let free := Config.pciField d last % 2 ^ 32
  let st := s.reg (aVal 0x200)
  match d with
  | 0 => setBits free 31 16 0x0D18
  | 1 => setBits (setBits free 1 1 (bits st 11 11)) 2 2 (bits st 10 10)
  | 2 => 0x120000B0
  | 4 => bits h.bar0 31 28 * 2 ^ 28 + 4
  | 5 => bits h.bar0 63 32
  | 6 => 0x0C
  | 7 => bits h.bar2 63 36 * 16
  | _ =>
    if d < 16 then free
    else if d = Config.capabilityAt 0 then setBits free 1 0 (if bit st 9 then 3 else 0)
    else if d = Config.capabilityAt 1 then setBits (setBits (setBits free 26 16 3) 31 31 (b2n h.msixEnable)) 30 30 (b2n h.msixMask)
    else if d = Config.capabilityAt 2 then h.aer
    else if d = Config.capabilityAt 3 then bits (s.reg (aCol 0x10)) 31 0
    else if d = Config.capabilityAt 3 + 1 then bits (s.reg (aCol 0x10)) 63 32
    else free

/-- R562, R563: a dword of port A's configuration space written: the BARs, Memory Space Enable, Bus Master Enable, D3hot, the
enable and mask of MSI-X, and the AER status, whose bits a 1 clears; what another register holds is open. -/
def State.pciWrite (s : State) (d v : Nat) : State :=
  let s := s.updHost fun h => { h with config := writeAt (fun _ => 0) h.config d v }
  match d with
  | 1 => (s.setFld (aVal 0x200) 11 11 (bits v 1 1)).setFld (aVal 0x200) 10 10 (bits v 2 2)
  | 4 => s.updHost fun h => { h with bar0 := setBits h.bar0 31 0 (bits v 31 28 * 2 ^ 28) }
  | 5 => s.updHost fun h => { h with bar0 := setBits h.bar0 63 32 v }
  | 6 => s
  | 7 => s.updHost fun h => { h with bar2 := setBits h.bar2 63 32 (bits v 31 4 * 16) }
  | _ =>
    if d < 16 then s
    else if d = Config.capabilityAt 0 then
      if bits v 1 0 = 0 then s.setFld (aVal 0x200) 9 9 0 else if bits v 1 0 = 3 then s.setFld (aVal 0x200) 9 9 1 else s
    else if d = Config.capabilityAt 1 then s.updHost fun h => { h with msixEnable := bit v 31, msixMask := bit v 30 }
    else if d = Config.capabilityAt 2 then s.updHost fun h => { h with aer := h.aer &&& (2 ^ 32 - 1 - v % 2 ^ 32) }
    else s

/-- R563: a configuration request of the host: it reaches function 0 while the link is up. -/
def execPcieConfigRequest (wr : Bool) (dword : Fin 1024) (be : BitVec 4) (value : Word32) (s : State) :
    Host.Outcome State Fault Refusal :=
  .next <| s.live <|
    let d := dword.val
    if !s.pciaUp then s
    else if wr then
      (s.pciWrite d (byteEnable (s.pciConfig d) value.toNat be.toNat)).updHost fun h => { h with completion := 0, readData := [] }
    else s.updHost fun h => { h with completion := 0, readData := leBytes 4 (s.pciConfig d) }

/-! ## Inbound requests (R563, R564) -/

/-- R563: what `n` bytes from an inbound address reach: the device's address, none where they leave a BAR. -/
def State.barAddr (s : State) (a n : Nat) : Option Nat :=
  let b0 := s.host.bar0
  let b2 := s.host.bar2
  if b0 ≤ a ∧ a + n ≤ b0 + 0x10000000 then some (valeBase + (a - b0))
  else if b2 ≤ a ∧ a + n ≤ b2 + 0x1000000000 then some (a - b2)
  else none

/-- R563: port A takes memory requests: Memory Space Enable is 1, and the function is not in D3hot. -/
def State.pciaTakes (s : State) : Bool := bit (s.reg (aVal 0x200)) 11 && !bit (s.reg (aVal 0x200)) 9

/-- What a dword of the MSI-X table holds at reset: its vectors are masked. -/
def msixReset (k : Nat) : Nat := if k % 4 = 3 then 1 else 0

/-- R565: a byte of the MSI-X table or of its pending bits; none elsewhere. -/
def State.msixByte (s : State) (a : Nat) : Option Byte :=
  let o := a - valeBase
  if a < valeBase then none
  else if 0x80000 ≤ o ∧ o < 0x80040 then
    some (BitVec.ofNat 8 (readAt msixReset s.host.msixTable ((o - 0x80000) / 4) >>> (8 * (o % 4))))
  else if 0x81000 ≤ o ∧ o < 0x81008 then some (BitVec.ofNat 8 (s.host.msixPending >>> (8 * (o - 0x81000))))
  else none

/-- R565: a byte of the MSI-X table written; the pending bits are read-only. -/
def State.msixPut (s : State) (a : Nat) (b : Byte) : State :=
  let o := a - valeBase
  if 0x80000 ≤ o ∧ o < 0x80040 then
    let k := (o - 0x80000) / 4
    let i := 8 * (o % 4)
    s.updHost fun h => { h with
      msixTable := writeAt msixReset h.msixTable k (setBits (readAt msixReset h.msixTable k) (i + 7) i b.toNat) }
  else s

/-- R564: the completion of a status: Unsupported Request, Completer Abort, or poisoned data. -/
def completionOf (st : Nat) : Nat := if st = 0 then 0 else if st = 8 then 4 else if st = 5 then 8 else 1

/-- R564: a refusal of the device's own counts in VAL_PCIA_UR. -/
def State.pciaRefuse (s : State) (st : Nat) : State := if st = 4 ∨ st = 8 then s.count32 (aVal 0x204) else s

/-- R564: AER reports a discarded posted write: bit 20 Unsupported Request, bit 15 Completer Abort. A write has no poisoned end. -/
def State.aerReport (s : State) (completion : Nat) : State :=
  if completion = 0 ∨ completion = 8 then s
  else s.updHost fun h => { h with aer := setBit h.aer (if completion = 4 then 15 else 20) true }

/-- R373, R563, R564: a read through a BAR. -/
def execPcieInboundRead (addr : Word) (len : BitVec 13) (s : State) : Host.Outcome State Fault Refusal :=
  .next <| s.live <|
    let n := len.toNat
    let done := fun (s : State) (c : Nat) (d : List Byte) => s.updHost fun h => { h with completion := c, readData := d }
    if !s.pciaUp || decide (n = 0) || decide (4096 < n) || !((s.barAddr addr.toNat n).all fun a => s.dramTakes 4 false a n) then s
    else if !s.pciaTakes then done s 1 []
    else match s.barAddr addr.toNat n with
      | none => done s 1 []
      | some a =>
        let own := (List.range n).filterMap fun i => s.msixByte (a + i)
        if own.length = n then done s 0 own
        else
          let r := s.read (whoIs initPcieA) a n
          done ((if r.1 = 0 then s.chargeAs 4 0xFF9 false a n else s).pciaRefuse r.1) (completionOf r.1) r.2

/-- R373, R563, R564: a posted write through a BAR. -/
def execPcieInboundWrite (addr : Word) (data : List Byte) (s : State) : Host.Outcome State Fault Refusal :=
  .next <| s.live <|
    let n := data.length
    if !s.pciaUp || decide (n = 0) || decide (512 < n) || !((s.barAddr addr.toNat n).all fun a => s.dramTakes 4 true a n) then s
    else if !s.pciaTakes then s.aerReport 1
    else match s.barAddr addr.toNat n with
      | none => s.aerReport 1
      | some a =>
        if ((List.range n).filterMap fun i => s.msixByte (a + i)).length = n then
          (List.range n).foldl (fun s i => s.msixPut (a + i) (data.getD i 0)) s
        else
          let r := s.write (whoIs initPcieA) a data
          if r.1 = 0 then r.2.chargeAs 4 0xFF9 true a n else (r.2.pciaRefuse r.1).aerReport (completionOf r.1)

/-! ## Messages (R565) -/

/-- R565: a vector may send: MSI-X is enabled and neither it nor the vector is masked, Bus Master Enable is 1, and the link is up
in D0. -/
def State.msixMay (s : State) (v : Nat) : Bool :=
  s.pciaUp && s.host.msixEnable && !s.host.msixMask && bit (s.reg (aVal 0x200)) 10 && !bit (s.reg (aVal 0x200)) 9
    && !bit (readAt msixReset s.host.msixTable (4 * v + 3)) 0

/-- R565: a vector that has something to signal sends its message, at most one per 2 µs; one that may not send holds a pending
bit. -/
def execMsixMessage (v : Fin 4) (s : State) : Host.Outcome State Fault Refusal :=
  .next <| s.live <|
    let i := v.val
    let h := s.host
    let last := readAt (fun _ => 0) h.msixSent i
    if !bit h.msixDue i && !bit h.msixPending i then s
    else if !s.msixMay i then
      s.updHost fun h => { h with msixDue := setBit h.msixDue i false, msixPending := setBit h.msixPending i true }
    else if last ≠ 0 ∧ s.now + 1 < last + 2000 then s
    else
      let e := fun (k : Nat) => readAt msixReset h.msixTable (4 * i + k)
      s.updHost fun h => { h with
        msixDue := setBit h.msixDue i false, msixPending := setBit h.msixPending i false
        msixSent := writeAt (fun _ => 0) h.msixSent i (s.now + 1)
        message := some (e 0 + e 1 * 2 ^ 32, e 2) }

/-! ## Port B and the Heaths' ports (R566, R567) -/

/-- R566: a completion timeout or an uncorrectable error at port B fails the running command whose image lies there. -/
def execPcieCompletionTimeout (status : Word32) (s : State) : Host.Outcome State Fault Refusal :=
  .next <| s.live <|
    let on := s.inFlight.filter fun c => decide (c.kind = 4) && decide (ckDest c.words = 2)
    let s := on.foldl (fun s c => s.faultCmd c.ref 4 0 0x1F 8 true) s
    s.raise 4 0 0x1F "PCIE_ERR" status.toNat 0

/-- R566: a memory request of the downstream device completes with Unsupported Request. -/
def execPortBInboundRequest (s : State) : Host.Outcome State Fault Refusal :=
  .next <| s.live (if s.fld (aVal 0x208) 0 0 = 1 then s.updHost fun h => { h with completionB := 1 } else s)

/-- R567: a Heath's SGMII link is up on a partner control word of 1 Gb/s full duplex alone. -/
def execSgmiiLinkChange (h : Fin 2) (up gigabit full : Bool) (s : State) : Host.Outcome State Fault Refusal :=
  .next (s.updHost fun x => { x with sgmii := x.sgmii.set h ((s.heath h).up && up && gigabit && full) })

end Sys2Proof.Machine
end

