-- ==== Sys2Proof/Machine/Messages.lean ====
section
/-! DEFINITION. The requests and responses of the die links (R19, R350, R351, R363): a message that a port has received is served by
its die, sent on towards its target, or answered. -/

namespace Sys2Proof.Machine

/-! ## Where a message goes -/

/-- The die that serves an address (R26, R321); one outside every range is refused where it is met. -/
def State.dieOf (s : State) (here a : Nat) : Nat :=
  match placeOf a with
  | some (.dram, _, _) => (s.stackOf a).1
  | some (.pool d _, _, _) | some (.tile d _ _, _, _) => d
  | some (.block b, _, _) =>
    match b with
    | .mdw d | .pra d | .dmc d | .fdl d | .flr d | .pwrDie d | .lea d _ | .gln d _ | .til d _ _ => d
    | .ht h | .fdlHeath h => 5 + h
    | _ => 4
  | some _ => 4
  | none => here

/-- R351: the oldest message of a type in a port's inbox that no message of its VC precedes. -/
def Port.first (x : Port) (type : Nat) : Option Msg :=
  [2, 1, 0].findSome? fun vc =>
    match x.inbox.find? fun m => decide (m.vc = vc) with
    | some m => if m.type = type then some m else none
    | none => none

/-- R349: a message taken from a port's inbox: its slots are free for the partner again. -/
def State.dropMsg (s : State) (die q : Nat) (m : Msg) : State :=
  let x := s.port die q
  s.setPort die q { x with inbox := x.inbox.erase m, freed := x.freed.set m.vc (x.freed.getD m.vc 0 + 1 + m.dslots) }

/-- R349: the slots freed that no flit has returned yet go back in an IDLE flit. -/
def State.returnCredits (s : State) (die q : Nat) : State :=
  if (s.port die q).freed.any fun n => decide (n ≠ 0) then s.bareFlit die q 0 else s

/-- R350, R373, R442: who a request comes from. -/
def State.whoOf (s : State) (m : Msg) : Who :=
  let init := bits m.h0 32 21
  ⟨init, s.taggedCmd m.h0, decide (init / 256 < 4) && decide (init % 256 < 0x10), false⟩

/-- R363: a message that came by `from_`, 8 for the die itself, is queued at a port that has a partner; a port that is DOWN
discards it. -/
def State.sendMsg (s : State) (die q from_ : Nat) (m : Msg) : State :=
  if s.linkUp die q || decide (s.linkState die q = 5) then s.queueMsg die q from_ m else s

/-- R19: the port by which a die passes a request on. The Vale carries no traffic between Meadows. -/
def State.wayOut (s : State) (die q dest : Nat) : Option Nat :=
  if die = 4 ∧ facing die q < 4 ∧ dest < 4 then none else s.nextPort die dest

/-- R363: a request that cannot reach its target is answered with DIE_ABSENT, and its tag is reported while the target counts as
present. -/
def State.turnBack (s : State) (die q dest : Nat) (m : Msg) : State :=
  let s := s.answerAbsent die ⟨m.h0, m.h1, q⟩
  match s.taggedCmd m.h0 with
  | some r => if s.meadowUp dest then s.kill [r] 1 false .go else s
  | none => s

/-- R19, R358, R363: a request passed on, as the next link carries it: it is outstanding at the port by which it leaves. A post is
not answered. -/
def State.passOn (s : State) (die q dest : Nat) (m : Msg) : State :=
  match s.wayOut die q dest with
  | none => s.turnBack die q dest m
  | some r =>
    (linkForms (s.reg (aFdl die r 0x18)) m).foldl (fun s f =>
      let s := s.queueMsg die r q f
      if f.type = 6 then s
      else
        let x := s.port die r
        s.setPort die r { x with outstanding := x.outstanding ++ [⟨f.h0, f.h1, q⟩] }) s

/-- R376: the DRAM controller of a Meadow charges a line to the class and task of a request: 1, or 2 for a line written in part. -/
def State.chargeDram (s : State) (die a : Nat) (m : Msg) (part : Bool) : State :=
  match placeOf a with
  | some (.dram, _, _) => s.charge die 0 m.cls m.task (1 + b2n part)
  | _ => s

/-- The line of an address. -/
def lineOf (a : Nat) : Nat := a / 64 * 64

/-- A request of a type that arrived at a port: served by `f` on its die, where it waits while the DRAM does
not take it (R382), or passed on. -/
def State.request (s : State) (p : PortId) (type : Nat) (f : State → Msg → State) : State :=
  let die := p.die.val
  let q := p.port.val
  if !portOk p || !s.linkUp die q then s
  else match (s.port die q).first type with
    | none => s
    | some m =>
      let dest := s.dieOf die m.addr
      if dest ≠ die then ((s.dropMsg die q m).passOn die q dest m).returnCredits die q
      else if !s.dramTakes (bits m.h0 8 6) (decide (m.type ≠ 1) && decide (m.type ≠ 8)) (lineOf m.addr)
          (if m.type = 8 then 128 else 64) then s
      else (f (s.dropMsg die q m) m).returnCredits die q

/-! ## Requests (R351) -/

/-- R351: one line read: its response, with data or with a status. -/
def State.serveRead (s : State) (die q : Nat) (m : Msg) (a : Nat) : State :=
  let s := s.chargeDram die a m false
  let r := s.read (s.whoOf m) a 64
  s.sendMsg die q 8 (responseOf m.h0 m.h1 4 r.1 (if r.1 = 0 then r.2 else []))

/-- R351: RD. -/
def execRd (p : PortId) (s : State) : Host.Outcome State Fault Refusal :=
  .next <| s.live (s.request p 1 fun s m => s.serveRead p.die p.port m (lineOf m.addr))

/-- R351: RD2: two consecutive lines, a response for each. -/
def execRd2 (p : PortId) (s : State) : Host.Outcome State Fault Refusal :=
  .next <| s.live (s.request p 8 fun s m =>
    (s.serveRead p.die p.port m (lineOf m.addr)).serveRead p.die p.port m (lineOf m.addr + 64))

/-- The runs of consecutive bytes that a byte mask selects: the first byte of each and its bytes, newest first. -/
def runsOf (mask : Nat) (data : List Byte) : Nat → List (Nat × List Byte) → List (Nat × List Byte)
  | 0, l => l
  | n + 1, l =>
    let i := 64 - (n + 1)
    let b := data.getD i 0
    if !mask.testBit i then runsOf mask data n l
    else match l with
      | (o, bs) :: t => if o + bs.length = i then runsOf mask data n ((o, bs ++ [b]) :: t) else runsOf mask data n ((i, [b]) :: l)
      | [] => runsOf mask data n [(i, [b])]

/-- R351: a line write under a byte mask: performed whole or, where any part is refused, not at all; its acknowledgement carries
the status. -/
def State.serveWrite (s : State) (die q : Nat) (m : Msg) (mask : Nat) (data : List Byte) : State :=
  let a := lineOf m.addr
  let who := s.whoOf m
  let s := s.chargeDram die a m (decide (mask ≠ 2 ^ 64 - 1))
  let runs := runsOf mask data 64 []
  let st := oneOf (runs.flatMap fun r =>
    let c := (s.write who (a + r.1) r.2).1
    if c = 0 then [] else [c])
  let s := if st = 0 then runs.foldl (fun s r => (s.write who (a + r.1) r.2).2) s else s
  s.sendMsg die q 8 (responseOf m.h0 m.h1 5 st [])

/-- R351: WR. -/
def execWr (p : PortId) (s : State) : Host.Outcome State Fault Refusal :=
  .next <| s.live (s.request p 2 fun s m => s.serveWrite p.die p.port m (2 ^ 64 - 1) m.data)

/-- R351: WRP: the mask stands in word 0 of the first data slot. -/
def execWrp (p : PortId) (s : State) : Host.Outcome State Fault Refusal :=
  .next <| s.live (s.request p 3 fun s m => s.serveWrite p.die p.port m (leNat (m.data.take 8)) (m.data.drop 16))

/-- R351: ZWR. -/
def execZwr (p : PortId) (s : State) : Host.Outcome State Fault Refusal :=
  .next <| s.live (s.request p 7 fun s m => s.serveWrite p.die p.port m (2 ^ 64 - 1) (List.replicate 64 0))

/-- R140, R141, R351: a post arrives at the die of its counter, or is passed on. One that R139 would refuse changes nothing. -/
def execFdlPost (p : PortId) (s : State) : Host.Outcome State Fault Refusal :=
  .next <| s.live (s.request p 6 fun s m =>
    let w := leNat (m.data.take 8)
    let kind := bits w 33 32
    if s.postStatus whoFabric m.addr kind ≠ 0 then s else s.postApply m.addr kind (bits w 31 0))

/-! ## Responses (R350, R351, R363) -/

/-- R350: the outstanding request that a response answers: the one with its RTAG and INIT that its type answers. -/
def answered (m : Msg) (l : List Forwarded) : Option Forwarded :=
  l.find? fun f => decide (bits f.h0 42 33 = bits m.h0 42 33) && decide (bits f.h0 32 21 = bits m.h0 32 21)
    && decide (responseType f.h0 = m.type)

/-- R363: a request answered once: two lines wait for one more response, every other request for none. -/
def answerOnce (f : Forwarded) (l : List Forwarded) : List Forwarded :=
  if bits f.h0 3 0 = 8 then l.map fun g => if g = f then { g with h0 := setBits g.h0 3 0 1 } else g else l.erase f

/-- R351: a response goes back the way of its request; one that answers no request passed on ends here. -/
def State.respond (s : State) (p : PortId) (type : Nat) : State :=
  let die := p.die.val
  let q := p.port.val
  if !portOk p || !s.linkUp die q then s
  else match (s.port die q).first type with
    | none => s
    | some m =>
      let s := s.dropMsg die q m
      let x := s.port die q
      let s := match answered m x.outstanding with
        | none => s
        | some f => (s.setPort die q { x with outstanding := answerOnce f x.outstanding }).sendMsg die f.from_ q m
      s.returnCredits die q

/-- R351: RDRSP. -/
def execRdrsp (p : PortId) (s : State) : Host.Outcome State Fault Refusal := .next <| s.live (s.respond p 4)

/-- R351: WRACK. -/
def execWrack (p : PortId) (s : State) : Host.Outcome State Fault Refusal := .next <| s.live (s.respond p 5)

end Sys2Proof.Machine
end

