-- ==== Sys2Proof/Machine/Power.lean ====
section
/-! DEFINITION. Power, cooling and the die power controllers (R464, R465, R536 to R553): the inputs, the module limits with the
backstop, budgets, operating points, thermal caps and trips, the coolant, and ageing. -/

namespace Sys2Proof.Machine

/-- The power state replaced by `f` of it. -/
def State.updPower (s : State) (f : Power → Power) : State := { s with power := f s.power }

/-! ## Inputs (R536 to R539) -/

/-- R514: both bypasses set. -/
def State.setBypass (s : State) (closed : Bool) : State := s.updCol fun c => { c with bypass := [closed, closed] }

/-- R538: the main input rises into range. -/
def execMainInputInRange (s : State) : Host.Outcome State Fault Refusal :=
  .next <|
    if s.power.mainOk then s
    else (s.updPower fun p => { p with mainOk := true, mainAt := s.clock }).setFld (aPwr 0) 0 0 1

/-- R476, R537, R539: the main input is lost: module reset, and nothing that only power keeps. -/
def State.mainLost (s : State) : State :=
  if !s.power.mainOk then s
  else
    let s := s.moduleReset.setFld (aVal 0x104) 4 1 0
    let s := (s.updPower fun p => { p with mainOk := false, resetLow := p.resetLow }).setFld (aPwr 0) 0 0 0
    if s.power.auxOk then s else s.setBypass false

/-- R539: the main input leaves range. -/
def execMainInputOutOfRange (s : State) : Host.Outcome State Fault Refusal := .next s.mainLost

/-- R537, R538: the auxiliary input rises into range: the bypasses close. -/
def execAuxInputInRange (s : State) : Host.Outcome State Fault Refusal :=
  .next <|
    if s.power.auxOk then s
    else
      let s := (s.updPower fun p => { p with auxOk := true, auxAt := s.clock }).setFld (aPwr 0) 1 1 1
      s.setBypass true

/-- R537, R539: the auxiliary input is lost: both Heaths lose their power, the Vale and the Meadows are held in reset, and the
bypasses open. What the Heaths' wires held is forgotten until their records are read again. -/
def State.auxLost (s : State) : State :=
  if !s.power.auxOk then s
  else
    let s := if s.power.mainOk then s.moduleReset else s
    let s := (s.heathReset 0 false).heathReset 1 false
    let s := (List.range 5).foldl (fun s d => s.setDie d dieFresh) s
    let s := (s.updPower fun p => { p with auxOk := false }).setFld (aPwr 0) 1 1 0
    s.setBypass false

/-- R539: the auxiliary input leaves range. -/
def execAuxInputOutOfRange (s : State) : Host.Outcome State Fault Refusal := .next s.auxLost

/-- R536: an input above its over-voltage threshold is out of range; the event waits until it can be read. -/
def execInputOvervoltage (aux : Bool) (s : State) : Host.Outcome State Fault Refusal :=
  .next <|
    let s := if aux then s.auxLost else s.mainLost
    s.updPower fun p => { p with overReport := setBit p.overReport (b2n aux) true }

/-! ## Module limits (R540 to R542) -/

/-- A periodic act is due: its period has passed since the last one, if there was one. -/
def periodOver (last : Option Nat) (period now : Nat) : Bool := last.all fun t => decide (t + period ≤ now)

/-- The mean of the samples taken in the last `n` ns. -/
def meanOf (now n : Nat) (l : List (Nat × Nat)) : Nat :=
  let w := l.takeWhile fun e => decide (now < e.1 + n)
  (w.map (·.2)).sum / max 1 w.length

/-- R536: over-voltages that wait are reported once events can be read. -/
def State.reportOver (s : State) : State :=
  if !s.schRunning || decide (s.power.overReport = 0) then s
  else
    let o := s.power.overReport
    let s := s.updPower fun p => { p with overReport := 0 }
    (List.range 2).foldl (fun s i => if bit o i then s.raise 4 0 0x1F "PWR_INPUT" i 0 else s) s

/-- R540, R542: the Vale measures both inputs, in 10 mV and 10 mA, every 10 µs; the backstop follows the means. -/
def execPowerMeasure (mainV mainI auxV auxI : BitVec 16) (s : State) : Host.Outcome State Fault Refusal :=
  .next <| s.live <|
    if s.boot.phase = 0 ∨ ¬ periodOver (s.power.samples.head?.map (·.1)) 10000 s.now then s
    else
      let s := (s.setReg (aPwr 4) (mainV.toNat + mainI.toNat * 2 ^ 16)).setReg (aPwr 8) (auxV.toNat + auxI.toNat * 2 ^ 16)
      let mw := (mainV.toNat * mainI.toNat + auxV.toNat * auxI.toNat) / 10
      let l := ((s.now, mw) :: s.power.samples).takeWhile fun e => decide (s.now < e.1 + 1000000000)
      let s := s.updPower fun p => { p with samples := l }
      let m1 := meanOf s.now 1000000 l
      let m100 := meanOf s.now 100000000 l
      let m1s := meanOf s.now 1000000000 l
      let s := s.setReg (aPwr 0x0C) (min (m1 / 100) 65535 + min (m1s / 100) 65535 * 2 ^ 16)
      let cont := 100 * s.fld (aPwr 0x10) 15 0
      let short := 100 * s.fld (aPwr 0x10) 31 16
      let was := bit (s.reg (aPwr 0)) 2
      let trip := decide (short + 20000 < m1) || decide (short < m100) || decide (cont < m1s)
      let active := trip || (was && decide (cont ≤ m1 + 30000))
      let s := s.setFld (aPwr 0) 2 2 (b2n active)
      let s := if active && !was then (s.count32 (aPwr 0x18)).raise 4 0 0x1F "PWR_BACKSTOP" (m1 / 100) 0 else s
      s.reportOver

/-- R541: what the firmware charges for the fixed loads, which the spec leaves to its measurements. -/
def useFixedLoad : Nat := 11
/-- R541: the operating points that a budget allows, which the spec leaves to the firmware. -/
def usePoints : Nat := 12
/-- R541: a Meadow's budget where no Meadow reports any power, so that the proportion says nothing. -/
def useShare : Nat := 21

/-- R541, R551: every 1 ms the power-management core divides what the fixed loads leave of CONT among the present Meadows, in
proportion to their reports, and sends each a budget. -/
def execPwrBudgetCycle (s : State) : Host.Outcome State Fault Refusal :=
  .next <| s.live <|
    if s.fld (aPwr 0) 4 3 ≠ 1 ∨ s.now % 1000000 ≠ 0 ∨ s.power.budgetAt = some s.now then s
    else
      let s := s.updPower fun p => { p with budgetAt := some s.now }
      let (fixed, s) := s.draw useFixedLoad
      let rest := 100 * s.fld (aPwr 0x10) 15 0 - fixed
      let ds := (List.range 4).filter s.meadowUp
      let mw := fun (d : Nat) => (readAt (fun _ => (0, 0)) s.power.reports d).1
      let total := (ds.map mw).sum
      ds.foldl (fun s d =>
        let (pts, s) := s.draw usePoints
        let (part, s) := if total = 0 then s.draw useShare else (rest * mw d / total, s)
        s.updPower fun p => { p with sent := insertKey p.sent d (min part (2 ^ 20 - 1), pts % 8) }) s

/-- R356, R541: the Vale receives a Meadow's report: its mean power over 1 ms and its point. -/
def execPwrReport (p : PortId) (s : State) : Host.Outcome State Fault Refusal :=
  .next <| s.live <|
    let d := p.die.val
    if !portOk p then s
    else if d ≠ 4 ∨ 4 ≤ p.port.val then s.count32 (aFdl d p.port 0x3C)
    else
      let m := p.port.val
      if !(s.dieSt m).out then s
      else s.updPower fun x => { x with reports := insertKey x.reports m (s.fld (aPwrDie m 4) 19 0, s.fld (aMdw m 0x10) 1 0) }

/-! ## Operating points (R543 to R546) -/

/-- R543: the set-point of a point, in mV, before ageing. -/
def pointMv (p : Nat) : Nat := if p = 0 then 800 else if p = 1 then 720 else 620

/-- R544: the cap that POINTS of a budget gives: the fastest point that it allows. -/
def pointsCap (pts : Nat) : Nat := if bit pts 0 then 0 else if bit pts 1 then 1 else 2

/-- R546: the regulation cap after a measurement. -/
def DiePower.regulate (x : DiePower) (now mw m100 m1 : Nat) : DiePower :=
  if !x.budgeted then x
  else
    let low := decide (4 * m1 < 3 * mw)
    let below := if low then some (x.below.getD now) else none
    let x := { x with below := below }
    if mw = 0 then { x with regCap := 2 }
    else if mw < m100 then { x with regCap := min 2 (x.regCap + 1), regAt := now, below := none }
    else match below with
      | some t => if 0 < x.regCap ∧ max t x.regAt + 1000000 ≤ now then { x with regCap := x.regCap - 1, regAt := now, below := none } else x
      | none => x

/-- R544, R552: the caps of a Meadow in the order of PWR_DIE_CAP.CAUSE: POINTS, regulation, thermal, DRAM, ageing, backstop. -/
def State.caps (s : State) (d : Nat) : List Nat :=
  let x := s.diePw d
  [ pointsCap (s.fld (aPwrDie d 0) 22 20), if x.budgeted then x.regCap else 0,
    if x.hot110 then 2 else if x.hot105 then 1 else 0, if x.dramHot then 2 else 0,
    min 2 (s.fld (aMdw d 0x40) 5 4), if bit (s.reg (aPwr 0)) 2 then 2 else 0 ]

/-- R543, R544: the point chosen, its cause and its set-point. -/
def State.choosePoint (s : State) (d : Nat) : State :=
  let l := s.caps d
  let p := l.foldl max 0
  let cause := (List.range 6).foldl (fun c i => if 0 < l.getD i 0 then c + 2 ^ i else c) 0
  let s := s.setDiePw d { s.diePw d with cycles := s.tileEighths d, cyclesAt := s.now }
  let s := (s.setReg (aPwrDie d 0x0C) (p + cause * 4)).setFld (aMdw d 0x10) 1 0 p
  s.setReg (aPwrDie d 0x10) (pointMv p + 5 * s.fld (aMdw d 0x40) 3 0)

/-- R544, R546: the evaluation of the newest sample: the regulation cap, from what it was before this evaluation, and the point. -/
def State.evaluate (s : State) (d : Nat) : State :=
  let x := s.diePw d
  let m1 := meanOf s.now 1000000 x.samples
  let x := { x with regCap := x.prior.1, regAt := x.prior.2.1, below := x.prior.2.2 }.regulate s.now
    (s.fld (aPwrDie d 0) 19 0) (meanOf s.now 100000 x.samples) m1
  ((s.setDiePw d x).setReg (aPwrDie d 4) (min m1 (2 ^ 20 - 1))).choosePoint d

/-- R544: an evaluation of the die power controller, once in 1 µs, with the power measured. -/
def execOppEvaluate (die : Fin 4) (mw : BitVec 20) (s : State) : Host.Outcome State Fault Refusal :=
  .next <| s.live <|
    let d := die.val
    let x := s.diePw d
    if !(s.dieSt d).out || !periodOver (x.samples.head?.map (·.1)) 1000 s.now then s
    else
      let l := ((s.now, mw.toNat) :: x.samples).takeWhile fun e => decide (s.now < e.1 + 1000000)
      (s.setDiePw d { x with samples := l, prior := (x.regCap, x.regAt, x.below) }).evaluate d

/-- R356, R541: a Meadow receives its budget on its Vale port; on any other port the message is dropped and counted.
R544: one that arrives in the cycle of an evaluation is used in it. -/
def execPwrBudget (p : PortId) (s : State) : Host.Outcome State Fault Refusal :=
  .next <| s.live <|
    let d := p.die.val
    if !portOk p then s
    else if 4 ≤ d ∨ p.port.val ≠ 2 then s.count32 (aFdl d p.port 0x3C)
    else match lookup s.power.sent d with
      | none => s
      | some b =>
        let s := s.updPower fun x => { x with sent := eraseKey x.sent d }
        let s := (s.setReg (aPwrDie d 0) (b.1 + b.2 * 2 ^ 20)).setDiePw d { s.diePw d with budgeted := true }
        if (s.diePw d).samples.head?.map (·.1) = some s.now then s.evaluate d else s

/-! ## Temperatures (R334, R547 to R549) -/

/-- R547: a cap with its threshold: set at or above it, released after 100 ms at or below it minus 5 °C. -/
def hotCap (hot : Bool) (cool : Option Nat) (now : Nat) (t limit : Int) : Bool × Option Nat :=
  if limit ≤ t then (true, none)
  else if !hot || decide (limit - 5 < t) then (hot, none)
  else
    let since := cool.getD now
    if since + 100000000 ≤ now then (false, none) else (true, some since)

/-- R548: a Meadow trips: the event, the count, self-refresh, RESET_NOTIFY, and a reset that lasts until it has cooled. -/
def State.meadowTrip (s : State) (d : Nat) : State :=
  let s := ((s.raise d 0 0x1F "PWR_THERMAL_TRIP" 0 0).count32 (aPwrDie d 0x14)).meadowLeaves d
  s.setDiePw d { s.diePw d with tripped := true }

/-- R547: what a die's hottest reading does, and that it has cooled to 100 °C. -/
def State.thermal (s : State) (d : Nat) (t : Int) : State :=
  let x := s.diePw d
  let (h105, c105) := hotCap x.hot105 x.cool105 s.clock t 105
  let (h110, c110) := hotCap x.hot110 x.cool110 s.clock t 110
  let rises := decide (105 ≤ t) && !x.hot105
  let s := s.setDiePw d { x with hot105 := h105, cool105 := c105, hot110 := h110, cool110 := c110 }
  let s := if rises then
      (if d < 5 then s.raise d 0 0x1F "PWR_THERMAL" (wrap 8 t) 0 else s.heathEvent (d - 5) "PWR_THERMAL" (wrap 8 t) 0) else s
  if t < 118 then s
  else if d < 4 then s.meadowTrip d
  else if d = 4 then
    let s := (s.raise 4 0 0x1F "PWR_THERMAL_TRIP" 0 0).holdDrive.valeClear
    s.setDiePw 4 { s.diePw 4 with tripped := true }
  else
    let s := (s.heathEvent (d - 5) "PWR_THERMAL_TRIP" 0 0).heathReset (d - 5) true
    s.setDiePw d { s.diePw d with tripped := true }

/-- R547, R548: a die that tripped has cooled to 100 °C: it may leave reset; for the Vale, the Heaths restart it with the Meadows. -/
def State.cooled (s : State) (d : Nat) : State :=
  let s := s.setDiePw d { s.diePw d with tripped := false }
  if d ≠ 4 then s
  else match (List.range 2).find? fun h => (s.heath h).up && s.drives h with
    | some h => s.valeRestart h
    | none => s

/-- R547: every 10 µs a die reads its sensors: 16 of a Meadow, 8 of the Vale, 4 of a Heath. -/
def execThermalRead (die : Fin 7) (temps : List Byte) (s : State) : Host.Outcome State Fault Refusal :=
  .next <|
    let d := die.val
    let n := if d < 4 then 16 else if d = 4 then 8 else 4
    let x := s.diePw d
    if temps.length ≠ n ∨ (s.frozen ∧ d < 5) ∨ ¬ ((s.dieSt d).out ∨ x.tripped) ∨ ¬ periodOver x.readAt 10000 s.clock then s
    else
      let s := s.setDiePw d { x with readAt := some s.clock }
      let h := hottest (temps.map fun b => b.toInt)
      let s := if d < 4 then s.setReg (aPwrDie d 8) (wrap 8 h.1 + h.2 * 2 ^ 8) else s
      if x.tripped then (if h.1 ≤ 100 then s.cooled d else s) else s.thermal d h.1

/-- R334, R548: once per millisecond, the layer temperatures of a stack: above 95 °C its Meadow is capped until every layer reads 90 or
less; above 100
it trips. -/
def execDramTempRead (die : Fin 4) (temps : List Byte) (s : State) : Host.Outcome State Fault Refusal :=
  .next <| s.live <|
    if temps.length ≠ 9 ∨ ¬ s.tempDue die then s
    else
      let d := die.val
      let ts := temps.map fun b => b.toInt
      let s := s.dramTemps d ts
      let x := s.diePw d
      let hot := if ts.any fun t => decide (95 < t) then true else x.dramHot && ts.any fun t => decide (90 < t)
      let s := s.setDiePw d { x with dramHot := hot }
      if (ts.any fun t => decide (100 < t)) && (s.dieSt d).out then s.meadowTrip d else s

/-- R549: every 10 ms the coolant sensors are read: EVT_PWR_COOLANT when the outlet has exceeded the inlet by more than 6 K for 1 s, or the
inlet reads above 65 °C. -/
def execCoolantRead (inlet outlet : Byte) (s : State) : Host.Outcome State Fault Refusal :=
  .next <| s.live <|
    if s.boot.phase = 0 ∨ ¬ periodOver s.power.coolantAt 10000000 s.now then s
    else
      let s := s.setReg (aPwr 0x14) (inlet.toNat + outlet.toNat * 2 ^ 8)
      let rise := decide (6 < outlet.toInt - inlet.toInt)
      let since := if rise then some (s.power.hotSince.getD s.now) else none
      let long : Bool := match since with
        | some t => decide (t + 1000000000 ≤ s.now)
        | none => false
      let bad := long || decide (65 < inlet.toInt)
      let was := s.power.coolantBad
      let s := s.updPower fun p => { p with hotSince := since, coolantBad := bad, coolantAt := some s.now }
      if bad && !was then s.raise 4 0 0x1F "PWR_COOLANT" inlet.toNat outlet.toNat else s

/-! ## Ageing (R464, R465) -/

/-- R464: the monitors of a die. -/
def monitors (d : Nat) : Nat := if d < 4 then 32 else if d = 4 then 16 else 8

/-- The least of a list of slacks with the monitor that read it, the lower monitor on a tie. -/
def leastSlack (l : List Nat) : Nat × Nat :=
  (List.range l.length).foldl (fun r i => if l.getD i 0 < r.1 then (l.getD i 0, i) else r) (l.getD 0 0, 0)

/-- R464: once per second the slack of each monitor is measured, in ps, and the least is recorded. -/
def execAgeingMeasure (die : Fin 7) (slacks : List (BitVec 16)) (s : State) : Host.Outcome State Fault Refusal :=
  .next <|
    let d := die.val
    let x := s.diePw d
    if slacks.length ≠ monitors d ∨ (s.frozen ∧ d < 5) ∨ ¬ (s.dieSt d).out ∨ (x.measuredAt ≠ 0 ∧ s.clock < x.measuredAt + 1000000000) then s
    else s.setDiePw d { x with
      slacks := (leastSlack (slacks.map fun b => b.toNat) :: x.slacks).take 3600, measuredAt := s.clock }

/-- R465: a die that holds 12 steps needs another: the event, the replace cause, and a Meadow's cap. -/
def State.ageLimit (s : State) (d : Nat) : State :=
  let s := if d < 5 then s.raise d 0 0x1F "AGE_LIMIT" 0 0 else s.heathEvent (d - 5) "AGE_LIMIT" 0 0
  -- R471: while the Vale's registers stand, the cause goes to the fault record alone
  let s := if s.frozen then s.frecNote 0x0A 4 0 (setBit (s.reg (aVal 0x100)) 7 true) else s.replaceReq 7
  if d < 4 then s.setFld (aMdw d 0x40) 5 4 (min 2 (s.fld (aMdw d 0x40) 5 4 + 1)) else s

/-- R464: after an hour of powered time, 3,600 measurements, the mean of the least slack is evaluated: below 25 ps the supply rises
by one step, at most one in 24 powered hours, at most 12. -/
def execAgeingHourEval (die : Fin 7) (s : State) : Host.Outcome State Fault Refusal :=
  .next <|
    let d := die.val
    let x := s.diePw d
    if x.slacks.length < 3600 ∨ (s.frozen ∧ d < 5) ∨ ¬ (s.dieSt d).out then s
    else
      let mean := (x.slacks.map (·.1)).sum / 3600
      let least := x.slacks.foldl (fun r e => if e.1 < r.1 then e else r) (x.slacks.getD 0 (0, 0))
      let s := s.setDiePw d { x with slacks := [] }
      let s := if d < 4 then s.setReg (aMdw d 0x44) (min mean 65535 + least.2 * 2 ^ 16) else s
      if 3600 * 25 ≤ (x.slacks.map (·.1)).sum then s
      else if 12 ≤ x.steps then s.ageLimit d
      else
        let recent : Bool := match x.stepAt with
          | some t => decide (s.clock < t + 86400000000000)
          | none => false
        if recent then s
        else
          let s := (s.setDiePw d { s.diePw d with stepAt := some s.clock }).setSteps d (x.steps + 1)
          let s := if d < 5 then s.raise d 0 0x1F "AGE_STEP" (x.steps + 1) 0 else s.heathEvent (d - 5) "AGE_STEP" (x.steps + 1) 0
          s.frecNote 0x07 d 0 (x.steps + 1)

end Sys2Proof.Machine
end

