-- ==== Sys2Proof/Machine/Scalar.lean ====
section
/-! DEFINITION. The scalar instructions (R119, R120) and the branches and jumps (R132). -/

namespace Sys2Proof.Machine

/-! ## Register-register (R119) -/

/-- R119: rs1 + rs2, modulo 2^64. -/
def execAdd (t : SlotId) (rd rs1 rs2 : Fin 32) (s : State) : Host.Outcome State Fault Refusal :=
  .next <| s.live (s.alu t rd [rs1, rs2] fun th => th.xget rs1 + th.xget rs2)

/-- R119: rs1 − rs2, modulo 2^64. -/
def execSub (t : SlotId) (rd rs1 rs2 : Fin 32) (s : State) : Host.Outcome State Fault Refusal :=
  .next <| s.live (s.alu t rd [rs1, rs2] fun th => th.xget rs1 - th.xget rs2)

/-- R119: rs1 AND rs2. -/
def execAndRr (t : SlotId) (rd rs1 rs2 : Fin 32) (s : State) : Host.Outcome State Fault Refusal :=
  .next <| s.live (s.alu t rd [rs1, rs2] fun th => th.xget rs1 &&& th.xget rs2)

/-- R119: rs1 OR rs2. -/
def execOrRr (t : SlotId) (rd rs1 rs2 : Fin 32) (s : State) : Host.Outcome State Fault Refusal :=
  .next <| s.live (s.alu t rd [rs1, rs2] fun th => th.xget rs1 ||| th.xget rs2)

/-- R119: rs1 XOR rs2. -/
def execXorRr (t : SlotId) (rd rs1 rs2 : Fin 32) (s : State) : Host.Outcome State Fault Refusal :=
  .next <| s.live (s.alu t rd [rs1, rs2] fun th => th.xget rs1 ^^^ th.xget rs2)

/-- R119: rs1 shifted left by rs2[5:0]. -/
def execSll (t : SlotId) (rd rs1 rs2 : Fin 32) (s : State) : Host.Outcome State Fault Refusal :=
  .next <| s.live (s.alu t rd [rs1, rs2] fun th => th.xget rs1 <<< ((th.xget rs2).toNat % 64))

/-- R119: rs1 shifted right by rs2[5:0], zero fill. -/
def execSrl (t : SlotId) (rd rs1 rs2 : Fin 32) (s : State) : Host.Outcome State Fault Refusal :=
  .next <| s.live (s.alu t rd [rs1, rs2] fun th => th.xget rs1 >>> ((th.xget rs2).toNat % 64))

/-- R119: rs1 shifted right by rs2[5:0], sign fill. -/
def execSra (t : SlotId) (rd rs1 rs2 : Fin 32) (s : State) : Host.Outcome State Fault Refusal :=
  .next <| s.live (s.alu t rd [rs1, rs2] fun th => (th.xget rs1).sshiftRight ((th.xget rs2).toNat % 64))

/-- R119: 1 if rs1 < rs2 signed, else 0. -/
def execSlt (t : SlotId) (rd rs1 rs2 : Fin 32) (s : State) : Host.Outcome State Fault Refusal :=
  .next <| s.live (s.alu t rd [rs1, rs2] fun th => if (th.xget rs1).slt (th.xget rs2) then 1 else 0)

/-- R119: 1 if rs1 < rs2 unsigned, else 0. -/
def execSltu (t : SlotId) (rd rs1 rs2 : Fin 32) (s : State) : Host.Outcome State Fault Refusal :=
  .next <| s.live (s.alu t rd [rs1, rs2] fun th => if (th.xget rs1).ult (th.xget rs2) then 1 else 0)

/-- R119: low 64 bits of rs1 × rs2. -/
def execMul (t : SlotId) (rd rs1 rs2 : Fin 32) (s : State) : Host.Outcome State Fault Refusal :=
  .next <| s.live (s.alu t rd [rs1, rs2] fun th => th.xget rs1 * th.xget rs2)

/-- R119: high 64 bits of the unsigned 128-bit product. -/
def execMulhu (t : SlotId) (rd rs1 rs2 : Fin 32) (s : State) : Host.Outcome State Fault Refusal :=
  .next <| s.live (s.alu t rd [rs1, rs2] fun th => BitVec.ofNat 64 (((th.xget rs1).toNat * (th.xget rs2).toNat) >>> 64))

/-- R119: signed minimum. -/
def execMinRr (t : SlotId) (rd rs1 rs2 : Fin 32) (s : State) : Host.Outcome State Fault Refusal :=
  .next <| s.live (s.alu t rd [rs1, rs2] fun th => if (th.xget rs2).slt (th.xget rs1) then th.xget rs2 else th.xget rs1)

/-- R119: signed maximum. -/
def execMaxRr (t : SlotId) (rd rs1 rs2 : Fin 32) (s : State) : Host.Outcome State Fault Refusal :=
  .next <| s.live (s.alu t rd [rs1, rs2] fun th => if (th.xget rs1).slt (th.xget rs2) then th.xget rs2 else th.xget rs1)

/-- R119: unsigned minimum. -/
def execMinu (t : SlotId) (rd rs1 rs2 : Fin 32) (s : State) : Host.Outcome State Fault Refusal :=
  .next <| s.live (s.alu t rd [rs1, rs2] fun th => if (th.xget rs2).ult (th.xget rs1) then th.xget rs2 else th.xget rs1)

/-- R119: unsigned maximum. -/
def execMaxu (t : SlotId) (rd rs1 rs2 : Fin 32) (s : State) : Host.Outcome State Fault Refusal :=
  .next <| s.live (s.alu t rd [rs1, rs2] fun th => if (th.xget rs1).ult (th.xget rs2) then th.xget rs2 else th.xget rs1)

/-! ## Immediate (R120) -/

/-- R120: rs1 + imm15. -/
def execAddi (t : SlotId) (rd rs1 : Fin 32) (imm : BitVec 15) (s : State) : Host.Outcome State Fault Refusal :=
  .next <| s.live (s.alu t rd [rs1] fun th => th.xget rs1 + imm.signExtend 64)

/-- R120: rs1 AND imm15. -/
def execAndi (t : SlotId) (rd rs1 : Fin 32) (imm : BitVec 15) (s : State) : Host.Outcome State Fault Refusal :=
  .next <| s.live (s.alu t rd [rs1] fun th => th.xget rs1 &&& imm.signExtend 64)

/-- R120: rs1 OR imm15. -/
def execOri (t : SlotId) (rd rs1 : Fin 32) (imm : BitVec 15) (s : State) : Host.Outcome State Fault Refusal :=
  .next <| s.live (s.alu t rd [rs1] fun th => th.xget rs1 ||| imm.signExtend 64)

/-- R120: rs1 XOR imm15. -/
def execXori (t : SlotId) (rd rs1 : Fin 32) (imm : BitVec 15) (s : State) : Host.Outcome State Fault Refusal :=
  .next <| s.live (s.alu t rd [rs1] fun th => th.xget rs1 ^^^ imm.signExtend 64)

/-- R120: 1 if rs1 < imm15 signed, else 0. -/
def execSlti (t : SlotId) (rd rs1 : Fin 32) (imm : BitVec 15) (s : State) : Host.Outcome State Fault Refusal :=
  .next <| s.live (s.alu t rd [rs1] fun th => if (th.xget rs1).slt (imm.signExtend 64) then 1 else 0)

/-- R120: (rs1 shifted left by 15) OR imm15 zero-extended. -/
def execShori (t : SlotId) (rd rs1 : Fin 32) (imm : BitVec 15) (s : State) : Host.Outcome State Fault Refusal :=
  .next <| s.live (s.alu t rd [rs1] fun th => (th.xget rs1 <<< 15) ||| imm.setWidth 64)

/-- R120: rs1 shifted left. -/
def execSlli (t : SlotId) (rd rs1 : Fin 32) (sh : BitVec 6) (s : State) : Host.Outcome State Fault Refusal :=
  .next <| s.live (s.alu t rd [rs1] fun th => th.xget rs1 <<< sh.toNat)

/-- R120: rs1 shifted right, zero fill. -/
def execSrli (t : SlotId) (rd rs1 : Fin 32) (sh : BitVec 6) (s : State) : Host.Outcome State Fault Refusal :=
  .next <| s.live (s.alu t rd [rs1] fun th => th.xget rs1 >>> sh.toNat)

/-- R120: rs1 shifted right, sign fill. -/
def execSrai (t : SlotId) (rd rs1 : Fin 32) (sh : BitVec 6) (s : State) : Host.Outcome State Fault Refusal :=
  .next <| s.live (s.alu t rd [rs1] fun th => (th.xget rs1).sshiftRight sh.toNat)

/-! ## Branches and jumps (R132) -/

/-- R132: the program counter moved by four times a sign-extended immediate. -/
def branchTo (pc : Addr) (imm : Int) : Addr := pc + BitVec.ofInt 48 (4 * imm)

/-- R132: a branch: taken when `c` holds of the two registers, else on to the next instruction. -/
def State.branch (s : State) (t : SlotId) (rs1 rs2 : Fin 32) (imm : BitVec 14) (c : Word → Word → Bool) : State :=
  s.issue t [rs1, rs2] [] fun th _ => s.setSlot (tkey t)
    (if c (th.xget rs1) (th.xget rs2) then { th with pc := branchTo th.pc imm.toInt } else th.pc4)

/-- R132: branch if equal. -/
def execBeq (t : SlotId) (rs1 rs2 : Fin 32) (imm : BitVec 14) (s : State) : Host.Outcome State Fault Refusal :=
  .next <| s.live (s.branch t rs1 rs2 imm fun x y => x == y)

/-- R132: branch if not equal. -/
def execBne (t : SlotId) (rs1 rs2 : Fin 32) (imm : BitVec 14) (s : State) : Host.Outcome State Fault Refusal :=
  .next <| s.live (s.branch t rs1 rs2 imm fun x y => x != y)

/-- R132: branch if less, signed. -/
def execBlt (t : SlotId) (rs1 rs2 : Fin 32) (imm : BitVec 14) (s : State) : Host.Outcome State Fault Refusal :=
  .next <| s.live (s.branch t rs1 rs2 imm fun x y => x.slt y)

/-- R132: branch if greater or equal, signed. -/
def execBge (t : SlotId) (rs1 rs2 : Fin 32) (imm : BitVec 14) (s : State) : Host.Outcome State Fault Refusal :=
  .next <| s.live (s.branch t rs1 rs2 imm fun x y => !(x.slt y))

/-- R132: branch if less, unsigned. -/
def execBltu (t : SlotId) (rs1 rs2 : Fin 32) (imm : BitVec 14) (s : State) : Host.Outcome State Fault Refusal :=
  .next <| s.live (s.branch t rs1 rs2 imm fun x y => x.ult y)

/-- R132: branch if greater or equal, unsigned. -/
def execBgeu (t : SlotId) (rs1 rs2 : Fin 32) (imm : BitVec 14) (s : State) : Host.Outcome State Fault Refusal :=
  .next <| s.live (s.branch t rs1 rs2 imm fun x y => !(x.ult y))

/-- R132: rd receives PC + 4, and the program counter moves by 4 × imm19. -/
def execJal (t : SlotId) (rd : Fin 32) (imm : BitVec 19) (s : State) : Host.Outcome State Fault Refusal :=
  .next <| s.live (s.issue t [] [] fun th _ => s.setSlot (tkey t)
    { th.xput rd ((th.pc + 4).setWidth 64) with pc := branchTo th.pc imm.toInt })

/-- R132: rd receives PC + 4, and the program counter becomes rs1 + 4 × imm14; an rs1 that is not a multiple of 4 is a
fault with ALIGN_FAULT. -/
def execJalr (t : SlotId) (rd rs1 : Fin 32) (imm : BitVec 14) (s : State) : Host.Outcome State Fault Refusal :=
  .next <| s.live (s.issue t [rs1] [] fun th _ =>
    if (th.xget rs1).toNat % 4 ≠ 0 then s.threadFault t th 3
    else s.setSlot (tkey t)
      { th.xput rd ((th.pc + 4).setWidth 64) with pc := branchTo ((th.xget rs1).setWidth 48) imm.toInt })

end Sys2Proof.Machine
end

