-- ==== Sys2Proof/Machine/Service.lean ====
section
/-! DEFINITION. Service requests (R502 to R506): staging, activation, anti-rollback counters, read-out of flash and log, and
revocation of keys. -/

namespace Sys2Proof.Machine

/-! ## Mailboxes (R502, R503) -/

/-- R503: ADDR of a request. -/
def State.boxAddr (s : State) (m : Nat) : Nat := bits (s.reg (aBox m 8)) 47 0
/-- R503: LEN of a request. -/
def State.boxLen (s : State) (m : Nat) : Nat := s.reg (aBox m 0x10)
/-- R503: ARG of a request. -/
def State.boxArg (s : State) (m : Nat) : Nat := s.fld (aBox m 0) 7 4

/-- R502: the security core serves the request of operation `op` in mailbox `m`: it is its turn, or it is under way. -/
def State.serves (s : State) (m op : Nat) : Bool :=
  s.secRunning && bit (s.reg (aBox m 0)) 31 && decide (s.fld (aBox m 0) 3 0 = op) &&
    match s.boot.serving with
    | some w => decide (w.1 = m)
    | none => decide (s.boot.lastBox ≠ m) || !bit (s.reg (aBox (1 - m) 0)) 31

/-- R502: a request ends with a status and those of the Heaths' parts. -/
def State.served (s : State) (m status a b : Nat) : State :=
  (s.boxEnd m status a b).updBoot fun x => { x with lastBox := m, serving := none, heathNext := none }

/-- R503: the statuses of the DRAM range of a request: alignment, and the requester's own right to write it. -/
def State.rangeFails (s : State) (m : Nat) : List Nat :=
  let a := s.boxAddr m
  let n := s.boxLen m
  failIf (decide (a % 4096 ≠ 0) || decide (n % 4096 ≠ 0)) 3 ++
    (if n = 0 then [] else if !inDram a n then [4] else
      let st := s.access (whoIs (boxOwner m)) true a n
      if st = 0 then [] else [st])

/-! ## Staging (R504) -/

/-- R486, R487: an image as it stands in a slot is good: its header passes and its components have their digests. -/
def State.imageGood (s : State) (x : Slot) (root : ImageRoot) (heath : Bool) (len : Nat) : Bool :=
  let h := s.slotHeader x
  decide (headerResult h root heath x.size = 0) && decide (hdr h 20 4 ≤ len) &&
    (components h).all fun c => decide (leNat (sha256 (s.slotBytes x c)) = c.digest)

/-- R504: an image staged into a slot: the record EMPTY, the slot erased, programmed, read back and checked, and only then the
record TRIAL. Answers the status. -/
def State.stageInto (s : State) (x : Slot) (root : ImageRoot) (heath readback : Bool) (image : List Byte) (who : Nat) :
    Nat × State :=
  let s := ((s.putRecord x 4 0).flashErase x.dev x.base x.size).flashWrite x.dev x.base image
  if !readback then (5, s)
  else if !s.imageGood x root heath image.length then (0x0F, s)
  else (0, (s.putRecord x 1 0).raise 4 0 0x1F "FW_STAGED" who (hdrSvn (s.slotHeader x)))

/-- R503: the statuses of an image of at most `most` bytes in DRAM. -/
def State.stageFails (s : State) (m most : Nat) : List Nat :=
  s.rangeFails m ++ failIf (decide (most < s.boxLen m)) 2 ++
    failIf ((s.rangeFails m).isEmpty && s.readPoison (s.boxAddr m) (s.boxLen m)) 5

/-- R504: STAGE: the image goes into the slot that is not running. `readback`: the read-back equals what was programmed. -/
def execStage (m : Fin 2) (readback : Bool) (s : State) : Host.Outcome State Fault Refusal :=
  .next <| s.live <|
    if !s.serves m 1 then s
    else
      let st := oneOf (s.stageFails m 0x1000000)
      if st ≠ 0 then s.served m st 0 0
      else
        let x := valeSlot (1 - s.fld (aSec 0) 5 5)
        let r := s.stageInto x s.valeRoot false readback (s.bytes (s.boxAddr m) (s.boxLen m)) 0
        r.2.served m r.1 0 0

/-- R498: the slot from which a Heath has booted. -/
def State.heathSlotRun (s : State) (h : Nat) : Nat := if s.fld (aHt h 0x128) 2 0 = 1 then 0 else 1

/-- R36: a Heath answers requests. -/
def State.heathAnswers (s : State) (h : Nat) : Bool := (s.heath h).up && s.linkUp (5 + h) 4

/-- R503, R504: a Heath's part of HEATH_STAGE. -/
def State.heathStage (s : State) (m h : Nat) (readback : Bool) : Nat × State :=
  let st := oneOf (s.stageFails m 0x400000 ++ failIf (!s.heathAnswers h) 8)
  if st ≠ 0 then (st, s)
  else s.stageInto (heathSlot h (1 - s.heathSlotRun h)) (s.heathRoot h) true readback (s.bytes (s.boxAddr m) (s.boxLen m)) (1 + h)

/-- The status of a request whose parts are the Heaths': the code of a part that fails. -/
def partStatus (a b : Nat) : Nat := oneOf (failIf (decide (a ≠ 0)) a ++ failIf (decide (b ≠ 0)) b)

/-- R504: HEATH_STAGE: each Heath stages the image into its own other slot. -/
def execHeathStage (m : Fin 2) (readbackA readbackB : Bool) (s : State) : Host.Outcome State Fault Refusal :=
  .next <| s.live <|
    if !s.serves m 4 then s
    else
      let a := s.heathStage m 0 readbackA
      let b := a.2.heathStage m 1 readbackB
      b.2.served m (partStatus a.1 b.1) a.1 b.1

/-! ## Activation (R505) -/

/-- The component of a type in a slot of the Vale. -/
def State.slotComponent (s : State) (slot t : Nat) : Option Component :=
  (components (s.slotHeader (valeSlot slot))).find? fun c => decide (c.type = t)

/-- R505: what the staged slot must have in common with the running components. -/
def State.mayActivate (s : State) (slot : Nat) : Bool :=
  decide ((s.slotRecord (valeSlot slot)).1 = 1) &&
    [1, 5].all (fun t => (s.slotComponent slot t).map (·.digest) = some (s.digest t)) &&
    [2, 3, 4].all fun t => (s.slotComponent slot t).map (·.ifver) = some (readAt (fun _ => 0) s.boot.ifvers t)

/-- R505: the processors in the order of ACTIVATE. -/
def activateOrder : List Nat := [1, 2] ++ (List.range 64).map fun i => 0x40 + i

/-- R505: a running processor has another component than the staged slot. -/
def State.differs (s : State) (slot c : Nat) : Bool :=
  decide ((s.proc c).st = 1) && decide ((s.proc c).digest ≠ s.slotDigest slot (codeType c))

/-- R505: ACTIVATE: the next processor whose component differs restarts with cause 0x4; each waits for the one before. The request
ends once none is left. -/
def execActivate (m : Fin 2) (s : State) : Host.Outcome State Fault Refusal :=
  .next <| s.live <|
    if !s.serves m 2 then s
    else
      let slot := 1 - s.fld (aSec 0) 5 5
      if s.boot.serving.isNone ∧ ¬ s.mayActivate slot then s.served m 0x0F 0 0
      else
        let s := s.updBoot fun b => { b with serving := some (m.val, 0, 0) }
        if activateOrder.any fun c => decide ((s.proc c).st = 2) then s
        else match activateOrder.find? (s.differs slot) with
          | some c =>
            let s := s.procDown c 4 true (s.proc c).crashes
            s.setProc c { s.proc c with slot := slot }
          | none => (s.raise 4 0 0x1F "FW_ACTIVATED" 0 0).served m 0 0 0

/-- R505: a Heath's other slot is TRIAL. -/
def State.heathTrial (s : State) (h : Nat) : Bool := decide ((s.slotRecord (heathSlot h (1 - s.heathSlotRun h))).1 = 1)

/-- R503, R505: the status of a Heath's part of HEATH_ACTIVATE. -/
def State.heathPart (s : State) (h : Nat) : Nat := if !s.heathAnswers h then 8 else if s.heathTrial h then 0 else 0x0F

/-- R447, R505: a Heath that was reset has returned: it holds a role, or a difference of the parameter blocks holds it. -/
def State.heathReturned (s : State) (h : Nat) : Bool := (s.heath h).up && (decide (s.role h ≠ 0) || !s.paramOk h)

/-- R505: HEATH_ACTIVATE: Heath B, and once it is back Heath A, reset onto their TRIAL slots. -/
def execHeathActivate (m : Fin 2) (s : State) : Host.Outcome State Fault Refusal :=
  .next <| s.live <|
    if !s.serves m 5 then s
    else
      let (a, b) := match s.boot.serving with
        | some w => (w.2.1, w.2.2)
        | none => (s.heathPart 0, s.heathPart 1)
      let at_ := fun (s : State) (n : Option Nat) => s.updBoot fun x => { x with serving := some (m.val, a, b), heathNext := n }
      match s.boot.heathNext with
      | none => if b = 0 then at_ (s.heathReset 1 true) (some 0) else at_ s (some 0)
      | some 0 =>
        if b = 0 ∧ ¬ s.heathReturned 1 then s
        else if a = 0 then at_ (s.heathReset 0 true) (some 2) else at_ s (some 2)
      | some _ =>
        if a = 0 ∧ ¬ s.heathReturned 0 then s
        else
          let s := if a = 0 ∨ b = 0 then s.raise 4 0 0x1F "FW_ACTIVATED" 0 0 else s
          s.served m (partStatus a b) a b

/-! ## Counters, read-out and keys (R503, R506) -/

/-- R506: the Vale's counter raised to the running SVN. -/
def State.arbVale (s : State) : Nat × State :=
  let v := s.reg (aSec 8)
  if v ≤ s.reg (aSec 0x10) then (0, s)
  else if s.fuses.words = 0 then (2, s)
  else
    let t : State := { s with fuses := { s.fuses with words := s.fuses.words - 1 } }
    (0, (t.setReg (aSec 0x10) v).raise 4 0 0x1F "ARB_RAISED" v 0)

/-- R506: a Heath's counter raised to its HTx_SVN. -/
def State.arbHeath (s : State) (h : Nat) : Nat × State :=
  let v := s.reg (aHt h 0x120)
  let w := s.fuses.heathWords.getD h 0
  if !s.heathAnswers h then (8, s)
  else if v ≤ s.fuses.heathArb.getD h 0 then (0, s)
  else if w = 0 then (2, s)
  else
    let t : State := { s with
      fuses := { s.fuses with heathArb := s.fuses.heathArb.set h v, heathWords := s.fuses.heathWords.set h (w - 1) } }
    (0, t.raise 4 0 0x1F "ARB_RAISED" v 0)

/-- R506: ARB_COMMIT. -/
def execArbCommit (m : Fin 2) (s : State) : Host.Outcome State Fault Refusal :=
  .next <| s.live <|
    if !s.serves m 3 then s
    else if (s.slotRecord (valeSlot (s.fld (aSec 0) 5 5))).1 ≠ 2 ∨ bit (s.reg (aSec 0)) 6 then s.served m 0x0F 0 0
    else
      let v := s.arbVale
      let a := v.2.arbHeath 0
      let b := a.2.arbHeath 1
      b.2.served m v.1 a.1 b.1

/-- R458: a byte of a Heath's fault record region, at offset `o` in it. -/
def State.frecByte (s : State) (h o : Nat) : Byte :=
  let c := s.frecCopy h
  if o / 0x80000 ≠ c.half then 0xFF
  else match c.entries[o % 0x80000 / 64]? with
    | some e => e.bytes.getD (o % 64) 0
    | none => 0xFF

/-- R458, R482, R497: a byte of a flash device as it is read out. -/
def State.flashOut (s : State) (dev o : Nat) : Byte :=
  if 2 ≤ dev ∧ 0xF00000 ≤ o then s.frecByte (dev - 2) (o - 0xF00000) else s.flashByte dev o

/-- R503: FLASH_READ: a range of a flash device copied into DRAM. -/
def execFlashRead (m : Fin 2) (s : State) : Host.Outcome State Fault Refusal :=
  .next <| s.live <|
    if !s.serves m 6 then s
    else
      let arg := s.boxArg m
      let src := s.fld (aBox m 0x18) 26 0
      let n := s.boxLen m
      let dev := if arg = 0 then src / 2 ^ 26 else arg + 1
      let off := if arg = 0 then src % 2 ^ 26 else src
      let st := oneOf (s.rangeFails m ++ failIf (decide (2 < arg)) 0x0F ++
        failIf (decide (arg ≤ 2) && decide (flashSize dev < off + n)) 2 ++
        failIf ((decide (arg = 1) || decide (arg = 2)) && !s.heathAnswers (arg - 1)) 8)
      if st ≠ 0 then s.served m st 0 0
      else (s.store (s.boxAddr m) ((List.range n).map fun i => s.flashOut dev (off + i))).served m 0 0 0

/-- R493, R503: LOG_READ: the measurement log copied into DRAM. -/
def execLogRead (m : Fin 2) (s : State) : Host.Outcome State Fault Refusal :=
  .next <| s.live <|
    if !s.serves m 7 then s
    else
      let st := oneOf (s.rangeFails m ++ failIf (decide (s.boxLen m < 64 * s.boot.log.length)) 2)
      if st ≠ 0 then s.served m st 0 0
      else (s.store (s.boxAddr m) s.boot.log.flatten).served m 0 0 0

/-- R503: REVOKE: a fused key slot is revoked for good. -/
def execRevoke (m : Fin 2) (s : State) : Host.Outcome State Fault Refusal :=
  .next <| s.live <|
    if !s.serves m 8 then s
    else
      let k := s.boxArg m
      if 4 ≤ k ∨ ¬ bit (s.reg (aSec 0x18)) k ∨ k = s.fld (aSec 4) 13 12 then s.served m 0x0F 0 0
      else (s.setFld (aSec 0x18) (4 + k) (4 + k) 1).served m 0 0 0

end Sys2Proof.Machine
end

