-- ==== Sys2Proof/Machine/Shadow.lean ====
section
/-! DEFINITION. The comparison of a shadow with its target (R526). -/

namespace Sys2Proof.Machine

/-- R430, R526: the poses of two frames agree within POS_TOL_MM and SPD_TOL. -/
def framePosesAgree (tol : Nat × Nat) (a b : List (Int × Int × Nat × Nat)) : Bool :=
  decide (a.length = b.length) && (a.zip b).all fun p =>
    decide ((p.1.1 - p.2.1).natAbs ≤ 8 * tol.1) && decide ((p.1.2.1 - p.2.2.1).natAbs ≤ 8 * tol.1) &&
      decide (((p.1.2.2.2 : Int) - p.2.2.2.2).natAbs ≤ tol.2)

/-- R526: two COMPAREs agree: the statuses are equal, and the poses meet R430 under the shadow's parameter block. -/
def framesAgree (shadow target : CompareRec) : Bool :=
  decide (shadow.statuses = target.statuses) && framePosesAgree shadow.tol shadow.poses target.poses

/-- R526: a shadow that no longer compares: its target's frames are no longer copied to it. -/
def State.shadowEnds (s : State) (x : ShadowRec) : State :=
  (s.updCol fun c => { c with shadows := c.shadows.filter fun y => decide (y.shadow ≠ x.shadow) }).colTo x.target
    { type := 10, sub := 13, fields := [3, x.shadow] }

/-- R526: the lead's finding on a frame of a shadow, told to it: 200 agreeing frames in a row give it a role, the third
disagreement ends its trial. -/
def State.shadowJudge (s : State) (x : ShadowRec) (agree : Bool) : State :=
  let y := if agree then { x with agreed := min 200 (x.agreed + 1) } else { x with agreed := 0, fails := x.fails + 1 }
  let s := s.updCol fun c => { c with shadows := c.shadows.map fun z => if z.shadow = x.shadow then y else z }
  let s := s.colTo x.shadow { type := 10, sub := 14, fields := [b2n agree] }
  if y.agreed = 200 then
    let s := s.updCol fun c => { c with
      members := c.members.map fun m => if m.addr = x.shadow then { m with role := true } else m }
    ((s.shadowEnds y).colTo x.shadow { type := 10, sub := 13, fields := [0] }).raise 4 0 0x1F "COL_ROLE" x.shadow 0
  else if 3 ≤ y.fails then (s.shadowEnds y).raise 4 0 0x1F "COL_SHADOW_FAIL" x.shadow 0
  else s

/-- R526: the summary that a module has sent for a job. -/
def State.compareOf (s : State) (src job : Nat) : Option CompareRec :=
  s.col.compares.find? fun r => decide (r.src = src) && decide (r.job = job)

/-- R526: a shadow's frame is compared once both summaries are there. -/
def State.shadowCompare (s : State) (x : ShadowRec) (job : Nat) : State :=
  match s.compareOf x.shadow job, s.compareOf x.target job with
  | some a, some b =>
    let s := s.updCol fun c => { c with compares := c.compares.erase a }
    let waits := s.col.shadows.any fun y => decide (y.target = x.target) && decide (y.shadow ≠ x.shadow)
      && (s.compareOf y.shadow job).isNone
    let s := if waits then s else s.updCol fun c => { c with compares := c.compares.erase b }
    s.shadowJudge x (framesAgree a b)
  | _, _ => s

/-- R526: the lead takes a summary and compares what it can. -/
def State.takeCompare (s : State) (r : CompareRec) : State :=
  let xs := s.col.shadows.filter fun x => decide (x.shadow = r.src) || decide (x.target = r.src)
  if xs.isEmpty then s
  else
    let s := s.updCol fun c => { c with
      compares := (c.compares.filter fun q => !(decide (q.src = r.src) && decide (q.job = r.job))) ++ [r] }
    xs.foldl (fun s x => s.shadowCompare x r.job) s

/-- R526, R534: what the lead found, at the shadow: COL_SHADOW, and SHADOW_FAILED at the third disagreement. -/
def State.shadowOutcome (s : State) (agree : Bool) : State :=
  let a := aCol 0x34
  if s.colMember ≠ 3 then s
  else if agree then s.setFld a 19 12 (min 200 (s.fld a 19 12 + 1))
  else
    let n := min 3 (s.fld a 21 20 + 1)
    let s := (s.setFld a 19 12 0).setFld a 21 20 n
    if n = 3 then (s.setColMember 5).raise 4 0 0x1F "COL_SHADOW_FAIL" (s.ownAddr.getD 0) 0 else s

/-- R526: a shadow, or a module that is copied, sends the lead the summary of a frame: the statuses, the tolerances of its parameter
block, and the poses of the record that it handed off. -/
def State.sendCompare (s : State) (job : Nat) : State :=
  match s.leadAddr, s.col.summaries.find? fun x => decide (x.1 = job) with
  | some l, some x =>
    if !s.manages then s
    else
      let r := recOf 0 x.2.2
      let p := (s.heath 0).params
      let flat := (List.range r.poses.length).flatMap fun i =>
        [wrap 64 (r.pos8 i).1, wrap 64 (r.pos8 i).2, (r.pose i).head, (r.pose i).speed]
      (s.updCol fun c => { c with sent := [], summaries := c.summaries.erase x }).colTo l
        { type := 10, sub := 14, data := x.2.1.map (BitVec.ofNat 8), fields := [job, p.posTol, p.spdTol] ++ flat }
  | _, _ => s

/-- R526: COMPARE: a summary that reaches the lead, a finding that reaches the shadow, or, where no frame arrives, the summary that the
module itself keeps of the job, which it sends. -/
def execMgmtCompare (p : Fin 4) (frame : List Byte) (c : CompareMsg) (s : State) : Host.Outcome State Fault Refusal :=
  .next <| s.live <|
    match c with
    | .summary job statuses poses tol =>
      if frame.isEmpty then s.sendCompare job.toNat
      else s.mgmtTake p frame 14 false fun s f =>
        if !s.manages || decide (s.mgr ≠ 2) then s
        else s.takeCompare ⟨f.src, job.toNat, statuses.map (·.toNat), poses, (tol.posTol, tol.spdTol)⟩
    | .outcome agree => s.mgmtTake p frame 14 false fun s f =>
      if s.manages && decide (s.leadAddr = some f.src) then s.shadowOutcome agree else s

end Sys2Proof.Machine
end

