-- ==== Sys2Proof/Machine/Spdm.lean ====
section
/-! DEFINITION. Attestation (R494 to R496): the SPDM 1.2 responder of the security core, DOE discovery, and SPDM over the
fabric. The layout of the messages is that of DMTF DSP0274, which R495 names (assumption 40). -/

namespace Sys2Proof.Machine

/-- An SPDM connection: 0 of PCIe port A, 1 of the fabric management channel. -/
def State.spdm (s : State) (port : Nat) : Spdm := readAt (fun _ => spdmFresh) s.boot.spdm port
/-- A connection replaced. -/
def State.setSpdm (s : State) (port : Nat) (x : Spdm) : State :=
  s.updBoot fun b => { b with spdm := writeAt (fun _ => spdmFresh) b.spdm port x }

/-- A byte. -/
def by8 (n : Nat) : Byte := BitVec.ofNat 8 n

/-- The bytes of an ASCII string. -/
def ascii (t : String) : List Byte := t.toList.map fun c => by8 c.toNat

/-- An ERROR response. -/
def spdmError (code : Nat) : List Byte := [0x12, 0x7F, by8 code, 0]

/-- R494: the certificate chain in flash, by its own length. -/
def State.certChain (s : State) : List Byte :=
  let dev := s.fld (aSec 0) 5 5
  s.flashBytes dev 0x1010000 (min 0x10000 (leNat (s.flashBytes dev 0x1010000 2)))

/-- The prefix of what a responder signs: the version string four times, and a context, padded to 100 bytes. -/
def spdmPrefix (context : String) : List Byte :=
  let v := ascii "dmtf-spdm-v1.2.*"
  let c := ascii context
  v ++ v ++ v ++ v ++ List.replicate (36 - c.length) 0 ++ c

/-- R494, R495: a signature with the identity key over a transcript. -/
def State.spdmSign (s : State) (context : String) (transcript : List Byte) : List Byte × State :=
  let (k, s) := s.draw 10
  let (r, t) := ecdsaSign (idKey (leBytes 32 s.fuses.secret) 256 0)
    (beNat (sha256 (spdmPrefix context ++ sha256 transcript))) k
  (beBytes 32 r ++ beBytes 32 t, s)

/-- A nonce of 32 bytes. -/
def State.nonce (s : State) : List Byte × State :=
  let (v, s) := s.draw 9
  (leBytes 32 v, s)

/-- R495, R496: the measurement block of index `n + 1`: Mn as a digest. -/
def State.measBlock (s : State) (n : Nat) : List Byte :=
  [by8 (n + 1), 1] ++ leBytes 2 35 ++ [by8 (Config.spdmField 2 n % 128)] ++ leBytes 2 32 ++ s.measBytes n

/-- A request's answer: the connection and the response. -/
abbrev SpdmStep := State → Spdm → List Byte → State × Spdm × List Byte

/-- R495: GET_VERSION begins the connection anew; VERSION holds 1.2 only. -/
def spdmVersion : SpdmStep := fun s _ req =>
  let out := [0x10, 0x04, 0, 0, 0, 1, 0, 0x12]
  (s, { spdmFresh with step := 1, vca := req ++ out }, out)

/-- R495: CAPABILITIES: CERT, CHAL and signed MEAS, with CTExponent 14. -/
def spdmCapabilities : SpdmStep := fun s x req =>
  if x.step ≠ 1 then (s, x, spdmError 4)
  else
    let out := [0x12, 0x61, 0, 0, 0, 14, 0, 0] ++ leBytes 4 0x16 ++ leBytes 4 (Config.spdmField 1 0) ++ leBytes 4 (Config.spdmField 1 1)
    (s, { x with step := 2, vca := x.vca ++ req ++ out }, out)

/-- R495: ALGORITHMS: ECDSA on P-256, SHA-256 and the DMTF measurement specification, where the requester offers them. -/
def spdmAlgorithms : SpdmStep := fun s x req =>
  if x.step ≠ 2 then (s, x, spdmError 4)
  else if !bit (hdr req 8 4) 4 || !bit (hdr req 12 4) 0 then (s, x, spdmError 1)
  else
    let out := [0x12, 0x63, 0, 0] ++ leBytes 2 36 ++ [1, 0] ++ leBytes 4 2 ++ leBytes 4 0x10 ++ leBytes 4 1 ++ List.replicate 16 0
    (s, { x with step := 3, vca := x.vca ++ req ++ out }, out)

/-- R495: DIGESTS of slot 0. -/
def spdmDigests : SpdmStep := fun s x req =>
  if x.step ≠ 3 then (s, x, spdmError 4)
  else
    let out := [0x12, 0x01, 0, 1] ++ sha256 s.certChain
    (s, { x with certs := x.certs ++ req ++ out, meas := [] }, out)

/-- R495, R496: a portion of the chain of slot 0, in a data object of at most 4 KiB. -/
def spdmCertificate : SpdmStep := fun s x req =>
  let chain := s.certChain
  let off := hdr req 4 2
  if x.step ≠ 3 then (s, x, spdmError 4)
  else if hdr req 2 1 % 16 ≠ 0 ∨ chain.length ≤ off then (s, x, spdmError 1)
  else
    let n := min (min (hdr req 6 2) (chain.length - off)) 4080
    let out := [0x12, 0x02, 0, 0] ++ leBytes 2 n ++ leBytes 2 (chain.length - off - n) ++ (chain.drop off).take n
    (s, { x with certs := x.certs ++ req ++ out, meas := [] }, out)

/-- R495: CHALLENGE_AUTH, signed with the identity key. -/
def spdmChallenge : SpdmStep := fun s x req =>
  let kind := hdr req 3 1
  if x.step ≠ 3 then (s, x, spdmError 4)
  else if req.length < 36 ∨ hdr req 2 1 ≠ 0 ∨ (kind ≠ 0 ∧ kind ≠ 1 ∧ kind ≠ 0xFF) then (s, x, spdmError 1)
  else
    let (nonce, s) := s.nonce
    let sum := if kind = 0 then [] else if kind = 0xFF then sha256 ((List.range 8).flatMap s.measBlock)
      else leBytes 32 (Config.spdmField 3 0)
    let body := [0x12, 0x03, 0, 1] ++ sha256 s.certChain ++ nonce ++ sum ++ [0, 0]
    let (sig, s) := s.spdmSign "responder-challenge_auth signing" (x.vca ++ x.certs ++ req ++ body)
    (s, { x with certs := [], meas := [] }, body ++ sig)

/-- R495, R496: MEASUREMENTS: the number of them, one, or all eight, copied in one cycle; signed where that is asked for. -/
def spdmMeasurements : SpdmStep := fun s x req =>
  let op := hdr req 3 1
  let signed := bit (hdr req 2 1) 0
  if x.step ≠ 3 then (s, x, spdmError 4)
  else if (8 < op ∧ op ≠ 0xFF) ∨ (signed ∧ req.length < 37) then (s, x, spdmError 1)
  else
    let ns := if op = 0 then [] else if op = 0xFF then List.range 8 else [op - 1]
    let rec_ := ns.flatMap s.measBlock
    let (nonce, s) := s.nonce
    let body := [0x12, 0x60, if op = 0 then 8 else 0, 0, by8 ns.length] ++ leBytes 3 rec_.length ++ rec_ ++ nonce ++ [0, 0]
    let meas := x.meas ++ req ++ body
    if signed then
      let (sig, s) := s.spdmSign "responder-measurements signing" (x.vca ++ meas)
      (s, { x with meas := [] }, body ++ sig)
    else (s, { x with meas := meas }, body)

/-- R495: the request codes of the responder. -/
def spdmStep (code : Nat) : Option SpdmStep :=
  match code with
  | 0x84 => some spdmVersion
  | 0xE1 => some spdmCapabilities
  | 0xE3 => some spdmAlgorithms
  | 0x81 => some spdmDigests
  | 0x82 => some spdmCertificate
  | 0x83 => some spdmChallenge
  | 0xE0 => some spdmMeasurements
  | _ => none

/-- R495, R496: a request on a connection: Busy while the security core of a Vale out of reset is not RUNNING; a version other than
1.2, or a request
that is not supported, is an error. -/
def State.spdmServe (s : State) (port : Nat) (req : List Byte) : State :=
  let x := s.spdm port
  let code := hdr req 1 1
  if s.boot.phase = 0 then s
  else if !s.secRunning then s.setSpdm port { x with out := spdmError 3 }
  else if hdr req 0 1 ≠ (if code = 0x84 then 0x10 else 0x12) then s.setSpdm port { x with out := spdmError 0x41 }
  else match spdmStep code with
    | none => s.setSpdm port { x with out := spdmError 7 }
    | some f =>
      let (s, x, out) := f s x req
      s.setSpdm port { x with out := out }

/-- A request of the given code. -/
def State.spdmRow (s : State) (port : Fin 2) (req : List Byte) (code : Nat) : State :=
  if hdr req 1 1 = code then s.spdmServe port req else s

/-- R495: GET_VERSION. -/
def execGetVersion (port : Fin 2) (req : List Byte) (s : State) : Host.Outcome State Fault Refusal := .next <| s.live (s.spdmRow port req 0x84)
/-- R495: GET_CAPABILITIES. -/
def execGetCapabilities (port : Fin 2) (req : List Byte) (s : State) : Host.Outcome State Fault Refusal :=
  .next <| s.live (s.spdmRow port req 0xE1)
/-- R495: NEGOTIATE_ALGORITHMS. -/
def execNegotiateAlgorithms (port : Fin 2) (req : List Byte) (s : State) : Host.Outcome State Fault Refusal :=
  .next <| s.live (s.spdmRow port req 0xE3)
/-- R495: GET_DIGESTS. -/
def execGetDigests (port : Fin 2) (req : List Byte) (s : State) : Host.Outcome State Fault Refusal := .next <| s.live (s.spdmRow port req 0x81)
/-- R495: GET_CERTIFICATE. -/
def execGetCertificate (port : Fin 2) (req : List Byte) (s : State) : Host.Outcome State Fault Refusal :=
  .next <| s.live (s.spdmRow port req 0x82)
/-- R495: CHALLENGE. -/
def execChallenge (port : Fin 2) (req : List Byte) (s : State) : Host.Outcome State Fault Refusal := .next <| s.live (s.spdmRow port req 0x83)
/-- R495, R496: GET_MEASUREMENTS. -/
def execGetMeasurements (port : Fin 2) (req : List Byte) (s : State) : Host.Outcome State Fault Refusal :=
  .next <| s.live (s.spdmRow port req 0xE0)

/-- R496: DOE discovery on port A: the discovery object, then CMA/SPDM. -/
def execDoeDiscovery (index : Byte) (s : State) : Host.Outcome State Fault Refusal :=
  .next <| s.live (s.updBoot fun b => { b with doe :=
    if index = 0 then [0x01, 0x00, 0x00, 0x01] else if index = 1 then [0x01, 0x00, 0x01, 0x00] else [0xFF, 0xFF, 0x00, 0x00] })

/-- R496, R519: an SPDM message over the fabric: a request is answered by a message of the same kind. -/
def execMgmtSpdm (p : Fin 4) (frame : List Byte) (s : State) : Host.Outcome State Fault Refusal :=
  .next <| s.live (s.mgmtTake p frame 10 true fun s f =>
    let req := f.data.take (min 4096 f.addr)
    if hdr req 1 1 < 0x80 then s
    else
      let s := s.spdmServe 1 req
      let out := (s.spdm 1).out
      s.colSend p f.src { type := 10, sub := 10, addr := out.length, plain := !f.enc, data := out ++ List.replicate ((64 - out.length % 64) % 64) 0 })

end Sys2Proof.Machine
end

