-- ==== Sys2Proof/Machine/Tensor.lean ====
section
/-! DEFINITION. The tensor instructions (R126 to R128) and the step of the cells (R78, R81). -/

namespace Sys2Proof.Machine

/-- R126: region row, region column and outer index of rs1. -/
def regionOf (w : Word) : Nat × Nat × Nat := (bits w.toNat 15 0, bits w.toNat 31 16, bits w.toNat 47 32)

/-- R124, R125: the descriptor in register `d` of a slot, none where it is invalid. -/
def ThreadSlot.dget (th : ThreadSlot) (d : Nat) : Option TDesc := (lookup th.d d).map fun w => tdesc w.toNat

/-- R127: the status of an MMA (sp false) or MMAS (sp true); the lowest code of the rules that are broken. -/
def mmaStatus (sp : Bool) (a b : TDesc) (i j o k0 klen : Nat) : Nat :=
  let step := if a.format.isMx || b.format.isMx then 32 else if sp then 8 else 4
  lowest (
    (if a.space ≠ 1 ∨ b.space ≠ 1 ∨ a.sparse ∨ b.sparse ≠ sp ∨ klen % step ≠ 0 ∨ k0 % step ≠ 0 then [0x0F] else []) ++
    (if (a.format.isMx ∧ ¬ a.axis) ∨ (b.format.isMx ∧ b.axis) then [0x0F] else []) ++
    (if fmtPairOk a.format b.format then [] else [0x0C]) ++
    (if a.cols < k0 + klen ∨ b.logicalK < k0 + klen then [2] else []) ++
    (if (a.outer ≠ 1 ∧ a.outer ≤ o) ∨ (b.outer ≠ 1 ∧ b.outer ≤ o) then [2] else []) ++
    (if a.rows ≤ 16 * i ∨ b.cols ≤ 16 * j then [2] else []))

/-- R127, R147: MMA and MMAS: an acquire holds them (their operand reads are loads, R115); the checks, then the clearing (ACC = 0)
and the steps queued for the cells. -/
def State.mmaIssue (s : State) (sp : Bool) (t : SlotId) (da db set : Nat) (acc : Bool) (rs1 rs2 : Nat) : State :=
  s.issue t [rs1, rs2] [] fun th _ =>
    match lookup th.d da, lookup th.d db with
    | some wa, some wb =>
      let a := tdesc wa.toNat
      let b := tdesc wb.toNat
      let (i, j, o) := regionOf (th.xget rs1)
      let k0 := bits (th.xget rs2).toNat 31 0
      let klen := bits (th.xget rs2).toNat 63 32
      let st := mmaStatus sp a b i j o k0 klen
      if th.acqHeld then s
      else if st ≠ 0 then s.threadFault t th st
      else
        let g := if sp then 8 else 4
        let steps := (List.range (klen / g)).map fun x => TItem.step set wa.toNat wb.toNat i j o (k0 + g * x)
        let clr := if !acc then [TItem.clear set a.format.acc]
          else if steps.isEmpty then [] else [TItem.take set a.format.acc]
        s.setSlot (tkey t) { th with steps := th.steps ++ clr ++ steps }.pc4
    | _, _ => s.threadFault t th 0x0F

/-- R127: MMA. -/
def execMma (t : SlotId) (da db : Fin 4) (set : Fin 2) (acc : Bool) (rs1 rs2 : Fin 32) (s : State) :
    Host.Outcome State Fault Refusal :=
  .next <| s.live (s.mmaIssue false t da db set acc rs1 rs2)

/-- R127: MMAS. -/
def execMmas (t : SlotId) (da db : Fin 4) (set : Fin 2) (acc : Bool) (rs1 rs2 : Fin 32) (s : State) :
    Host.Outcome State Fault Refusal :=
  .next <| s.live (s.mmaIssue true t da db set acc rs1 rs2)

/-- The set that a queued item uses. -/
def TItem.setOf : TItem → Nat
  | .clear n _ => n
  | .take n _ => n
  | .step n _ _ _ _ _ _ => n

/-- R82, R115: a drain waits for the set's queued steps; for queued steps that have still to read the bytes it writes in
its own tile; and for earlier requests of its slot that touch them (R146). -/
def drainStalls (t : SlotId) (th : ThreadSlot) (set : Nat) (base : Nat) (blocks : List (Nat × List Byte)) : Bool :=
  (th.steps.any fun it => decide (it.setOf = set)) ||
    blocks.any fun b => th.stepReads (tileBase t.die t.lea t.tile) (base + b.1) b.2.length
      || th.reqs.any fun q => q.touches (base + b.1) b.2.length

/-- R128: the status of a DRAIN before it writes. -/
def drainStatus (d : TDesc) (i j o : Nat) : Nat :=
  lowest (
    (if (d.space ≠ 1 ∧ d.space ≠ 2) ∨ d.sparse then [0x0F] else []) ++
    (if d.format.isMx then [0x0C] else []) ++
    (if d.outer ≤ o ∨ d.rows ≤ 16 * i ∨ d.cols ≤ 16 * j then [2] else []))

/-- R82, R128: DRAIN: the set is converted in the drain's order and written, with the flags of the conversions; the
checker of its kind compares what is not skipped (R99, R100, R105). DESIGN CHOICE (assumption 119): of a set that no
instruction of the thread has cleared, which has no kind, R81 names neither the kind that a DRAIN expects nor the counter of
the skipped comparisons: the model takes FP32 and CHECKSUM_SKIP. -/
def execDrain (t : SlotId) (da : Fin 4) (set : Fin 2) (rs1 : Fin 32) (s : State) : Host.Outcome State Fault Refusal :=
  .next <| s.live (s.issue t [rs1] [] fun th c =>
    match th.dget da with
    | none => s.threadFault t th 0x0F
    | some d =>
      let (i, j, o) := regionOf (th.xget rs1)
      let st := drainStatus d i j o
      if th.acqHeld then s
      else if st ≠ 0 then s.threadFault t th st
      else
        let acc := readAt (fun _ => accSetFresh) th.acc set
        let kind := acc.kind.getD .fp32
        let undef := acc.kind.isNone || acc.vals.isEmpty
        let vals := if undef then undefinedVals s.free else acc.vals
        let base := if d.space = 1 then tileBase t.die t.lea t.tile else poolBase t.die t.lea
        let (blocks, flags, lfsr) := drainOut c.arith kind vals d i j o th.lfsr
        if drainStalls t th set base blocks then s
        else
          let who := whoThread t th.cmd
          let st := lowest (blocks.map fun b => s.access who true (base + b.1) b.2.length)
          if st ≠ 0 then s.accessFault t th st (blocks.map fun b => (base + b.1, b.2.length))
          else
            let s := { s with free := s.free + b2n undef }
            let s := s.setSlot (tkey t) { th with lfsr := lfsr }.pc4
            let s := blocks.foldl (fun s b =>
              let (e, s) := s.mergeEcc (base + b.1) b.2.length
              s.sramStore th.cmd (base + b.1) b.2 e) s
            let s := s.addFlags th.cmd flags
            let skips := drainSkips kind { acc with undefinedRead := acc.undefinedRead || undef } vals
            let s := s.countSkips t.die t.lea t.tile skips
            if skips = skipsAll kind then s else s.injectFire t.die t.lea t.tile (if kind = .fp32 then 2 else 1))

/-! ## The step of the cells (R78, R81, R115) -/

/-- R115, R146: the slot's next step may run: no earlier store or copy of the slot still has to write bytes it reads. -/
def ThreadSlot.stepReady (th : ThreadSlot) (win : Nat) : Bool :=
  match th.steps.find? fun it => !it.reads.isEmpty with
  | some it => !(it.reads.any fun r => th.reqs.any fun q => q.writes (win + r.1) r.2)
  | none => !th.steps.isEmpty

/-- R81: the slot the cells serve next: round-robin, after the slot served last. -/
def State.stepSlot (s : State) (t : TileId) : Option Nat :=
  let last := (s.tile (tileIdKey t)).lastStep
  ((List.range 8).map fun x => (last + 1 + x) % 8).find? fun k =>
    let th := s.slot (slotKey t.die t.lea t.tile k)
    th.busy && th.stepReady (tileBase t.die t.lea t.tile) &&
      match s.cmd th.cmd with
      | some c => decide (c.phase = .running)
      | none => false

/-- R81: a set taken up as it stands: of another kind than the instruction expects, or never cleared, it is read as undefined
values, its own kind staying that of its last clearing. -/
def AccSet.taken (x : AccSet) (k : AccKind) (free : Nat) : AccSet :=
  if x.kind = some k then x else { x with vals := undefinedVals free, undefinedRead := true }

/-- R145: so many items have left the head of a slot's queue: the copies that wait behind them wait for fewer. -/
def ThreadSlot.advance (th : ThreadSlot) (n : Nat) : ThreadSlot :=
  { th with reqs := th.reqs.map fun q => match q.kind with
    | .copy dst c ahead => { q with kind := .copy dst c (ahead - n) }
    | _ => q }

/-- The clears and the takings at the head of a slot's queue take effect; `free` counts the free values drawn. -/
def ThreadSlot.clears : List TItem → ThreadSlot × Nat → ThreadSlot × Nat
  | .clear n k :: r, (th, f) =>
    ThreadSlot.clears r ({ th with steps := r, acc := writeAt (fun _ => accSetFresh) th.acc n (accSetClear k) }, f)
  | .take n k :: r, (th, f) =>
    let x := readAt (fun _ => accSetFresh) th.acc n
    ThreadSlot.clears r ({ th with steps := r, acc := writeAt (fun _ => accSetFresh) th.acc n (x.taken k f) }, f + 1)
  | _, x => x

/-- R78, R81: the cells run one queued step of a slot. A corrected operand is used (R94); with an uncorrectable one the
step does not run and the command is done again (R95). -/
def execTensorStep (t : TileId) (ecc : Ecc) (s : State) : Host.Outcome State Fault Refusal :=
  .next <| s.live <|
    match s.stepSlot t with
    | none => s
    | some k =>
      let key := slotKey t.die t.lea t.tile k
      let win := tileBase t.die t.lea t.tile
      let th0 := s.slot key
      let (th, free) := ThreadSlot.clears th0.steps (th0, s.free)
      let th := th.advance (th0.steps.length - th.steps.length)
      let s := { s with free := free }
      let s := s.setTile (tileIdKey t) { s.tile (tileIdKey t) with lastStep := k }
      match th.steps, s.cmd th.cmd with
      | .step set da db i j o k0 :: rest, some c =>
        let lines := ((TItem.step set da db i j o k0).reads.flatMap fun r => linesOf (win + r.1) r.2).eraseDups
        let s := s.sramFire t.die t.lea t.tile
        let (x, s) := if ecc = .clean then (0, s) else s.errLine lines
        if ecc = .uncorrectable then (s.setSlot key th).tileUe th.cmd t.die t.lea t.tile x
        else
          let s := if ecc = .corrected then s.tileSramError t.die t.lea t.tile x false else s
          let acc := readAt (fun _ => accSetFresh) th.acc set
          let (acc2, flags) := s.setStep win c.arith acc da db i j o k0
          (s.setSlot key { th.advance 1 with steps := rest, acc := writeAt (fun _ => accSetFresh) th.acc set acc2 }).addFlags
            th.cmd flags
      | _, _ => s.setSlot key th

end Sys2Proof.Machine
end

