-- ==== Sys2Proof/Machine/Vector.lean ====
section
/-! DEFINITION. The vector instructions (R129 to R131, R273 to R277). -/

namespace Sys2Proof.Machine

/-- R105: the checker of a vector operation evaluates: the residue path for the integer formats and Q16.16 (R99), the
check lane for the others (R101). DESIGN CHOICE (assumption 111): a conversion goes by its destination format, and INT4 and LOG8,
in which the unit does not compute, fall to the check lane. -/
def State.vecChecked (s : State) (t : SlotId) (f : Fmt) : State :=
  s.injectFire t.die t.lea t.tile (match f with
    | .int8 | .int16 | .q16 => 1
    | _ => 3)

/-- The slot after a vector result: vd written, the program counter moved, the flags gathered and the checker run. -/
def State.vecDone (s : State) (t : SlotId) (th : ThreadSlot) (vd : Nat) (f : Fmt) (r : BitVec 2048 × BitVec 8) :
    State :=
  ((s.setSlot (tkey t) (th.vput vd r.1).pc4).addFlags th.cmd r.2).vecChecked t f

/-- R130: an operation in format code `fmt`, which must be one of `ok`, else a fault with FORMAT_UNSUPPORTED. -/
def State.vecOp (s : State) (t : SlotId) (vd : Nat) (vs : List Nat) (fmt : Nat) (ok : List Fmt)
    (f : ThreadSlot → Fmt → ArithCtl → BitVec 2048 × BitVec 8) : State :=
  s.issue t [] vs fun th c =>
    match fmtOf fmt with
    | some g => if ok.contains g then s.vecDone t th vd g (f th g c.arith) else s.threadFault t th 0x0C
    | none => s.threadFault t th 0x0C

/-- R129: the formats of VADD and its like. -/
def fmtsArith : List Fmt := [.fp32, .q16, .fp16, .bf16, .int8, .int16]

/-- R129: va + vb. -/
def execVadd (t : SlotId) (vd va vb : Fin 8) (fmt : Fin 16) (s : State) : Host.Outcome State Fault Refusal :=
  .next <| s.live (s.vecOp t vd [va, vb] fmt fmtsArith fun th f c => vec2 f c (th.vget va) (th.vget vb) Num.add)

/-- R129: va − vb. -/
def execVsub (t : SlotId) (vd va vb : Fin 8) (fmt : Fin 16) (s : State) : Host.Outcome State Fault Refusal :=
  .next <| s.live (s.vecOp t vd [va, vb] fmt fmtsArith fun th f c =>
    vec2 f c (th.vget va) (th.vget vb) fun x y => x.add y.neg)

/-- R129: va × vb. -/
def execVmul (t : SlotId) (vd va vb : Fin 8) (fmt : Fin 16) (s : State) : Host.Outcome State Fault Refusal :=
  .next <| s.live (s.vecOp t vd [va, vb] fmt fmtsArith fun th f c => vec2 f c (th.vget va) (th.vget vb) Num.mul)

/-- R129: va × vb + vc, rounded once. -/
def execVfma (t : SlotId) (vd va vb vc : Fin 8) (fmt : Fin 16) (s : State) : Host.Outcome State Fault Refusal :=
  .next <| s.live (s.vecOp t vd [va, vb, vc] fmt fmtsArith fun th f c =>
    vec3 f c (th.vget va) (th.vget vb) (th.vget vc) fun x y z => (x.mul y).add z)

/-- R129: the minimum per lane. -/
def execVmin (t : SlotId) (vd va vb : Fin 8) (fmt : Fin 16) (s : State) : Host.Outcome State Fault Refusal :=
  .next <| s.live (s.vecOp t vd [va, vb] fmt fmtsArith fun th f c => vec2 f c (th.vget va) (th.vget vb) (minMax false))

/-- R129: the maximum per lane. -/
def execVmax (t : SlotId) (vd va vb : Fin 8) (fmt : Fin 16) (s : State) : Host.Outcome State Fault Refusal :=
  .next <| s.live (s.vecOp t vd [va, vb] fmt fmtsArith fun th f c => vec2 f c (th.vget va) (th.vget vb) (minMax true))

/-- R129: all ones if va < vb, else 0. -/
def execVcmplt (t : SlotId) (vd va vb : Fin 8) (fmt : Fin 16) (s : State) : Host.Outcome State Fault Refusal :=
  .next <| s.live (s.vecOp t vd [va, vb] fmt fmtsArith fun th f c => vecCmp f c (th.vget va) (th.vget vb) Num.lt)

/-- R129: all ones if va = vb, else 0. -/
def execVcmpeq (t : SlotId) (vd va vb : Fin 8) (fmt : Fin 16) (s : State) : Host.Outcome State Fault Refusal :=
  .next <| s.live (s.vecOp t vd [va, vb] fmt fmtsArith fun th f c => vecCmp f c (th.vget va) (th.vget vb) Num.eqv)

/-- R114, R131: the vector registers that a VCVT reads: va; vc where the source is an MX format; vd where the result fills half of
it. -/
def cvtReads (fmt fmt2 vd va vc : Nat) : List Nat :=
  match fmtOf fmt, fmtOf fmt2 with
  | some dst, some src => va :: (if src.isMx then [vc] else []) ++ (if dst.width < src.width then [vd] else [])
  | _, _ => [va]

/-- R131: va from FMT2 converted to FMT. DESIGN CHOICE (assumption 112): where vd and vc name one register, which receives both
results of a conversion to an MX format, it keeps the elements. -/
def execVcvt (t : SlotId) (vd va vc : Fin 8) (fmt fmt2 : Fin 16) (half : Bool) (s : State) :
    Host.Outcome State Fault Refusal :=
  .next <| s.live (s.issue t [] (cvtReads fmt fmt2 vd va vc) fun th c =>
    match fmtOf fmt, fmtOf fmt2 with
    | some dst, some src =>
      let (open_, s) := if dst.width * 2 < src.width then s.draw 1 else (0, s)
      let (d, sc, fl, l) := vecCvt dst src half c.arith (th.vget va) (th.vget vd) (th.vget vc) open_ th.lfsr
      let th := { th with lfsr := l }
      let th := if dst.isMx then th.vput vc sc else th
      s.vecDone t th vd dst (d, fl)
    | _, _ => s.threadFault t th 0x0C)

/-- R88, R129: the formats of the special functions. -/
def fmtsSpecial : List Fmt := [.fp32, .fp16, .bf16]

/-- A special function of every lane, in a floating-point format. -/
def State.vecSpecialOp (s : State) (t : SlotId) (vd va : Fin 8) (fmt : Nat)
    (op : Fmt → FloatFmt → ArithCtl → Nat → Flagged) : State :=
  s.vecOp t vd [va.val] fmt fmtsSpecial fun th f c =>
    match f.float? with
    | some ff => vecSpecial f ff c (th.vget va) op
    | none => (th.vget va, 0)

/-- R89, R129: e^va. -/
def execVexp (t : SlotId) (vd va : Fin 8) (fmt : Fin 16) (s : State) : Host.Outcome State Fault Refusal :=
  .next <| s.live (s.vecSpecialOp t vd va fmt vexpLane)

/-- R89, R129: 2^va. -/
def execVexp2 (t : SlotId) (vd va : Fin 8) (fmt : Fin 16) (s : State) : Host.Outcome State Fault Refusal :=
  .next <| s.live (s.vecSpecialOp t vd va fmt vexp2Lane)

/-- R89, R129: 1/√va. -/
def execVrsqrt (t : SlotId) (vd va : Fin 8) (fmt : Fin 16) (s : State) : Host.Outcome State Fault Refusal :=
  .next <| s.live (s.vecSpecialOp t vd va fmt vrsqrtLane)

/-- R276, R277: sixteen radix-4 butterflies. -/
def execVbfly4 (t : SlotId) (vd va vb : Fin 8) (fmt : Fin 16) (s : State) : Host.Outcome State Fault Refusal :=
  .next <| s.live (s.issue t [] [va, vb] fun th c =>
    match fmtOf fmt with
    | some .fp16 =>
      let (d, fl, l) := vecBfly .fp16 c.arith (th.vget va) (th.vget vb) th.lfsr
      s.vecDone t { th with lfsr := l } vd .fp16 (d, fl)
    | some .bf16 =>
      let (d, fl, l) := vecBfly .bf16 c.arith (th.vget va) (th.vget vb) th.lfsr
      s.vecDone t { th with lfsr := l } vd .bf16 (d, fl)
    | _ => s.threadFault t th 0x0C)

/-- R273 to R275: VPOOL whose control word names `mode`. A control word that breaks R274 is a fault with BAD_DESCRIPTOR;
one that names another legal mode is another operation, and nothing happens here. -/
def State.vecPoolOp (s : State) (t : SlotId) (vd va vb vc : Fin 8) (fmt mode : Nat) : State :=
  s.issue t [] [va, vb, vc] fun th c =>
    match fmtOf fmt with
    | some f =>
      if f = .int8 ∨ f = .fp16 ∨ f = .bf16 then
        let pc := poolCtl (2048 / (16 * f.width)) ((th.vget vc).toNat % 65536)
        if !pc.legal then s.threadFault t th 0x0F
        else if pc.mode ≠ mode then s
        else
          let (d, fl, l) := vecPool f c.arith pc (th.vget va) (th.vget vb) th.lfsr
          ((s.setSlot (tkey t) ({ th with lfsr := l }.vput vd d).pc4).addFlags th.cmd fl).injectFire
            t.die t.lea t.tile 3
      else s.threadFault t th 0x0C
    | none => s.threadFault t th 0x0C

/-- R275: pixel-axis maximum. -/
def execVpoolMax (t : SlotId) (vd va vb vc : Fin 8) (fmt : Fin 16) (s : State) : Host.Outcome State Fault Refusal :=
  .next <| s.live (s.vecPoolOp t vd va vb vc fmt 0)

/-- R275: pixel-axis average. -/
def execVpoolAvg (t : SlotId) (vd va vb vc : Fin 8) (fmt : Fin 16) (s : State) : Host.Outcome State Fault Refusal :=
  .next <| s.live (s.vecPoolOp t vd va vb vc fmt 1)

/-- R275: pixel shift or stride selection. -/
def execVpoolSelect (t : SlotId) (vd va vb vc : Fin 8) (fmt : Fin 16) (s : State) :
    Host.Outcome State Fault Refusal :=
  .next <| s.live (s.vecPoolOp t vd va vb vc fmt 2)

/-- R129: the sum of all lanes into lane 0, in a fixed tree. -/
def execVredsum (t : SlotId) (vd va : Fin 8) (fmt : Fin 16) (s : State) : Host.Outcome State Fault Refusal :=
  .next <| s.live (s.vecOp t vd [va] fmt [.fp32, .q16, .int16] fun th f c => vecReduce f c (th.vget va) Num.add)

/-- R129: the maximum of all lanes into lane 0. -/
def execVredmax (t : SlotId) (vd va : Fin 8) (fmt : Fin 16) (s : State) : Host.Outcome State Fault Refusal :=
  .next <| s.live (s.vecOp t vd [va] fmt [.fp32, .q16, .fp16, .bf16, .int16] fun th f c =>
    vecReduce f c (th.vget va) (minMax true))

/-- R129: a scalar register converted from INT64, in every lane. DESIGN CHOICE (assumption 109): it is one conversion, which draws
once for all lanes. -/
def execVbcast (t : SlotId) (vd : Fin 8) (rs : Fin 32) (fmt : Fin 16) (s : State) :
    Host.Outcome State Fault Refusal :=
  .next <| s.live (s.issue t [rs] [] fun th c =>
    match fmtOf fmt with
    | some f =>
      if f.vectorOk then
        let i := (th.xget rs).toInt
        let (y, l) := putDraw f c.arith th.lfsr (.fin (decide (i < 0)) i.natAbs 0)
        let n := laneBits f
        s.vecDone t { th with lfsr := l } vd f
          (unlanes n (List.replicate (2048 / n) (laneWrite f y.val)), y.flags)
      else s.threadFault t th 0x0C
    | none => s.threadFault t th 0x0C)

/-- R129: lane 0 converted to INT64 into a scalar register. -/
def execVext (t : SlotId) (rd : Fin 32) (va : Fin 8) (fmt : Fin 16) (s : State) :
    Host.Outcome State Fault Refusal :=
  .next <| s.live (s.issue t [] [va] fun th c =>
    match fmtOf fmt with
    | some f =>
      if f.vectorOk then
        let x := laneRead f c.arith ((lanes (laneBits f) (th.vget va)).getD 0 0)
        let y := intPut 64 0 c.arith.rnd x.1
        ((s.setSlot (tkey t) (th.xput rd (BitVec.ofNat 64 y.val)).pc4).addFlags th.cmd
          (y.flags ||| x.2)).vecChecked t f
      else s.threadFault t th 0x0C
    | none => s.threadFault t th 0x0C)

end Sys2Proof.Machine
end

