-- ==== Sys2Proof/Machine/Dispatch.lean ====
section
/-! DEFINITION. One arm per command: each calls its meaning. -/

namespace Sys2Proof.Machine

def exec (i : Instr) (s : State) : Host.Outcome State Fault Refusal :=
  match i with
  | .modeRequest init value => Sys2Proof.Machine.execModeRequest init value s
  | .modeRequestDecide => Sys2Proof.Machine.execModeRequestDecide s
  | .modeChangeApply => Sys2Proof.Machine.execModeChangeApply s
  | .modeChangePreempt => Sys2Proof.Machine.execModeChangePreempt s
  | .hostMissingTimeout => Sys2Proof.Machine.execHostMissingTimeout s
  | .add t rd rs1 rs2 => Sys2Proof.Machine.execAdd t rd rs1 rs2 s
  | .sub t rd rs1 rs2 => Sys2Proof.Machine.execSub t rd rs1 rs2 s
  | .andRr t rd rs1 rs2 => Sys2Proof.Machine.execAndRr t rd rs1 rs2 s
  | .orRr t rd rs1 rs2 => Sys2Proof.Machine.execOrRr t rd rs1 rs2 s
  | .xorRr t rd rs1 rs2 => Sys2Proof.Machine.execXorRr t rd rs1 rs2 s
  | .sll t rd rs1 rs2 => Sys2Proof.Machine.execSll t rd rs1 rs2 s
  | .srl t rd rs1 rs2 => Sys2Proof.Machine.execSrl t rd rs1 rs2 s
  | .sra t rd rs1 rs2 => Sys2Proof.Machine.execSra t rd rs1 rs2 s
  | .slt t rd rs1 rs2 => Sys2Proof.Machine.execSlt t rd rs1 rs2 s
  | .sltu t rd rs1 rs2 => Sys2Proof.Machine.execSltu t rd rs1 rs2 s
  | .mul t rd rs1 rs2 => Sys2Proof.Machine.execMul t rd rs1 rs2 s
  | .mulhu t rd rs1 rs2 => Sys2Proof.Machine.execMulhu t rd rs1 rs2 s
  | .minRr t rd rs1 rs2 => Sys2Proof.Machine.execMinRr t rd rs1 rs2 s
  | .maxRr t rd rs1 rs2 => Sys2Proof.Machine.execMaxRr t rd rs1 rs2 s
  | .minu t rd rs1 rs2 => Sys2Proof.Machine.execMinu t rd rs1 rs2 s
  | .maxu t rd rs1 rs2 => Sys2Proof.Machine.execMaxu t rd rs1 rs2 s
  | .addi t rd rs1 imm => Sys2Proof.Machine.execAddi t rd rs1 imm s
  | .andi t rd rs1 imm => Sys2Proof.Machine.execAndi t rd rs1 imm s
  | .ori t rd rs1 imm => Sys2Proof.Machine.execOri t rd rs1 imm s
  | .xori t rd rs1 imm => Sys2Proof.Machine.execXori t rd rs1 imm s
  | .slli t rd rs1 sh => Sys2Proof.Machine.execSlli t rd rs1 sh s
  | .srli t rd rs1 sh => Sys2Proof.Machine.execSrli t rd rs1 sh s
  | .srai t rd rs1 sh => Sys2Proof.Machine.execSrai t rd rs1 sh s
  | .slti t rd rs1 imm => Sys2Proof.Machine.execSlti t rd rs1 imm s
  | .shori t rd rs1 imm => Sys2Proof.Machine.execShori t rd rs1 imm s
  | .ld t rt base sz imm => Sys2Proof.Machine.execLd t rt base sz imm s
  | .ldu t rt base sz imm => Sys2Proof.Machine.execLdu t rt base sz imm s
  | .st t rt base sz imm => Sys2Proof.Machine.execSt t rt base sz imm s
  | .vld t vt base imm => Sys2Proof.Machine.execVld t vt base imm s
  | .vst t vt base imm => Sys2Proof.Machine.execVst t vt base imm s
  | .memoryRequestAck t k ecc => Sys2Proof.Machine.execMemoryRequestAck t k ecc s
  | .sramCeWriteback addr => Sys2Proof.Machine.execSramCeWriteback addr s
  | .sramScrubRead addr ecc => Sys2Proof.Machine.execSramScrubRead addr ecc s
  | .mma t da db set acc rs1 rs2 => Sys2Proof.Machine.execMma t da db set acc rs1 rs2 s
  | .mmas t da db set acc rs1 rs2 => Sys2Proof.Machine.execMmas t da db set acc rs1 rs2 s
  | .drain t da set rs1 => Sys2Proof.Machine.execDrain t da set rs1 s
  | .tensorStep t ecc => Sys2Proof.Machine.execTensorStep t ecc s
  | .vadd t vd va vb fmt => Sys2Proof.Machine.execVadd t vd va vb fmt s
  | .vsub t vd va vb fmt => Sys2Proof.Machine.execVsub t vd va vb fmt s
  | .vmul t vd va vb fmt => Sys2Proof.Machine.execVmul t vd va vb fmt s
  | .vfma t vd va vb vc fmt => Sys2Proof.Machine.execVfma t vd va vb vc fmt s
  | .vmin t vd va vb fmt => Sys2Proof.Machine.execVmin t vd va vb fmt s
  | .vmax t vd va vb fmt => Sys2Proof.Machine.execVmax t vd va vb fmt s
  | .vcmplt t vd va vb fmt => Sys2Proof.Machine.execVcmplt t vd va vb fmt s
  | .vcmpeq t vd va vb fmt => Sys2Proof.Machine.execVcmpeq t vd va vb fmt s
  | .vcvt t vd va vc fmt fmt2 half => Sys2Proof.Machine.execVcvt t vd va vc fmt fmt2 half s
  | .vexp t vd va fmt => Sys2Proof.Machine.execVexp t vd va fmt s
  | .vexp2 t vd va fmt => Sys2Proof.Machine.execVexp2 t vd va fmt s
  | .vrsqrt t vd va fmt => Sys2Proof.Machine.execVrsqrt t vd va fmt s
  | .vbfly4 t vd va vb fmt => Sys2Proof.Machine.execVbfly4 t vd va vb fmt s
  | .vpoolMax t vd va vb vc fmt => Sys2Proof.Machine.execVpoolMax t vd va vb vc fmt s
  | .vpoolAvg t vd va vb vc fmt => Sys2Proof.Machine.execVpoolAvg t vd va vb vc fmt s
  | .vpoolSelect t vd va vb vc fmt => Sys2Proof.Machine.execVpoolSelect t vd va vb vc fmt s
  | .vredsum t vd va fmt => Sys2Proof.Machine.execVredsum t vd va fmt s
  | .vredmax t vd va fmt => Sys2Proof.Machine.execVredmax t vd va fmt s
  | .vbcast t vd rs fmt => Sys2Proof.Machine.execVbcast t vd rs fmt s
  | .vext t rd va fmt => Sys2Proof.Machine.execVext t rd va fmt s
  | .beq t rs1 rs2 imm => Sys2Proof.Machine.execBeq t rs1 rs2 imm s
  | .bne t rs1 rs2 imm => Sys2Proof.Machine.execBne t rs1 rs2 imm s
  | .blt t rs1 rs2 imm => Sys2Proof.Machine.execBlt t rs1 rs2 imm s
  | .bge t rs1 rs2 imm => Sys2Proof.Machine.execBge t rs1 rs2 imm s
  | .bltu t rs1 rs2 imm => Sys2Proof.Machine.execBltu t rs1 rs2 imm s
  | .bgeu t rs1 rs2 imm => Sys2Proof.Machine.execBgeu t rs1 rs2 imm s
  | .jal t rd imm => Sys2Proof.Machine.execJal t rd imm s
  | .jalr t rd rs1 imm => Sys2Proof.Machine.execJalr t rd rs1 imm s
  | .post t rs1 rs2 kind rel => Sys2Proof.Machine.execPost t rs1 rs2 kind rel s
  | .postArrive k => Sys2Proof.Machine.execPostArrive k s
  | .wait t rd rs1 rs2 c acq => Sys2Proof.Machine.execWait t rd rs1 rs2 c acq s
  | .waitArrival t k => Sys2Proof.Machine.execWaitArrival t k s
  | .waitTimeout t k => Sys2Proof.Machine.execWaitTimeout t k s
  | .fenceRelease t => Sys2Proof.Machine.execFenceRelease t s
  | .fenceAcquire t => Sys2Proof.Machine.execFenceAcquire t s
  | .fenceFull t => Sys2Proof.Machine.execFenceFull t s
  | .copy t rd rs1 rs2 c => Sys2Proof.Machine.execCopy t rd rs1 rs2 c s
  | .copyComplete t k ecc => Sys2Proof.Machine.execCopyComplete t k ecc s
  | .tdld t dreg idx => Sys2Proof.Machine.execTdld t dreg idx s
  | .rdid t rd sel => Sys2Proof.Machine.execRdid t rd sel s
  | .ltaSram t rd rs1 => Sys2Proof.Machine.execLtaSram t rd rs1 s
  | .ltaTil t rd rs1 => Sys2Proof.Machine.execLtaTil t rd rs1 s
  | .exit t => Sys2Proof.Machine.execExit t s
  | .reservedInstruction t w => Sys2Proof.Machine.execReservedInstruction t w s
  | .threadSlotFree t => Sys2Proof.Machine.execThreadSlotFree t s
  | .tileShareStart list idx ltile => Sys2Proof.Machine.execTileShareStart list idx ltile s
  | .leaSwap init l value => Sys2Proof.Machine.execLeaSwap init l value s
  | .swapMap l => Sys2Proof.Machine.execSwapMap l s
  | .tileClearDone t => Sys2Proof.Machine.execTileClearDone t s
  | .mismatchReport t check => Sys2Proof.Machine.execMismatchReport t check s
  | .tilInjectResidue init t => Sys2Proof.Machine.execTilInjectResidue init t s
  | .tilInjectChecksum init t => Sys2Proof.Machine.execTilInjectChecksum init t s
  | .tilInjectVector init t => Sys2Proof.Machine.execTilInjectVector init t s
  | .tilInjectSramSingle init t => Sys2Proof.Machine.execTilInjectSramSingle init t s
  | .tilInjectSramDouble init t => Sys2Proof.Machine.execTilInjectSramDouble init t s
  | .tilInjectTimeout t => Sys2Proof.Machine.execTilInjectTimeout t s
  | .tilCntClrEcc init t => Sys2Proof.Machine.execTilCntClrEcc init t s
  | .tilCntClrSkip init t => Sys2Proof.Machine.execTilCntClrSkip init t s
  | .job set => Sys2Proof.Machine.execJob set s
  | .ctxAlloc set => Sys2Proof.Machine.execCtxAlloc set s
  | .ctxFree set => Sys2Proof.Machine.execCtxFree set s
  | .ctxBlock set => Sys2Proof.Machine.execCtxBlock set s
  | .ctxUnblock set => Sys2Proof.Machine.execCtxUnblock set s
  | .ctxWrite set => Sys2Proof.Machine.execCtxWrite set s
  | .ctxRead set => Sys2Proof.Machine.execCtxRead set s
  | .jobCancel set => Sys2Proof.Machine.execJobCancel set s
  | .jobStart => Sys2Proof.Machine.execJobStart s
  | .jobResume => Sys2Proof.Machine.execJobResume s
  | .jobTimeout serial => Sys2Proof.Machine.execJobTimeout serial s
  | .threads list idx => Sys2Proof.Machine.execThreads list idx s
  | .glenForward list idx => Sys2Proof.Machine.execGlenForward list idx s
  | .glenBackward list idx => Sys2Proof.Machine.execGlenBackward list idx s
  | .glenCombine list idx => Sys2Proof.Machine.execGlenCombine list idx s
  | .prairiePublish list idx => Sys2Proof.Machine.execPrairiePublish list idx s
  | .prairieWavefront list idx => Sys2Proof.Machine.execPrairieWavefront list idx s
  | .prairieCheck list idx => Sys2Proof.Machine.execPrairieCheck list idx s
  | .prairieBatch list idx die => Sys2Proof.Machine.execPrairieBatch list idx die s
  | .prairieRanking list idx => Sys2Proof.Machine.execPrairieRanking list idx s
  | .collectiveReshard list idx => Sys2Proof.Machine.execCollectiveReshard list idx s
  | .collectiveAllReduce list idx => Sys2Proof.Machine.execCollectiveAllReduce list idx s
  | .collectiveAllGather list idx => Sys2Proof.Machine.execCollectiveAllGather list idx s
  | .collectiveReduceScatter list idx => Sys2Proof.Machine.execCollectiveReduceScatter list idx s
  | .checkpointSnapshot list idx => Sys2Proof.Machine.execCheckpointSnapshot list idx s
  | .checkpointRestore list idx => Sys2Proof.Machine.execCheckpointRestore list idx s
  | .golden list idx => Sys2Proof.Machine.execGolden list idx s
  | .cropResize list idx => Sys2Proof.Machine.execCropResize list idx s
  | .zb64Pack list idx => Sys2Proof.Machine.execZb64Pack list idx s
  | .zb64Unpack list idx => Sys2Proof.Machine.execZb64Unpack list idx s
  | .completionFifoRecord => Sys2Proof.Machine.execCompletionFifoRecord s
  | .commandTimeout list idx => Sys2Proof.Machine.execCommandTimeout list idx s
  | .commitPoint list idx => Sys2Proof.Machine.execCommitPoint list idx s
  | .completionEntryWrite set => Sys2Proof.Machine.execCompletionEntryWrite set s
  | .contextReadiness ctx => Sys2Proof.Machine.execContextReadiness ctx s
  | .swapInComplete ctx => Sys2Proof.Machine.execSwapInComplete ctx s
  | .autonomousSwap => Sys2Proof.Machine.execAutonomousSwap s
  | .goldenReserve l => Sys2Proof.Machine.execGoldenReserve l s
  | .goldenRunEnd die lea diag => Sys2Proof.Machine.execGoldenRunEnd die lea diag s
  | .goldenSlotTimeout l => Sys2Proof.Machine.execGoldenSlotTimeout l s
  | .sqTailDoorbell init set value => Sys2Proof.Machine.execSqTailDoorbell init set value s
  | .ringEnable init set value => Sys2Proof.Machine.execRingEnable init set value s
  | .ringDisable init set value => Sys2Proof.Machine.execRingDisable init set value s
  | .kvPublish init value => Sys2Proof.Machine.execKvPublish init value s
  | .kvPublishResume => Sys2Proof.Machine.execKvPublishResume s
  | .kvEvict init value => Sys2Proof.Machine.execKvEvict init value s
  | .kvRetireRelease root => Sys2Proof.Machine.execKvRetireRelease root s
  | .kvQuarantineRelease frame => Sys2Proof.Machine.execKvQuarantineRelease frame s
  | .prairieMapRelease base => Sys2Proof.Machine.execPrairieMapRelease base s
  | .praInvalGrid init die => Sys2Proof.Machine.execPraInvalGrid init die s
  | .praInvalVox init die => Sys2Proof.Machine.execPraInvalVox init die s
  | .glnInjectScore init l => Sys2Proof.Machine.execGlnInjectScore init l s
  | .glnInjectValue init l => Sys2Proof.Machine.execGlnInjectValue init l s
  | .glnInjectRowState init l => Sys2Proof.Machine.execGlnInjectRowState init l s
  | .glnInjectTimeout l => Sys2Proof.Machine.execGlnInjectTimeout l s
  | .glnCntClrEcc init l => Sys2Proof.Machine.execGlnCntClrEcc init l s
  | .glnCntClrSkip init l => Sys2Proof.Machine.execGlnCntClrSkip init l s
  | .glnCntClrUse init l => Sys2Proof.Machine.execGlnCntClrUse init l s
  | .praInjectWavefront init die => Sys2Proof.Machine.execPraInjectWavefront init die s
  | .praInjectDisc init die => Sys2Proof.Machine.execPraInjectDisc init die s
  | .praInjectBuffer init die => Sys2Proof.Machine.execPraInjectBuffer init die s
  | .praInjectTimeout die => Sys2Proof.Machine.execPraInjectTimeout die s
  | .praCntClrEcc init die => Sys2Proof.Machine.execPraCntClrEcc init die s
  | .praCntClrUse init die => Sys2Proof.Machine.execPraCntClrUse init die s
  | .dramRead req act err cmdErr => Sys2Proof.Machine.execDramRead req act err cmdErr s
  | .dramWrite who addr mask data => Sys2Proof.Machine.execDramWrite who addr mask data s
  | .dramReadModifyWrite addr act err cmdErr => Sys2Proof.Machine.execDramReadModifyWrite addr act err cmdErr s
  | .dramWriteDrain die pc acts => Sys2Proof.Machine.execDramWriteDrain die pc acts s
  | .dramRefreshDue die pc => Sys2Proof.Machine.execDramRefreshDue die pc s
  | .dramTempRead die temps => Sys2Proof.Machine.execDramTempRead die temps s
  | .dramPatrolScrub at_ off err cmdErr => Sys2Proof.Machine.execDramPatrolScrub at_ off err cmdErr s
  | .migrationUnit die pc errs => Sys2Proof.Machine.execMigrationUnit die pc errs s
  | .eyeMonitorUpdate die pc group width drift => Sys2Proof.Machine.execEyeMonitorUpdate die pc group width drift s
  | .dramTrainingDone die pass fails eyes => Sys2Proof.Machine.execDramTrainingDone die pass fails eyes s
  | .selfRefreshEntry die => Sys2Proof.Machine.execSelfRefreshEntry die s
  | .dmcRetire init die value => Sys2Proof.Machine.execDmcRetire init die value s
  | .dmcRhThreshWrite init die value => Sys2Proof.Machine.execDmcRhThreshWrite init die value s
  | .dmcCntClrErr init die => Sys2Proof.Machine.execDmcCntClrErr init die s
  | .flitData p flit => Sys2Proof.Machine.execFlitData p flit s
  | .flitIdle p flit => Sys2Proof.Machine.execFlitIdle p flit s
  | .flitNak p flit => Sys2Proof.Machine.execFlitNak p flit s
  | .replayTimeout p => Sys2Proof.Machine.execReplayTimeout p s
  | .retrainEnd p mods eye => Sys2Proof.Machine.execRetrainEnd p mods eye s
  | .rd p => Sys2Proof.Machine.execRd p s
  | .wr p => Sys2Proof.Machine.execWr p s
  | .wrp p => Sys2Proof.Machine.execWrp p s
  | .rdrsp p => Sys2Proof.Machine.execRdrsp p s
  | .wrack p => Sys2Proof.Machine.execWrack p s
  | .fdlPost p => Sys2Proof.Machine.execFdlPost p s
  | .zwr p => Sys2Proof.Machine.execZwr p s
  | .rd2 p => Sys2Proof.Machine.execRd2 p s
  | .kill die => Sys2Proof.Machine.execKill die s
  | .drained die => Sys2Proof.Machine.execDrained die s
  | .record die => Sys2Proof.Machine.execRecord die s
  | .faultReport h die bad => Sys2Proof.Machine.execFaultReport h die bad s
  | .ctrlRetrain p => Sys2Proof.Machine.execCtrlRetrain p s
  | .ctrlResetNotify p => Sys2Proof.Machine.execCtrlResetNotify p s
  | .xframe h => Sys2Proof.Machine.execXframe h s
  | .restore h die index => Sys2Proof.Machine.execRestore h die index s
  | .linkRxTimeout p => Sys2Proof.Machine.execLinkRxTimeout p s
  | .dieMarkAbsent die => Sys2Proof.Machine.execDieMarkAbsent die s
  | .dieRejoin die => Sys2Proof.Machine.execDieRejoin die s
  | .cap p part data => Sys2Proof.Machine.execCap p part data s
  | .capAck p crc => Sys2Proof.Machine.execCapAck p crc s
  | .hello p id => Sys2Proof.Machine.execHello p id s
  | .resetReq p cold => Sys2Proof.Machine.execResetReq p cold s
  | .pwrBudget p => Sys2Proof.Machine.execPwrBudget p s
  | .pwrReport p => Sys2Proof.Machine.execPwrReport p s
  | .rejoin p pos => Sys2Proof.Machine.execRejoin p pos s
  | .fence p pos => Sys2Proof.Machine.execFence p pos s
  | .linkTrainDone p mods eye => Sys2Proof.Machine.execLinkTrainDone p mods eye s
  | .fdlTestP1 init p => Sys2Proof.Machine.execFdlTestP1 init p s
  | .fdlTestP2 init p => Sys2Proof.Machine.execFdlTestP2 init p s
  | .fdlTestP3 init p => Sys2Proof.Machine.execFdlTestP3 init p s
  | .fdlCntClrErr init p => Sys2Proof.Machine.execFdlCntClrErr init p s
  | .flrWindowStart die => Sys2Proof.Machine.execFlrWindowStart die s
  | .urgencyRise die source slack => Sys2Proof.Machine.execUrgencyRise die source slack s
  | .urgencyFall die source slack => Sys2Proof.Machine.execUrgencyFall die source slack s
  | .flrBudgetWrite init die q c value => Sys2Proof.Machine.execFlrBudgetWrite init die q c value s
  | .flrIqmUrgWrite init value => Sys2Proof.Machine.execFlrIqmUrgWrite init value s
  | .flrCntClrLat init die => Sys2Proof.Machine.execFlrCntClrLat init die s
  | .flrCntClrOver init die => Sys2Proof.Machine.execFlrCntClrOver init die s
  | .csiLongPacket port vc dt payload hdr crcOk overflow fifo => Sys2Proof.Machine.execCsiLongPacket port vc dt payload hdr crcOk overflow fifo s
  | .csiFrameStart port vc num hdr => Sys2Proof.Machine.execCsiFrameStart port vc num hdr s
  | .csiFrameEnd port vc hdr => Sys2Proof.Machine.execCsiFrameEnd port vc hdr s
  | .csiShortPacketIgnored port hdr => Sys2Proof.Machine.execCsiShortPacketIgnored port hdr s
  | .noFrameTimeout q => Sys2Proof.Machine.execNoFrameTimeout q s
  | .ethFrame mac frame overflow fifo lasted => Sys2Proof.Machine.execEthFrame mac frame overflow fifo lasted s
  | .queueOverwrittenRecord => Sys2Proof.Machine.execQueueOverwrittenRecord s
  | .apertureWrite init q off line => Sys2Proof.Machine.execApertureWrite init q off line s
  | .iqmQueueConfigWrite init q reg value => Sys2Proof.Machine.execIqmQueueConfigWrite init q reg value s
  | .iqmCntClrPort init => Sys2Proof.Machine.execIqmCntClrPort init s
  | .iqmCntClrQueue init => Sys2Proof.Machine.execIqmCntClrQueue init s
  | .timeBaseRealign die => Sys2Proof.Machine.execTimeBaseRealign die s
  | .ptpSync twoStep seq interval origin correction => Sys2Proof.Machine.execPtpSync twoStep seq interval origin correction s
  | .ptpFollowUp seq origin correction => Sys2Proof.Machine.execPtpFollowUp seq origin correction s
  | .ptpPdelayReq seq => Sys2Proof.Machine.execPtpPdelayReq seq s
  | .ptpPdelayResp seq received sent => Sys2Proof.Machine.execPtpPdelayResp seq received sent s
  | .ptpPdelayReqSend => Sys2Proof.Machine.execPtpPdelayReqSend s
  | .ptpAnnounceDiscard => Sys2Proof.Machine.execPtpAnnounceDiscard s
  | .ptpSyncTimeout => Sys2Proof.Machine.execPtpSyncTimeout s
  | .holdoverExpiry => Sys2Proof.Machine.execHoldoverExpiry s
  | .heathSlot h => Sys2Proof.Machine.execHeathSlot h s
  | .crossFrameMidslot h => Sys2Proof.Machine.execCrossFrameMidslot h s
  | .crossFrame h viaPath bad => Sys2Proof.Machine.execCrossFrame h viaPath bad s
  | .partnerSilent h => Sys2Proof.Machine.execPartnerSilent h s
  | .vehicleStateFrame h data => Sys2Proof.Machine.execVehicleStateFrame h data s
  | .trajectoryRecord h err => Sys2Proof.Machine.execTrajectoryRecord h err s
  | .pairTimeout h job => Sys2Proof.Machine.execPairTimeout h job s
  | .heathVerdict h job => Sys2Proof.Machine.execHeathVerdict h job s
  | .verdictTimeout h job => Sys2Proof.Machine.execVerdictTimeout h job s
  | .acceptStale h => Sys2Proof.Machine.execAcceptStale h s
  | .checkerSelfTest h test => Sys2Proof.Machine.execCheckerSelfTest h test s
  | .heathFailSilent h => Sys2Proof.Machine.execHeathFailSilent h s
  | .heathBoot h params => Sys2Proof.Machine.execHeathBoot h params s
  | .helloWaitTimeout die => Sys2Proof.Machine.execHelloWaitTimeout die s
  | .resetNotifyTimeout die => Sys2Proof.Machine.execResetNotifyTimeout die s
  | .resetWireRelease die => Sys2Proof.Machine.execResetWireRelease die s
  | .collectorHeartbeat die => Sys2Proof.Machine.execCollectorHeartbeat die s
  | .dieHung h die => Sys2Proof.Machine.execDieHung h die s
  | .rotationStep l => Sys2Proof.Machine.execRotationStep l s
  | .tileSelfTestDone t pass => Sys2Proof.Machine.execTileSelfTestDone t pass s
  | .rowRepair mac row bist => Sys2Proof.Machine.execRowRepair mac row bist s
  | .leaRebind l => Sys2Proof.Machine.execLeaRebind l s
  | .faultRecordWrite h => Sys2Proof.Machine.execFaultRecordWrite h s
  | .faultRecordTimeout die => Sys2Proof.Machine.execFaultRecordTimeout die s
  | .ageingMeasure die slacks => Sys2Proof.Machine.execAgeingMeasure die slacks s
  | .ageingHourEval die => Sys2Proof.Machine.execAgeingHourEval die s
  | .freezeNFall lowNs => Sys2Proof.Machine.execFreezeNFall lowNs s
  | .valFreezeReq init value => Sys2Proof.Machine.execValFreezeReq init value s
  | .thaw => Sys2Proof.Machine.execThaw s
  | .debugRegisterAccess wr addr value => Sys2Proof.Machine.execDebugRegisterAccess wr addr value s
  | .mainInputInRange => Sys2Proof.Machine.execMainInputInRange s
  | .mainInputOutOfRange => Sys2Proof.Machine.execMainInputOutOfRange s
  | .auxInputInRange => Sys2Proof.Machine.execAuxInputInRange s
  | .auxInputOutOfRange => Sys2Proof.Machine.execAuxInputOutOfRange s
  | .inputOvervoltage aux => Sys2Proof.Machine.execInputOvervoltage aux s
  | .heathResetRelease => Sys2Proof.Machine.execHeathResetRelease s
  | .sequencerRelease => Sys2Proof.Machine.execSequencerRelease s
  | .resetNAssert lowNs => Sys2Proof.Machine.execResetNAssert lowNs s
  | .resetNRelease => Sys2Proof.Machine.execResetNRelease s
  | .romBoot bad => Sys2Proof.Machine.execRomBoot bad s
  | .securityCoreStart => Sys2Proof.Machine.execSecurityCoreStart s
  | .leaCoreLoad l => Sys2Proof.Machine.execLeaCoreLoad l s
  | .heathMeasRead => Sys2Proof.Machine.execHeathMeasRead s
  | .bootSettle => Sys2Proof.Machine.execBootSettle s
  | .fwWatchdogExpiry code => Sys2Proof.Machine.execFwWatchdogExpiry code s
  | .fwUnhandledTrap code => Sys2Proof.Machine.execFwUnhandledTrap code s
  | .fwMemoryUe code imem => Sys2Proof.Machine.execFwMemoryUe code imem s
  | .fwRestartDone code => Sys2Proof.Machine.execFwRestartDone code s
  | .getVersion port req => Sys2Proof.Machine.execGetVersion port req s
  | .getCapabilities port req => Sys2Proof.Machine.execGetCapabilities port req s
  | .negotiateAlgorithms port req => Sys2Proof.Machine.execNegotiateAlgorithms port req s
  | .getDigests port req => Sys2Proof.Machine.execGetDigests port req s
  | .getCertificate port req => Sys2Proof.Machine.execGetCertificate port req s
  | .challenge port req => Sys2Proof.Machine.execChallenge port req s
  | .getMeasurements port req => Sys2Proof.Machine.execGetMeasurements port req s
  | .doeDiscovery index => Sys2Proof.Machine.execDoeDiscovery index s
  | .stage m readback => Sys2Proof.Machine.execStage m readback s
  | .activate m => Sys2Proof.Machine.execActivate m s
  | .arbCommit m => Sys2Proof.Machine.execArbCommit m s
  | .heathStage m readbackA readbackB => Sys2Proof.Machine.execHeathStage m readbackA readbackB s
  | .heathActivate m => Sys2Proof.Machine.execHeathActivate m s
  | .flashRead m => Sys2Proof.Machine.execFlashRead m s
  | .logRead m => Sys2Proof.Machine.execLogRead m s
  | .revoke m => Sys2Proof.Machine.execRevoke m s
  | .colLockAchieved p => Sys2Proof.Machine.execColLockAchieved p s
  | .colTrainingTimeout p => Sys2Proof.Machine.execColTrainingTimeout p s
  | .colLossOfLock p unc => Sys2Proof.Machine.execColLossOfLock p unc s
  | .colLaneFail p lane => Sys2Proof.Machine.execColLaneFail p lane s
  | .bypassClose axis => Sys2Proof.Machine.execBypassClose axis s
  | .bypassOpen axis => Sys2Proof.Machine.execBypassOpen axis s
  | .colRd p frame => Sys2Proof.Machine.execColRd p frame s
  | .colRdrsp p frame => Sys2Proof.Machine.execColRdrsp p frame s
  | .colWr p frame => Sys2Proof.Machine.execColWr p frame s
  | .colWrack p frame => Sys2Proof.Machine.execColWrack p frame s
  | .colColl p frame group serial member => Sys2Proof.Machine.execColColl p frame group serial member s
  | .colHello p frame uid fabric name address lead => Sys2Proof.Machine.execColHello p frame uid fabric name address lead s
  | .colHeartbeat p frame fec unc => Sys2Proof.Machine.execColHeartbeat p frame fec unc s
  | .colKey p frame idx wrapped ecies => Sys2Proof.Machine.execColKey p frame idx wrapped ecies s
  | .frameForward p frame => Sys2Proof.Machine.execFrameForward p frame s
  | .mgmtProbe p frame => Sys2Proof.Machine.execMgmtProbe p frame s
  | .mgmtProbeRsp p frame => Sys2Proof.Machine.execMgmtProbeRsp p frame s
  | .mgmtSuspect p frame who cause => Sys2Proof.Machine.execMgmtSuspect p frame who cause s
  | .mgmtVote p frame who => Sys2Proof.Machine.execMgmtVote p frame who s
  | .mgmtExpel p frame => Sys2Proof.Machine.execMgmtExpel p frame s
  | .mgmtRoute p frame epoch first entries managers => Sys2Proof.Machine.execMgmtRoute p frame epoch first entries managers s
  | .mgmtRouteCommit p frame epoch key => Sys2Proof.Machine.execMgmtRouteCommit p frame epoch key s
  | .mgmtAdmitReq p frame req => Sys2Proof.Machine.execMgmtAdmitReq p frame req s
  | .mgmtAdmit p frame uid address => Sys2Proof.Machine.execMgmtAdmit p frame uid address s
  | .mgmtSpdm p frame => Sys2Proof.Machine.execMgmtSpdm p frame s
  | .mgmtRing m => Sys2Proof.Machine.execMgmtRing m s
  | .mgmtAperture p frame => Sys2Proof.Machine.execMgmtAperture p frame s
  | .mgmtRole p frame grant => Sys2Proof.Machine.execMgmtRole p frame grant s
  | .mgmtCompare p frame c => Sys2Proof.Machine.execMgmtCompare p frame c s
  | .mgmtResign p frame => Sys2Proof.Machine.execMgmtResign p frame s
  | .mgmtCandidate p frame uid => Sys2Proof.Machine.execMgmtCandidate p frame uid s
  | .candidateWait => Sys2Proof.Machine.execCandidateWait s
  | .formationElect => Sys2Proof.Machine.execFormationElect s
  | .admitRetry => Sys2Proof.Machine.execAdmitRetry s
  | .colHeartbeatSend => Sys2Proof.Machine.execColHeartbeatSend s
  | .colHeartbeatMiss p => Sys2Proof.Machine.execColHeartbeatMiss p s
  | .probeTimeout who => Sys2Proof.Machine.execProbeTimeout who s
  | .authFailExpulsion => Sys2Proof.Machine.execAuthFailExpulsion s
  | .keyErase key => Sys2Proof.Machine.execKeyErase key s
  | .remoteTimeout tag => Sys2Proof.Machine.execRemoteTimeout tag s
  | .collRetry => Sys2Proof.Machine.execCollRetry s
  | .colCntClrErr init => Sys2Proof.Machine.execColCntClrErr init s
  | .pwrBudgetCycle => Sys2Proof.Machine.execPwrBudgetCycle s
  | .powerMeasure mainV mainI auxV auxI => Sys2Proof.Machine.execPowerMeasure mainV mainI auxV auxI s
  | .oppEvaluate die mw => Sys2Proof.Machine.execOppEvaluate die mw s
  | .thermalRead die temps => Sys2Proof.Machine.execThermalRead die temps s
  | .coolantRead inlet outlet => Sys2Proof.Machine.execCoolantRead inlet outlet s
  | .pcieInboundRead addr len => Sys2Proof.Machine.execPcieInboundRead addr len s
  | .pcieInboundWrite addr data => Sys2Proof.Machine.execPcieInboundWrite addr data s
  | .msixMessage v => Sys2Proof.Machine.execMsixMessage v s
  | .perstAChange low => Sys2Proof.Machine.execPerstAChange low s
  | .pcieLinkChange portB up speed width => Sys2Proof.Machine.execPcieLinkChange portB up speed width s
  | .pcieCompletionTimeout status => Sys2Proof.Machine.execPcieCompletionTimeout status s
  | .registerWrite init addr value => Sys2Proof.Machine.execRegisterWrite init addr value s
  | .engineCompletion list idx die lea err => Sys2Proof.Machine.execEngineCompletion list idx die lea err s
  | .pcieConfigRequest wr dword be value => Sys2Proof.Machine.execPcieConfigRequest wr dword be value s
  | .portBInboundRequest => Sys2Proof.Machine.execPortBInboundRequest s
  | .ethPcsLockChange mac lock fec => Sys2Proof.Machine.execEthPcsLockChange mac lock fec s
  | .sgmiiLinkChange h up gigabit full => Sys2Proof.Machine.execSgmiiLinkChange h up gigabit full s
  | .trainingPatternDetect p => Sys2Proof.Machine.execTrainingPatternDetect p s
  | .dieLeavesReset die => Sys2Proof.Machine.execDieLeavesReset die s
  | .meadowRestoreComplete die badTiles badEngines => Sys2Proof.Machine.execMeadowRestoreComplete die badTiles badEngines s
  | .heathSilentReplace h => Sys2Proof.Machine.execHeathSilentReplace h s
  | .tapScanShift op => Sys2Proof.Machine.execTapScanShift op s

end Sys2Proof.Machine
end

