-- ==== Sys2Proof/Machine/Step.lean ====
section
/-! DEFINITION. The step of the module: the command at the front of the queue is carried out; on an empty queue a
nanosecond of the time base passes. -/

namespace Sys2Proof.Machine

/-- DESIGN CHOICE (assumption 2). With no command waiting, one nanosecond passes: the time base (R23) counts it, unless a
freeze or the module's reset holds it (R412, R471). -/
def State.idle (s : State) : State :=
  if s.frozen ∨ s.boot.phase = 0 then { s with past := s.past + 1 } else { s with now := s.now + 1 }

/-- One step: the front command on the state with the queue's rest, or idling. -/
def step (s : State) : Host.Outcome State Fault Refusal :=
  match s.pending with
  | [] => .next s.idle
  | c :: rest => exec c { s with pending := rest }

/-- The state with the command that a word of the opcode table spells at the front of its queue; the table gives no row
bits, so no word spells one (assumption 1). -/
def State.withFetchWord (s : State) (nbits w : Nat) : State :=
  match Sys2Proof.decodeTableWord nbits w with
  | some c => { s with pending := c :: s.pending }
  | none => s

end Sys2Proof.Machine
end

