-- ==== Sys2Proof/Safety.lean ====
section
/-! DEFINITION. What counts as a safe state and a safe run, in the words that statements use. -/

namespace Sys2Proof.Machine

/-- Memory in its canonical form: addresses strictly rising, no entry equal to what an unlisted byte reads as. -/
def Memory.wf (m : List Host.Cell) : Bool := wfSparse memDefault m

/-- The memory and the registers of a state are in their canonical form. -/
def State.canonical (s : State) : Prop := Memory.wf s.mem = true ∧ wfSparse regReset s.regs = true

/-- A step that answers a next state: no command of this module faults or is refused. -/
def State.goesOn (s : State) : Prop := ∃ t, step s = .next t

/-- Slot `t` of thread `th` issues an instruction that reads the scalar registers `xs` and the vector registers `vs` (R114, R134): no
freeze is in force, the thread's command `c` runs, the thread is live, its program counter lies in the code region, and no
register it reads waits for an earlier load or wait. -/
def State.ready (s : State) (t : SlotId) (th : ThreadSlot) (c : Cmd) (xs vs : List Nat) : Prop :=
  s.frozen = false ∧ s.slot (tkey t) = th ∧ s.cmd th.cmd = some c ∧ c.phase = .running ∧ th.live = true
    ∧ c.inCode th.pc = true ∧ (xs.all fun r => !th.xBusy r) = true ∧ (vs.all fun r => !th.vBusy r) = true

/-- Nothing but slot `k` differs. -/
def State.onlySlot (s t : State) (k : Nat) : Prop :=
  t = { s with slots := t.slots } ∧ ∀ j, j ≠ k → t.slot j = s.slot j

/-- Nothing but registers differs. -/
def State.regsOnly (s t : State) : Prop := t = { s with regs := t.regs }

/-- Nothing but the scheduler core's data differs. -/
def State.schedOnly (s t : State) : Prop := t = { s with sched := t.sched }

/-- Nothing but registers differ, and of those only the ones at the addresses `l`. -/
def State.onlyRegs (s t : State) (l : List Nat) : Prop :=
  t = { s with regs := t.regs } ∧ ∀ a, a ∉ l → t.reg a = s.reg a

/-- R206, R211, R453: nothing differs but what raising events leaves: entries of the event rings, their tails and their counts, the count
of lost events, events that wait for the scheduler core, the reports of the collectors, and vectors to signal. -/
def State.eventOnly (s t : State) : Prop :=
  t = { s with
      mem := t.mem, poison := t.poison, spoilt := t.spoilt, regs := t.regs, collectors := t.collectors
      sched := { s.sched with ringSeq := t.sched.ringSeq, evWait := t.sched.evWait }
      host := { s.host with msixDue := t.host.msixDue } }
    ∧ ∀ a, a ≠ aSch 0x34 → (∀ set < 4, a ≠ aRing set 0x30) → t.reg a = s.reg a

/-- R454: the last report that the collector of `die` holds for Heath A is that of an event with this name and these arguments. -/
def State.reported (t : State) (die : Nat) (name : String) (arg0 arg1 : Nat) : Prop :=
  ∃ r, (readAt (fun _ => []) (t.collector die).out 0).getLast? = some r ∧ r.ev.die = die ∧ r.ev.name = name
    ∧ r.ev.arg0 = arg0 ∧ r.ev.arg1 = arg1

/-- The command `i` leads from `s` to a state of which `P` holds. -/
def Leads (i : Instr) (s : State) (P : State → Prop) : Prop := ∃ t, exec i s = .next t ∧ P t

/-- What a freeze holds (R471): the time base, memory, the tiles, slots and leas, the scheduler, the contexts, the planner's and the
ingress's tables, the stacks, the fabric, the posts in flight, and every register but the Heaths' own, the pins' and the count of
events that the Heaths had to drop. -/
def State.sameHeld (s t : State) : Prop :=
  t.now = s.now ∧ t.frozen = s.frozen ∧ t.mem = s.mem ∧ t.poison = s.poison ∧ t.spoilt = s.spoilt ∧ t.tiles = s.tiles ∧ t.slots = s.slots ∧ t.leas = s.leas
    ∧ t.posts = s.posts ∧ t.sched = s.sched ∧ t.kv = s.kv ∧ t.prairie = s.prairie ∧ t.queues = s.queues ∧ t.iqm = s.iqm
    ∧ t.dram = s.dram ∧ t.col = s.col ∧ t.boot = s.boot
    ∧ ∀ a, a < heathBase 0 → a ≠ aVal 0x220 → a ≠ aSch 0x34 → t.reg a = s.reg a

end Sys2Proof.Machine
end

