-- ==== Sys2Proof/Certificates/Slice0/Obligations.lean ====
section
/-! DEFINITION. The statements about the model: what the spec's rules say of each family of commands and of each kind of state. -/

open Sys2Proof Sys2Proof.Machine

/-! ## The queue of commands, reset, and what holds of every command -/

/-- One step carries out the command at the front of the queue on the state with the queue's rest. -/
def Obligations.StepRunsTheFrontCommand : Prop :=
  ∀ (c : Instr) (rest : List Instr) (s : State),
    step { s with pending := c :: rest } = exec c { s with pending := rest }

/-- R419, R471, and the model's choice of assumption 2: with no command waiting the Heaths' clock counts one nanosecond; the time
base counts it too, unless a freeze or the module's reset holds it, and nothing else changes. -/
def IdleStepCountsTime : Prop :=
  ∀ s : State, s.pending = [] → ∃ t, step s = .next t ∧ t.clock = s.clock + 1
    ∧ t.now = (if s.frozen ∨ s.boot.phase = 0 then s.now else s.now + 1)
    ∧ t = { s with now := t.now, past := t.past }

/-- R32, R33, R36, R106, R107, R108, R109, R478, R507, R551: the values right after reset of registers whose reset value the spec
gives: the identifiers, the mode BOOT with no safety concept and nothing pending, the Vale alone present, the leas with 16 tiles in
service and their maps the identity, tile 16 the free tile, and the Vale's power limits. -/
def ResetRegisters : Prop :=
  State.reset.reg (aVal 0) = 0x561002C1 ∧ State.reset.reg (aVal 0x10) = 0 ∧ State.reset.reg (aVal 0x20) = 0x10
    ∧ (∀ d < 4, State.reset.reg (aMdw d 0) = 0x4D1102C1 + d * 0x1000)
    ∧ (∀ d < 4, ∀ l < 16, State.reset.reg (aLea d l 0) = 0x1010 ∧ ∀ n < 16, State.reset.reg (aLea d l (0x40 + 4 * n)) = n)
    ∧ (∀ d < 4, ∀ l < 16, State.reset.fld (aTil d l 16 0) 2 0 = 1)
    ∧ State.reset.reg (aSec 0) = 4 ∧ State.reset.reg (aPwr 0x10) = 0x11300E10

/-- Right after reset no command waits, no time has passed, no freeze is in force, memory lists nothing, and memory and registers
are in their canonical form; a byte that nothing has written reads as 0 and a register the spec gives no reset value holds 0 (the
model's choices of assumptions 3 and 4). -/
def ResetIsCanonical : Prop :=
  State.reset.canonical ∧ State.reset.pending = [] ∧ State.reset.now = 0 ∧ State.reset.frozen = false
    ∧ State.reset.mem = [] ∧ (∀ a < 0x400000000000, State.reset.byte a = 0) ∧ State.reset.sched.jobs = []

/-- R32, R33, R36, R106 to R109, R478, R507, R551: the state right after reset: the values that the spec gives, and the canonical
form of the rest. -/
def Obligations.ResetState : Prop := ResetRegisters ∧ ResetIsCanonical


/-- No command stops the module with a fault or a refusal: every one of them answers a next state, in every state. -/
def NoCommandStops : Prop := ∀ (c : Instr) (s : State), ∃ t, exec c s = .next t

/-- R419, R471, and the model's choice of assumption 2: a step always answers a next state: with no command waiting, time goes on;
and no command stops the module. -/
def Obligations.StepsGoOn : Prop := IdleStepCountsTime ∧ NoCommandStops


/-! ## Tile instructions: words, registers, scalar arithmetic, branches -/

/-- R118 to R133, R275, R276: for every tile instruction and every value of its operands, the decoder reads from the word the
encoder writes exactly that instruction, and the word has 32 bits. -/
def Obligations.TileWordsRoundTrip : Prop :=
  ∀ (i : Instr) (t : SlotId) (w : Nat), tileSlot i = some t → encodeTile i = some w →
    w < 2 ^ 32 ∧ decodeTile (poolMode i) t w = some i

/-- R119, R120, R121, R126, R129, R132: words written out from the encoding tables, one of each format, decode to the instruction
they stand for. -/
def TileWordsOfTheTables : Prop :=
  ∀ t : SlotId,
    decodeTile 0 t 0b000_000001_00011_00001_00010_00000000 = some (.sub t 3 1 2)
    ∧ decodeTile 0 t 0b001_1000_00100_00101_000000000000111 = some (.shori t 4 5 7)
    ∧ decodeTile 0 t 0b010_0010_00110_00111_010_111111111100 = some (.st t 6 7 2 0xFFC)
    ∧ decodeTile 0 t 0b011_000_01_10_1_1_00011_00100_0000000000 = some (.mma t 1 2 1 true 3 4)
    ∧ decodeTile 0 t 0b100_000011_001_010_011_100_0010_0000_000 = some (.vfma t 1 2 3 4 2)
    ∧ decodeTile 0 t 0b101_00101_00001_00010_11111111111111 = some (.bgeu t 1 2 0x3FFF)

/-- R118: a word of a reserved format, of a reserved operation or with a nonzero reserved field spells no instruction. -/
def ReservedWordsRefused : Prop :=
  ∀ (pm : Fin 3) (t : SlotId) (w : Nat), w < 2 ^ 32 →
    (6 ≤ w / 2 ^ 29 → decodeTile pm t w = none)
    ∧ (w / 2 ^ 29 = 0 → (16 ≤ w / 2 ^ 23 % 64 ∨ w % 2 ^ 8 ≠ 0) → decodeTile pm t w = none)
    ∧ (w / 2 ^ 29 = 1 → 9 ≤ w / 2 ^ 25 % 16 → decodeTile pm t w = none)
    ∧ (w / 2 ^ 29 = 2 → 5 ≤ w / 2 ^ 25 % 16 → decodeTile pm t w = none)
    ∧ (w / 2 ^ 29 = 3 → (3 ≤ w / 2 ^ 26 % 8 ∨ w % 2 ^ 10 ≠ 0) → decodeTile pm t w = none)
    ∧ (w / 2 ^ 29 = 4 → (18 ≤ w / 2 ^ 23 % 64 ∨ w % 4 ≠ 0) → decodeTile pm t w = none)
    ∧ (w / 2 ^ 29 = 5 → 16 ≤ w / 2 ^ 24 % 32 → decodeTile pm t w = none)

/-- R118 to R121, R126, R129, R132: what the decoder of tile words reads from words of the tables, and which words it refuses. -/
def Obligations.TileWordsDecoded : Prop := TileWordsOfTheTables ∧ ReservedWordsRefused


/-- R112, R114: x0 reads as 0 and discards writes; every other scalar register and every vector register reads what was last written
to it, and a write of one leaves the others as they were; what an earlier load would still bring a register is not seen once a later
instruction has written it. -/
def Obligations.SlotRegisters : Prop :=
  ∀ (th : ThreadSlot) (j k : Nat) (w : Word) (v : BitVec 2048),
    th.xget 0 = 0 ∧ th.xset 0 w = th ∧ (k ≠ 0 → (th.xset k w).xget k = w) ∧ (j ≠ k → (th.xset k w).xget j = th.xget j)
      ∧ (th.vset k v).vget k = v ∧ (j ≠ k → (th.vset k v).vget j = th.vget j)
      ∧ (k ≠ 0 → (th.xput k w).xget k = w ∧ (th.xput k w).xBusy k = false) ∧ (j ≠ k → (th.xput k w).xget j = th.xget j)
      ∧ (th.vput k v).vget k = v ∧ (th.vput k v).vBusy k = false ∧ (j ≠ k → (th.vput k v).vget j = th.vget j)

/-- The instruction completes with a value for `rd` of which `P` holds: rd receives it (x0 discards it) and no earlier load does any
more (R114), the program counter moves on by 4, and nothing else changes. -/
def RdReceives (s : State) (t : SlotId) (th : ThreadSlot) (rd : Fin 32) (i : Instr) (P : Word → Prop) : Prop :=
  ∃ v, P v ∧ Leads i s fun s' => s'.slot (tkey t) = (th.xput rd v).pc4 ∧ s.onlySlot s' (tkey t)

/-- R119: the register-register instructions. The word of each FUNC spells its instruction, one of a reserved FUNC or with a
reserved bit spells none; and each instruction completes with its 64-bit result, on `a` in rs1 and `b` in rs2. -/
def Obligations.ScalarRegisterResults : Prop :=
  ∀ (s : State) (t : SlotId) (th : ThreadSlot) (c : Cmd) (rd rs1 rs2 : Fin 32) (pm : Fin 3),
    let ops := [Instr.add t rd rs1 rs2, .sub t rd rs1 rs2, .andRr t rd rs1 rs2, .orRr t rd rs1 rs2, .xorRr t rd rs1 rs2, .sll t rd rs1 rs2,
      .srl t rd rs1 rs2, .sra t rd rs1 rs2, .slt t rd rs1 rs2, .sltu t rd rs1 rs2, .mul t rd rs1 rs2, .mulhu t rd rs1 rs2,
      .minRr t rd rs1 rs2, .maxRr t rd rs1 rs2, .minu t rd rs1 rs2, .maxu t rd rs1 rs2]
    (∀ func < 64, ∀ low < 256, decodeTile pm t (func * 2 ^ 23 + rd * 2 ^ 18 + rs1 * 2 ^ 13 + rs2 * 2 ^ 8 + low)
      = if low = 0 then ops[func]? else none) ∧
    (s.ready t th c [rs1, rs2] [] →
    let a := th.xget rs1
    let b := th.xget rs2
    let n := b.toNat % 64
    RdReceives s t th rd (.add t rd rs1 rs2) (fun v => v.toNat = (a.toNat + b.toNat) % 2 ^ 64)
    ∧ RdReceives s t th rd (.sub t rd rs1 rs2) (fun v => (v.toNat + b.toNat) % 2 ^ 64 = a.toNat)
    ∧ RdReceives s t th rd (.andRr t rd rs1 rs2) (fun v => ∀ k, v.getLsbD k = (a.getLsbD k && b.getLsbD k))
    ∧ RdReceives s t th rd (.orRr t rd rs1 rs2) (fun v => ∀ k, v.getLsbD k = (a.getLsbD k || b.getLsbD k))
    ∧ RdReceives s t th rd (.xorRr t rd rs1 rs2) (fun v => ∀ k, v.getLsbD k = (a.getLsbD k != b.getLsbD k))
    ∧ RdReceives s t th rd (.sll t rd rs1 rs2) (fun v => v.toNat = a.toNat * 2 ^ n % 2 ^ 64)
    ∧ RdReceives s t th rd (.srl t rd rs1 rs2) (fun v => v.toNat = a.toNat / 2 ^ n)
    ∧ RdReceives s t th rd (.sra t rd rs1 rs2) (fun v => v.toInt = a.toInt / 2 ^ n)
    ∧ RdReceives s t th rd (.slt t rd rs1 rs2) (fun v => v.toNat = if a.toInt < b.toInt then 1 else 0)
    ∧ RdReceives s t th rd (.sltu t rd rs1 rs2) (fun v => v.toNat = if a.toNat < b.toNat then 1 else 0)
    ∧ RdReceives s t th rd (.mul t rd rs1 rs2) (fun v => v.toNat = a.toNat * b.toNat % 2 ^ 64)
    ∧ RdReceives s t th rd (.mulhu t rd rs1 rs2) (fun v => v.toNat = a.toNat * b.toNat / 2 ^ 64)
    ∧ RdReceives s t th rd (.minRr t rd rs1 rs2) (fun v => v.toInt = min a.toInt b.toInt)
    ∧ RdReceives s t th rd (.maxRr t rd rs1 rs2) (fun v => v.toInt = max a.toInt b.toInt)
    ∧ RdReceives s t th rd (.minu t rd rs1 rs2) (fun v => v.toNat = min a.toNat b.toNat)
    ∧ RdReceives s t th rd (.maxu t rd rs1 rs2) (fun v => v.toNat = max a.toNat b.toNat))

/-- R120: the immediate instructions. The word of each FUNC spells its instruction, a reserved FUNC and a shift with a reserved bit
spell none; imm15 is sign-extended but for SHORI, which zero-extends it, and a shift takes its low 6 bits. Each completes with its
result. -/
def Obligations.ScalarImmediateResults : Prop :=
  ∀ (s : State) (t : SlotId) (th : ThreadSlot) (c : Cmd) (rd rs1 : Fin 32) (imm : BitVec 15) (pm : Fin 3),
    let sh := imm.setWidth 6
    let ops := [Instr.addi t rd rs1 imm, .andi t rd rs1 imm, .ori t rd rs1 imm, .xori t rd rs1 imm, .slli t rd rs1 sh, .srli t rd rs1 sh,
      .srai t rd rs1 sh, .slti t rd rs1 imm, .shori t rd rs1 imm]
    (∀ func < 16, decodeTile pm t (2 ^ 29 + func * 2 ^ 25 + rd * 2 ^ 20 + rs1 * 2 ^ 15 + imm.toNat)
      = if func ∈ [4, 5, 6] ∧ 64 ≤ imm.toNat then none else ops[func]?) ∧
    (s.ready t th c [rs1] [] →
    let a := th.xget rs1
    let m : Word := BitVec.ofInt 64 imm.toInt
    RdReceives s t th rd (.addi t rd rs1 imm) (fun v => v.toInt = (a.toInt + imm.toInt).bmod (2 ^ 64))
    ∧ RdReceives s t th rd (.andi t rd rs1 imm) (fun v => ∀ k, v.getLsbD k = (a.getLsbD k && m.getLsbD k))
    ∧ RdReceives s t th rd (.ori t rd rs1 imm) (fun v => ∀ k, v.getLsbD k = (a.getLsbD k || m.getLsbD k))
    ∧ RdReceives s t th rd (.xori t rd rs1 imm) (fun v => ∀ k, v.getLsbD k = (a.getLsbD k != m.getLsbD k))
    ∧ RdReceives s t th rd (.slti t rd rs1 imm) (fun v => v.toNat = if a.toInt < imm.toInt then 1 else 0)
    ∧ RdReceives s t th rd (.shori t rd rs1 imm) (fun v => v.toNat = a.toNat % 2 ^ 49 * 2 ^ 15 + imm.toNat)
    ∧ RdReceives s t th rd (.slli t rd rs1 sh) (fun v => v.toNat = a.toNat * 2 ^ sh.toNat % 2 ^ 64)
    ∧ RdReceives s t th rd (.srli t rd rs1 sh) (fun v => v.toNat = a.toNat / 2 ^ sh.toNat)
    ∧ RdReceives s t th rd (.srai t rd rs1 sh) (fun v => v.toInt = a.toInt / 2 ^ sh.toNat))

/-- A branch on condition `P` completes: the program counter moves by 4 × imm14 where it holds and by 4 where it does not, and
nothing else changes. -/
def BranchesOn (s : State) (t : SlotId) (th : ThreadSlot) (imm : BitVec 14) (i : Instr) (P : Prop) : Prop :=
  Leads i s fun s' => ∃ pc, s'.slot (tkey t) = { th with pc := pc } ∧ s.onlySlot s' (tkey t)
    ∧ (P → pc = th.pc + BitVec.ofInt 48 (4 * imm.toInt)) ∧ (¬ P → pc = th.pc + 4)

/-- R132: the branches, JAL and JALR. A JALR to an address that is not a multiple of 4 is stated with the faults. -/
def Obligations.BranchesAndJumps : Prop :=
  ∀ (s : State) (t : SlotId) (th : ThreadSlot) (c : Cmd) (rs1 rs2 rd : Fin 32) (imm : BitVec 14) (far : BitVec 19),
    let a := th.xget rs1
    let b := th.xget rs2
    (s.ready t th c [rs1, rs2] [] →
      BranchesOn s t th imm (.beq t rs1 rs2 imm) (a = b) ∧ BranchesOn s t th imm (.bne t rs1 rs2 imm) (a ≠ b)
      ∧ BranchesOn s t th imm (.blt t rs1 rs2 imm) (a.toInt < b.toInt)
      ∧ BranchesOn s t th imm (.bge t rs1 rs2 imm) (b.toInt ≤ a.toInt)
      ∧ BranchesOn s t th imm (.bltu t rs1 rs2 imm) (a.toNat < b.toNat)
      ∧ BranchesOn s t th imm (.bgeu t rs1 rs2 imm) (b.toNat ≤ a.toNat))
    ∧ (s.ready t th c [] [] → Leads (.jal t rd far) s fun s' =>
        s'.slot (tkey t) = { th.xput rd ((th.pc + 4).setWidth 64) with pc := th.pc + BitVec.ofInt 48 (4 * far.toInt) }
          ∧ s.onlySlot s' (tkey t))
    ∧ (s.ready t th c [rs1] [] → a.toNat % 4 = 0 → Leads (.jalr t rd rs1 imm) s fun s' =>
        s'.slot (tkey t) = { th.xput rd ((th.pc + 4).setWidth 64) with pc := a.setWidth 48 + BitVec.ofInt 48 (4 * imm.toInt) }
          ∧ s.onlySlot s' (tkey t))

/-! ## Memory instructions, copies and their requests -/

/-- The slot, which is now `th`, takes request `q` and moves on; nothing else changes, but that an access of another module's memory
is also put on its way there. -/
def TakesRequest (s : State) (t : SlotId) (th : ThreadSlot) (i : Instr) (q : MemReq) : Prop :=
  Leads i s fun s' => s'.slot (tkey t) = { th with reqs := th.reqs ++ [q] }.pc4 ∧ (∀ j, j ≠ tkey t → s'.slot j = s.slot j)
    ∧ s' = { s with slots := s'.slots, col := s'.col, regs := s'.regs }
    ∧ (q.addr < 0x400000000000 → s'.col = s.col ∧ s'.regs = s.regs)

/-- R121, R122, R123, R114: a load, a store or a vector access of an aligned, mapped and admitted address takes one request of its
slot, which may hold sixteen; the address is base plus imm12, sign-extended. What an earlier load would still bring the register of
a load is not seen any more. -/
def Obligations.MemoryAccessesTakeRequests : Prop :=
  ∀ (s : State) (t : SlotId) (th : ThreadSlot) (c : Cmd) (rt base : Fin 32) (vt : Fin 8) (sz : Fin 4) (imm : BitVec 12),
    let a := th.ea base imm
    let n := 2 ^ sz.val
    let may := fun (wr : Bool) (n : Nat) => th.acqHeld = false ∧ th.reqs.length < 16 ∧ a < 2 ^ 48
      ∧ s.access (whoThread t th.cmd) wr a n = 0 ∧ (wr = true → stepsBar t th a n = false)
      ∧ (0x400000000000 ≤ a → s.tagsOut = false)
    a = ((th.xget base).toInt + imm.toInt) % 2 ^ 64
    ∧ (s.ready t th c [base] [] → a % n = 0 → may false n →
        TakesRequest s t (th.xdrop rt) (.ld t rt base sz imm) ⟨.load rt n true, a, n, [], s.now⟩
        ∧ TakesRequest s t (th.xdrop rt) (.ldu t rt base sz imm) ⟨.load rt n false, a, n, [], s.now⟩)
    ∧ (s.ready t th c [rt, base] [] → a % n = 0 → may true n →
        TakesRequest s t th (.st t rt base sz imm) ⟨.store, a, n, leBytes n (th.xget rt).toNat, s.now⟩)
    ∧ (s.ready t th c [base] [] → a % 64 = 0 → may false 256 →
        TakesRequest s t (th.vdrop vt) (.vld t vt base imm) ⟨.vload vt, a, 256, [], s.now⟩)
    ∧ (s.ready t th c [base] [vt] → a % 64 = 0 → may true 256 →
        TakesRequest s t th (.vst t vt base imm) ⟨.store, a, 256, leBytes 256 (th.vget vt).toNat, s.now⟩)

/-- A thread's fault: the slot issues no more, and a fault record with the status goes to the scheduler core; nothing else changes. -/
def FaultsWith (s : State) (t : SlotId) (th : ThreadSlot) (i : Instr) (status : Nat) : Prop :=
  Leads i s fun s' => s'.slot (tkey t) = { th with faulted := true } ∧ (∀ j, j ≠ tkey t → s'.slot j = s.slot j)
    ∧ s'.sched = { s.sched with outbox := s.sched.outbox ++ [.fault t.die t.lea t.tile th.cmd (s.runOf th.cmd) status] }
    ∧ s' = { s with slots := s'.slots, sched := s'.sched }

/-- R117, R122, R132: a misaligned access ends with ALIGN_FAULT, mapped or not; an aligned one at an address beyond 48 bits with
FIREWALL_DENY; a JALR to an address that is not a multiple of 4 with ALIGN_FAULT; an instruction outside the code region with
FIREWALL_DENY; an LTA of a logical tile the command does not hold with FIREWALL_DENY. -/
def ThreadFaults : Prop :=
  ∀ (s : State) (t : SlotId) (th : ThreadSlot) (c : Cmd) (rt base rs1 : Fin 32) (sz : Fin 4) (imm : BitVec 12) (far : BitVec 14),
    let a := th.ea base imm
    let n := 2 ^ sz.val
    (s.ready t th c [base] [] → th.acqHeld = false → th.reqs.length < 16 →
      (a % n ≠ 0 → FaultsWith s t th (.ld t rt base sz imm) 3 ∧ FaultsWith s t th (.ldu t rt base sz imm) 3)
      ∧ (a % n = 0 → 2 ^ 48 ≤ a → FaultsWith s t th (.ld t rt base sz imm) 4 ∧ FaultsWith s t th (.ldu t rt base sz imm) 4))
    ∧ (s.ready t th c [rt, base] [] → th.acqHeld = false → th.reqs.length < 16 →
      (a % n ≠ 0 → FaultsWith s t th (.st t rt base sz imm) 3)
      ∧ (a % n = 0 → 2 ^ 48 ≤ a → FaultsWith s t th (.st t rt base sz imm) 4))
    ∧ (s.ready t th c [rs1] [] →
      ((th.xget rs1).toNat % 4 ≠ 0 → FaultsWith s t th (.jalr t rt rs1 far) 3)
      ∧ ((∀ h ∈ c.shares, h.ltile ≠ (th.xget rs1).toNat) → FaultsWith s t th (.ltaSram t rt rs1) 4
          ∧ FaultsWith s t th (.ltaTil t rt rs1) 4))
    ∧ (s.frozen = false → s.slot (tkey t) = th → s.cmd th.cmd = some c → c.phase = .running → th.live = true →
        c.inCode th.pc = false → FaultsWith s t th (.add t rt base rs1) 4 ∧ FaultsWith s t th (.exit t) 4)

/-- R121, R123: an acknowledged load of clean memory puts its bytes, little-endian and sign- or zero-extended, into its register,
and a vector load its 256 bytes; the request slot frees, and memory is as it was. (A class 7 read of DRAM that took over 2,000 ns
may also be reported, R385.) -/
def LoadsAcknowledged : Prop :=
  ∀ (s : State) (t : SlotId) (k : Fin 16) (th : ThreadSlot) (q : MemReq) (rd n : Nat) (sg : Bool) (vd : Nat),
    s.frozen = false → s.slot (tkey t) = th → th.reqs[k.val]? = some q → earlierBars (th.reqs.take k) q = false →
    s.remoteWaits (tkey t) q.addr q.len = false → s.dramTakes (s.cmdClass th.cmd) false q.addr q.len = true →
    s.access (whoThread t th.cmd) false q.addr q.len = 0 → s.readPoison q.addr q.len = false →
    let rest : ThreadSlot := { th with reqs := th.reqs.eraseIdx k }
    let bs := s.readOut q.addr q.len
    let x := leNat bs
    let soon := s.cmdClass th.cmd ≠ 7 ∨ s.now - q.since ≤ 2000
    (q.kind = .load rd n sg → q.len = n → 0 < n → n ≤ 8 → Leads (.memoryRequestAck t k .clean) s fun s' =>
      ∃ v : Word, s'.slot (tkey t) = rest.xset rd v ∧ (soon → s'.mem = s.mem) ∧ (sg = false → v.toNat = x)
        ∧ (sg = true → v.toInt = if x < 2 ^ (8 * n - 1) then (x : Int) else x - 2 ^ (8 * n)))
    ∧ (q.kind = .vload vd → q.len = 256 → Leads (.memoryRequestAck t k .clean) s fun s' =>
      ∃ v : BitVec 2048, s'.slot (tkey t) = rest.vset vd v ∧ (soon → s'.mem = s.mem) ∧ v.toNat = x)

/-- R123, R135: an acknowledged store writes exactly its bytes, and its request slot frees. -/
def StoresAcknowledged : Prop :=
  ∀ (s : State) (t : SlotId) (k : Fin 16) (th : ThreadSlot) (a : Nat) (data : List Byte) (since : Nat),
    s.frozen = false → s.slot (tkey t) = th → th.reqs[k.val]? = some ⟨.store, a, data.length, data, since⟩ →
    earlierBars (th.reqs.take k) ⟨.store, a, data.length, data, since⟩ = false →
    s.remoteWaits (tkey t) a data.length = false → s.dramTakes (s.cmdClass th.cmd) true a data.length = true →
    s.access (whoThread t th.cmd) true a data.length = 0 → s.readPoison a data.length = false →
    a + data.length ≤ 0x400000000000 →
    Leads (.memoryRequestAck t k .clean) s fun s' =>
      s'.slot (tkey t) = { th with reqs := th.reqs.eraseIdx k }
      ∧ ∀ x < 0x400000000000, s'.byte x = if h : a ≤ x ∧ x < a + data.length then data[x - a]'(by omega) else s.byte x

/-- R145, R142: COPY takes one request; when the copy completes, its bytes have moved and every other byte is as it was, its request
frees, and 1 is posted to its counter. It waits for the steps queued before it. What overlapping ranges leave in the destination is
open. -/
def CopiesMoveBytes : Prop :=
  ∀ (s : State) (t : SlotId) (th : ThreadSlot) (c : Cmd) (rd rs1 rs2 : Fin 32) (cnt : Fin 64),
    let dst := (th.xget rd).toNat
    let src := (th.xget rs1).toNat
    let len := (th.xget rs2).toNat
    let who := whoThread t th.cmd
    (s.ready t th c [rd, rs1, rs2] [] → th.acqHeld = false → th.reqs.length < 16 → s.copiesOn t < 4 →
      s.copyStatus who dst src len = 0 → stepsBar t th dst len = false → s.tagsOut = false → dst < 0x400000000000 →
      TakesRequest s t th (.copy t rd rs1 rs2 cnt) ⟨.copy dst cnt th.steps.length, src, len, [], s.now⟩)
    ∧ ∀ (dst src len since : Nat) (data : List Byte), s.frozen = false → s.slot (tkey t) = th → s.cmd th.cmd = some c →
      th.reqs[0]? = some ⟨.copy dst cnt 0, src, len, data, since⟩ → 0 < len → src + len ≤ 0x400000000000 → dst + len ≤ 0x400000000000 →
      s.access who false src len = 0 → s.access who true dst len = 0 → s.readPoison src len = false →
      s.readPoison dst len = false → c.ownsCounter (ownCounter t cnt) = true →
      s.dramTakes (s.cmdClass th.cmd) false src len = true → s.dramTakes (s.cmdClass th.cmd) true dst len = true →
      (s.cmdClass th.cmd = 7 → s.now - since ≤ 2000) →
      s.remoteWaits (tkey t) src len = false → s.remoteWaits (tkey t) dst len = false →
      Leads (.copyComplete t 0 .clean) s fun s' =>
        s'.slot (tkey t) = { th with reqs := th.reqs.drop 1 }
        ∧ s'.posts = s.posts ++ [⟨ownCounter t cnt, 0, 1, tkey t, th.cmd⟩]
        ∧ ∀ x < 0x400000000000, (¬ (dst ≤ x ∧ x < dst + len) → s'.byte x = s.byte x)
          ∧ (overlaps src len dst len = false → dst ≤ x → x < dst + len → some (s'.byte x) = (s.readOut src len)[x - dst]?)

/-- R121, R123, R135, R142, R145: the acknowledgements of loads, stores and copies. -/
def Obligations.AccessesAcknowledged : Prop := LoadsAcknowledged ∧ StoresAcknowledged ∧ CopiesMoveBytes


/-! ## Tensor and vector instructions -/

/-- The instruction queues its work behind what the slot has queued, and moves on; nothing else changes: with ACC = 0 the clearing
of the set, with ACC = 1 its taking up as it stands, and then `klen / g` steps in order, `g` elements of the reduction apart from
k0. -/
def QueuesSteps (s : State) (t : SlotId) (th : ThreadSlot) (ins : Instr) (set : Fin 2) (acc : Bool) (wa wb : BitVec 256)
    (i j o k0 klen g : Nat) : Prop :=
  let kind := (tdesc wa.toNat).format.acc
  let first := if acc then (if klen = 0 then [] else [TItem.take set kind]) else [TItem.clear set kind]
  let steps := (List.range (klen / g)).map fun n => TItem.step set wa.toNat wb.toNat i j o (k0 + g * n)
  Leads ins s fun s' => s'.slot (tkey t) = { th with steps := th.steps ++ first ++ steps }.pc4 ∧ s.onlySlot s' (tkey t)

/-- R126, R127, R81: MMA and MMAS on valid descriptors whose region and reduction are legal queue their work and move on, an MMA
with a step for each four elements of the reduction, an MMAS with one for each eight. -/
def TensorInstructionsQueueSteps : Prop :=
  ∀ (s : State) (t : SlotId) (th : ThreadSlot) (c : Cmd) (da db : Fin 4) (set : Fin 2) (acc : Bool) (rs1 rs2 : Fin 32)
    (wa wb : BitVec 256) (i j o k0 klen : Nat),
    s.ready t th c [rs1, rs2] [] → th.acqHeld = false → lookup th.d da = some wa → lookup th.d db = some wb →
    (th.xget rs1).toNat % 2 ^ 48 = i + j * 2 ^ 16 + o * 2 ^ 32 → i < 2 ^ 16 → j < 2 ^ 16 → o < 2 ^ 16 →
    (th.xget rs2).toNat = k0 + klen * 2 ^ 32 → k0 < 2 ^ 32 →
    (mmaStatus false (tdesc wa.toNat) (tdesc wb.toNat) i j o k0 klen = 0 →
      QueuesSteps s t th (.mma t da db set acc rs1 rs2) set acc wa wb i j o k0 klen 4)
    ∧ (mmaStatus true (tdesc wa.toNat) (tdesc wb.toNat) i j o k0 klen = 0 →
      QueuesSteps s t th (.mmas t da db set acc rs1 rs2) set acc wa wb i j o k0 klen 8)

/-- R78, R81, R145: the cells run the step at the head of the queue of the slot whose turn it is, with the clearing or the taking up
of its set that stands before it: they leave the queue, the accumulator set is brought up to date, the flags are gathered, the
copies queued behind wait for fewer items, and no memory and no other slot changes. A clearing that no step follows takes effect
alone. -/
def TensorStepsRun : Prop :=
  ∀ (s : State) (t : SlotId) (th : ThreadSlot) (c : Cmd) (set da db i j o k0 : Nat) (kind : AccKind) (pre rest : List TItem)
    (start : AccSet), s.frozen = false → s.stepSlot ⟨t.die, t.lea, t.tile⟩ = some t.slot.val → s.slot (tkey t) = th →
    s.cmd th.cmd = some c →
    let cur := readAt (fun _ => accSetFresh) th.acc set
    ((pre, start) ∈ [([], cur), ([TItem.clear set kind], accSetClear kind),
        ([TItem.take set kind], if cur.kind = some kind then cur
          else { cur with vals := undefinedVals s.free, undefinedRead := true })] →
      th.steps = pre ++ .step set da db i j o k0 :: rest →
      let out := s.setStep (tileBase t.die t.lea t.tile) c.arith start da db i j o k0
      Leads (.tensorStep ⟨t.die, t.lea, t.tile⟩ .clean) s fun s' =>
        (s'.slot (tkey t)).steps = rest ∧ (s'.slot (tkey t)).reqs = (th.advance (pre.length + 1)).reqs
        ∧ s'.mem = s.mem ∧ (∀ k, k ≠ tkey t → s'.slot k = s.slot k)
        ∧ readAt (fun _ => accSetFresh) (s'.slot (tkey t)).acc set = out.1
        ∧ s'.cmd th.cmd = some { c with flags := c.flags ||| out.2 }
        ∧ ∀ n, n ≠ set → readAt (fun _ => accSetFresh) (s'.slot (tkey t)).acc n = readAt (fun _ => accSetFresh) th.acc n)
    ∧ (th.steps = [.clear set kind] → Leads (.tensorStep ⟨t.die, t.lea, t.tile⟩ .clean) s fun s' =>
        (s'.slot (tkey t)).steps = [] ∧ s'.mem = s.mem ∧ (∀ k, k ≠ tkey t → s'.slot k = s.slot k)
        ∧ readAt (fun _ => accSetFresh) (s'.slot (tkey t)).acc set = accSetClear kind)

/-- R128, R82, R95: a DRAIN of a valid descriptor converts its set (one that no instruction has cleared reads as undefined values)
and moves on, with the flags gathered. Into the tile's SRAM, and into the pool in whole lines, it writes its blocks in order and
nothing else; of a part of a pool line what the merge read finds is open. -/
def DrainsWrite : Prop :=
  ∀ (s : State) (t : SlotId) (th : ThreadSlot) (c : Cmd) (da : Fin 4) (set : Fin 2) (rs1 : Fin 32) (d : TDesc) (i j o : Nat),
    s.ready t th c [rs1] [] → th.acqHeld = false → th.dget da = some d → regionOf (th.xget rs1) = (i, j, o) →
    drainStatus d i j o = 0 →
    let x := readAt (fun _ => accSetFresh) th.acc set.val
    let vals := if x.kind.isNone || x.vals.isEmpty then undefinedVals s.free else x.vals
    let base := if d.space = 1 then tileBase t.die t.lea t.tile else poolBase t.die t.lea
    let out := drainOut c.arith (x.kind.getD .fp32) vals d i j o th.lfsr
    drainStalls t th set base out.1 = false →
    (∀ b ∈ out.1, s.access (whoThread t th.cmd) true (base + b.1) b.2.length = 0) →
    Leads (.drain t da set rs1) s fun s' =>
      s'.slot (tkey t) = { th with lfsr := out.2.2 }.pc4 ∧ (∀ k, k ≠ tkey t → s'.slot k = s.slot k)
      ∧ s'.cmd th.cmd = some { c with flags := c.flags ||| out.2.1 }
      ∧ ((d.space = 1 ∨ ∀ b ∈ out.1, 64 ≤ b.2.length) → (∀ b ∈ out.1, s.readPoison (base + b.1) b.2.length = false) →
        s'.mem = out.1.foldl (fun m b => memPut m (base + b.1) b.2) s.mem)

/-- R78, R81, R82, R128, R145: the steps of the cells, and drains. -/
def TensorStepsAndDrains : Prop := TensorStepsRun ∧ DrainsWrite

/-- R78, R81, R82, R126 to R128: the tensor instructions, and the steps and drains that they queue. -/
def Obligations.TensorWork : Prop := TensorInstructionsQueueSteps ∧ TensorStepsAndDrains


/-- A vector instruction completes: vd receives `r.1`, the arithmetic flags `r.2` are gathered for the command, the slot moves on,
and no other slot and no memory changes. -/
def VdReceives (s : State) (t : SlotId) (th : ThreadSlot) (c : Cmd) (vd : Fin 8) (i : Instr) (r : BitVec 2048 × BitVec 8) : Prop :=
  Leads i s fun s' => s'.slot (tkey t) = (th.vput vd r.1).pc4 ∧ (∀ k, k ≠ tkey t → s'.slot k = s.slot k)
    ∧ s'.cmd th.cmd = some { c with flags := c.flags ||| r.2 } ∧ s'.mem = s.mem

/-- R129, R130, R88, R89: the lane-wise operations, compares, special functions and reductions, in each format they take. -/
def Obligations.VectorResults : Prop :=
  ∀ (s : State) (t : SlotId) (th : ThreadSlot) (c : Cmd) (vd va vb vc : Fin 8) (fmt : Fin 16) (f : Fmt),
    fmtOf fmt = some f →
    let a := th.vget va
    let b := th.vget vb
    let d := th.vget vc
    let A := c.arith
    (s.ready t th c [] [va, vb] → f ∈ fmtsArith →
      VdReceives s t th c vd (.vadd t vd va vb fmt) (vec2 f A a b Machine.Num.add)
      ∧ VdReceives s t th c vd (.vsub t vd va vb fmt) (vec2 f A a b fun x y => x.add y.neg)
      ∧ VdReceives s t th c vd (.vmul t vd va vb fmt) (vec2 f A a b Machine.Num.mul)
      ∧ VdReceives s t th c vd (.vmin t vd va vb fmt) (vec2 f A a b (minMax false))
      ∧ VdReceives s t th c vd (.vmax t vd va vb fmt) (vec2 f A a b (minMax true))
      ∧ VdReceives s t th c vd (.vcmplt t vd va vb fmt) (vecCmp f A a b Machine.Num.lt)
      ∧ VdReceives s t th c vd (.vcmpeq t vd va vb fmt) (vecCmp f A a b Machine.Num.eqv))
    ∧ (s.ready t th c [] [va, vb, vc] → f ∈ fmtsArith →
        VdReceives s t th c vd (.vfma t vd va vb vc fmt) (vec3 f A a b d fun x y z => (x.mul y).add z))
    ∧ (s.ready t th c [] [va] → ∀ ff, f.float? = some ff → f ∈ fmtsSpecial →
      VdReceives s t th c vd (.vexp t vd va fmt) (vecSpecial f ff A a vexpLane)
      ∧ VdReceives s t th c vd (.vexp2 t vd va fmt) (vecSpecial f ff A a vexp2Lane)
      ∧ VdReceives s t th c vd (.vrsqrt t vd va fmt) (vecSpecial f ff A a vrsqrtLane))
    ∧ (s.ready t th c [] [va] → f ∈ [Fmt.fp32, .q16, .int16] → VdReceives s t th c vd (.vredsum t vd va fmt) (vecReduce f A a Machine.Num.add))
    ∧ (s.ready t th c [] [va] → f ∈ [Fmt.fp32, .q16, .fp16, .bf16, .int16] →
        VdReceives s t th c vd (.vredmax t vd va fmt) (vecReduce f A a (minMax true)))

/-- R129, R130: in INT16 a sum, difference or product that lies in the format is the exact one, lane by lane. -/
def VectorIntegerLanes : Prop :=
  ∀ (A : ArithCtl) (a b : BitVec 2048) (k : Nat) (x y : Int), k < 128 →
    x = sext 16 ((lanes 16 a).getD k 0) → y = sext 16 ((lanes 16 b).getD k 0) →
    (-32768 ≤ x + y → x + y ≤ 32767 → sext 16 ((lanes 16 (vec2 .int16 A a b Machine.Num.add).1).getD k 0) = x + y)
    ∧ (-32768 ≤ x - y → x - y ≤ 32767 →
        sext 16 ((lanes 16 (vec2 .int16 A a b fun p q => p.add q.neg).1).getD k 0) = x - y)
    ∧ (-32768 ≤ x * y → x * y ≤ 32767 → sext 16 ((lanes 16 (vec2 .int16 A a b Machine.Num.mul).1).getD k 0) = x * y)

/-- R131, R129, R273 to R277: conversion, broadcast and extraction, butterflies and pooling. A VPOOL completes where its control
word is legal and names the operation. -/
def VectorMoves : Prop :=
  ∀ (s : State) (t : SlotId) (th : ThreadSlot) (c : Cmd) (vd va vb vc : Fin 8) (rs : Fin 32) (fmt fmt2 : Fin 16) (half : Bool)
    (f g : Fmt), fmtOf fmt = some f → fmtOf fmt2 = some g →
    let a := th.vget va
    let b := th.vget vb
    let A := c.arith
    let pc := poolCtl (2048 / (16 * f.width)) ((th.vget vc).toNat % 65536)
    let pool := vecPool f A pc a b th.lfsr
    let bfly := vecBfly f A a b th.lfsr
    let cast := putDraw f A th.lfsr (.fin (decide ((th.xget rs).toInt < 0)) (th.xget rs).toInt.natAbs 0)
    let lane := laneRead f A ((lanes (laneBits f) a).getD 0 0)
    let int := intPut 64 0 A.rnd lane.1
    (s.ready t th c [] (cvtReads fmt fmt2 vd va vc) → ∃ rest : Nat,
      let r := vecCvt f g half A a (th.vget vd) (th.vget vc) rest th.lfsr
      let th2 : ThreadSlot := { th with lfsr := r.2.2.2 }
      VdReceives s t (if f.isMx then th2.vput vc r.2.1 else th2) c vd (.vcvt t vd va vc fmt fmt2 half) (r.1, r.2.2.1))
    ∧ (s.ready t th c [] [va, vb] → f ∈ [Fmt.fp16, .bf16] → VdReceives s t { th with lfsr := bfly.2.2 } c vd (.vbfly4 t vd va vb fmt) (bfly.1, bfly.2.1))
    ∧ (s.ready t th c [] [va, vb, vc] → f ∈ [Fmt.int8, .fp16, .bf16] → pc.legal = true →
      (pc.mode = 0 → VdReceives s t { th with lfsr := pool.2.2 } c vd (.vpoolMax t vd va vb vc fmt) (pool.1, pool.2.1))
      ∧ (pc.mode = 1 → VdReceives s t { th with lfsr := pool.2.2 } c vd (.vpoolAvg t vd va vb vc fmt) (pool.1, pool.2.1))
      ∧ (pc.mode = 2 → VdReceives s t { th with lfsr := pool.2.2 } c vd (.vpoolSelect t vd va vb vc fmt) (pool.1, pool.2.1)))
    ∧ (s.ready t th c [rs] [] → f.vectorOk = true →
      VdReceives s t { th with lfsr := cast.2 } c vd (.vbcast t vd rs fmt)
        (unlanes (laneBits f) (List.replicate (2048 / laneBits f) (laneWrite f cast.1.val)), cast.1.flags))
    ∧ (s.ready t th c [] [va] → f.vectorOk = true →
      Leads (.vext t rs va fmt) s fun s' => s'.slot (tkey t) = (th.xput rs (BitVec.ofNat 64 int.val)).pc4
        ∧ (∀ k, k ≠ tkey t → s'.slot k = s.slot k) ∧ s'.mem = s.mem
        ∧ s'.cmd th.cmd = some { c with flags := c.flags ||| (int.flags ||| lane.2) })

/-- R129 to R131, R273 to R277: the vector instructions whose results are moves of lanes, and the integer lanes. -/
def Obligations.VectorMovesAndLanes : Prop := VectorIntegerLanes ∧ VectorMoves


/-- R130, R118: a vector instruction in a format it does not take, and a VPOOL whose control word is not legal, end the command. -/
def VectorFormatFaults : Prop :=
  ∀ (s : State) (t : SlotId) (th : ThreadSlot) (c : Cmd) (vd va vb vc : Fin 8) (fmt : Fin 16), s.ready t th c [] [va, vb, vc] →
    ((∀ f, fmtOf fmt = some f → f ∉ fmtsArith) → FaultsWith s t th (.vadd t vd va vb fmt) 0x0C
      ∧ FaultsWith s t th (.vfma t vd va vb vc fmt) 0x0C)
    ∧ ((∀ f, fmtOf fmt = some f → f ∉ [Fmt.int8, .fp16, .bf16]) → FaultsWith s t th (.vpoolMax t vd va vb vc fmt) 0x0C)
    ∧ (∀ f, fmtOf fmt = some f → f ∈ [Fmt.int8, .fp16, .bf16] →
        (poolCtl (2048 / (16 * f.width)) ((th.vget vc).toNat % 65536)).legal = false →
        FaultsWith s t th (.vpoolMax t vd va vb vc fmt) 0x0F ∧ FaultsWith s t th (.vpoolAvg t vd va vb vc fmt) 0x0F)

/-- R117, R118, R122, R130, R132: the faults of threads, and those of vector formats. -/
def Obligations.ThreadFaultsAndFormats : Prop := ThreadFaults ∧ VectorFormatFaults


/-! ## Synchronisation, control and the life of a thread -/

/-- R138 to R143, R147: posts, waits and fences. A POST to a counter the command owns goes on its way and, when it arrives, adds
modulo 2^32 or takes the maximum, which the waits of the tile see; one to a counter it does not own is held in its commit log, and
the state's posts stay as they are. A WAIT is recorded with its target, its timeout and its issue cycle; it completes with rd = 0x00
once its counter has reached the target in a cycle up to c0 + t, or with rd = 0x07 when those cycles have passed and none did. A
fence with release waits for the slot's requests and steps. -/
def Obligations.PostsWaitsFences : Prop :=
  ∀ (s : State) (t : SlotId) (th : ThreadSlot) (c : Cmd) (rd rs1 rs2 : Fin 32) (kind : Fin 4) (rel acq : Bool) (cnt : Fin 64) (k : Nat),
    let a := (th.xget rs1).toNat
    let v := (th.xget rs2).toNat % 2 ^ 32
    (s.ready t th c [rs1, rs2] [] → s.postStatus (whoThread t th.cmd) a kind = 0 → (rel = true → th.released = true) →
      (c.ownsCounter a = true → Leads (.post t rs1 rs2 kind rel) s fun s' => s'.slot (tkey t) = th.pc4
        ∧ s'.posts = s.posts ++ [PostFlight.mk a kind v (tkey t) th.cmd] ∧ s' = { s with slots := s'.slots, posts := s'.posts })
      ∧ (c.ownsCounter a = false → Leads (.post t rs1 rs2 kind rel) s fun s' => s'.slot (tkey t) = th.pc4 ∧ s'.posts = s.posts
        ∧ s'.cmd th.cmd = some { c with log := logPost c.log a kind v (tkey t) }))
    ∧ (∀ (p : PostFlight) (d l ti n : Nat), s.frozen = false → s.posts[k]? = some p → syncAt p.addr = some (d, l, ti, n) →
        s.meadowUp d = true → p.value < 2 ^ 32 → Leads (.postArrive k) s fun s' =>
        s'.posts = s.posts.eraseIdx k
        ∧ s'.reg p.addr = (if p.kind = 0 then (s.reg p.addr + p.value) % 2 ^ 32 else max (s.reg p.addr) p.value)
        ∧ (∀ x, x ≠ p.addr → s'.reg x = s.reg x)
        ∧ ∀ i < 8, (s'.slot (slotKey d l ti i)).waits
            = (s.slot (slotKey d l ti i)).waits.map fun w => w.landed n (s'.reg p.addr) (s.tileCycle d))
    ∧ (s.ready t th c [rs1, rs2] [] → Leads (.wait t rd rs1 rs2 cnt acq) s fun s' =>
        let target := (th.xget rs1).toNat % 2 ^ 32
        let th' := th.xdrop rd
        s'.slot (tkey t) = { th' with waits := th'.waits ++ [WaitRec.mk rd cnt target v acq (s.tileCycle t.die)
            (decide (target ≤ s.reg (aTil t.die t.lea t.tile (0x1000 + 4 * cnt))))] }.pc4
        ∧ s.onlySlot s' (tkey t))
    ∧ (∀ w : WaitRec, s.frozen = false → s.slot (tkey t) = th → th.busy = true → th.waits[k]? = some w →
        let rest : ThreadSlot := { th with waits := th.waits.eraseIdx k }
        (w.met = true → Leads (.waitArrival t k) s fun s' =>
          s'.slot (tkey t) = rest.xset w.rd 0x00 ∧ s.onlySlot s' (tkey t))
        ∧ (w.met = false → w.timeout ≠ 0xFFFFFFFF → w.since + w.timeout < s.tileCycle t.die →
            Leads (.waitTimeout t k) s fun s' => s'.slot (tkey t) = rest.xset w.rd 0x07 ∧ s.onlySlot s' (tkey t)))
    ∧ (s.ready t th c [] [] →
        (Leads (.fenceAcquire t) s fun s' => s'.slot (tkey t) = th.pc4 ∧ s.onlySlot s' (tkey t))
        ∧ (th.reqs = [] → th.steps = [] → (Leads (.fenceRelease t) s fun s' => s'.slot (tkey t) = th.pc4 ∧ s.onlySlot s' (tkey t))
            ∧ Leads (.fenceFull t) s fun s' => s'.slot (tkey t) = th.pc4 ∧ s.onlySlot s' (tkey t))
        ∧ (th.reqs ≠ [] → exec (.fenceRelease t) s = .next s ∧ exec (.fenceFull t) s = .next s))

/-- R132, R133, R136, R116, R118: TDLD loads a descriptor; RDID gives the identity its selector names; LTA gives the bases of the
physical tile that runs a logical tile of the command; EXIT ends the thread, and a reserved word ends the command with
BAD_DESCRIPTOR. -/
def Obligations.ControlInstructions : Prop :=
  ∀ (s : State) (t : SlotId) (th : ThreadSlot) (c : Cmd) (rd rs1 : Fin 32) (dreg : Fin 4) (idx : Fin 64) (w : Word32),
    (s.ready t th c [] [] → idx.val < c.descCount → Leads (.tdld t dreg idx) s fun s' =>
      ∃ d : BitVec 256, d.toNat = s.num (c.descTable + 32 * idx) 32
        ∧ s'.slot (tkey t) = { th with d := insertKey th.d dreg d }.pc4 ∧ s.onlySlot s' (tkey t))
    ∧ (s.ready t th c [] [] → ∀ (sel : Fin 32) (v : Nat),
        (sel.val, v) ∈ [(0, th.ltile), (1, t.slot.val), (2, th.tindex), (3, th.nthreads), (4, tileBase t.die t.lea t.tile),
          (5, poolBase t.die t.lea), (7, s.tileCycle t.die - th.since), (8, th.cmd.idx % 256), (9, t.die.val), (10, t.lea.val)] →
        RdReceives s t th rd (.rdid t rd sel) fun x => x = BitVec.ofNat 64 v)
    ∧ (s.ready t th c [] [] → Leads (.rdid t rd 6) s fun s' => ∃ v : Nat,
        s'.slot (tkey t) = (th.xput rd (BitVec.ofNat 64 v)).pc4 ∧ s.now ≤ v + 20 ∧ readAt (fun _ => 0) s.tbCopy t.die ≤ v
          ∧ (readAt (fun _ => 0) s.tbCopy t.die ≤ s.now + 20 → v ≤ s.now + 20))
    ∧ (s.ready t th c [rs1] [] → ∀ h ∈ c.shares, h.ltile = (th.xget rs1).toNat →
        (∀ g ∈ c.shares, g.ltile = h.ltile → g = h) →
        RdReceives s t th rd (.ltaSram t rd rs1) (fun x => x = BitVec.ofNat 64 (tileBase h.die h.lea h.tile))
        ∧ RdReceives s t th rd (.ltaTil t rd rs1) fun x => x = BitVec.ofNat 64 (aTil h.die h.lea h.tile 0))
    ∧ (s.ready t th c [] [] → (Leads (.exit t) s fun s' => s'.slot (tkey t) = { th with exited := true } ∧ s.onlySlot s' (tkey t))
        ∧ (decodeTile 0 t w.toNat = none → FaultsWith s t th (.reservedInstruction t w) 0x0F))

/-- R116, R161: the slot of an exited thread whose work is done frees, and when it held the last thread of its tile-share, the share
ends and its record goes to the scheduler core, whose completion FIFO has room for it (R210). R113, R161, R97: a waiting tile-share
whose tile has enough free slots starts its threads in the lowest of them, each at the command's entry with x1 its argument and
every other register 0. -/
def Obligations.TileSharesStartAndEnd : Prop :=
  ∀ (s : State) (t : SlotId) (th : ThreadSlot) (c : Cmd),
    (s.frozen = false → s.slot (tkey t) = th → th.busy = true → th.exited = true → th.faulted = false → th.reqs = [] → th.steps = [] →
      (∀ p ∈ s.posts, p.slot ≠ tkey t) → s.recordsFull = false → s.cmd th.cmd = some c → c.phase = .running →
      (∀ k < 8, slotKey t.die t.lea t.tile k ≠ tkey t → (s.slot (slotKey t.die t.lea t.tile k)).busy = false) →
      Leads (.threadSlotFree t) s fun s' => s'.slot (tkey t) = slotFree
        ∧ s'.fld (aTil t.die t.lea t.tile 0) (8 + t.slot) (8 + t.slot) = 0
        ∧ s'.sched.outbox = s.sched.outbox ++ [.shareEnd t.die th.cmd c.serial th.ltile]
        ∧ s'.cmd th.cmd = some { c with shares := c.shares.map fun h =>
            if h.ltile = th.ltile ∧ h.state = 1 then { h with state := 2 } else h })
    ∧ ∀ (list : Fin 3) (idx : BitVec 16) (ltile : Fin 1024) (h : Share) (entry : Addr),
      s.frozen = false → s.cmd ⟨list, idx.toNat⟩ = some c → c.phase = .running → c.ref = ⟨list, idx.toNat⟩ →
      c.shares.find? (fun h => decide (h.ltile = ltile.val) && decide (h.state = 0)) = some h →
      h.die = t.die → h.lea = t.lea → h.tile = t.tile →
      s.meadowUp h.die = true → s.valeGone h.die = false → (s.lea (leaKey h.die h.lea)).coreUp = true →
      (∀ x ∈ s.sched.reservations, x.1 ≠ leaKey h.die h.lea) →
      (∀ k < 8, (s.slot (slotKey h.die h.lea h.tile k)).busy = false) → c.tpt ≤ 8 → t.slot.val < c.tpt →
      entry = BitVec.ofNat 48 (word c.words 8) →
      Leads (.tileShareStart list idx ltile) s fun s' =>
        let n := s'.slot (tkey t)
        n.busy = true ∧ n.exited = false ∧ n.cmd = c.ref ∧ n.ltile = ltile.val ∧ n.pc = entry ∧ n.reqs = [] ∧ n.steps = []
          ∧ n.xget 1 = BitVec.ofNat 64 (bits (word c.words 11) 47 0) ∧ (∀ r, r ≠ 1 → n.xget r = 0) ∧ (∀ r, n.vget r = 0)
          ∧ s'.fld (aTil t.die t.lea t.tile 0) (8 + t.slot) (8 + t.slot) = 1

/-! ## Leas, tiles, injections and counters -/

/-- R97, R108: a write of LEA_SWAP with GO = 1 by the lea's control core begins a swap where the free tile is READY, and is refused
with its event otherwise; a GO write during a swap is refused and changes no register but what the event leaves; a write by another
initiator changes nothing, and one with GO = 0 sets the logical tile alone. R97 steps 4 to 6, R91, R136: with no tile-share left on
the old tile, running or bound to it, the logical tile moves to the free tile and the old tile becomes the free tile, CLEARING; when
its SRAM has been cleared to zero it is READY and GO clears. -/
def Obligations.TileSwaps : Prop :=
  ∀ (s : State) (l : LeaId) (init : Init) (value : Word32) (t : TileId) (n : Fin 16),
    let d := l.die.val
    let i := l.lea.val
    let k := leaKey d i
    let own := init.toNat = initLeaCore d i
    s.frozen = false →
    (own → bit value.toNat 31 = true → s.swapGo d i = false → s.freeState d i = 0 → Leads (.leaSwap init l value) s fun s' =>
        s'.swapGo d i = true ∧ s'.fld (aLea d i 0x08) 3 0 = bits value.toNat 3 0
          ∧ (s'.lea k).swapping = some (bits value.toNat 3 0) ∧ s'.mem = s.mem ∧ ∀ a, a ≠ aLea d i 0x08 → s'.reg a = s.reg a)
    ∧ (own → bit value.toNat 31 = true → s.swapGo d i = false → s.freeState d i ≠ 0 → Leads (.leaSwap init l value) s fun s' =>
        s'.reported d "LEA_SWAP_REFUSED" 0 0 ∧ s'.swapGo d i = false ∧ s'.leas = s.leas)
    ∧ (own → bit value.toNat 31 = true → s.swapGo d i = true → Leads (.leaSwap init l value) s fun s' =>
        s'.reported d "LEA_SWAP_REFUSED" 0 0 ∧ s.eventOnly s')
    ∧ (own → bit value.toNat 31 = false → s.swapGo d i = false → Leads (.leaSwap init l value) s fun s' =>
        s'.fld (aLea d i 0x08) 3 0 = bits value.toNat 3 0 ∧ s'.swapGo d i = false ∧ s.onlyRegs s' [aLea d i 0x08])
    ∧ (¬ own → exec (.leaSwap init l value) s = .next s)
    ∧ (let old := s.mapTile d i n
       let new := s.freeTile d i
       (s.lea k).swapping = some n.val → (s.lea k).coreUp = true → s.swapGo d i = true → s.tileHeld d i old = false → old ≠ new →
        s.tileRetired d i old = false → (∀ x < 17, (s.tile (tileKey d i x)).failed = false) → Leads (.swapMap l) s fun s' =>
        s'.mapTile d i n = new ∧ s'.freeTile d i = old ∧ s'.freeState d i = 1 ∧ s'.tileSt d i new = 0
          ∧ s'.fld (aTil d i new 0) 7 4 = n ∧ s'.tileSt d i old = 2 ∧ s'.mem = s.mem ∧ (s'.lea k).swapping = none
          ∧ ∀ m < 16, m ≠ n.val → s'.mapTile d i m = s.mapTile d i m)
    ∧ (s.freeTile t.die t.lea = t.tile → s.freeState t.die t.lea = 1 → s.tileHeld t.die t.lea t.tile = false →
        (∀ x < 17, (s.tile (tileKey t.die t.lea x)).swapOut = false ∧ (s.tile (tileKey t.die t.lea x)).failed = false) → (s.lea (leaKey t.die t.lea)).testing = none →
        Leads (.tileClearDone t) s fun s' =>
        s'.freeState t.die t.lea = 0 ∧ s'.freeTile t.die t.lea = t.tile ∧ s'.tileSt t.die t.lea t.tile = 1
          ∧ s'.swapGo t.die t.lea = false
          ∧ ∀ a, readAt memDefault s'.mem a = if tileBase t.die t.lea t.tile ≤ a ∧ a < tileBase t.die t.lea t.tile + 0x40000 then 0
              else readAt memDefault s.mem a)

/-- R102, R109: a reported mismatch of a checker, the first of its command on the tile, is counted at the tile: COUNT goes up by
one, the check's number and the time are recorded and the earlier times move on. R94: a corrected codeword is written back. R96: the
scrubber counts a corrected codeword of a tile and records its line. -/
def MismatchesAndScrubbing : Prop :=
  ∀ (s : State) (t : SlotId) (c : Cmd) (check : Check) (addr : Addr), s.frozen = false → (∀ j ∈ s.sched.jobs, j.ringSet < 4) →
    (let th := s.slot (tkey t)
     let a := aTil t.die t.lea t.tile
     th.busy = true → s.cmd th.cmd = some c → c.inFlight = true → tileKey t.die t.lea t.tile ∉ c.mismTiles →
      s.fld (a 0x18) 15 0 < 0xFFFF → Leads (.mismatchReport t check) s fun s' =>
      s'.fld (a 0x18) 15 0 = s.fld (a 0x18) 15 0 + 1 ∧ s'.fld (a 0x18) 18 16 = checkCode check
        ∧ s'.reg (a 0x20) = s.now % 2 ^ 64 ∧ s'.reg (a 0x28) = s.reg (a 0x20) ∧ s'.reg (a 0x30) = s.reg (a 0x28))
    ∧ (Leads (.sramCeWriteback addr) s fun s' =>
        s' = { s with sramFix := s'.sramFix } ∧ (s.sramFix.Nodup → addr.toNat / 64 * 64 ∉ s'.sramFix)
          ∧ ∀ x, x ≠ addr.toNat / 64 * 64 → (x ∈ s'.sramFix ↔ x ∈ s.sramFix))
    ∧ ∀ (d : Fin 4) (l : Fin 16) (ti : Fin 17) (o : Fin 0x40000), addr.toNat = tileBase d l ti + o.val →
        bit (s.reg (aTil d l ti 0x44)) 31 = false → s.reg (aTil d l ti 0x08) < 2 ^ 32 - 1 → Leads (.sramScrubRead addr .corrected) s fun s' =>
        s'.reg (aTil d l ti 0x08) = s.reg (aTil d l ti 0x08) + 1 ∧ s'.reg (aTil d l ti 0x10) = o.val / 64 * 64
          ∧ s.onlyRegs { s' with scrubFix := s.scrubFix, repairs := s.repairs } [aTil d l ti 0x08, aTil d l ti 0x10]

/-- A write that arms an injection: ARM and TARGET are set at `a`, the time of arming is the time base, and nothing else changes; a
write by an initiator that is no Heath changes nothing. `armed` reads the time of arming from a state. -/
def ArmsAt (s : State) (init : Init) (i : Instr) (a target : Nat) (armed : State → Nat) : Prop :=
  (isHeath init.toNat = true → Leads i s fun s' =>
    s'.reg a = 2 ^ 31 + target ∧ armed s' = s.now ∧ (∀ b, b ≠ a → s'.reg b = s.reg b)
      ∧ s' = { s with regs := s'.regs, tiles := s'.tiles, leas := s'.leas, prairie := s'.prairie })
  ∧ (isHeath init.toNat = false → exec i s = .next s)

/-- An injection armed at `a` whose 1 ms has passed ends: ARM clears and RESULT, at `r`, reads TIMEOUT; up to then nothing changes
(R15). -/
def ArmTimesOut (s : State) (i : Instr) (a r armed : Nat) : Prop :=
  (bit (s.reg a) 31 = true → armed + 1000000 < s.now → Leads i s fun s' =>
    s'.reg a + 2 ^ 31 = s.reg a ∧ s'.reg r = 2 ∧ s.onlyRegs s' [a, r])
  ∧ (s.now ≤ armed + 1000000 → exec i s = .next s)

/-- R105, R109, R240, R247, R314, R316: the injection targets of a tile, of a Glen engine and of a Prairie engine, which the Heaths
arm, and the end of an injection that nothing detected. -/
def InjectionsArmAndTimeOut : Prop :=
  ∀ (s : State) (init : Init) (t : TileId) (l : LeaId) (d : Fin 4), s.frozen = false →
    let til := fun s : State => (s.tile (tileIdKey t)).armedAt
    let gln := fun s : State => (s.lea (leaKey l.die l.lea)).glnArmed
    let pra := fun s : State => readAt (fun _ => 0) s.prairie.armedAt d.val
    let a := aTil t.die t.lea t.tile
    let g := aGln l.die l.lea
    ArmsAt s init (.tilInjectResidue init t) (a 0x44) 1 til ∧ ArmsAt s init (.tilInjectChecksum init t) (a 0x44) 2 til
    ∧ ArmsAt s init (.tilInjectVector init t) (a 0x44) 3 til ∧ ArmsAt s init (.tilInjectSramSingle init t) (a 0x44) 4 til
    ∧ ArmsAt s init (.tilInjectSramDouble init t) (a 0x44) 5 til
    ∧ ArmsAt s init (.glnInjectScore init l) (g 0x44) 1 gln ∧ ArmsAt s init (.glnInjectValue init l) (g 0x44) 2 gln
    ∧ ArmsAt s init (.glnInjectRowState init l) (g 0x44) 3 gln
    ∧ ArmsAt s init (.praInjectWavefront init d) (aPra d 0x84) 1 pra ∧ ArmsAt s init (.praInjectDisc init d) (aPra d 0x84) 2 pra
    ∧ ArmsAt s init (.praInjectBuffer init d) (aPra d 0x84) 3 pra
    ∧ (s.reg (a 0x44) < 2 ^ 32 → ArmTimesOut s (.tilInjectTimeout t) (a 0x44) (a 0x48) (til s))
    ∧ (s.reg (g 0x44) < 2 ^ 32 → ArmTimesOut s (.glnInjectTimeout l) (g 0x44) (g 0x48) (gln s))
    ∧ (s.reg (aPra d 0x84) < 2 ^ 32 → ArmTimesOut s (.praInjectTimeout d) (aPra d 0x84) (aPra d 0x88) (pra s))

/-- R94, R96, R102, R105, R109, R240, R247, R314, R316: what the checks of tiles and engines find, and the injections that test
them. -/
def Obligations.ChecksAndInjections : Prop := MismatchesAndScrubbing ∧ InjectionsArmAndTimeOut


/-- The command clears the registers `l`, and nothing else changes. -/
def Clears (s : State) (i : Instr) (l : List Nat) : Prop := Leads i s fun s' => s.onlyRegs s' l ∧ ∀ a ∈ l, s'.reg a = 0

/-- R109, R246, R247, R315, R316, R344, R345, R367, R368, R387, R416, R533, R534: each counter-clear field clears exactly the
counters its table names, when an initiator that may write it does. -/
def CounterClears : Prop :=
  ∀ (s : State) (init : Init) (t : TileId) (l : LeaId) (d : Fin 4) (p : PortId) (v : Fin 5), s.frozen = false →
    let a := aTil t.die t.lea t.tile
    let heath := isHeath init.toNat = true
    let sec := init.toNat = initSec
    (heath ∨ init.toNat = initLeaCore t.die t.lea →
      Clears s (.tilCntClrEcc init t) [a 0x08, a 0x0C] ∧ Clears s (.tilCntClrSkip init t) [a 0x1C])
    ∧ (heath ∨ init.toNat = initLeaCore l.die l.lea →
        Clears s (.glnCntClrEcc init l) [aGln l.die l.lea 0x14] ∧ Clears s (.glnCntClrSkip init l) [aGln l.die l.lea 0x10]
        ∧ Clears s (.glnCntClrUse init l) [aGln l.die l.lea 0x04, aGln l.die l.lea 0x08, aGln l.die l.lea 0x18])
    ∧ (heath ∨ (∃ j < 16, init.toNat = initLeaCore d j) →
        Clears s (.praCntClrEcc init d) [aPra d 0x54] ∧ Clears s (.praCntClrUse init d) [aPra d 0x48, aPra d 0x4C, aPra d 0x50]
        ∧ Clears s (.dmcCntClrErr init d) [aDmc d 0x20, aDmc d 0x24, aDmc d 0x28])
    ∧ (heath ∨ sec →
        (p.ok = true → p.die.val < 5 →
          Clears s (.fdlCntClrErr init p) [aFdl p.die p.port 0x30, aFdl p.die p.port 0x34, aFdl p.die p.port 0x3C])
        ∧ Clears s (.flrCntClrLat init v) [aFlr v 0x10, aFlr v 0x14]
        ∧ Clears s (.flrCntClrOver init v) (((List.range 4).map fun j => aFlr v (0x60 + 8 * j))
            ++ ((List.range 5).filter (pointExists v)).flatMap fun q => (List.range 8).map fun c => aPoint v q (0x40 + 4 * c))
        ∧ Clears s (.iqmCntClrQueue init) ((List.range 256).flatMap fun q => [0x1C, 0x20, 0x28, 0x2C].map (aQueue q))
        ∧ (Leads (.iqmCntClrPort init) s fun s' => s'.reg (aIqm 0x08) = 0 ∧ s'.reg (aIqm 0x0C) = 0
            ∧ (∀ n < 16, ∀ o ∈ [0x04, 0x08, 0x0C], s'.reg (aIqm (0x1000 + 0x20 * n + o)) = 0)
            ∧ (∀ n < 4, ∀ o ∈ [0x08, 0x0C, 0x10, 0x14], s'.reg (aIqm (0x1400 + 0x40 * n + o)) = 0)
            ∧ (∀ q, ∀ o < 0x40, s'.reg (aQueue q o) = s.reg (aQueue q o)) ∧ s' = { s with regs := s'.regs })
        ∧ Clears s (.colCntClrErr init) ([aCol 0x38, aCol 0x3C]
            ++ (List.range 4).flatMap fun n => [aColPort n 0x04, aColPort n 0x08, aColPort n 0x0C]))

/-! ## DRAM -/

/-- The registers in which the DRAM controller of Meadow `d` charges what it serves (R376, R386). -/
def chargedRegs (d : Nat) : List Nat :=
  ((List.range 8).flatMap fun c => [aPoint d 0 (0x20 + 4 * c), aPoint d 0 (0x40 + 4 * c)]) ++
    (List.range 4).map fun i => aFlr d (0x60 + 8 * i)

/-- R329, R330, R332, R335, R339, R376: DRAM writes. A write that its initiator may make and the queue has room for is performed and
charged: every byte its mask selects takes its value, every other byte of memory stays, and the line's bytes are queued; a whole
line clears poison. Where the controller drains a pseudo-channel that neither refreshes nor migrates, a queued partial write leaves
the queue by its read-modify-write, which an uncorrectable merge read ends in a poisoned line, and queued whole lines by a drain. -/
def DramWrites : Prop :=
  ∀ (s : State) (init : Init) (cls : Fin 8) (task : BitVec 12) (addr : Addr) (mask : BitVec 64) (data : List Byte) (d o : Nat)
    (die : Fin 4) (pc : Fin 32),
    let line := addr.toNat / 64 * 64
    let x := s.dramOf d
    s.frozen = false →
    (s.dramLine addr.toNat = some (d, o) → s.access ⟨init.toNat, none, false, false⟩ true line 64 = 0 → mask ≠ 0 →
        s.pcFailed line = false → (mask.toNat = 2 ^ 64 - 1 ∨ s.poisoned line = false) → (x.queueOf (offPc o)).length < 64 →
        Leads (.dramWrite ⟨init, cls, task⟩ addr mask data) s fun s' =>
          (∀ i < 64, readAt memDefault s'.mem (line + i)
              = if mask.getLsbD i then data.getD i 0 else readAt memDefault s.mem (line + i))
          ∧ (∀ a, a < line ∨ line + 64 ≤ a → readAt memDefault s'.mem a = readAt memDefault s.mem a)
          ∧ (s'.dramOf d).queued o = x.queued o ||| mask.toNat ∧ (mask.toNat = 2 ^ 64 - 1 → s.poison.Nodup → s'.poisoned line = false)
          ∧ ∀ a, a ∉ chargedRegs d → s'.reg a = s.reg a)
    ∧ (s.dramLine addr.toNat = some (d, o) → x.queued o ≠ 0 → x.queued o ≠ 2 ^ 64 - 1 → x.held o = false →
        s.pcBusy d (offPc o) = false → x.drains (offPc o) = true →
        (Leads (.dramReadModifyWrite addr false [] false) s fun s' =>
          (s'.dramOf d).queued o = 0 ∧ s'.mem = s.mem ∧ s'.regs = s.regs ∧ s'.poison = s.poison)
        ∧ (s.dramPoison d < 1024 → (∀ set < 4, s.ringEn set = false) → Leads (.dramReadModifyWrite addr false [] true) s fun s' =>
          (s'.dramOf d).queued o = 0 ∧ s'.mem = s.mem ∧ s'.readPoison line 64 = true))
    ∧ (s.dramReady die = true → s.pcBusy die pc = false → (s.dramOf die).drains pc = true → Leads (.dramWriteDrain die pc []) s fun s' =>
        (∀ q, q ∈ (s'.dramOf die).queue ↔ q ∈ (s.dramOf die).queue ∧ ∀ p ∈ (s.dramOf die).queue, p.off = q.off →
          ¬ (offPc p.off = pc ∧ p.mask = 2 ^ 64 - 1 ∧ (s.dramOf die).held p.off = false))
        ∧ s' = { s with dram := s'.dram })

/-- R322, R323, R326, R328, R329, R330, R337, R339, R340, R376, R383: DRAM reads. A read that its initiator may make takes a tag:
one of the 8 that its pseudo-channel holds for class 7, else one of the other 56; it stalls where there is none. In its turn it is
served, charged and answered, and its tag is free: without errors nothing else changes; an error that the decoder corrects counts in
DMC_CE and records the line, and with every error in a lane of its own codeword leaves memory as it was; a command error counts in
DMC_UE, records the line, and no later read gets its data. The patrol scrubber's clean read leaves memory and every register but the
refresh count as they were. -/
def DramReads : Prop :=
  ∀ (s : State) (init : Init) (cls : Fin 8) (task : BitVec 12) (addr : Addr) (d o : Nat) (err : List (Fin 72 × Byte)) (est : List Nat)
    (r : DramRead) (die : Fin 4) (layer : Fin 9) (off : BitVec 34),
    let line := addr.toNat / 64 * 64
    let x := s.dramOf d
    s.frozen = false →
    (s.dramLine addr.toNat = some (d, o) → s.access ⟨init.toNat, none, false, false⟩ false line 64 = 0 →
        let takes := fun fast : Bool => Leads (.dramRead ⟨⟨init, cls, task⟩, addr, false⟩ false [] false) s fun s' =>
          (s'.dramOf d).reads = x.reads ++ [⟨init.toNat, cls, task.toNat, o, s.now, fast, 0⟩] ∧ s' = { s with dram := s'.dram }
        (cls = 7 → x.tagsUsed (offPc o) true < 8 → takes true)
        ∧ ((cls = 7 → 8 ≤ x.tagsUsed (offPc o) true) → x.tagsUsed (offPc o) false < 56 → takes false)
        ∧ ((cls = 7 → 8 ≤ x.tagsUsed (offPc o) true) → 56 ≤ x.tagsUsed (offPc o) false →
            exec (.dramRead ⟨⟨init, cls, task⟩, addr, false⟩ false [] false) s = .next s))
    ∧ (s.dramLine addr.toNat = some (d, o) → x.queued o ≠ 2 ^ 64 - 1 → s.pcFailed line = false → s.poisoned line = false →
        (x.reads.find? fun r => decide (r.init = init.toNat) && decide (r.cls = cls.val) && decide (r.task = task.toNat)
          && decide (r.off = o)) = some r →
        s.pcBusy d (offPc o) = false → s.readTurn d r true = true → (cls = 7 → s.now - r.since ≤ 2000) →
        (Leads (.dramRead ⟨⟨init, cls, task⟩, addr, true⟩ false [] false) s fun s' =>
          (s'.dramOf d).reads.length + 1 = x.reads.length ∧ s'.mem = s.mem ∧ s'.poison = s.poison
            ∧ s.onlyRegs { s' with dram := s.dram } (chargedRegs d ++ [aFlr (init.toNat / 256) 0x10]))
        ∧ (s.reg (aDmc d 0x20) < 2 ^ 32 - 1 → s.fld (aDmc d 0x1C) 15 0 = 0 →
            (errWord err).any (fun e => decide (e ≠ 0)) = true → s.reg (aDmc d (0x100 + 8 * offPc o)) = 0 →
            rsEstimate (errWord err) [] = some est → est = errWord err →
            (readAt (fun _ => []) x.corrected (offPc o)).length < 63 →
            Leads (.dramRead ⟨⟨init, cls, task⟩, addr, true⟩ false err false) s fun s' => s'.reg (aDmc d 0x20) = s.reg (aDmc d 0x20) + 1
              ∧ s'.reg (aDmc d 0x30) = o / 64 * 64 ∧ s'.mem = s.mem ∧ s'.poison = s.poison)
        ∧ (s.reg (aDmc d 0x24) < 2 ^ 32 - 1 → s.dramPoison d < 1024 → (∀ set < 4, s.ringEn set = false) →
            Leads (.dramRead ⟨⟨init, cls, task⟩, addr, true⟩ false err true) s fun s' => s'.reg (aDmc d 0x24) = s.reg (aDmc d 0x24) + 1
              ∧ s'.reg (aDmc d 0x30) = o / 64 * 64 + 2 ^ 34 + 2 ^ 35 ∧ s'.readPoison line 64 = true ∧ s'.mem = s.mem))
    ∧ (s.dramReady die = true → bit (s.reg (aDmc die 0x0C)) (offPc off.toNat) = false → s.pcBusy die (offPc off.toNat) = false →
        (∀ q ∈ (s.dramOf die).reads, offPc q.off ≠ offPc off.toNat) → Leads (.dramPatrolScrub ⟨die, layer⟩ off [] false) s fun s' =>
          s'.mem = s.mem ∧ s'.poison = s.poison ∧ s.onlyRegs { s' with dram := s.dram, free := s.free } [aDmc die 0x28])

/-- R322, R323, R326, R328, R329, R330, R332, R335, R337, R339, R340, R376, R383: the lines of DRAM, written and read. -/
def Obligations.DramLines : Prop := DramWrites ∧ DramReads

/-- R333 to R336, R338, R341 to R345: the care of a stack. A refresh that is due at pseudo-channel 0 starts a period: the epoch is
the time base and the chosen mode takes effect; one that is not due waits. Each millisecond the temperatures are recorded, and
choose hot refresh above 85 °C and normal refresh at 83 °C or less. A migration copies one unit at a time, and with the last one the
layer select maps to the spare. Every 10 ms the eye monitor's values are recorded. Training that succeeds leaves the stack READY,
with its presence bit where its Meadow is present; one that fails leaves it FAILED. Self-refresh performs the queued writes.
Retirement starts a migration where the spare is unused and none runs. DMC_RH_THRESH below 256 is discarded. -/
def Obligations.DramCare : Prop :=
  ∀ (s : State) (init : Init) (die : Fin 4) (pc : Fin 32) (group : Fin 5) (width drift : Byte) (temps : List Byte) (value : Word32) (m : Migration),
    let a := aDmc die
    let x := s.dramOf die
    let known := (s.dieSt die).complete ∨ (s.dieSt die).factory ∨ (s.dieSt die).restored
    s.frozen = false →
    (s.dramReady die = true → s.now < 2 ^ 64 →
      (s.refreshDue die 0 = true → Leads (.dramRefreshDue die 0) s fun s' => s'.reg (a 0x10) = s.now
        ∧ (s'.dramOf die).refreshed = [0] ∧ (s'.fld (a 0) 3 3 = if x.hotNext then 1 else 0)
        ∧ s'.fld (a 0) 2 0 = 2 ∧ s.onlyRegs { s' with dram := s.dram } [a 0, a 0x10])
      ∧ (s.refreshDue die pc = false → exec (.dramRefreshDue die pc) s = .next s)
      ∧ (pc ≠ 0 → s.refreshDue die pc = true → Leads (.dramRefreshDue die pc) s fun s' => s' = { s with dram := s'.dram }
          ∧ readAt (fun _ => 0) (s'.dramOf die).refreshes pc = (readAt (fun _ => 0) x.refreshes pc + 1) % 8192))
    ∧ (temps.length = 9 → s.tempDue die = true → (∀ b ∈ temps, b.toInt ≤ 95) → Leads (.dramTempRead die temps) s fun s' =>
        ((∃ b ∈ temps, 85 < b.toInt) → (s'.dramOf die).hotNext = true)
        ∧ ((∀ b ∈ temps, b.toInt ≤ 83) → (s'.dramOf die).hotNext = false)
        ∧ (∃ b ∈ temps, s'.fld (a 0x04) 7 0 = b.toNat ∧ ∀ c ∈ temps, c.toInt ≤ b.toInt)
        ∧ s.onlyRegs { s' with dram := s.dram, diePower := s.diePower } [a 0x04])
    ∧ (temps.length = 9 → s.tempDue die = true → (∃ b ∈ temps, 100 < b.toInt) → (s.dieSt die).out = true → Leads (.dramTempRead die temps) s fun s' =>
        (s'.diePw die).tripped = true)
    ∧ (x.migration = some m → m.ptr.length = 32 → s.dramReady die = true → s.pcStalled die pc = false → s.spoilt = [] → m.ptr.getD pc 0 < 65536 →
        (∃ q < 32, q ≠ pc.val ∧ m.ptr.getD q 0 < 65536) → Leads (.migrationUnit die pc []) s fun s' =>
          (s'.dramOf die).migration = some { m with ptr := m.ptr.set pc (m.ptr.getD pc 0 + 1) } ∧ s'.mem = s.mem
          ∧ s'.poison = s.poison ∧ s.onlyRegs { s' with dram := s.dram } [a 0x28, a 0x38])
    ∧ (x.migration = some m → m.ptr.length = 32 → s.dramReady die = true → s.pcStalled die pc = false → m.ptr.getD pc 0 = 65535 → m.sid < 8 →
        (∀ q < 32, q ≠ pc.val → 65536 ≤ m.ptr.getD q 0) → Leads (.migrationUnit die pc []) s fun s' =>
          (s'.dramOf die).migration = none ∧ s'.physLayer die m.sid = 8 ∧ s'.fld (a 0) 5 5 = 1 ∧ s'.fld (a 0) 4 4 = 0
          ∧ ∀ k < 8, k ≠ m.sid → s'.physLayer die k = s.physLayer die k)
    ∧ (readAt (fun _ => 0) x.eyeAt (5 * pc.val + group.val) + 10000000 ≤ s.now → Leads (.eyeMonitorUpdate die pc group width drift) s fun s' =>
        let r := a (0x400 + 32 * pc + 4 * group)
        s'.fld r 15 8 = width.toNat ∧ s'.fld r 23 16 = drift.toNat ∧ s'.fld r 7 0 = s.fld r 7 0
          ∧ (drift.toInt.natAbs < 8 → 24 ≤ width.toNat → s.onlyRegs { s' with dram := s.dram } [r])
          ∧ (8 ≤ drift.toInt.natAbs → (sext 8 (s.fld r 23 16)).natAbs < 8 → s'.reported die "DMC_EYE_DRIFT" pc 0))
    ∧ (s.fld (a 0) 2 0 = 1 → known → Leads (.dramTrainingDone die false [] []) s fun s' => s'.fld (a 0) 2 0 = 4 ∧ s.onlyRegs s' [a 0])
    ∧ (s.fld (a 0) 2 0 = 1 → known → s.reg (a 0x0C) = 0 → Leads (.dramTrainingDone die true [] []) s fun s' =>
        s'.fld (a 0) 2 0 = 2 ∧ s'.stackUp die = (s.meadowUp die || s.stackUp die) ∧ s.onlyRegs s' [a 0, aVal 0x20])
    ∧ (s.dramReady die = true → Leads (.selfRefreshEntry die) s fun s' =>
        (s'.dramOf die).queue = [] ∧ s'.fld (a 0) 2 0 = 3
          ∧ ((∀ q ∈ x.queue, q.mask = 2 ^ 64 - 1) → s'.mem = s.mem
            ∧ s.onlyRegs { s' with dram := s.dram, free := s.free } [a 0, a 0x28]))
    ∧ ((init.toNat = initSec ∨ isHeath init.toNat = true) → bit value.toNat 31 = true → x.migration = none → s.fld (a 0) 5 5 = 0 →
        Leads (.dmcRetire init die value) s fun s' =>
          (s'.dramOf die).migration = some ⟨value.toNat % 8, List.replicate 32 0, s.now⟩ ∧ s'.fld (a 0) 4 4 = 1
          ∧ s'.fld (a 0) 10 8 = value.toNat % 8 ∧ s'.reported die "DMC_MIGRATE_START" (value.toNat % 8) 0)
    ∧ (init.toNat ≠ initSec → isHeath init.toNat = false → exec (.dmcRetire init die value) s = .next s)
    ∧ (init.toNat = initSec → 256 ≤ value.toNat % 2 ^ 16 → Leads (.dmcRhThreshWrite init die value) s fun s' =>
        s'.fld (a 0x18) 15 0 = value.toNat % 2 ^ 16 ∧ s.onlyRegs s' [a 0x18])
    ∧ (value.toNat % 2 ^ 16 < 256 → exec (.dmcRhThreshWrite init die value) s = .next s)

/-! ## Inputs, reset pins, restarts and the fault record -/

/-- What module reset leaves of `s` in `t` (R336, R446, R475, R558): the Vale and the Meadows are in reset, the time base stands at
0 while the Heaths' clock goes on, no freeze is in force, memory holds nothing, the mode is BOOT, the scheduler, the contexts and
the fabric are as at reset; the Heaths, but for a held mode, the flash, the fuses and the fault record's copies stay. -/
def AfterModuleReset (s t : State) : Prop :=
  t.boot = bootFresh ∧ t.now = 0 ∧ t.clock = s.clock ∧ t.frozen = false ∧ t.mem = [] ∧ t.poison = [] ∧ t.mode = 0
    ∧ t.sched = schedFresh ∧ t.kv = kvFresh ∧ t.queues = [] ∧ t.posts = []
    ∧ (∀ h, t.heath h = { s.heath h with hold := (t.heath h).hold })
    ∧ t.flash = s.flash ∧ t.fuses = s.fuses ∧ t.pending = s.pending

/-- R514, R536 to R539, R558: the inputs and the reset pin. An input that rises into range is recorded with its time, and the
auxiliary input closes the bypasses. The loss of the main input is a module reset; the loss of the auxiliary input stops both Heaths
and opens the bypasses; over-voltage counts as the loss of the input and waits to be reported. Each Heath leaves reset 12 ms after
the auxiliary input, and the sequencer releases the Vale and the Meadows 20 ms after the later input. RESET_N low for 1 µs is a
module reset, one shorter than 500 ns is ignored, and its rise starts the boot, once the inputs have been in range for 20 ms. -/
def Obligations.InputsAndResetPins : Prop :=
  ∀ (s : State) (aux : Bool) (lowNs : Nat),
    (s.power.mainOk = false → Leads .mainInputInRange s fun s' => s'.power = { s.power with mainOk := true, mainAt := s.clock }
      ∧ s'.fld (aPwr 0) 0 0 = 1 ∧ s.onlyRegs { s' with power := s.power } [aPwr 0])
    ∧ (s.power.auxOk = false → Leads .auxInputInRange s fun s' => s'.power = { s.power with auxOk := true, auxAt := s.clock }
      ∧ s'.fld (aPwr 0) 1 1 = 1 ∧ s'.col.bypass = [true, true] ∧ s.onlyRegs { s' with power := s.power, col := s.col } [aPwr 0])
    ∧ (s.power.mainOk = true → Leads .mainInputOutOfRange s fun s' => AfterModuleReset s s' ∧ s'.power.mainOk = false
      ∧ s'.power.auxOk = s.power.auxOk ∧ s'.fld (aPwr 0) 0 0 = 0)
    ∧ (s.power.auxOk = true → Leads .auxInputOutOfRange s fun s' => (s'.heath 0).up = false ∧ (s'.heath 1).up = false
      ∧ s'.power.auxOk = false ∧ s'.power.mainOk = s.power.mainOk ∧ s'.col.bypass = [false, false] ∧ s'.fld (aPwr 0) 1 1 = 0
      ∧ (s.power.mainOk = true → s'.boot = bootFresh ∧ s'.mem = []) ∧ s'.flash = s.flash ∧ s'.fuses = s.fuses)
    ∧ (Leads (.inputOvervoltage aux) s fun s' => bit s'.power.overReport (if aux then 1 else 0) = true
      ∧ (if aux then s'.power.auxOk else s'.power.mainOk) = false)
    ∧ (s.power.auxOk = true → s.power.auxAt + 12000000 ≤ s.clock → (∀ h < 2, (s.dieSt (5 + h)).out = false ∧ (s.diePw (5 + h)).tripped = false) →
        Leads .heathResetRelease s fun s' => ∀ h < 2, (s'.dieSt (5 + h)).out = true ∧ (s'.dieSt (5 + h)).outAt = s.clock)
    ∧ (s.clock < s.power.auxAt + 12000000 → exec .heathResetRelease s = .next s)
    ∧ (s.boot.phase = 0 → s.power.mainOk = true → s.power.auxOk = true → s.power.resetLow = false → (s.dieSt 4).wire = false →
        (s.diePw 4).tripped = false → s.power.mainAt + 20000000 ≤ s.clock → s.power.auxAt + 20000000 ≤ s.clock →
        Leads .sequencerRelease s fun s' => s' = { s with boot := { s.boot with phase := 1 } })
    ∧ (s.power.mainOk = true → 1000 ≤ lowNs → Leads (.resetNAssert lowNs) s fun s' => AfterModuleReset s s' ∧ s'.power.resetLow = true)
    ∧ (s.power.mainOk = false → 1000 ≤ lowNs → Leads (.resetNAssert lowNs) s fun s' =>
        s' = { s with power := { s.power with resetLow := true } })
    ∧ (lowNs < 500 → exec (.resetNAssert lowNs) s = .next s)
    ∧ (s.power.resetLow = true → s.power.mainOk = true → s.power.auxOk = true → (s.dieSt 4).wire = false → (s.diePw 4).tripped = false →
        s.power.mainAt + 20000000 ≤ s.clock → s.power.auxAt + 20000000 ≤ s.clock →
        Leads .resetNRelease s fun s' => s'.power.resetLow = false ∧ s'.boot = { s.boot with phase := 1 })
    ∧ (s.power.resetLow = true → s.clock < s.power.mainAt + 20000000 → Leads .resetNRelease s fun s' =>
        s' = { s with power := { s.power with resetLow := false } })

/-- What a Meadow's own reset leaves (R343, R445): it is out of service and holds no thread, and its memory's contents stay where no
queued write of part of a line had to be performed first. -/
def MeadowInReset (s t : State) (d : Nat) : Prop :=
  (t.dieSt d).out = false ∧ ((∀ q ∈ (s.dramOf d).queue, q.mask = 2 ^ 64 - 1) → t.mem = s.mem) ∧ t.clock = s.clock ∧ (∀ k, slotDie k = d → t.slot k = slotFree)
    ∧ (∀ k, slotDie k ≠ d → t.slot k = s.slot k)

/-- R355, R363, R439, R445, R446: restarts of dies. RESET_REQ from a Heath puts a Meadow in reset with its stack in self-refresh and
RESET_NOTIFY sent on every port that carried flits, and a cold one resets the module by the Vale's port. With no RESET_NOTIFY after
100 µs the wire is asserted for 10 µs; after its hold time a Meadow's wire is released, and the Vale's with all of them. A Meadow
lost to both Heaths for 5 ms is restarted by the Heath that drives. A die whose reset is released leaves it, and its ports in RESET
negotiate. -/
def Obligations.RestartsOfDies : Prop :=
  ∀ (s : State) (p : PortId) (cold : Bool) (d : Fin 4) (die : Fin 5) (any : Fin 7) (at_ : Nat),
    (s.frozen = false → p.ok = true → p.die.val < 4 → (p.port.val = 3 ∨ p.port.val = 4) → 1 ≤ s.linkState p.die p.port →
        s.linkState p.die p.port ≤ 5 → Leads (.resetReq p cold) s fun s' => MeadowInReset s s' p.die
          ∧ (s.dramReady p.die = true → (s'.dieSt p.die).stackKept = true ∧ s'.fld (aDmc p.die 0) 2 0 = 3)
          ∧ (s'.dieSt p.die).notified = (List.range 5).filter fun q => s.linkUp p.die q)
    ∧ (s.frozen = false → p.die.val = 4 → 4 ≤ p.port.val → 1 ≤ s.linkState 4 p.port → s.linkState 4 p.port ≤ 5 →
        Leads (.resetReq p true) s fun s' => AfterModuleReset s s' ∧ ∀ d < 5, (s'.dieSt d).wire = true)
    ∧ (s.mayRestart = true → (s.dieSt d).restartAt = some at_ →
        (at_ + 100000 < s.clock → Leads (.resetNotifyTimeout d) s fun s' => MeadowInReset s s' d
          ∧ (s'.dieSt d).wire = true ∧ (s'.dieSt d).wireUntil = s.clock + 10000 ∧ (s'.dieSt d).restartAt = none)
        ∧ (s.clock ≤ at_ + 100000 → exec (.resetNotifyTimeout d) s = .next s))
    ∧ ((s.dieSt die).wire = true → (s.dieSt die).heldDown = false → s.power.mainOk = true →
        (s.clock < (s.dieSt die).wireUntil → exec (.resetWireRelease die) s = .next s)
        ∧ ((s.dieSt die).wireUntil ≤ s.clock → die.val < 4 → (s.dieSt 4).wire = false → Leads (.resetWireRelease die) s fun s' =>
            s'.dieSt die = { s.dieSt die with wire := false } ∧ s' = { s with dies := s'.dies })
        ∧ ((s.dieSt die).wireUntil ≤ s.clock → die.val = 4 → s.power.resetLow = false → (s.diePw 4).tripped = false →
            Leads (.resetWireRelease die) s fun s' => s'.boot.phase = 1 ∧
              ∀ x < 5, (s'.dieSt x).wire = ((s.dieSt x).wire && (s.dieSt x).heldDown)))
    ∧ ((s.heath 0).up = true → s.drives 0 = true → s.mayRestart = true →
        (∀ h < 2, s.linkState (5 + h) d = 6 ∧ (s.port (5 + h) d).downAt + 5000000 < s.clock) → (s.dieSt d).out = true →
        (s.dieSt d).wire = false → (s.dieSt d).heldDown = false → (s.dieSt d).restartAt = none → (s.dieSt d).restarts = [] →
        Leads (.helloWaitTimeout d) s fun s' => s'.dieSt d = { s.dieSt d with restarts := [s.clock], restartAt := some s.clock })
    ∧ (s.frozen = false → s.mayLeave any = true → Leads (.dieLeavesReset any) s fun s' => (s'.dieSt any).out = true
        ∧ (s'.dieSt any).outAt = s.clock ∧ (∀ q < 5, s'.linkState any q = if s.linkState any q = 0 then 1 else s.linkState any q)
        ∧ s'.mem = s.mem)

/-- R366, R459: the fault record's way into a die. Each entry is kept in order; the Vale's record applies with its last entry, and
VAL_FREC names the Heath. A die that waits 20 ms goes on from its factory state with its event. A Meadow whose record is complete,
or that has given it up, ends its restore: its SRAM is clear, and its stack is out of self-refresh with its contents, or zeroed. A
Heath's record gives its entry in its copy the next SEQ. -/
def Obligations.FaultRecordDelivery : Prop :=
  ∀ (s : State) (h : Fin 2) (die : Fin 5) (d : Fin 4) (idx : Fin 8192),
    let x := s.dieSt die
    let r := frecRecord (s.frecCopy h).entries
    s.frozen = false →
    (x.out = true → x.complete = false → x.factory = false → x.restored = false → s.frecSource die = some h.val →
        idx.val = x.entries.length →
        (∀ e, idx.val + 1 < r.length → r[idx.val]? = some e → Leads (.restore h die idx) s fun s' =>
          s'.dieSt die = { x with entries := x.entries ++ [(idx.val, e.bytes)] } ∧ s' = { s with dies := s'.dies })
        ∧ (r.length ≤ idx.val + 1 → (Leads (.restore h die idx) s fun s' => (s'.dieSt die).complete = true
            ∧ (die.val = 4 → (s'.dieSt 4).restored = true ∧ s'.reg (aVal 0x108) = 1 + (h.val + 1) * 2))))
    ∧ (x.out = true → x.complete = false → x.factory = false → x.restored = false →
        (x.outAt + 20000000 < s.clock → Leads (.faultRecordTimeout die) s fun s' =>
          s'.reported die "FREC_MISSING" 0 0 ∧ s'.dieSt die = { x with factory := true, restored := decide (die.val = 4) } ∧ s.eventOnly { s' with dies := s.dies })
        ∧ (s.clock ≤ x.outAt + 20000000 → exec (.faultRecordTimeout die) s = .next s))
    ∧ ((s.dieSt d).out = true → (s.dieSt d).restored = false → (s.dieSt d).factory = true → (s.dieSt d).complete = false →
        (∀ t < 17, ∀ l < 16, s.tileRetired d l t = false) → Leads (.meadowRestoreComplete d [] []) s fun s' =>
          (s'.dieSt d).restored = true ∧ (s'.dieSt d).enginesOut = []
          ∧ (∀ a, poolBase d 0 ≤ a → a < poolBase d 0 + 0x10000000 → readAt memDefault s'.mem a = 0)
          ∧ ((s.dieSt d).stackKept = true → ∀ a < 0x001000000000, readAt memDefault s'.mem a = readAt memDefault s.mem a)
          ∧ ((s.dieSt d).stackKept = false → ∀ a < 0x001000000000, (s.stackOf a).1 = d.val → readAt memDefault s'.mem a = 0)
          ∧ (s.fld (aDmc d 0) 2 0 = 3 → s'.dramReady d = true))

/-! ## The Fuora Die Link -/

/-- A flit of 256 bytes with a good CRC and FTYPE `ty` (R349, R352). -/
def GoodFlit (bs : List Byte) (ty : Nat) : Prop :=
  bs.length = 256 ∧ leNat ((bs.drop 252).take 4) = crc32c (bs.take 252) ∧ leNat (bs.take 8) % 16 = ty

/-- R349, R352 to R354: flits at a port that carries them. A DATA flit with the SEQ expected is accepted, SEQ moves on modulo 4,096
and its messages but those of VC3 wait in their order, while a CTRL message acts at once; any other SEQ is discarded and opens a
gap. An IDLE flit leaves what was received as it was. A flit with a bad CRC is counted and used for nothing. A NAK, and 1,024 cycles
without an advance of ACK, replay what is unacknowledged and count it, as long as fewer than 8 replays follow each other and
FDL_RETRY rose by fewer than 64 within 1 ms. -/
def FlitsAndReplay : Prop :=
  ∀ (s : State) (p : PortId) (flit : List Byte) (l : List Msg),
    let die := p.die.val
    let q := p.port.val
    let x := s.port die q
    let a := aFdl die q
    let seq := leNat (flit.take 8) / 2 ^ 4 % 4096
    s.frozen = false → p.ok = true → s.linkUp die q = true →
    (GoodFlit flit 1 → seq = x.rxSeq → msgsFrom flit (s.reg (a 0x18)) die (facing die q) 15 0 = some l →
        (∀ m ∈ l, m.type ≠ 12) → Leads (.flitData p flit) s fun s' => (s'.port die q).rxSeq = (x.rxSeq + 1) % 4096
          ∧ (s'.port die q).inbox = x.inbox ++ l.filter (fun m => decide (m.vc ≠ 3)) ∧ (s'.port die q).gap = false ∧ s'.mem = s.mem)
    ∧ (∀ m : Msg, GoodFlit flit 1 → seq = x.rxSeq → msgsFrom flit (s.reg (a 0x18)) die (facing die q) 15 0 = some [m] → m.type = 12 →
        (m.addr % 256 = 1 → s.linkState die q = 4 → Leads (.flitData p flit) s fun s' => s'.linkState die q = 5)
        ∧ (m.addr % 256 = 2 → Leads (.flitData p flit) s fun s' => s'.linkState die q = 6))
    ∧ (GoodFlit flit 1 → seq ≠ x.rxSeq → Leads (.flitData p flit) s fun s' => (s'.port die q).rxSeq = x.rxSeq
          ∧ (s'.port die q).inbox = x.inbox ∧ (s'.port die q).gap = true ∧ s'.mem = s.mem)
    ∧ (GoodFlit flit 0 → Leads (.flitIdle p flit) s fun s' => (s'.port die q).rxSeq = x.rxSeq ∧ (s'.port die q).inbox = x.inbox
          ∧ (s'.port die q).heard = s.clock ∧ s'.mem = s.mem)
    ∧ (flit.length ≠ 256 → s.reg (a 0x34) < 2 ^ 32 - 1 → Leads (.flitData p flit) s fun s' => s'.reg (a 0x34) = s.reg (a 0x34) + 1
          ∧ (s'.port die q).rxSeq = x.rxSeq ∧ (s'.port die q).inbox = x.inbox ∧ (s'.port die q).gap = true ∧ s'.mem = s.mem)
    ∧ (flit.length ≠ 256 → s.reg (a 0x34) < 2 ^ 32 - 1 → Leads (.flitIdle p flit) s fun s' => s'.reg (a 0x34) = s.reg (a 0x34) + 1
          ∧ (s'.port die q) = { x with heard := s.clock } ∧ s.onlyRegs { s' with ports := s.ports } [a 0x34])
    ∧ (GoodFlit flit 2 → bit (leNat (flit.take 8)) 28 = false → x.sent ≠ [] → x.replays < 7 → x.retryAt.length < 63 →
        s.reg (a 0x30) < 2 ^ 32 - 1 → Leads (.flitNak p flit) s fun s' => s'.reg (a 0x30) = s.reg (a 0x30) + 1
          ∧ (s'.port die q).replays = x.replays + 1 ∧ s'.linkState die q = s.linkState die q)
    ∧ (x.ackAt + 1024 < s.clock → x.sent ≠ [] → x.replays < 7 → x.retryAt.length < 63 → s.reg (a 0x30) < 2 ^ 32 - 1 →
        Leads (.replayTimeout p) s fun s' => s'.reg (a 0x30) = s.reg (a 0x30) + 1
          ∧ (s'.port die q).replays = x.replays + 1 ∧ (s'.port die q).ackAt = s.clock ∧ s.onlyRegs { s' with ports := s.ports } [a 0x30])
    ∧ (s.clock ≤ x.ackAt + 1024 → exec (.replayTimeout p) s = .next s)

/-- R353 to R356, R361, R363, R364, R366, R368: the states of a port. An ACTIVE port enters RETRAIN at its partner's request or on
seeing training patterns, with its event, and from RETRAIN goes ACTIVE where a module passes within 50 µs and DOWN later; a port
that carries flits goes DOWN at RESET_NOTIFY and after 48 silent cycles; training ends in STANDBY or ACTIVE, waits in TRAIN for a
Meadow's restore, and is DISABLED with cause 4 where no module is left; REJOIN, which the Vale has sent, makes the STANDBY ports it
names ACTIVE, and FENCE takes the link to the named die DOWN. -/
def LinkStates : Prop :=
  ∀ (s : State) (p : PortId) (eye : Eye) (pos : Fin 16) (f : Fin 6),
    let die := p.die.val
    let q := p.port.val
    let x := s.port die q
    let st := s.linkState die q
    let k := s.fld (aFdl die q 0x28) 7 4
    s.frozen = false → p.ok = true → (∀ j ∈ s.sched.jobs, j.ringSet < 4) →
    (∀ c ∈ [Instr.ctrlRetrain p, .trainingPatternDetect p],
        (st = 4 → Leads c s fun s' => s'.linkState die q = 5 ∧ (s'.port die q).retrainAt = s.clock
          ∧ (die ≤ 4 → s'.reported die "FDL_RETRAIN" 0 (8 * die + q)))
        ∧ (st ≠ 4 → Leads c s fun s' => s'.linkState die q = st ∧ s' = { s with ports := s'.ports }))
    ∧ (st = 5 → 1 ≤ k → k ≤ 8 → x.modsOff = 0 → x.retryAt.length < 63 →
        (s.clock ≤ x.retrainAt + 50000 → Leads (.retrainEnd p [] eye) s fun s' => s'.linkState die q = 4
          ∧ s'.fld (aFdl die q 0x60) 7 0 = 2 ^ k - 1)
        ∧ (x.retrainAt + 50000 < s.clock → Leads (.retrainEnd p [] eye) s fun s' => s'.linkState die q = 6))
    ∧ (st = 3 ∨ st = 4 → (Leads (.ctrlResetNotify p) s fun s' => s'.linkState die q = 6 ∧ (s'.port die q).downAt = s.clock)
        ∧ (x.heard + 48 < s.clock → Leads (.linkRxTimeout p) s fun s' => s'.linkState die q = 6 ∧ (s'.port die q).downAt = s.clock))
    ∧ (s.clock ≤ x.heard + 48 → exec (.linkRxTimeout p) s = .next s)
    ∧ (st = 2 → x.trained = false →
        (k = 0 → Leads (.linkTrainDone p [] eye) s fun s' => s'.linkState die q = 7 ∧ s'.fld (aFdl die q 0) 6 4 = 4)
        ∧ (1 ≤ k → k ≤ 8 → x.modsOff = 0 →
          (s.waitsRestore die (facing die q) = true → Leads (.linkTrainDone p [] eye) s fun s' => s'.linkState die q = 2
            ∧ (s'.port die q).trained = true)
          ∧ (s.waitsRestore die (facing die q) = false → Leads (.linkTrainDone p [] eye) s fun s' =>
            s'.linkState die q = if s.activatesAtOnce die (facing die q) then 4 else 3)))
    ∧ (facing die q = 4 → s.sideSent die q (rejoinPayload pos) = true → Leads (.rejoin p pos) s fun s' => ∀ r < 5, s'.linkState die r
        = if (die = pos.val ∨ facing die r = pos.val) ∧ s.linkState die r = 3 then 4 else s.linkState die r)
    ∧ (die < 4 → q = 2 → s.sideSent die q (fencePayload pos) = true → portTo die pos = some f.val → s.linkState die f = 3 ∨ s.linkState die f = 4 → Leads (.fence p pos) s fun s' =>
        s'.linkState die f = 6)

/-- R349, R352 to R356, R361, R363, R364, R366, R368: flits, replay, and the states of the ports. -/
def Obligations.FlitsAndLinkStates : Prop := FlitsAndReplay ∧ LinkStates


/-- R355 to R360: negotiation. HELLO takes a DOWN port to NEGOTIATE, which sends its own record; there the parts of the partner's
record are kept, and with the fourth the agreed features are those both ends announce, or the port is DISABLED for a partner of
another identity with cause 2; CAP_ACK compares the CRC of the agreed record: with the same one the port trains, with another the
exchange is repeated, and after the third it is refused with cause 3. -/
def LinkNegotiation : Prop :=
  ∀ (s : State) (p : PortId) (id : Word32) (part : Byte) (data : BitVec 48) (crc : BitVec 16),
    let die := p.die.val
    let q := p.port.val
    let x := s.port die q
    let st := s.linkState die q
    let parts := insertKey x.capParts part.toNat data.toNat
    let r := (List.range 4).foldl (fun r i => r + readAt (fun _ => 0) parts i <<< (48 * i)) 0
    s.frozen = false → p.ok = true →
    (st = 6 → Leads (.hello p id) s fun s' => s'.linkState die q = 1
        ∧ (s'.port die q).capParts = [] ∧ (s'.port die q).exchanges = 0 ∧ (s'.port die q).agreed = false
        ∧ (s'.port die q).trained = false ∧ ∀ i < 4, ∃ v ∈ (s'.port die q).sideband, v % 2 ^ 16 = 1 + i * 2 ^ 8)
    ∧ (st ≠ 6 → Leads (.hello p id) s fun s' => s'.port die q = x ∧ s' = { s with ports := s'.ports })
    ∧ (3 < part.toNat → s.reg (aFdl die q 0x3C) < 2 ^ 32 - 1 → Leads (.cap p part data) s fun s' =>
        s'.reg (aFdl die q 0x3C) = s.reg (aFdl die q 0x3C) + 1 ∧ s.onlyRegs { s' with ports := s.ports } [aFdl die q 0x3C])
    ∧ (st = 1 → x.agreed = false → part.toNat ≤ 3 → parts.length ≠ 4 → Leads (.cap p part data) s fun s' =>
        s'.port die q = { x with capParts := parts } ∧ s' = { s with ports := s'.ports })
    ∧ (st = 1 → x.agreed = false → part.toNat ≤ 3 → parts.length = 4 → r % 256 = 255 → (r / 2 ^ 64 % 16 = 1 ∨ r / 2 ^ 64 % 16 = 4) →
        (identityOk (facing die q) (r / 2 ^ 128 % 2 ^ 32) = true → Leads (.cap p part data) s fun s' =>
          s'.reg (aFdl die q 0x18) = ((ownRecord die q).1 &&& r % 2 ^ 64) ∧ s'.reg (aFdl die q 0x10) = r % 2 ^ 64
            ∧ (s'.port die q).agreed = true ∧ s'.linkState die q = 1)
        ∧ (identityOk (facing die q) (r / 2 ^ 128 % 2 ^ 32) = false → Leads (.cap p part data) s fun s' =>
          s'.linkState die q = 7 ∧ s'.fld (aFdl die q 0) 3 3 = 1 ∧ s'.fld (aFdl die q 0) 6 4 = 2))
    ∧ (st = 1 → x.agreed = true →
        (crc.toNat = crc16 (s.agreedBytes die q) → Leads (.capAck p crc) s fun s' => s'.linkState die q = 2
            ∧ s.onlyRegs { s' with ports := s.ports } [aFdl die q 0])
        ∧ (crc.toNat ≠ crc16 (s.agreedBytes die q) → x.exchanges + 1 ≠ 3 → Leads (.capAck p crc) s fun s' => s'.linkState die q = 1
            ∧ (s'.port die q).exchanges = x.exchanges + 1 ∧ (s'.port die q).capParts = [] ∧ (s'.port die q).agreed = false)
        ∧ (crc.toNat ≠ crc16 (s.agreedBytes die q) → x.exchanges + 1 = 3 → Leads (.capAck p crc) s fun s' =>
            s'.linkState die q = 7 ∧ s'.fld (aFdl die q 0) 6 4 = 3))

/-- R367, R368: FDL_TEST, which the security core writes on a Meadow or the Vale: in SERVICE the pattern is kept, GO is set and an
ACTIVE link enters RETRAIN; in another mode only the pattern is kept. A write by another initiator changes nothing. -/
def LaneTestRequests : Prop :=
  ∀ (s : State) (p : PortId) (init : Init),
    let a := aFdl p.die p.port 0x68
    s.frozen = false → p.ok = true → p.die.val < 5 →
    ∀ e ∈ [(Instr.fdlTestP1 init p, 1), (.fdlTestP2 init p, 2), (.fdlTestP3 init p, 3)],
      (init.toNat = initSec →
        (s.mode = 4 → s.linkState p.die p.port = 4 → Leads e.1 s fun s' => s'.fld a 1 0 = e.2 ∧ s'.fld a 31 31 = 1
          ∧ s'.linkState p.die p.port = 5 ∧ s'.reported p.die "FDL_RETRAIN" 0 (8 * p.die.val + p.port.val))
        ∧ (s.mode ≠ 4 → Leads e.1 s fun s' => s'.fld a 1 0 = e.2 ∧ s'.fld a 31 31 = s.fld a 31 31 ∧ s.onlyRegs s' [a]))
      ∧ (init.toNat ≠ initSec → exec e.1 s = .next s)

/-- R355 to R360, R367, R368: the negotiation of links, and the tests of their lanes. -/
def Obligations.LinkNegotiationAndTests : Prop := LinkNegotiation ∧ LaneTestRequests


/-! ## Messages of the die links, kills, records and departures -/

/-- The port holds the message: it waits there for credit, or it has left and is kept for replay (R353). -/
def PortHolds (s : State) (die q : Nat) (m : Msg) : Prop :=
  (∃ n, (n, m) ∈ (s.port die q).txq) ∨ ∃ n, (n, m) ∈ (s.port die q).sent

/-- R19, R350, R351, R358, R363: requests that reach the die that serves them, whose DRAM takes them (R382). Each leaves the inbox
and is answered at its port with a response of its type: RD with the line it may read or a status, RD2 with one response, at least,
of its two; WR, WRP and ZWR to a line of memory with an acknowledgement, having written, where its status is 0x00 and the line lies
in DRAM, the whole line, the bytes of its mask, and zeros; a POST that its counter accepts changes the counter as its KIND says. A
response goes to the port of the request that it answers, and a request for another die to the port towards it, in the form that the
next link carries. A write of a register is stated with the register writes. -/
def Obligations.DieLinkMessages : Prop :=
  ∀ (s : State) (p : PortId) (m : Msg) (d l ti n r b k : Nat) (g : Forwarded),
    let die := p.die.val
    let q := p.port.val
    let x := s.port die q
    let line := m.addr / 64 * 64
    let here := s.dieOf die m.addr = die
    let first := fun (type : Nat) => x.first type = some m
    let gone := fun (s' : State) => (s'.port die q).inbox = x.inbox.erase m
    let inDram := placeOf line = some (.dram, b, k)
    let takes := fun (wr : Bool) (n : Nat) => s.dramTakes (m.h0 / 2 ^ 6 % 8) wr line n = true
    let acked := fun (s' : State) (wrote : Prop) => gone s' ∧ ∃ st, PortHolds s' die q (responseOf m.h0 m.h1 5 st []) ∧ (st = 0 → wrote)
    s.frozen = false → p.ok = true → s.linkUp die q = true →
    (first 1 → here → takes false 64 → Leads (.rd p) s fun s' => gone s' ∧ s'.mem = s.mem ∧
        ∃ st bs, PortHolds s' die q (responseOf m.h0 m.h1 4 st bs) ∧ (st = 0 ∨ bs = []))
    ∧ (first 8 → here → takes false 128 → Leads (.rd2 p) s fun s' => gone s' ∧ s'.mem = s.mem ∧
        ∃ st bs, PortHolds s' die q (responseOf m.h0 m.h1 4 st bs) ∧ (st = 0 ∨ bs = []))
    ∧ (first 2 → here → takes true 64 → inDram → s.pcFailed line = false → m.data.length = 64 → Leads (.wr p) s fun s' =>
        acked s' (∀ i < 64, readAt memDefault s'.mem (line + i) = m.data.getD i 0))
    ∧ (first 7 → here → takes true 64 → inDram → s.pcFailed line = false → Leads (.zwr p) s fun s' =>
        acked s' (∀ i < 64, readAt memDefault s'.mem (line + i) = 0))
    ∧ (first 3 → here → takes true 64 → inDram → s.pcFailed line = false → s.poisoned line = false → Leads (.wrp p) s fun s' =>
        acked s' (∀ i < 64, readAt memDefault s'.mem (line + i)
          = if (leNat (m.data.take 8)).testBit i then m.data.getD (16 + i) 0 else readAt memDefault s.mem (line + i)))
    ∧ (first 6 → here → takes true 64 → syncAt m.addr = some (d, l, ti, n) → s.meadowUp d = true →
        let w := leNat (m.data.take 8)
        s.postStatus whoFabric m.addr (w / 2 ^ 32 % 4) = 0 → Leads (.fdlPost p) s fun s' => gone s' ∧ s'.mem = s.mem
          ∧ (w / 2 ^ 32 % 4 = 0 → s'.reg m.addr = (s.reg m.addr + w) % 2 ^ 32)
          ∧ (w / 2 ^ 32 % 4 = 1 → s'.reg m.addr = max (s.reg m.addr) (w % 2 ^ 32)) ∧ s.onlyRegs { s' with ports := s.ports, slots := s.slots } [m.addr])
    ∧ (∀ e ∈ [(Instr.rdrsp p, 4), (.wrack p, 5)], first e.2 → answered m x.outstanding = some g → g.h0 % 16 ≠ 8 → g.from_ ≠ q →
        s.linkUp die g.from_ = true → Leads e.1 s fun s' => gone s' ∧ (s'.port die q).outstanding = x.outstanding.erase g
          ∧ PortHolds s' die g.from_ m ∧ s'.mem = s.mem)
    ∧ (∀ e ∈ [(Instr.rd p, 1), (.wr p, 2), (.wrp p, 3), (.zwr p, 7), (.rd2 p, 8)], first e.2 → ¬ here →
        s.wayOut die q (s.dieOf die m.addr) = some r → r ≠ q → Leads e.1 s fun s' =>
          let forms := linkForms (s.reg (aFdl die r 0x18)) m
          gone s' ∧ (∀ f ∈ forms, PortHolds s' die r f) ∧ s'.mem = s.mem
            ∧ (s'.port die r).outstanding = (s.port die r).outstanding ++ forms.map fun f => ⟨f.h0, f.h1, q⟩)

/-- R175, R210, R364 to R366: kills, records and dies that leave or return. A kill that reaches a Meadow frees there every slot of
the commands it names, and is marked as having reached it; the Meadow's drain report takes it off the kills it holds up. The oldest
record of a Meadow enters the completion FIFO where it has room, and waits where it has none. A Meadow behind a DOWN port of the
Vale is marked absent with its stack, none of its slots is busy any longer, and FENCE goes to its ring neighbours; a Heath likewise.
When no job runs, REJOIN is sent for a Meadow all of whose links are up, and once they are ACTIVE it is present again, with its
event. -/
def Obligations.KillsAndDepartures : Prop :=
  ∀ (s : State) (d : Fin 4) (h : Fin 2) (rec_ : FifoRec) (k : KillRec),
    s.frozen = false → (∀ j ∈ s.sched.jobs, j.ringSet < 4) →
    (s.sched.kills = [k] → k.dies.contains d.val = true → k.reached.contains d.val = false → Leads (.kill d) s fun s' =>
        (∀ n, slotDie n = d.val → (s.slot n).busy = true → (s.slot n).cmd ∈ k.cmds → s'.slot n = slotFree)
          ∧ (∀ n, slotDie n ≠ d.val → s'.slot n = s.slot n)
          ∧ s'.sched.kills = [{ k with reached := k.reached ++ [d.val] }] ∧ s'.mem = s.mem)
    ∧ (s.schRunning = true → s.sched.kills = [k] → k.reached.contains d.val = true → (∃ e ∈ k.dies, e ≠ d.val) →
        Leads (.drained d) s fun s' => s'.sched = { s.sched with
          kills := [{ k with dies := k.dies.erase d.val, reached := k.reached.erase d.val }] }
          ∧ s' = { s with sched := s'.sched, regs := s'.regs })
    ∧ (s.sched.outbox.find? (fun r => decide (r.die = d.val)) = some rec_ →
        (s.sched.fifo.length < 1024 → Leads (.record d) s fun s' => s' = { s with sched := { s.sched with
          outbox := s.sched.outbox.erase rec_, fifo := s.sched.fifo ++ [rec_] } })
        ∧ (1024 ≤ s.sched.fifo.length → exec (.record d) s = .next s))
    ∧ (s.schRunning = true → (s.linkState 4 d = 6 ∨ s.linkState 4 d = 7) → s.meadowUp d = true →
        Leads (.dieMarkAbsent ⟨d.val, by omega⟩) s fun s' => s'.meadowUp d = false ∧ s'.stackUp d = false
          ∧ (∀ n, slotDie n = d.val → (s'.slot n).busy = false)
          ∧ ∀ n ∈ [(ringNeighbours d).1, (ringNeighbours d).2], s.linkState 4 n ≠ 0 → s.linkState 4 n < 6 →
            fencePayload d ∈ (s'.port 4 n).sideband)
    ∧ (s.schRunning = true → (s.linkState 4 (4 + h) = 6 ∨ s.linkState 4 (4 + h) = 7) → bit (s.reg (aVal 0x20)) (5 + h) = true →
        Leads (.dieMarkAbsent ⟨5 + h.val, by omega⟩) s fun s' => bit (s'.reg (aVal 0x20)) (5 + h) = false
          ∧ (∀ r ∈ s'.prairie.records, r.heath ≠ h.val)
          ∧ ((∀ r ∈ s.prairie.records, r.heath ≠ h.val) → s'.reported 4 "DIE_DEPARTED" (5 + h.val) (36 + h.val)))
    ∧ (s.schRunning = true → s.meadowUp d = false → s.curJob = none →
        (linksUp d s.linkUp = true → linksUp d (fun e q => decide (s.linkState e q = 4)) = false → Leads (.dieRejoin d) s fun s' =>
          s'.meadowUp d = false
          ∧ ∀ o ∈ [d.val, (ringNeighbours d).1, (ringNeighbours d).2, 5, 6], s'.sideSent o ((portTo o 4).getD 0) (rejoinPayload d) = true)
        ∧ (linksUp d (fun e q => decide (s.linkState e q = 4)) = true → Leads (.dieRejoin d) s fun s' =>
          s'.meadowUp d = true ∧ s'.stackUp d = s.dramReady d ∧ s'.reported 4 "DIE_REJOINED" d (32 + d.val)))

/-! ## Flow regulation, power, cooling and ageing -/

/-- R375, R379 to R382, R386, R387: the flow regulator. At a new window of 10 µs the usage of every class of the die's points is 0
and the budgets written so far are in force. A real-time master's level rises as soon as its slack is at or below a threshold, and a
fall is to a lower level; a planner's output stage has level 2 while it hands a plan off; FLR_URG.OWN shows the highest level of the
die. Budgets are written by the security core and the scheduler core, but a class 7 budget above its limit is discarded, as is a
write of FLR_IQM_URG whose T2 is not below T1. -/
def Obligations.FlowRegulation : Prop :=
  ∀ (s : State) (die : Fin 5) (q : Fin 5) (c : Fin 8) (init : Init) (value : Word32) (slack : Nat) (any : Fin 7),
    let w : Nat := value.toNat % 2 ^ 20
    let own := init.toNat = initSec ∨ init.toNat = initSch
    s.frozen = false →
    (s.reg (aFlr die 0) < s.now / 10000 → s.now / 10000 < 2 ^ 64 → Leads (.flrWindowStart die) s fun s' =>
        s'.reg (aFlr die 0) = s.now / 10000 ∧ s'.mem = s.mem
          ∧ ∀ (q c : Nat), pointExists die q = true → c < 8 → s'.reg (aPoint die q (0x20 + 4 * c)) = 0
            ∧ s'.budget die q c = s.fld (aPoint die q (4 * c)) 19 0 ∧ s'.reg (aPoint die q (4 * c)) = s.reg (aPoint die q (4 * c)))
    ∧ (s.now / 10000 ≤ s.reg (aFlr die 0) → exec (.flrWindowStart die) s = .next s)
    ∧ (let t1 := s.fld (aFlr 4 0x18) 15 0
       let t2 := s.fld (aFlr 4 0x18) 31 16
       let level := if slack ≤ t2 then 2 else if slack ≤ t1 then 1 else 0
       (s.urgency 4 0 < level → Leads (.urgencyRise 4 0 slack) s fun s' => s'.urgency 4 0 = level
          ∧ s'.fld (aFlr 4 0x1C) 1 0 = (max (max level (s.urgency 4 1)) (s.urgency 4 2)) % 4)
       ∧ (level < s.urgency 4 0 → Leads (.urgencyFall 4 0 slack) s fun s' => s'.urgency 4 0 = level))
    ∧ (any.val < 4 → s.handingOff any = true → s.urgency any 1 < 2 → Leads (.urgencyRise any 1 slack) s fun s' => s'.urgency any 1 = 2)
    ∧ (any.val < 4 → s.handingOff any = false → 0 < s.urgency any 1 → Leads (.urgencyFall any 1 slack) s fun s' => s'.urgency any 1 = 0)
    ∧ (own → pointExists die q = true → (c.val = 7 → w ≤ s.class7Limit die q) → Leads (.flrBudgetWrite init die q c value) s fun s' =>
        s'.reg (aPoint die q (4 * c)) = w ∧ s'.budget die q c = s.budget die q c ∧ s.onlyRegs s' [aPoint die q (4 * c)])
    ∧ ((¬ own ∨ (c.val = 7 ∧ s.class7Limit die q < w)) → exec (.flrBudgetWrite init die q c value) s = .next s)
    ∧ (own → value.toNat / 2 ^ 16 < value.toNat % 2 ^ 16 → Leads (.flrIqmUrgWrite init value) s fun s' =>
        s'.reg (aFlr 4 0x18) = value.toNat ∧ s.onlyRegs s' [aFlr 4 0x18])
    ∧ ((¬ own ∨ value.toNat % 2 ^ 16 ≤ value.toNat / 2 ^ 16) → exec (.flrIqmUrgWrite init value) s = .next s)

/-- R540 to R544, R547 to R549: power and temperature. A power measurement is shown in its registers, and a first one sets the
backstop exactly when it exceeds SHORT, or CONT, in its mean. The budget cycle has a budget for every present Meadow on its way; a
Meadow takes its budget from its Vale port and the Vale takes its report. The die power controller runs the slowest point that any
cap asks for, at that point's set-point raised by 5 mV for each ageing step, also where a budget comes in the cycle of an
evaluation. A Meadow below 105 °C with no cap only shows its temperature; at 118 °C a Meadow trips into reset, until it has cooled
to 100 °C, and a Heath stops. A reading before its period has passed is not taken. An inlet above 65 °C is reported once. -/
def PowerAndCooling : Prop :=
  ∀ (s : State) (mv mi av ai : BitVec 16) (p : PortId) (d : Fin 4) (mw : BitVec 20) (temps : List Byte) (h : Fin 2) (inlet outlet : Byte) (b : Nat × Nat),
    let x := s.diePw d
    let total := (mv.toNat * mi.toNat + av.toNat * ai.toNat) / 10
    let short := 100 * s.fld (aPwr 0x10) 31 16
    let cont := 100 * s.fld (aPwr 0x10) 15 0
    let runsSlowest := fun s' : State => ∃ pt, (pt = 0 ∨ pt ∈ s'.caps d) ∧ (∀ c ∈ s'.caps d, c ≤ pt)
      ∧ s'.fld (aMdw d 0x10) 1 0 = pt % 4 ∧ s'.reg (aPwrDie d 0x10) = pointMv pt + 5 * s.fld (aMdw d 0x40) 3 0
    s.frozen = false →
    (s.boot.phase ≠ 0 → s.power.samples = [] → Leads (.powerMeasure mv mi av ai) s fun s' =>
        s'.reg (aPwr 0x04) = mv.toNat + mi.toNat * 2 ^ 16 ∧ s'.reg (aPwr 0x08) = av.toNat + ai.toNat * 2 ^ 16
          ∧ s'.power.samples = [(s.now, total)]
          ∧ (s'.fld (aPwr 0) 2 2 = 1 ↔ short < total ∨ cont < total ∨ (s.fld (aPwr 0) 2 2 = 1 ∧ cont ≤ total + 30000)))
    ∧ (s.fld (aPwr 0) 4 3 = 1 → s.now % 1000000 = 0 → s.power.budgetAt ≠ some s.now → Leads .pwrBudgetCycle s fun s' => s'.regs = s.regs ∧ s'.mem = s.mem
          ∧ ∀ d < 4, (s.meadowUp d = true → ∃ b, lookup s'.power.sent d = some b ∧ b.1 < 2 ^ 20 ∧ b.2 < 8)
            ∧ (s.meadowUp d = false → lookup s'.power.sent d = lookup s.power.sent d))
    ∧ (p.die = ⟨d.val, by omega⟩ → p.port = 2 → lookup s.power.sent d = some b → b.1 + b.2 * 2 ^ 20 < 2 ^ 64 → Leads (.pwrBudget p) s fun s' =>
        s'.reg (aPwrDie d 0) = b.1 + b.2 * 2 ^ 20 ∧ (s'.diePw d).budgeted = true ∧ lookup s'.power.sent d = none
          ∧ (x.samples.head?.map (·.1) ≠ some s.now → s.onlyRegs { s' with power := s.power, diePower := s.diePower } [aPwrDie d 0])
          ∧ (x.samples.head?.map (·.1) = some s.now → runsSlowest s'))
    ∧ (p.die = 4 → p.port.val = d.val → (s.dieSt d).out = true → Leads (.pwrReport p) s fun s' =>
        lookup s'.power.reports d = some (s.fld (aPwrDie d 0x04) 19 0, s.fld (aMdw d 0x10) 1 0) ∧ s' = { s with power := s'.power })
    ∧ ((s.dieSt d).out = true → x.samples = [] → Leads (.oppEvaluate d mw) s fun s' => runsSlowest s'
          ∧ s'.reg (aPwrDie d 0x04) = mw.toNat ∧ s'.mem = s.mem)
    ∧ (temps.length = 16 → (s.dieSt d).out = true → x.tripped = false → periodOver x.readAt 10000 s.clock = true →
        ((∀ t ∈ temps, t.toInt < 105) → x.hot105 = false → x.hot110 = false → Leads (.thermalRead ⟨d.val, by omega⟩ temps) s fun s' =>
          s'.diePw d = { x with readAt := some s.clock, cool105 := none, cool110 := none }
          ∧ s.onlyRegs { s' with diePower := s.diePower } [aPwrDie d 0x08])
        ∧ ((∃ t ∈ temps, 118 ≤ t.toInt) → Leads (.thermalRead ⟨d.val, by omega⟩ temps) s fun s' =>
          (s'.diePw d).tripped = true ∧ (s'.dieSt d).out = false))
    ∧ (temps.length = 16 → x.tripped = true → periodOver x.readAt 10000 s.clock = true → (∀ t ∈ temps, t.toInt ≤ 100) →
        Leads (.thermalRead ⟨d.val, by omega⟩ temps) s fun s' => (s'.diePw d).tripped = false ∧ s.onlyRegs { s' with diePower := s.diePower } [aPwrDie d 0x08])
    ∧ (temps.length = 4 → (s.dieSt (5 + h)).out = true → (s.diePw (5 + h)).tripped = false →
        periodOver (s.diePw (5 + h)).readAt 10000 s.clock = true → (∃ t ∈ temps, 118 ≤ t.toInt) →
        Leads (.thermalRead ⟨5 + h.val, by omega⟩ temps) s fun s' => (s'.diePw (5 + h)).tripped = true ∧ (s'.heath h).up = false)
    ∧ (s.boot.phase ≠ 0 → periodOver s.power.coolantAt 10000000 s.now = true → Leads (.coolantRead inlet outlet) s fun s' => s'.reg (aPwr 0x14) = inlet.toNat + outlet.toNat * 2 ^ 8
          ∧ (65 < inlet.toInt → s'.power.coolantBad = true)
          ∧ (65 < inlet.toInt → s.power.coolantBad = false → s'.reported 4 "PWR_COOLANT" inlet.toNat outlet.toNat))

/-- R464, R465: ageing. A measurement keeps the least slack of the die's monitors with the lowest monitor that read it; after 3,600
of them a mean below 25 ps raises the supply by one step, with its event and a note for the fault record, where the die holds fewer
than 12 steps and took none in the last 24 powered hours; a higher mean takes none. -/
def Ageing : Prop :=
  ∀ (s : State) (die : Fin 7) (slacks : List (BitVec 16)),
    let d := die.val
    let x := s.diePw d
    let sum := (x.slacks.map (·.1)).sum
    s.frozen = false → (s.dieSt d).out = true →
    (slacks.length = monitors d → (x.measuredAt = 0 ∨ x.measuredAt + 1000000000 ≤ s.clock) → Leads (.ageingMeasure die slacks) s fun s' =>
        ∃ i v, slacks[i]? = some v ∧ (∀ w ∈ slacks, v.toNat ≤ w.toNat) ∧ s'.diePw d = { x with
          slacks := ((v.toNat, i) :: x.slacks).take 3600, measuredAt := s.clock } ∧ s' = { s with diePower := s'.diePower })
    ∧ (3600 ≤ x.slacks.length → sum < 3600 * 25 → x.steps < 12 → x.stepAt = none → Leads (.ageingHourEval die) s fun s' =>
        (s'.diePw d).steps = x.steps + 1 ∧ (s'.diePw d).slacks = [] ∧ (s'.diePw d).stepAt = some s.clock
          ∧ (d ≤ 4 → s'.reported d "AGE_STEP" (x.steps + 1) 0)
          ∧ ∀ h < 2, ⟨7, d, 0, 0, x.steps + 1, s.now⟩ ∈ (s'.frecCopy h).todo)
    ∧ (3600 ≤ x.slacks.length → 3600 * 25 ≤ sum → Leads (.ageingHourEval die) s fun s' => s'.diePw d = { x with slacks := [] }
          ∧ s.onlyRegs { s' with diePower := s.diePower } [aMdw d 0x44])

/-- R464, R465, R540 to R544, R547 to R549: power, temperature and ageing. -/
def Obligations.PowerCoolingAndAgeing : Prop := PowerAndCooling ∧ Ageing


/-! ## Modes, rings, contexts -/

/-- R33, R39 to R42, R44: a mode request. A write of VAL_MODE_REQ by an admitted initiator latches TARGET with GO, or, while a
request is latched or pending, is refused with 0x02; another initiator's changes nothing. The scheduler core accepts a request that
nothing speaks against: PENDING and NEXT show it; it refuses any other with a reason that applies, in REFUSAL and with
EVT_MODE_REFUSED. A reserved TARGET is refused with 0x06, and a transition outside the table with 0x01. An accepted change takes
effect with no job running, with its event; after 50 ms a running job without commands in flight is suspended for it. A host that is
ATTACHED and has not trained 1 s after LOADED is reported once. -/
def Obligations.ModeRequests : Prop :=
  ∀ (s : State) (init : Init) (value : Word32) (j : Job),
    let v := value.toNat
    let go := fun s : State => bit (s.reg (aVal 0x14)) 31
    let pending := fun s : State => bit (s.reg (aVal 0x10)) 3
    let refusal := fun s : State => s.fld (aVal 0x10) 23 16
    let target := s.fld (aVal 0x14) 2 0
    s.frozen = false →
    (modeWriter init.toNat = true → go s = false → pending s = false → bit v 31 = true → Leads (.modeRequest init value) s fun s' =>
        go s' = true ∧ s'.fld (aVal 0x14) 2 0 = v % 8 ∧ s'.sched.modeInit = init.toNat
          ∧ s.onlyRegs { s' with sched := s.sched } [aVal 0x14])
    ∧ (modeWriter init.toNat = true → (go s = true ∨ pending s = true) → Leads (.modeRequest init value) s fun s' =>
        refusal s' = 2 ∧ s'.reported 4 "MODE_REFUSED" 0 0 ∧ s'.reg (aVal 0x14) = s.reg (aVal 0x14) ∧ s'.mode = s.mode)
    ∧ (modeWriter init.toNat = false → exec (.modeRequest init value) s = .next s)
    ∧ (s.schRunning = true → go s = true →
        (s.modeReasons = [] → Leads .modeRequestDecide s fun s' => go s' = false ∧ pending s' = true ∧ s'.fld (aVal 0x10) 6 4 = target
          ∧ refusal s' = 0 ∧ s'.mode = s.mode ∧ s'.sched.modeAccepted = s.now)
        ∧ (s.modeReasons ≠ [] → 0 ∉ s.modeReasons → Leads .modeRequestDecide s fun s' => ∃ r ∈ s.modeReasons, go s' = false ∧ refusal s' = r % 256
          ∧ pending s' = pending s ∧ s'.mode = s.mode ∧ s'.reported 4 "MODE_REFUSED" (r / 2 ^ 8 % 256) (r / 2 ^ 16 % 256)))
    ∧ ((target = 0 ∨ 4 < target) → s.modeReasons = [6])
    ∧ (1 ≤ target → target ≤ 4 → (s.mode, target) ∉ [(2, 1), (1, 2), (2, 3), (3, 2), (2, 4), (3, 4)] → s.modeReasons = [1])
    ∧ (s.schRunning = true → pending s = true → s.curJob = none → s.handsOver = false → Leads .modeChangeApply s fun s' =>
        s'.mode = s.fld (aVal 0x10) 6 4 ∧ pending s' = false ∧ s'.fld (aVal 0x10) 9 8 = s.effSafety (s.fld (aVal 0x10) 6 4)
          ∧ s'.reported 4 "MODE_CHANGED" 0 0)
    ∧ (s.schRunning = true → pending s = true → s.sched.modeAccepted + 50000000 ≤ s.now → s.curJob = some j → j.phase = .running →
        s.inFlight = [] → s.sched.kills = [] → s.commitsWait = false → Leads .modeChangePreempt s fun s' =>
        ∃ k ∈ s'.sched.jobs, k.serial = j.serial ∧ k.phase = .suspended)
    ∧ (s.now < s.sched.modeAccepted + 50000000 → exec .modeChangePreempt s = .next s)
    ∧ (bit (s.reg (aVal 0x18)) 7 = true → bit (s.reg (aVal 0x18)) 3 = true → s.fld (aVal 0x200) 0 0 = 0 →
        s.boot.loadedAt + 1000000000 < s.now → s.host.missed = false → Leads .hostMissingTimeout s fun s' =>
        s'.host.missed = true ∧ s'.reported 4 "HOST_MISSING" 0 0)

/-- R204 to R207, R218 to R220: ring sets. The owner's doorbell below 2^LOG moves the tail, one at or above it sets ERROR with its
event. Enabling a set with legal rings sets EN and starts its indices at 0; a LOG below 4 is an error. Disabling a set without a
job, and with no entry of its jobs waiting, clears EN at once; with a job it drains. A waiting completion entry leaves the queue and
the completion tail moves on once the ring has room. A write by another initiator changes nothing. -/
def Obligations.RingSets : Prop :=
  ∀ (s : State) (init : Init) (set : Fin 4) (value : Word32) (e : Nat × Nat × List Nat × Option CmdRef),
    let v := value.toNat
    let ctl := aRing set 0x18
    let own := init.toNat = ringOwner set
    s.frozen = false →
    (own → v % 2 ^ 15 < 2 ^ s.ringLog set 0 → Leads (.sqTailDoorbell init set value) s fun s' =>
        s'.reg (aRing set 0x20) = v % 2 ^ 15 ∧ s.onlyRegs s' [aRing set 0x20])
    ∧ (own → 2 ^ s.ringLog set 0 ≤ v % 2 ^ 15 → Leads (.sqTailDoorbell init set value) s fun s' =>
        s'.fld ctl 31 31 = 1 ∧ s'.reg (aRing set 0x20) = s.reg (aRing set 0x20) ∧ s'.reported 4 "RING_ERROR" set 0)
    ∧ (own → v % 2 = 1 → bit (s.reg ctl) 13 = false → s.ringEn set = false →
        (4 ≤ v / 2 % 16 → 4 ≤ v / 2 ^ 5 % 16 → 4 ≤ v / 2 ^ 9 % 16 → s.ringBaseOk set 0 (v / 2 % 16) = true →
          s.ringBaseOk set 8 (v / 2 ^ 5 % 16) = true → s.ringBaseOk set 0x10 (v / 2 ^ 9 % 16) = true →
          Leads (.ringEnable init set value) s fun s' => s'.ringEn set = true ∧ (∀ r < 3, s'.ringLog set r = v / 2 ^ (4 * r + 1) % 16)
            ∧ (∀ o ∈ [0x20, 0x24, 0x28, 0x2C, 0x30, 0x34], s'.reg (aRing set o) = 0) ∧ s'.mem = s.mem
            ∧ ∀ r ∈ [1, 2], readAt (fun _ => 0) s'.sched.ringSeq (ringKey set r) = 0)
        ∧ (v / 2 % 16 < 4 → Leads (.ringEnable init set value) s fun s' => s'.ringEn set = false ∧ s'.fld ctl 31 31 = 1
            ∧ s'.reported 4 "RING_ERROR" set 0))
    ∧ (own → v % 2 = 0 → s.ringEn set = true → (∀ w ∈ s.sched.cqWait, w.1 = set.val → w.2.1 = 3) →
        ((∀ j ∈ s.sched.jobs, j.ringSet ≠ set.val) → Leads (.ringDisable init set value) s fun s' => s'.ringEn set = false
          ∧ bit (s'.reg ctl) 13 = false ∧ s.onlyRegs s' [ctl])
        ∧ ((∃ j ∈ s.sched.jobs, j.ringSet = set.val) → Leads (.ringDisable init set value) s fun s' => s'.ringEn set = true
          ∧ bit (s'.reg ctl) 13 = true ∧ s.onlyRegs s' [ctl]))
    ∧ (¬ own → exec (.sqTailDoorbell init set value) s = .next s ∧ exec (.ringEnable init set value) s = .next s
        ∧ exec (.ringDisable init set value) s = .next s)
    ∧ (s.sched.cqWait.find? (fun w => decide (w.1 = set.val)) = some e → s.schRunning = true → s.ringEn set = true →
        ringFull (s.reg (aRing set 0x2C)) (s.reg (aRing set 0x28)) (s.ringLog set 1) = false → Leads (.completionEntryWrite set) s fun s' =>
          s'.sched.cqWait = s.sched.cqWait.erase e ∧ s'.reg (aRing set 0x28) = (s.reg (aRing set 0x28) + 1) % 2 ^ s.ringLog set 1)

/-- R203, R205, R208: it is the set's turn with the entry `w` of operation `op`, whose general checks it meets. -/
def TakesOp (s : State) (set op : Nat) (w : List Nat) : Prop :=
  s.frozen = false ∧ s.schRunning = true ∧ s.sqTurn = some set ∧ w = s.sqEntry set ∧ sqOp w = op ∧ sqFails w = []

/-- The head of a set's submission ring has moved on by one entry. -/
def HeadMoved (s s' : State) (set : Nat) : Prop := s'.reg (aRing set 0x24) = (s.reg (aRing set 0x24) + 1) % 2 ^ s.ringLog set 0

/-- R195, R197, R203, R208, R574: the operations of submission entries. A JOB entry whose descriptor can be read is queued last with
the copy of its descriptor and moves the ring's head on. CTX_ALLOC gives a FREE context the image's fields, TOKENS 0 and the swapped
state that its readiness gives; CTX_FREE makes a context FREE; CTX_BLOCK and CTX_UNBLOCK change BLOCK alone; CTX_WRITE rewrites the
software fields and keeps TOKENS and the TD fields; CTX_READ copies the descriptor; each is answered with status 0x00. JOB_CANCEL
removes the job. -/
def Obligations.RingOperations : Prop :=
  ∀ (s : State) (set : Fin 4) (w : List Nat) (j : Job),
    let c := sqCtx w
    let img := s.words (sqAddr w) 32
    let old := s.ctx c
    let open_ := fun d : List Nat => s.domainOpen (ctxDomain d) set = true
    let image := sqAddr w % 64 = 0 ∧ s.readStatus whoBetween (sqAddr w) 256 = 0 ∧ imageBad img = false
    (TakesOp s set 1 w → s.readStatus whoBetween (sqAddr w) 64 = 0 → s.curJob = none → Leads (.job set) s fun s' => ∃ n : Job,
        s'.sched.jobs = s.sched.jobs ++ [n] ∧ n.words = s.words (sqAddr w) 8 ∧ n.ringSet = set ∧ n.phase = .queued
          ∧ n.serial = s.sched.serial ∧ s'.sched.serial = s.sched.serial + 1 ∧ HeadMoved s s' set ∧ s'.mem = s.mem)
    ∧ (TakesOp s set 2 w → image → ctxState old = 0 → open_ img → s.walkStatus (ctxRoot img) (ctxLayers img) = 0 →
        Leads (.ctxAlloc set) s fun s' => ∃ d : List Nat,
          ctxState d = (if s.ctxReady d then 3 else 4) ∧ ctxRoot d = ctxRoot img ∧ ctxLayers d = ctxLayers img ∧ ctxTokens d = 0
            ∧ ctxDomain d = ctxDomain img ∧ d.drop 8 = img.drop 8
            ∧ s' = (((s.sqTake set).tableAcquire (ctxRoot img) (ctxLayers img)).setCtx c d).sqAnswer set w 0)
    ∧ (TakesOp s set 3 w → open_ old → ctxState old ≠ 0 → s.ctxInUse c = false → c ∉ s.sched.swaps → Leads (.ctxFree set) s fun s' =>
        ∃ d : List Nat, ctxState d = 0 ∧ word d 4 = 0 ∧ word d 5 = 0 ∧ (∀ i, i ≠ 0 → i ≠ 4 → i ≠ 5 → word d i = word old i)
          ∧ ∃ u : State, (∀ x, lookup u.sched.ctxTable x = if x = c then none else lookup s.sched.ctxTable x)
            ∧ s' = (u.ctxStore c d).sqAnswer set w 0)
    ∧ (∀ e ∈ [(Instr.ctxBlock set, 4, 1), (.ctxUnblock set, 5, 0)], TakesOp s set e.2.1 w → open_ old → ctxState old ≠ 0 → ctxState old ≠ 5 →
        Leads e.1 s fun s' => ∃ d : List Nat, bits (word d 0) 5 5 = e.2.2 ∧ (∀ b, b ≠ 5 → bit (word d 0) b = bit (word old 0) b)
          ∧ (∀ i, i ≠ 0 → word d i = word old i) ∧ s' = ((s.sqTake set).setCtx c d).sqAnswer set w 0)
    ∧ (TakesOp s set 6 w → image → open_ old → open_ img → s.ctxInUse c = false → ctxState old ≠ 0 → ctxState old ≠ 5 → old.length = 32 →
        ctxRoot img = ctxRoot old → Leads (.ctxWrite set) s fun s' => ∃ d : List Nat,
          ctxState d = ctxState old ∧ ctxTokens d = ctxTokens old ∧ ctxRoot d = ctxRoot img ∧ ctxLayers d = ctxLayers img
            ∧ bits (word d 0) 63 48 = bits (word img 0) 63 48 ∧ (∀ i ∈ [3, 4, 5], word d i = word old i) ∧ d.drop 8 = img.drop 8
            ∧ s' = ((s.sqTake set).setCtx c d).sqAnswer set w 0)
    ∧ (TakesOp s set 7 w → open_ old → s.access whoBetween true (sqAddr w) 256 = 0 → Leads (.ctxRead set) s fun s' =>
        s' = ((s.sqTake set).store (sqAddr w) (wordBytes old)).sqAnswer set w 0)
    ∧ (TakesOp s set 8 w → s.cancelTarget set w = some j → j.phase = .queued → j.started = false → Leads (.jobCancel set) s fun s' =>
        s'.sched.jobs = s.sched.jobs.filter (fun x => decide (x.serial ≠ j.serial)) ∧ HeadMoved s s' set)

/-- R196, R199, R201: a context's STATE follows its readiness; a swap-in that was started completes with the context resident, READY
or BLOCKED, and its swap at an end; with room in the table the SWAPPED_READY context with the oldest LAST_USED begins to be swapped
in. -/
def ContextResidency : Prop :=
  ∀ (s : State) (c : Fin 4096) (w : List Nat), s.frozen = false → s.schRunning = true →
    (s.resident c = true → w = s.ctx c → c.val ∉ s.sched.swaps → (ctxState w = 1 ∨ ctxState w = 2) → w.length = 32 → Leads (.contextReadiness c) s fun s' =>
        ctxState (s'.ctx c) = (if s.ctxReady w then 1 else 2) ∧ (∀ i, i ≠ 0 → word (s'.ctx c) i = word w i)
          ∧ ∀ x, x ≠ c.val → lookup s'.sched.ctxTable x = lookup s.sched.ctxTable x)
    ∧ (c.val ∈ s.sched.swaps → s.resident c = false → s.ctxCopyStatus 0 c = 0 → Leads (.swapInComplete c) s fun s' =>
        s'.sched.swaps = s.sched.swaps.erase c.val ∧ s'.resident c = true
          ∧ ctxState (s'.ctx c) = (if s.ctxReady (s.ctx c) then 1 else 2) ∧ ctxLastUsed (s'.ctx c) = s.now % 2 ^ 64
          ∧ ∀ x, x ≠ c.val → lookup s'.sched.ctxTable x = lookup s.sched.ctxTable x)
    ∧ (s.ctxRoom = true → s.demandWaits = false → s.sched.swaps.length < 8 → c.val ∉ s.sched.swaps → ctxState (s.ctx c) = 3 →
        (∀ x < 4096, x ≠ c.val → x ∉ s.sched.swaps → ctxState (s.ctx x) = 3 → ctxLastUsed (s.ctx c) < ctxLastUsed (s.ctx x)) →
        Leads .autonomousSwap s fun s' => s' = { s with sched := { s.sched with swaps := s.sched.swaps ++ [c.val] } })

/-! ## Jobs and commands -/

/-- The command `r` of the job `j` has come to `P`, or its job has ended too. -/
def CameTo (s' : State) (j : Job) (r : CmdRef) (P : Cmd → Prop) : Prop :=
  (∃ k ∈ s'.sched.jobs, k.serial = j.serial ∧ P (k.cmdAt r)) ∨ ∀ k ∈ s'.sched.jobs, k.serial ≠ j.serial

/-- The model's number of a job names it alone. -/
def NamedAlone (s : State) (j : Job) : Prop := ∀ k ∈ s.sched.jobs, k.serial = j.serial → k = j

/-- The rows that start a command, with the KIND and the operation of the descriptors that each starts (R155). -/
def StartRows (list : Fin 2) (idx : BitVec 16) : List (Instr × Nat × Option Nat) :=
  [(.threads list idx, 0, none), (.glenForward list idx, 1, some 0), (.glenBackward list idx, 1, some 1),
   (.glenCombine list idx, 1, some 2), (.prairieWavefront list idx, 2, some 0), (.prairieCheck list idx, 2, some 1),
   (.prairiePublish list idx, 2, some 2), (.collectiveReshard list idx, 3, some 0), (.collectiveAllReduce list idx, 3, some 1),
   (.collectiveAllGather list idx, 3, some 2), (.collectiveReduceScatter list idx, 3, some 3), (.checkpointSnapshot list idx, 4, some 0),
   (.checkpointRestore list idx, 4, some 1), (.golden list idx, 5, none), (.cropResize list idx, 6, some 0), (.zb64Pack list idx, 6, some 1),
   (.zb64Unpack list idx, 6, some 2)]

/-- R155, R158 to R160, R170: the start of a command, one form for each kind and operation. A command of the window whose
dependencies are over, whose turn it is, whose checks pass and whose conditions and waits are over starts: it runs, with its
descriptor's words, a run more than before, its start time, its contexts and the shares and engines of the row's kind. One whose
checks fail ends failed, once its conditions hold, with a status of the checks that fail, and the job with it where it was the last.
One that is not in the window, has not its turn, or waits for its conditions does not start. -/
def CommandStarts : Prop :=
  ∀ (s : State) (list : Fin 2) (idx : BitVec 16) (j : Job) (e : StartEnv) (st : Nat), let r : CmdRef := ⟨list, idx.toNat⟩
    let w := s.words (j.cmdAddr r) 16
    let ok := decide (s.readStatus (whoSch r) (j.cmdAddr r) 128 = 0)
    s.frozen = false → s.schRunning = true → s.curJob = some j → j.phase = .running →
    ∀ x ∈ StartRows list idx, rowFits ok w x.2.1 x.2.2 = true →
      (s.inWindow j r = true → s.isTurn j r = true →
        (s.findStart j r = .passes e → s.startOpen e = true → s.kvRoom (s.startFrames e) = true →
          (∀ c ∈ e.ctxs, s.resident c = true ∧ ctxState (s.ctx c) ≠ 5) →
          s.noRoom e = none → Leads x.1 s fun s' => ∃ c, s'.cmd r = some c ∧ c.phase = .running ∧ c.words = w
            ∧ c.runs = (j.cmdAt r).runs + 1 ∧ c.serial = s.sched.runSerial ∧ c.tStart = max s.now 1 ∧ c.ctxs = e.ctxs ∧ c.mapId = e.map.id ∧ c.shares = s.startShares e
            ∧ c.engines = s.startEngines e)
        ∧ (s.findStart j r = .fails st e → s.conditions e = true → Leads x.1 s fun s' =>
          CameTo s' j r fun c => c.phase = .failed ∧ c.endStatus = st)
        ∧ (((s.findStart j r = .passes e ∧ s.startOpen e = false) ∨ (s.findStart j r = .fails st e ∧ s.conditions e = false)) →
          exec x.1 s = .next s))
      ∧ ((s.inWindow j r = false ∨ s.isTurn j r = false) → exec x.1 s = .next s)

/-- R154, R155, R162, R165, R166, R168, R175, R210, R254, R310: how runs of commands end. A time limit that has passed leaves a
record in the completion FIFO once, and none before. The scheduler core takes the FIFO's oldest record: the end of a share or of an
engine's part is recorded for its command; a fault ends its command, at once where no die holds work of it, else after a kill; a
record of an earlier run decides nothing; a job's limit ends the job. An engine whose part comes to its end has it marked and sends
its record. At the commit point a command whose effects fit its commit log is committed; stale pages, a plan without a current
candidate and a commit log too short fail it. -/
def Obligations.CommandEnds : Prop :=
  ∀ (s u : State) (list : Fin 2) (idx : BitVec 16) (j : Job) (c cu : Cmd) (t : List FifoRec) (die : Fin 4) (lea : Fin 16) (x : EnginePart)
    (pe : PartEnd) (d l n st : Nat), let r : CmdRef := ⟨list, idx.toNat⟩
    let lim := wTimeLimit c.words
    let jlim := bits (word j.words 4) 31 0
    let expired : FifoRec := .fault 4 0 0x1F r c.serial 7
    s.frozen = false → s.curJob = some j → j.phase = .running → NamedAlone s j →
    (j.started = true → jlim ≠ 0xFFFFFFFF → j.tStart + 1000 * jlim < s.now → s.recordsFull = false → .jobLimit j.serial ∉ s.sched.fifo →
        Leads (.jobTimeout j.serial) s fun s' => s' = { s with sched := { s.sched with fifo := s.sched.fifo ++ [.jobLimit j.serial] } })
    ∧ ((jlim = 0xFFFFFFFF ∨ s.now ≤ j.tStart + 1000 * jlim) → exec (.jobTimeout j.serial) s = .next s)
    ∧ (s.schRunning = true → s.sched.cqWait = [] → s.sched.fifo = .jobLimit j.serial :: t → (∀ x ∈ s.inFlight, s.workDies x = []) →
        s.sched.kills = [] → s.commitsWait = false →
        Leads .completionFifoRecord s fun s' => ∀ k ∈ s'.sched.jobs, k.serial ≠ j.serial)
    ∧ (s.cmd r = some c → c.phase = .running →
    (lim ≠ 0xFFFFFFFF → c.tStart + 1000 * lim < s.now → s.recordsFull = false → expired ∉ s.sched.fifo →
      Leads (.commandTimeout list idx) s fun s' => s' = { s with sched := { s.sched with fifo := s.sched.fifo ++ [expired] } })
    ∧ ((lim = 0xFFFFFFFF ∨ s.now ≤ c.tStart + 1000 * lim) → exec (.commandTimeout list idx) s = .next s)
    ∧ (s.schRunning = true → s.sched.cqWait = [] → c.due = false →
        (s.sched.fifo = .shareEnd d r c.serial n :: t → Leads .completionFifoRecord s fun s' => s'.sched.fifo = t ∧ s'.mem = s.mem ∧ s'.regs = s.regs
            ∧ s'.cmd r = some { c with shares := c.shares.map fun h => if h.ltile = n ∧ h.state = 2 then { h with state := 3 } else h })
        ∧ (s.sched.fifo = .engineEnd d l r c.serial :: t → Leads .completionFifoRecord s fun s' => s'.sched.fifo = t ∧ s'.mem = s.mem ∧ s'.regs = s.regs
            ∧ s'.cmd r = some { c with engines := c.engines.map fun e => if e.die = d ∧ e.lea = l ∧ e.state = 2 then { e with state := 3 } else e })
        ∧ (s.sched.fifo = .fault d l n r c.serial st :: t → st ≠ 1 → c.kind ≠ 5 → Leads .completionFifoRecord s fun s' => s'.sched.fifo = t ∧
            (s.workDies c = [] → CameTo s' j r fun c => c.phase = .failed ∧ c.endStatus = st)
            ∧ (s.workDies c ≠ [] → (∃ c', s'.cmd r = some c' ∧ c'.phase = .killing ∧ c'.faultDie = d % 4 ∧ c'.faultLea = l)
                ∧ ∃ k ∈ s'.sched.kills, k.cmds = [r] ∧ k.status = st ∧ k.dies = (s.workDies c).eraseDups))
        ∧ (s.sched.fifo = .fault d l n r c.serial st :: t → st ≠ 1 → c.kind = 5 → Leads .completionFifoRecord s fun s' => s'.sched.fifo = t ∧
            (CameTo s' j r fun c => (c.phase = .failed ∧ c.endStatus = st) ∨ (c.phase = .killing ∧ c.faultDie = d % 4 ∧ c.faultLea = l))))
    ∧ (s.schRunning = true → s.sched.cqWait = [] → ∀ m, (m ≠ c.serial ∨ c.due = true) → s.sched.fifo = .fault d l n r m st :: t →
            exec .completionFifoRecord s = .next { s with sched := { s.sched with fifo := t } })
    ∧ (c.enginePart die lea = some x → (x.die < 4 → s.meadowUp x.die = true) → s.recordsFull = false → s.stacksTake = true →
        s.enginePart c x.die x.lea = some (u, pe) → (pe = .fault 8 → u.cutOff x.die = false) → u.cmd r = some cu →
        Leads (.engineCompletion list idx die lea .clean) s fun s' => s'.mem = u.mem
          ∧ s'.cmd r = some { cu with engines := cu.engines.map fun y => if y.die = x.die ∧ y.lea = x.lea then { y with state := 2 } else y }
          ∧ (x.die < 4 → ∃ e, s'.sched.outbox = u.sched.outbox ++ [e]))
    ∧ (s.recordsFull = true → exec (.engineCompletion list idx die lea .clean) s = .next s)
    ∧ (s.schRunning = true → s.sched.kills = [] → s.handing j c = false → (∀ h ∈ c.shares, h.state = 3) → (∀ e ∈ c.engines, e.state = 3) →
        (c.kind ∉ [1, 2, 4] → c.logNeed ≤ wLogLen c.words → Leads (.commitPoint list idx) s fun s' => CameTo s' j r fun c => c.phase = .committed)
        ∧ (c.kind ∉ [1, 2, 4] → wLogLen c.words < c.logNeed → Leads (.commitPoint list idx) s fun s' =>
            CameTo s' j r fun c => c.phase = .failed ∧ c.endStatus = 2)
        ∧ (c.kind = 1 → s.glenStale c = true → Leads (.commitPoint list idx) s fun s' =>
            CameTo s' j r fun c => c.phase = .failed ∧ c.endStatus = 0x0B)
        ∧ (c.kind = 2 → praOp c.words = 1 → praHandoff c.words = true → c.ranked ≠ [] → s.handed c = none →
            Leads (.commitPoint list idx) s fun s' => CameTo s' j r fun c => c.phase = .failed ∧ c.endStatus = 0x0A)))

/-- R152, R153, R154, R176, R203: the next job is an admitted one with the highest PRIO. A queued one whose checks pass runs, with
its domain in force and its start time; one whose checks fail, and one without commands, ends. A suspended one with a command that
waits for its re-run runs again. R214 to R217: an idle target of the running DRIVE job is reserved, and the template's golden run
begins there, with its own checks. When all its shares have ended, or its checks have failed it, the reservation ends and the target
is marked tested, and failed where the run failed or the CRC-32C of its output is not REF_CRC; one over SLOT_US is a failure, and
none is ended before. The part of a GOLDEN command ends with its run. -/
def JobsAndGoldenRuns : Prop :=
  ∀ (s : State) (j : Job) (l : LeaId) (c p : Cmd), let b := leaKey l.die l.lea
    let r : CmdRef := ⟨2, b⟩
    let w := s.goldenDesc
    let crc := fun (w : List Nat) => crc32c (s.bytes (poolBase l.die l.lea + 0x3F0000 + bits (word w 9) 15 0) (bits (word w 9) 32 16))
    let ends := fun (c : Cmd) => 1000 * bits (word (((s.goldenPart l).map (·.words)).getD w) 10) 47 32 + c.tStart
    let tested : Prop → State → Prop := fun f s' => (∀ x ∈ s'.sched.reservations, x.1 ≠ b)
      ∧ ((∃ k, s'.curJob = some k ∧ k.serial = j.serial ∧ bit k.goldenTested b = true ∧ (f → bit k.goldenFailed b = true)
          ∧ (¬ f → k.goldenFailed = j.goldenFailed)) ∨ ∀ k ∈ s'.sched.jobs, k.serial ≠ j.serial)
    let resv : State := { s with sched := { s.sched with reservations := (s.sched.reservations.filter fun (x : Nat × Nat) => decide (x.1 ≠ b)) ++ [(b, s.now)] } }
    let st := oneOf (goldenBody w ++ resv.templateFails j b w)
    s.frozen = false → NamedAlone s j →
    (s.nextJob = some j → ∀ k ∈ s.sched.jobs, (k.phase = .queued ∨ k.phase = .suspended) → s.admits k.kind = true → k.prio ≤ j.prio)
    ∧ (s.nextJob = some j → s.jobSlot = true → j.phase = .queued →
        (s.jobFails j = [] → j.cmds = [] → 0 < j.count 0 + j.count 1 → Leads .jobStart s fun s' => ∃ k, s'.curJob = some k
          ∧ k.serial = j.serial ∧ k.words = j.words ∧ k.phase = .running ∧ k.started = true ∧ k.tStart = s.now
          ∧ s'.domain = some (bits (word j.words 4) 43 32))
        ∧ ((oneOf (s.jobFails j) ≠ 0 ∨ (j.cmds = [] ∧ j.count 0 + j.count 1 = 0)) → Leads .jobStart s fun s' => ∀ k ∈ s'.sched.jobs, k.serial ≠ j.serial)
        ∧ (bits (word j.words 4) 31 0 = 0 → 7 ∈ s.jobFails j))
    ∧ (s.nextJob = some j → s.jobSlot = true → j.phase = .suspended →
        (∃ list < 2, ∃ i < j.count list, (j.cmdAt ⟨list, i⟩).phase = .waiting ∧ 0 < (j.cmdAt ⟨list, i⟩).runs) →
        Leads .jobResume s fun s' => ∃ k, s'.curJob = some k ∧ k.serial = j.serial ∧ k.phase = .running ∧ k.words = j.words
          ∧ s'.domain = some (bits (word j.words 4) 43 32))
    ∧ (s.jobSlot = false → exec .jobStart s = .next s ∧ exec .jobResume s = .next s)
    ∧ (s.curJob = some j → s.schRunning = true → j.phase = .running → j.kind = 0 → bit (s.reg (aSch 0x20)) 0 = true → b ∈ s.goldenTargets →
        bit s.sched.goldenDone b = false → s.cmd r = none → (s.lea b).coreUp = true → s.leaIdle l.die l.lea = true →
        Leads (.goldenReserve l) s fun s' => s'.sched.reservations = resv.sched.reservations ∧ s'.mem = s.mem
          ∧ ∃ k, s'.cmd r = some k ∧ (st = 0 → k.phase = .running ∧ k.words = s.template w ∧ k.tStart = max s.now 1)
            ∧ (st ≠ 0 → k.phase = .failed ∧ k.endStatus = st))
    ∧ (s.curJob = some j → s.schRunning = true → s.recordsFull = false → s.cmd r = some c →
        ((c.phase = .running ∧ ∀ h ∈ c.shares, h.state = 3) ∨ (c.phase = .failed ∧ c.endStatus ≠ 0) →
          (s.goldenPart l = none → s.reserved l.die l.lea = true → Leads (.goldenRunEnd l.die l.lea false) s (tested (c.phase = .failed ∨ crc w ≠ bits (word w 10) 31 0)))
          ∧ (s.goldenPart l = some p → Leads (.goldenRunEnd l.die l.lea true) s fun s' => ∃ q, s'.cmd p.ref = some q
              ∧ ∀ e ∈ q.engines, e.die = l.die.val → e.lea = l.lea.val → e.state = 2))
        ∧ (c.phase = .running → (∃ h ∈ c.shares, h.state ≠ 3) →
          (ends c < s.now → s.goldenPart l = none → Leads (.goldenSlotTimeout l) s (tested True))
          ∧ (s.now ≤ ends c → exec (.goldenSlotTimeout l) s = .next s) ∧ ∀ diag, exec (.goldenRunEnd l.die l.lea diag) s = .next s))

/-- R152 to R155, R158 to R160, R170, R176, R203, R214 to R216: the starts of commands and of jobs, and the golden runs between
them. -/
def Obligations.StartsOfCommandsAndJobs : Prop := CommandStarts ∧ JobsAndGoldenRuns


/-! ## Sensor ingress and the time unit -/

/-- The item `it` has become the newest of queue `q`, whose next SEQ has moved on; none is open (R400). -/
def ItemArrived (s s' : State) (q : Nat) (it : Item) : Prop :=
  (s'.queue q).items = (s.queue q).items ++ [it] ∧ (s'.writer q).item = none ∧ s'.reg (aQueue q 0x24) = (s.reg (aQueue q 0x24) + 1) % 2 ^ 32

/-- R398, R401: the queue has a free cell `c` to take, within its RESERVE or LIMIT. -/
def CellFree (s : State) (q c : Nat) (t : List Nat) : Prop :=
  s.iqm.freed = c :: t ∧ c < 196608 ∧ s.fld (aQueue q 0x18) 17 0 < 16 * s.fld (aQueue q 4) 11 0

/-- R398: the bytes `bs` stand at the start of cell `c`, and the rest of memory is as it was. -/
def InCell (s s' : State) (c : Nat) (bs : List Byte) : Prop :=
  s'.bytes (0x001040000000 + c * 256) bs.length = bs
    ∧ ∀ a, (a < 0x001040000000 + c * 256 ∨ 0x001040000000 + c * 256 + bs.length ≤ a) → readAt memDefault s'.mem a = readAt memDefault s.mem a

/-- R389 to R391, R400, R401, R408, R409, R416: camera ports. A line of the queue's length goes into a cell of the open stripe,
marked where its CRC is wrong, which CRC_ERR counts; a packet with an uncorrectable header is counted and stored nowhere; one of
another data type is counted. A frame start opens a frame, and ends an open one with EOF and TRUNC; a frame end closes the last
stripe with EOF. Other short packets change nothing. With no frame start for FT_MS ms, EVT_IQM_NO_FRAME is raised once. A disabled
port takes nothing. -/
def CameraPackets : Prop :=
  ∀ (s : State) (port : Fin 16) (vc : Fin 4) (dt : BitVec 6) (num : BitVec 16) (line : List Byte) (crcOk : Bool) (fifo : Fin 129)
    (q c : Nat) (t : List Nat) (i : OpenItem) (n : Fin 256),
    let w := s.writer q
    let base := 0x1000 + 0x20 * port.val
    let ended := fun (trunc : Nat) => Item.mk (itemWord i.len (b2n (decide (i.first = 0)) + 2 + trunc + 8 * b2n i.err))
      (s.reg (aQueue q 0x24) + (w.frameNum + i.first * 2 ^ 16) * 2 ^ 32) i.arrival 0 i.cells false
    s.frozen = false →
    (s.cameraOn port = true → s.cameraQueue port vc = some q →
      (bits (s.qcfg q) 21 16 = dt.toNat → bit (s.qcfg q) 22 = false → w.frameOpen = true → w.item = none → 1 ≤ line.length → line.length ≤ 256 →
        s.lineBytes q = line.length → CellFree s q c t → Leads (.csiLongPacket port vc dt line .clean crcOk false ⟨fifo, false⟩) s fun s' =>
          InCell s s' c line ∧ s'.iqm.freed = t ∧ (s'.writer q).line = w.line + 1
            ∧ s'.fld (aIqm 0) 17 0 = s.fld (aIqm 0) 17 0 - 1 ∧ s'.fld (aQueue q 0x18) 17 0 = s.fld (aQueue q 0x18) 17 0 + 1
            ∧ (∃ k, (s'.writer q).item = some k ∧ k.len = line.length ∧ k.cells = [c] ∧ k.lines = 1 ∧ k.first = w.line ∧ k.err = !crcOk)
            ∧ s'.fld (aIqm (base + 0x08)) 31 0 = satInc 32 (s.fld (aIqm (base + 0x08)) 31 0) (b2n (!crcOk)))
      ∧ (bits (s.qcfg q) 21 16 ≠ dt.toNat → Leads (.csiLongPacket port vc dt line .clean crcOk false ⟨fifo, false⟩) s fun s' =>
          s'.fld (aIqm (base + 0x0C)) 15 0 = satInc 16 (s.fld (aIqm (base + 0x0C)) 15 0) 1 ∧ s.onlyRegs s' [aIqm (base + 0x08), aIqm (base + 0x0C), aIqm (base + 0x10)]
          ∧ s'.fld (aIqm (base + 0x08)) 31 0 = satInc 32 (s.fld (aIqm (base + 0x08)) 31 0) (b2n (!crcOk)))
      ∧ (Leads (.csiLongPacket port vc dt line .uncorrectable crcOk false ⟨fifo, false⟩) s fun s' => s'.mem = s.mem ∧ s'.iqm = s.iqm
          ∧ (∀ x, (s'.queue x).items = (s.queue x).items)
          ∧ s'.fld (aIqm (base + 4)) 31 16 = satInc 16 (s.fld (aIqm (base + 4)) 31 16) 1)
      ∧ (w.frameOpen = false → Leads (.csiFrameStart port vc num .clean) s fun s' => s'.regs = s.regs ∧ s'.mem = s.mem ∧
          (s'.queue q).items = (s.queue q).items ∧ (s'.writer q).frameOpen = true ∧ (s'.writer q).frameNum = num.toNat
            ∧ (s'.writer q).line = 0 ∧ (s'.writer q).startAt = s.now ∧ (s'.writer q).outage = false)
      ∧ (w.frameOpen = true → w.item = some i → i.dropped = false → 0 < i.len → s.detects q = false →
          (Leads (.csiFrameStart port vc num .clean) s fun s' => ItemArrived s s' q (ended 4) ∧ (s'.writer q).frameOpen = true
            ∧ (s'.writer q).frameNum = num.toNat ∧ (s'.writer q).line = 0)
          ∧ (Leads (.csiFrameEnd port vc .clean) s fun s' => ItemArrived s s' q (ended 0) ∧ (s'.writer q).frameOpen = false)))
    ∧ (s.cameraOn port = true → exec (.csiShortPacketIgnored port .clean) s = .next s
        ∧ Leads (.csiShortPacketIgnored port .corrected) s fun s' => s.onlyRegs s' [aIqm (base + 4)]
          ∧ s'.fld (aIqm (base + 4)) 15 0 = satInc 16 (s.fld (aIqm (base + 4)) 15 0) 1)
    ∧ (s.cameraOn port = false → exec (.csiLongPacket port vc dt line .clean crcOk false ⟨fifo, false⟩) s = .next s
        ∧ exec (.csiFrameStart port vc num .clean) s = .next s ∧ exec (.csiFrameEnd port vc .clean) s = .next s)
    ∧ (s.isCamera n = true → s.fld (aQueue n 0x10) 27 20 ≠ 0 → (s.writer n).outage = false →
        ((s.writer n).startAt + s.fld (aQueue n 0x10) 27 20 * 1000000 < s.now → Leads (.noFrameTimeout n) s fun s' =>
          (s'.writer n).outage = true ∧ s'.reported 4 "IQM_NO_FRAME" n 0)
        ∧ (s.now ≤ (s.writer n).startAt + s.fld (aQueue n 0x10) 27 20 * 1000000 → exec (.noFrameTimeout n) s = .next s))

/-- R393 to R397, R399, R400, R407, R410, R411, R416: network queues, takes and replay. A frame with a wrong FCS is counted and
dropped; one that is no stream's is counted as received and as not matched; a stream's frame that passes its checks becomes an item,
and one whose CRC-32C is wrong an event. A MAC's lock shows in its status. In REPLAY an aperture's header opens an item and its last
line completes it; another source's write has no effect. The security core's configuration write in SERVICE sets the register and
flushes the queue. The record of an overwritten take fails the command that holds it, if its run goes on. -/
def NetworkAndReplayItems : Prop :=
  ∀ (s : State) (mac : Fin 4) (frame body : List Byte) (fifo : Fin 257) (lasted q c : Nat) (t : List Nat) (lock fec : Bool) (init : Init)
    (n : Fin 256) (off : BitVec 12) (line : List Byte) (reg : Fin 5) (value : Word32) (a : ApItem) (i : OpenItem)
    (o : Overwritten) (rs : List Overwritten) (j : Job) (d : Cmd),
    let base := 0x1400 + 0x40 * mac.val
    let f := fun (a n : Nat) => beNat ((body.drop a).take n)
    let etype := beNat ((frame.drop 12).take 2)
    let len := frame.length
    let fcs := leNat (frame.drop (len - 4)) = crc32 (frame.take (len - 4))
    let crc := f 16 4 = crc32c (body.take 16 ++ (body.drop 24).take (f 4 2))
    let hdr := (List.range 8).map fun i => leNat ((line.drop (8 * i)).take 8)
    s.frozen = false →
    (bit (s.reg (aIqm base)) 0 = true → s.mode ≠ 3 → 64 ≤ len → len ≤ 9216 →
      (¬ fcs → Leads (.ethFrame mac frame false fifo lasted) s fun s' => s.onlyRegs s' [aIqm (base + 0x18), aIqm (base + 0x0C)]
          ∧ s'.fld (aIqm (base + 0x0C)) 31 0 = satInc 32 (s.fld (aIqm (base + 0x0C)) 31 0) 1)
      ∧ (fcs → etype ∉ [0x8100, 0x8808, 0x88F7] → (bit (s.reg (aIqm 4)) 16 = true → etype ≠ s.fld (aIqm 4) 15 0) →
          Leads (.ethFrame mac frame false fifo lasted) s fun s' => s.onlyRegs s' [aIqm (base + 0x18), aIqm (base + 8), aIqm 8]
            ∧ s'.fld (aIqm (base + 8)) 31 0 = satInc 32 (s.fld (aIqm (base + 8)) 31 0) 1
            ∧ s'.fld (aIqm 8) 31 0 = satInc 32 (s.fld (aIqm 8) 31 0) 1)
      ∧ (fcs → etype ∉ [0x8100, 0x8808, 0x88F7] → bit (s.reg (aIqm 4)) 16 = true → etype = s.fld (aIqm 4) 15 0 →
          body = (frame.take (len - 4)).drop 14 → 24 + f 4 2 ≤ body.length → f 6 2 = 0 → f 20 4 = 0 → s.streamQueue mac (f 0 2) = some q →
          (crc → (s.writer q).counter = none → s.fld (aQueue q 0x10) 15 0 = 0 → 1 ≤ f 4 2 → f 4 2 ≤ 256 → CellFree s q c t →
            Leads (.ethFrame mac frame false fifo lasted) s fun s' => InCell s s' c ((body.drop 24).take (f 4 2))
              ∧ ItemArrived s s' q ⟨itemWord (f 4 2) 3, s.reg (aQueue q 0x24) + f 2 2 * 2 ^ 32, s.now - lasted, f 8 8, [c], false⟩)
          ∧ (¬ crc → (s.writer q).e2eAt = none → (s.writer q).e2eBits = 0 → Leads (.ethFrame mac frame false fifo lasted) s fun s' =>
              (s'.queue q).items = (s.queue q).items ∧ s'.reported 4 "IQM_E2E" q 1
                ∧ s'.fld (aQueue q 0x28) 15 0 = satInc 16 (s.fld (aQueue q 0x28) 15 0) 1)))
    ∧ (bit (s.reg (aIqm base)) 0 = false → exec (.ethFrame mac frame false fifo lasted) s = .next s)
    ∧ (Leads (.ethPcsLockChange mac lock fec) s fun s' => s.onlyRegs s' [aIqm (base + 4)] ∧ s'.fld (aIqm (base + 4)) 0 0 = b2n lock
        ∧ s'.fld (aIqm (base + 4)) 1 1 = b2n (fec && decide (s.fld (aIqm base) 2 1 ≠ 0)))
    ∧ (s.apertureOpen init.toNat n off.toNat line.length = true →
        ((s.writer n).aperture = none → bits (word hdr 0) 51 32 ≠ 0 → bits (word hdr 0) 51 32 ≤ s.largestItem n → bits (word hdr 0) 31 0 = 0 →
          bits (word hdr 0) 63 60 = 0 → (∀ k ∈ [4, 5, 6, 7], word hdr k = 0) → Leads (.apertureWrite init n off line) s fun s' =>
            (s'.writer n).aperture = some ⟨hdr, bits (word hdr 0) 51 32, false⟩
              ∧ (s'.writer n).item = some ⟨0, [], 0, bits (word hdr 1) 63 48, word hdr 2, false, false⟩
              ∧ s'.regs = s.regs ∧ s'.mem = s.mem ∧ (s'.queue n).items = (s.queue n).items)
        ∧ ((s.writer n).aperture = some a → a.bad = false → 1 ≤ a.left → a.left ≤ 64 → s.isCamera n = false → (s.writer n).counter = none →
          (s.writer n).item = some i → i.dropped = false → i.len + a.left ≤ 256 * i.cells.length → i.len = bits (word a.hdr 0) 51 32 - a.left →
          a.left ≤ bits (word a.hdr 0) 51 32 → Leads (.apertureWrite init n off line) s fun s' => (s'.writer n).aperture = none
            ∧ ItemArrived s s' n ⟨itemWord (bits (word a.hdr 0) 51 32) (bits (word a.hdr 0) 59 56),
                s.reg (aQueue n 0x24) + bits (word a.hdr 1) 63 32 * 2 ^ 32, word a.hdr 2, word a.hdr 3, i.cells, false⟩))
    ∧ (s.apertureOpen init.toNat n off.toNat line.length = false → exec (.apertureWrite init n off line) s = .next s)
    ∧ (init.toNat = initSec → s.mode = 4 → Leads (.iqmQueueConfigWrite init n reg value) s fun s' =>
        (∀ x o, regAt (aQueue n (4 * reg.val)) = some (x, o) → s'.reg (aQueue n (4 * reg.val)) = x.written (s.reg (aQueue n (4 * reg.val))) value.toNat
          ∧ (s'.queue n).items = [] ∧ (s'.writer n).item = none ∧ s'.reg (aQueue n 0x24) = 0 ∧ s'.fld (aQueue n 0x14) 15 0 = 0))
    ∧ ((init.toNat ≠ initSec ∨ s.mode ≠ 4) → exec (.iqmQueueConfigWrite init n reg value) s = .next s)
    ∧ (s.schRunning = true → s.iqm.records = o :: rs → s.curJob = some j → NamedAlone s j → s.cmd o.cmd = some d →
        (d.phase = .running → d.serial = o.run → d.due = false → d.kind ≠ 5 → s.workDies d = [] → o.status ≠ 1 → Leads .queueOverwrittenRecord s fun s' =>
          s'.iqm.records = rs ∧ CameTo s' j o.cmd fun c => c.phase = .failed ∧ c.endStatus = o.status)
        ∧ ((d.serial ≠ o.run ∨ d.due = true) → exec .queueOverwrittenRecord s = .next { s with iqm := { s.iqm with records := rs } }))

/-- R389 to R391, R393 to R397, R399 to R401, R407 to R411, R416: what the cameras, the networks and the replay apertures bring. -/
def Obligations.IngressItems : Prop := CameraPackets ∧ NetworkAndReplayItems


/-- R414: what a complete Sync with residual `r` does: in FREE_RUN it sets the offset and ACQUIRING begins; in ACQUIRING the eighth
in succession within ±500 ns locks; in LOCKED a residual within ±10 µs moves the offset by at most 100 ns; in HOLDOVER one within
±500 ns locks again. The rate stays within ±100 ppm. -/
def SyncTaken (s s' : State) (time : Int) (rx : Nat) : Prop :=
  ∀ delay, s.pathDelay = some delay →
    let off := sext 64 (s.reg (aIqm 0x18))
    let r := time + delay - (rx + off)
    let close := -500 ≤ r ∧ r ≤ 500
    let rate := ∃ k : Nat, k ≤ 200000 ∧ s'.fld (aIqm 0x20) 31 8 = wrap 24 ((k : Int) - 100000)
    (-(2 ^ 31) ≤ r → r < 2 ^ 31 → s'.reg (aIqm 0x24) = wrap 32 r)
    ∧ (s.tbState = 0 → s'.tbState = 1 ∧ s'.reg (aIqm 0x18) = wrap 64 (off + r) ∧ rate ∧ s'.reported 4 "TB_STATE" 1 0)
    ∧ (s.tbState = 1 → close → s.ptp.good < 7 → s'.tbState = 1 ∧ s'.ptp.good = s.ptp.good + 1 ∧ rate ∧ s'.reg (aIqm 0x18) = s.reg (aIqm 0x18))
    ∧ (s.tbState = 1 → close → 7 ≤ s.ptp.good → s'.tbState = 2 ∧ rate ∧ s'.reported 4 "TB_STATE" 2 0)
    ∧ (s.tbState = 2 → -10000 ≤ r → r ≤ 10000 → s'.tbState = 2 ∧ rate ∧ s'.reg (aIqm 0x18) = wrap 64 (off + max (-100) (min 100 r)))
    ∧ (s.tbState = 2 → (r < -10000 ∨ 10000 < r) → s'.tbState = 1 ∧ s'.reg (aIqm 0x18) = wrap 64 (off + r))
    ∧ (s.tbState = 3 → close → s'.tbState = 2 ∧ s'.reported 4 "TB_STATE" 2 0)

/-- R412 to R414: the time base's copies and IEEE 802.1AS on MAC 0. A copy is realigned and never moves back. A one-step Sync, and a
two-step Sync with its Follow_Up, are taken with their receive times; a two-step Sync alone waits. Path delay requests are sent, and
answered, and an answer gives the path delay. Announce and Signaling messages are discarded. Four intervals without a Sync end
ACQUIRING, and turn LOCKED into HOLDOVER, which ends after HOLD_S seconds in FREE_RUN with offset and rate 0. -/
def Obligations.TimeUnit : Prop :=
  ∀ (s : State) (die : Fin 7) (seq : BitVec 16) (interval : BitVec 8) (origin : Nat) (correction : Int) (rx t1 received sent n : Nat),
    let freeRun := fun s' : State => s'.tbState = 0 ∧ s'.reg (aIqm 0x18) = 0 ∧ s'.fld (aIqm 0x20) 31 8 = 0 ∧ s'.reported 4 "TB_STATE" 0 0
    (Leads (.timeBaseRealign die) s fun s' => s' = { s with tbCopy := s'.tbCopy }
      ∧ readAt (fun _ => 0) s'.tbCopy die.val = max (readAt (fun _ => 0) s.tbCopy die.val) s.now
      ∧ ∀ x, x ≠ die.val → readAt (fun _ => 0) s'.tbCopy x = readAt (fun _ => 0) s.tbCopy x)
    ∧ exec .ptpAnnounceDiscard s = .next s
    ∧ (s.frozen = false →
        (s.ptpOn = true → intervalNs interval.toInt = some n →
          (Leads (.ptpSync false seq interval origin correction) s fun s' => s'.ptp.syncAt = s.now ∧ s'.ptp.interval = n
            ∧ SyncTaken s s' (origin + correction) s.rxStamp)
          ∧ (Leads (.ptpSync true seq interval origin correction) s fun s' => s'.regs = s.regs ∧ s'.ptp.syncAt = s.now ∧ s'.ptp.interval = n
            ∧ s'.ptp.waiting = some (seq.toNat, s.rxStamp)))
        ∧ (s.ptpOn = true → s.ptp.waiting = some (seq.toNat, rx) → Leads (.ptpFollowUp seq origin correction) s fun s' =>
            s'.ptp.waiting = none ∧ SyncTaken s s' (origin + correction) rx)
        ∧ (s.ptpOn = true → Leads (.ptpPdelayReq seq) s fun s' =>
            s' = { s with ptp := { s.ptp with answered := some (seq.toNat, s.rxStamp, s.txStamp) } })
        ∧ (s.ptpOn = true → s.ptpStatic = false →
            ((∀ t, s.ptp.reqAt = some t → t + 1000000000 ≤ s.now) → Leads .ptpPdelayReqSend s fun s' => s' = { s with ptp := { s.ptp with
              request := some (s.ptp.reqSeq, s.txStamp), reqSeq := (s.ptp.reqSeq + 1) % 0x10000, reqAt := some s.now } })
            ∧ ((∃ t, s.ptp.reqAt = some t ∧ s.now < t + 1000000000) → exec .ptpPdelayReqSend s = .next s))
        ∧ (s.ptpOn = true → s.ptp.request = some (seq.toNat, t1) → Leads (.ptpPdelayResp seq received sent) s fun s' =>
            s'.ptp.request = none ∧ s'.ptp.lastResp = some (sent, s.rxStamp) ∧ s' = { s with ptp := s'.ptp }
              ∧ (s.ptp.lastResp = none → s.ptp.ratio = (1, 1) →
                s'.ptp.delay = some (((s.rxStamp : Int) - t1 - ((sent : Int) - received)) / 2)))
        ∧ (s.ptp.syncAt + 4 * s.ptp.interval < s.now →
            (s.tbState = 1 → Leads .ptpSyncTimeout s freeRun)
            ∧ (s.tbState = 2 → Leads .ptpSyncTimeout s fun s' => s'.tbState = 3 ∧ s'.ptp.holdAt = s.now ∧ s'.reported 4 "TB_STATE" 3 0))
        ∧ (s.now ≤ s.ptp.syncAt + 4 * s.ptp.interval → exec .ptpSyncTimeout s = .next s)
        ∧ (s.tbState = 3 →
            (s.ptp.holdAt + s.fld (aIqm 0x28) 15 8 * 1000000000 < s.now → Leads .holdoverExpiry s freeRun)
            ∧ (s.now ≤ s.ptp.holdAt + s.fld (aIqm 0x28) 15 8 * 1000000000 → exec .holdoverExpiry s = .next s)))

/-! ## The safety islands -/

/-- R420: Heath `h` has sent one more cross frame, with its role, on the cross-link, where a partner that runs takes it, and on the
via path where its Vale link carries messages. -/
def CrossSent (s s' : State) (h : Nat) : Prop :=
  ∃ f : CrossFrame, f.role = s'.role h ∧ f.slot = (s'.heath h).lastSlot ∧ (s'.heath (1 - h)).xlink = (s.heath (1 - h)).xlink ++ (if (s.heath (1 - h)).up then [f] else [])
    ∧ (s'.heath h).toVale = (s.heath h).toVale ++ (if s.linkUp (5 + h) 4 then [f] else [])

/-- R420, R422, R423, R425 to R427, R560: what the Heaths send and hear. At an ACTIVE Heath's slot, 250 µs after the one before, SEQ
rises and an output message of 576 bytes leaves with its CRC-32C, the type and source of its mode, and in DRIVE with a fresh
accepted trajectory that trajectory's time; a cross frame goes with it, and another 125 µs later. A cross frame that arrives makes
the partner heard; one with a wrong CRC is dropped; B gives way to A's ACTIVE. The Vale forwards the frames of the via path. A
partner unheard for 240 µs is silent, and a STANDBY Heath takes ACTIVE; silent for more than 1 s it is a replace cause. Vehicle
frames count in succession. -/
def Obligations.HeathOutputAndPartner : Prop :=
  ∀ (s : State) (h : Fin 2) (viaPath : Bool) (f : CrossFrame) (rest : List CrossFrame) (data : List Byte) (c t0 : Nat) (t : Traj),
    let x := s.heath h
    let st := aHt h 0x10
    let ctr := leNat ((data.drop 4).take 2)
    let goodVeh := data.length = 16 ∧ leNat ((data.drop 8).take 4) = crc32c (data.take 8)
    (x.up = true →
      (s.role h = 2 → x.demote = false → x.lastSlot ≠ 0 → x.lastSlot + 250000 ≤ s.clock → s.valeLinked h = true → x.hold = false →
        s.paramOk h = true → x.held = [] → s.partnerState h = 0 → x.queueHold = [] →
        (∀ y, x.accepted = some y → y.rec_.poses.length ≤ 64) → (∀ y, x.fallback = some y → y.rec_.poses.length ≤ 64) →
        Leads (.heathSlot h) s fun s' => let m := (s'.heath h).message
          s'.reg (aHt h 0x14) = (s.reg (aHt h 0x14) + 1) % 2 ^ 32 ∧ (s'.heath h).lastSlot = s.clock ∧ s'.heldMode h = s.mode ∧ s'.role h = 2
            ∧ m.length = 576 ∧ wordAt m 7 % 2 ^ 32 = crc32c (m.take 56 ++ m.drop 64) ∧ bits (wordAt m 0) 63 32 = s'.reg (aHt h 0x14)
            ∧ bits (wordAt m 0) 7 0 = (if s.mode = 1 then 1 else 2) ∧ (s.mode ≠ 1 → bits (wordAt m 0) 9 8 = 2)
            ∧ (s.mode = 1 → x.accepted = some t → x.disagreed = false → s.ageUs t ≤ x.params.acceptMaxMs * 1000 →
                bits (wordAt m 0) 9 8 = 0 ∧ wordAt m 3 = t.rec_.t0 % 2 ^ 64)
            ∧ (s.mode = 1 → (x.accepted = none ∨ x.disagreed = true) → bits (wordAt m 0) 9 8 = 1)
            ∧ CrossSent s s' h)
      ∧ (s.role h = 2 → x.lastSlot ≠ 0 → s.clock < x.lastSlot + 250000 → exec (.heathSlot h) s = .next s)
      ∧ (x.lastSlot ≠ 0 → x.midAt ≠ x.lastSlot → x.lastSlot + 125000 ≤ s.clock → Leads (.crossFrameMidslot h) s fun s' =>
          (s'.heath h).midAt = x.lastSlot ∧ s'.regs = s.regs ∧ CrossSent s s' h)
      ∧ (s.clock < x.lastSlot + 125000 → exec (.crossFrameMidslot h) s = .next s)
      ∧ ((if viaPath then x.via else x.xlink) = f :: rest → x.heard.length = 2 →
          (f.verdict = none → f.valeDown = none → f.valeHung = none → Leads (.crossFrame h viaPath false) s fun s' =>
            (s'.heath h).heard.getD (b2n viaPath) none = some s.clock ∧ (s'.heath h).silentAt = none ∧ (s'.heath h).partnerRole = f.role
              ∧ s'.partnerState h = 0 ∧ s.onlyRegs { s' with heaths := s.heaths } [st]
              ∧ (if viaPath then (s'.heath h).via else (s'.heath h).xlink) = rest
              ∧ (x.demote = false → ((s'.heath h).demote = true ↔ h = 1 ∧ s.role h = 2 ∧ f.role = 2)))
          ∧ (Leads (.crossFrame h viaPath true) s fun s' => s' = { s with heaths := s'.heaths } ∧ (s'.heath h).heard = x.heard
              ∧ (if viaPath then (s'.heath h).via else (s'.heath h).xlink) = rest))
      ∧ (x.silentAt = none → x.upAt + 240000 < s.clock → (∀ y ∈ x.heard, ∀ at_, y = some at_ → at_ + 240000 < s.clock) → x.frames = [] →
          Leads (.partnerSilent h) s fun s' => (s'.heath h).silentAt = some s.clock
            ∧ s'.partnerState h = (if x.heard.all fun y => y.isNone then 2 else 1)
            ∧ (s.role h = 1 → s'.role h = 2 ∧ s'.fld (aHt h 0x24) 31 0 = satInc 32 (s.fld (aHt h 0x24) 31 0) 1)
            ∧ (s.role h ≠ 1 → s'.role h = s.role h))
      ∧ ((∃ y ∈ x.heard, ∃ at_, y = some at_ ∧ s.clock ≤ at_ + 240000) → exec (.partnerSilent h) s = .next s)
      ∧ (goodVeh → x.vehCtr = some c →
          (ctr = (c + 1) % 65536 → Leads (.vehicleStateFrame h data) s fun s' => s' = { s with heaths := s'.heaths }
            ∧ (s'.heath h).veh = ((s.clock, bit (leNat (data.take 1)) 0) :: x.veh).take 10 ∧ (s'.heath h).vehCtr = some ctr
            ∧ (s'.heath h).vehGood = some s.clock)
          ∧ (ctr ≠ (c + 1) % 65536 → Leads (.vehicleStateFrame h data) s fun s' => s' = { s with heaths := s'.heaths }
            ∧ (s'.heath h).veh = [] ∧ (s'.heath h).vehCtr = some ctr ∧ (s'.heath h).vehGood = x.vehGood))
      ∧ (¬ goodVeh → exec (.vehicleStateFrame h data) s = .next s))
    ∧ (x.up = false → exec (.heathSlot h) s = .next s ∧ exec (.partnerSilent h) s = .next s ∧ exec (.vehicleStateFrame h data) s = .next s)
    ∧ (s.frozen = false → x.toVale = f :: rest → s.linkUp 4 (4 + h) = true → s.linkUp 4 (5 - h) = true → Leads (.xframe h) s fun s' =>
        s' = { s with heaths := s'.heaths } ∧ (s'.heath h).toVale = rest ∧ (s'.heath (1 - h)).via = (s.heath (1 - h)).via ++ [f])
    ∧ (x.silentAt = some t0 → s.valeLinked h = true → t0 + 1000000000 < s.clock → Leads (.heathSilentReplace h) s fun s' =>
        bit (s'.reg (aVal 0x100)) 10 = true ∧ (bit (s.reg (aVal 0x100)) 10 = false → s'.reported 4 "REPLACE_REQ" 10 0))
    ∧ (x.silentAt = some t0 → s.clock ≤ t0 + 1000000000 → exec (.heathSilentReplace h) s = .next s)

/-- R434, R435: Heath `h` has decided DISAGREE with this cause, with no earlier one in its window. -/
def Disagreed (s s' : State) (h job cause : Nat) : Prop :=
  let d := aHt h 0x1C
  s'.frameDec h job = none ∧ (s'.heath h).disagreed = true ∧ s'.withheld h = true ∧ (s'.heath h).accepted = (s.heath h).accepted
    ∧ s'.fld d 15 0 = satInc 16 (s.fld d 15 0) 1 ∧ s'.fld d 23 16 = cause ∧ s'.fld d 31 24 = 1

/-- R433, R435: Heath `h` has decided NONE. -/
def DecidedNone (s s' : State) (h job : Nat) : Prop :=
  s'.frameDec h job = none ∧ s'.fld (aHt h 0x20) 31 0 = satInc 32 (s.fld (aHt h 0x20) 31 0) 1 ∧ (s'.heath h).accepted = (s.heath h).accepted
    ∧ s'.withheld h = s.withheld h

/-- R311, R429 to R438, R456: what the Heaths decide. A record with a good CRC begins its frame, or joins it; one with a wrong CRC
is a DISAGREE with cause 0x0C. A frame whose records are there is compared in SPLIT and checked in WHOLE: a cause is a DISAGREE;
none, with the partner's ACCEPT, or with a partner that is silent, accepts the trajectory and its fallback, and without the
partner's verdict waits. A record or a verdict that does not arrive in time is NONE, but for the record of a channel that was lost.
A second DISAGREE in the window escalates and empties it. An accepted trajectory too old is reported once. A golden mismatch is a
DISAGREE with cause 0x0B. -/
def Obligations.HeathDecisions : Prop :=
  ∀ (s : State) (h : Fin 2) (job : BitVec 16) (err : List (Fin 576 × Byte)) (e : HandOff) (f : FrameDec) (a r : TrajRec)
    (cause : Nat) (t : Traj) (rep : Report) (rs : List Report) (die : Fin 4),
    let x := s.heath h
    let p := x.params
    let arrived := err.foldl (fun b x => b.set x.1 (b.getD x.1 0 ^^^ x.2)) e.data
    let got := recOf e.lead arrived
    let found := (f.split = false ∧ f.recs = [r] ∧ (s.checkerCause h r).1 = cause)
      ∨ (f.split = true ∧ f.recs = [a, r] ∧ a.channel ≤ r.channel ∧ s.compareCause h a r = cause)
    let first := s.fld (aHt h 0x1C) 31 24 = 0
    let accepts := fun s' : State => ∃ w, f.chosen = some w ∧ s'.frameDec h f.job = none ∧ (s'.heath h).accepted = some ⟨w, s.clock, s.past, false⟩
      ∧ (s'.heath h).fallback = some ⟨fallbackOf w p.fbDecel, s.clock, s.past, false⟩ ∧ s'.withheld h = false ∧ (s'.heath h).disagreed = false
      ∧ s'.fld (aHt h 0x18) 31 0 = satInc 32 (s.fld (aHt h 0x18) 31 0) 1
    (s.frozen = false → x.up = true →
      (s.prairie.records.find? (fun z => decide (z.heath = h.val)) = some e →
        (s.heathLinked e.lead h = true → s.heldMode h ≠ 4 →
          (recCrcOk arrived = true → 4 * got.job + got.channel ∉ x.closed →
            (s.frameDec h got.job = none → Leads (.trajectoryRecord h err) s fun s' => ∃ g, s'.frameDec h got.job = some g ∧ g.recs = [got]
              ∧ g.own = none ∧ g.t0 = s.clock ∧ g.split = (decide (x.concept = 1) && s.channelUp 0 && s.channelUp 1)
              ∧ g.need = (if g.split then [1 - got.channel] else []) ∧ s'.prairie.records = s.prairie.records.erase e)
            ∧ (s.frameDec h got.job = some f → got.channel ∈ f.need → Leads (.trajectoryRecord h err) s fun s' =>
              s'.frameDec h got.job = some { f with recs := f.recs ++ [got], need := f.need.erase got.channel }))
          ∧ (recCrcOk arrived = false → first → Leads (.trajectoryRecord h err) s fun s' => Disagreed s s' h got.job 0x0C))
        ∧ (s.heathLinked e.lead h = false → exec (.trajectoryRecord h err) s =
            .next { s with prairie := { s.prairie with records := s.prairie.records.erase e } }))
      ∧ (readAt (fun _ => []) (s.collector die).out h = rep :: rs → s.heathLinked die h = true → rep.ev.name = "GOLDEN_MISMATCH" → rep.ev.die = die →
          x.frames = [] → first → Leads (.faultReport h (die.castLE (by decide)) false) s fun s' => Disagreed s s' h (rep.ev.job % 65536) 0x0B))
    ∧ (s.frameDec h job.toNat = some f →
        (f.need = [] → f.own = none → found →
          (cause = 0 → (∃ w, f.partner = some w ∧ w.accept = true) → Leads (.heathVerdict h job) s accepts)
          ∧ (cause = 0 → f.partner = none → s.partnerState h ≠ 0 → Leads (.heathVerdict h job) s accepts)
          ∧ (cause = 0 → f.partner = none → s.partnerState h = 0 → Leads (.heathVerdict h job) s fun s' =>
              s'.frameDec h f.job = some { f with own := some ⟨f.job, true, 0⟩, ownAt := s.clock } ∧ (s'.heath h).accepted = x.accepted)
          ∧ (cause ≠ 0 → first → cause < 256 → Leads (.heathVerdict h job) s fun s' => Disagreed s s' h f.job cause
              ∧ (s'.heath h).lastVerdict = some ⟨f.job, false, cause⟩)
          ∧ (cause ≠ 0 → ones8 (2 * s.fld (aHt h 0x1C) 31 24 % 256) ≠ 0 → Leads (.heathVerdict h job) s fun s' =>
              s'.frameDec h f.job = none ∧ s'.fld (aHt h 0x1C) 31 24 = 0 ∧ (s'.heath h).window = []))
        ∧ (f.need ≠ [] → f.t0 + p.pairUs * 1000 < s.clock →
          (x.lone = false → Leads (.pairTimeout h job) s fun s' => DecidedNone s s' h f.job)
          ∧ (x.lone = true → Leads (.pairTimeout h job) s fun s' => s' = { s with heaths := s'.heaths }
              ∧ s'.frameDec h f.job = some { f with need := [], split := false }))
        ∧ ((f.need = [] ∨ s.clock ≤ f.t0 + p.pairUs * 1000) → exec (.pairTimeout h job) s = .next s)
        ∧ (f.own.isSome = true → f.partner = none → s.partnerState h = 0 → f.ownAt + p.verdictUs * 1000 < s.clock →
            Leads (.verdictTimeout h job) s fun s' => DecidedNone s s' h f.job)
        ∧ ((f.own = none ∨ s.clock ≤ f.ownAt + p.verdictUs * 1000) → exec (.verdictTimeout h job) s = .next s))
    ∧ (x.accepted = some t → x.up = true → t.stale = false → (s.heldMode h = 1 ∨ s.heldMode h = 3) →
        (p.acceptMaxMs * 1000 < s.ageUs t → Leads (.acceptStale h) s fun s' => (s'.heath h).accepted = some { t with stale := true })
        ∧ (s.ageUs t ≤ p.acceptMaxMs * 1000 → exec (.acceptStale h) s = .next s))

/-- R419, R441, R447, R455, R456, R458, R459: what the Heaths watch. A report joins the fault collection; one with a wrong CRC is
counted and dropped. Each collector sends a heartbeat every 10 ms with its count of dropped reports. A Meadow unheard for 25 ms is
restarted by the Heath that drives. The oldest change is appended to the Heath's copy of the fault record. The self-test of a
checker arms its injection; one that timed out is a failed checker, with its count and the replace cause CHECKER. A Heath that fails
silent resets; one whose flash holds a good image boots with its parameter block, and another stays down and shows why. -/
def Obligations.HeathWatch : Prop :=
  ∀ (s : State) (h : Fin 2) (die : Fin 5) (d : Fin 4) (rep : Report) (rs : List Report) (e : FrecEntry) (es : List FrecEntry) (t : TileId)
    (g : Fin 8) (params : HeathParams) (u : State) (r : RomChoice) (i : Nat),
    let x := s.heath h
    let last := max (readAt (fun _ => 0) x.lastReport d.val) (max (s.dieSt d).outAt x.upAt)
    let a := aTil t.die t.lea t.tile 0x44
    (s.frozen = false → x.up = true → readAt (fun _ => []) (s.collector die).out h = rep :: rs → s.heathLinked die h = true →
      (rep.ev.name ∉ ["GOLDEN_MISMATCH", "IQM_STALE_FRAME", "IQM_NO_FRAME", "IQM_E2E"] → Leads (.faultReport h die false) s fun s' =>
        (s'.heath h).collection = ((s.clock, rep) :: x.collection).take 4096 ∧ readAt (fun _ => 0) (s'.heath h).lastReport die = s.clock
          ∧ readAt (fun _ => []) (s'.collector die).out h = rs ∧ s'.regs = s.regs ∧ s'.mem = s.mem)
      ∧ (Leads (.faultReport h die true) s fun s' => s'.fld (aHt h 0x2C) 31 0 = satInc 32 (s.fld (aHt h 0x2C) 31 0) 1
        ∧ s'.heaths = s.heaths ∧ readAt (fun _ => []) (s'.collector die).out h = rs))
    ∧ (s.frozen = false → s.now % 10000000 = 0 → (s.collector die).beat ≠ s.now / 10000000 + 1 → (s.dieSt die).out = true → (die = 4 → s.boot.silent = false) → Leads (.collectorHeartbeat die) s
        fun s' => s'.reported die "HEARTBEAT" (s.collector die).dropped 0 ∧ s' = { s with collectors := s'.collectors })
    ∧ ((s.now % 10000000 ≠ 0 ∨ (s.collector die).beat = s.now / 10000000 + 1) → exec (.collectorHeartbeat die) s = .next s)
    ∧ (x.up = true → s.mayRestart = true → s.linkUp (5 + h) d = true → (s.dieSt d).out = true →
        (last + 25000000 < s.clock → s.drives h = true → (s.dieSt d).wire = false → (s.dieSt d).heldDown = false → (s.dieSt d).restartAt = none →
          (s.dieSt d).restarts = [] → Leads (.dieHung h (d.castLE (by decide))) s fun s' => (s'.dieSt d).restartAt = some s.clock
            ∧ (s'.dieSt d).restarts = [s.clock] ∧ s'.fld (aHt h 0x28) 31 0 = satInc 32 (s.fld (aHt h 0x28) 31 0) 1)
        ∧ (s.clock ≤ last + 25000000 → exec (.dieHung h (d.castLE (by decide))) s = .next s))
    ∧ ((s.frecCopy h).todo = e :: es → x.up = true → (s.frecCopy h).entries.length < frecHalf → Leads (.faultRecordWrite h) s fun s' =>
        (s'.frecCopy h).entries = (s.frecCopy h).entries ++ [{ e with seq := (s.frecCopy h).lastSeq + 1 }] ∧ (s'.frecCopy h).todo = es
          ∧ s' = { s with frec := s'.frec })
    ∧ (s.frozen = false → x.up = true → s.covers h t.die = true → s.meadowUp t.die = true → s.linkState (5 + h) t.die = 4 → 1 ≤ g.val → g.val ≤ 5 →
        s.tileSt t.die t.lea t.tile < 2 → bit (s.reg a) 31 = false →
        (s.reg (a + 4) ≠ 2 → Leads (.checkerSelfTest h (.tile t g)) s fun s' => s'.reg a = 2 ^ 31 + g.val ∧ s.onlyRegs { s' with
          heaths := s.heaths, tiles := s.tiles } [a])
        ∧ (s.reg (a + 4) = 2 → s.valeLinked h = false → Leads (.checkerSelfTest h (.tile t g)) s fun s' => s'.reg a = 2 ^ 31 + g.val
          ∧ bit (s'.reg (aVal 0x100)) 8 = true ∧ s'.fld (aHt h 0x2C) 31 0 = satInc 32 (s.fld (aHt h 0x2C) 31 0) 1))
    ∧ (x.up = true → Leads (.heathFailSilent h) s fun s' => (s'.heath h).up = false ∧ (s'.heath h).before = true ∧ s'.role h = 0
        ∧ (s'.dieSt (5 + h)).out = false ∧ s'.mem = s.mem ∧ s'.flash = s.flash)
    ∧ (x.up = false → (s.dieSt (5 + h)).out = true → s.romBoot (heathSlot h) (s.heathRoot h) true [] = (u, r) →
        (r.slot = some i → Leads (.heathBoot h params) s fun s' => (s'.heath h).up = true ∧ (s'.heath h).params = params ∧ (s'.heath h).upAt = s.clock)
        ∧ (r.slot = none → Leads (.heathBoot h params) s fun s' => s' = u.setReg (aHt h 0x128) (bootWord r 0) ∧ (s'.heath h).up = false))

/-! ## The page store and the planner -/

/-- R267: a request of the KV manager has ended with `st`: SCH_KV_RESULT shows it and GO is clear. -/
def KvEnded (s' : State) (st : Nat) : Prop := s'.reg (aSch 0x870) = st ∧ bit (s'.reg (aSch 0x860)) 31 = false

/-- R259: a resident context has the new table `root`, and its old copy is retired. -/
def Published (s s' : State) (c root : Nat) : Prop :=
  KvEnded s' 0 ∧ s'.ctx c = setWordBits (s.ctx c) 1 47 0 root ∧ s'.kv.waitingPublish = none
    ∧ (ctxLayers (s.ctx c) ≠ 0 → s'.kv.retired = s.kv.retired ++ [⟨ctxRoot (s.ctx c), c, s.snapHolders (ctxRoot (s.ctx c))⟩])

/-- R256, R259, R260, R265 to R268: requests of the KV manager. PUBLISH gives a context its new table, or is refused with a status
of the checks that fail, and where none fails with the status of the walk of the copy; it waits where it is asked to and an
appending command uses the context, and goes on once none does. EVICT is refused with 0x02 beyond the nodes, 0x0F for one that is
not valid and 0x10 for one in use. A request while GO stands changes nothing, nor does one of another initiator. A retired copy that
no command uses is released with its event, and a quarantined frame returns to the free list. R259 step 2: MODS that changed is a
status of the checks. -/
def PageRequests : Prop :=
  ∀ (s : State) (init : Init) (value : Word32) (c root : Nat) (addr : Addr) (frame : Nat) (x : Retired) (f : Quarantined),
    let v := value.toNat
    let arg := s.fld (aSch 0x864) 19 0
    let to_ := bits (s.reg (aSch 0x868)) 47 0
    let idle := kvOpOk init.toNat = true ∧ bit v 31 = true ∧ bit (s.reg (aSch 0x860)) 31 = false
    s.frozen = false →
    (idle → bits v 3 0 = 1 →
      (s.kv.waitingPublish = none → (bit v 4 = false ∨ s.appending arg = false) →
        (oneOf (s.publishFails arg to_) = 0 → s.walkStatus to_ (ctxLayers (s.ctx arg)) = 0 → s.resident arg = true →
          Leads (.kvPublish init value) s fun s' => Published s s' arg to_)
        ∧ (oneOf (s.publishFails arg to_) = 0 → s.walkStatus to_ (ctxLayers (s.ctx arg)) ≠ 0 → Leads (.kvPublish init value) s fun s' =>
          KvEnded s' (s.walkStatus to_ (ctxLayers (s.ctx arg))) ∧ s'.mem = s.mem ∧ s'.sched = s.sched ∧ s'.kv = s.kv)
        ∧ (oneOf (s.publishFails arg to_) ≠ 0 → Leads (.kvPublish init value) s fun s' => ∃ st ∈ s.publishFails arg to_, st ≠ 0
            ∧ KvEnded s' st ∧ s'.mem = s.mem ∧ s'.sched = s.sched ∧ ∀ a, a ≠ aSch 0x860 → a ≠ aSch 0x870 → s'.reg a = s.reg a))
      ∧ (s.kv.waitingPublish = none → bit v 4 = true → s.appending arg = true → Leads (.kvPublish init value) s fun s' =>
          s'.kv = { s.kv with waitingPublish := some (arg, to_) } ∧ bit (s'.reg (aSch 0x860)) 31 = true ∧ s'.mem = s.mem)
      ∧ (s.kv.waitingPublish ≠ none → Leads (.kvPublish init value) s fun s' => KvEnded s' 0x10 ∧ s'.kv = s.kv ∧ s'.mem = s.mem))
    ∧ (arg < 4096 → ctxState (s.ctx arg) ≠ 0 → ctxState (s.ctx arg) ≠ 5 → (s.pdir to_).mods ≠ (s.pdir (ctxRoot (s.ctx arg))).mods →
        0x0B ∈ s.publishFails arg to_)
    ∧ (idle → bits v 3 0 = 2 →
        (s.nodeMax ≤ arg → Leads (.kvEvict init value) s fun s' => KvEnded s' 2 ∧ s'.mem = s.mem)
        ∧ (arg < s.nodeMax → s.nodeValid arg = false → Leads (.kvEvict init value) s fun s' => KvEnded s' 0x0F ∧ s'.mem = s.mem)
        ∧ (arg < s.nodeMax → s.nodeValid arg = true → s.nodeWord arg 3 ≠ 0 → Leads (.kvEvict init value) s fun s' =>
            KvEnded s' 0x10 ∧ s'.mem = s.mem)
        ∧ (arg < s.nodeMax → s.nodeValid arg = true → s.nodeWord arg 3 = 0 → Leads (.kvEvict init value) s fun s' =>
            KvEnded s' 0 ∧ s'.fld (aSch 0x844) 20 0 = s.fld (aSch 0x844) 20 0 - 1))
    ∧ ((kvOpOk init.toNat = false ∨ bit (s.reg (aSch 0x860)) 31 = true) →
        exec (.kvPublish init value) s = .next s ∧ exec (.kvEvict init value) s = .next s)
    ∧ (s.kv.waitingPublish = some (c, root) →
        (s.appending c = false → oneOf (s.publishFails c root) = 0 → s.walkStatus root (ctxLayers (s.ctx c)) = 0 → s.resident c = true →
          Leads .kvPublishResume s fun s' => Published s s' c root)
        ∧ (s.appending c = true → exec .kvPublishResume s = .next s))
    ∧ (s.kv.retired.find? (fun y => decide (y.root = addr.toNat) && y.cmds.isEmpty) = some x → Leads (.kvRetireRelease addr) s fun s' =>
        s'.kv.retired = s.kv.retired.erase x ∧ s'.reported 4 "KV_RETIRED" addr.toNat x.ctx)
    ∧ ((∀ y ∈ s.kv.retired, y.root = addr.toNat → y.cmds ≠ []) → exec (.kvRetireRelease addr) s = .next s)
    ∧ (s.kv.quarantine.find? (fun y => decide (y.frame = frame) && y.cmds.isEmpty) = some f → s.kvFree < 2 ^ 23 - 1 →
        Leads (.kvQuarantineRelease frame) s fun s' => s'.kv.quarantine = s.kv.quarantine.erase f ∧ s'.kvFree = s.kvFree + 1
          ∧ s'.fld (aSch 0x814) 22 0 = s.fld (aSch 0x814) 22 0 - 1)
    ∧ ((∀ y ∈ s.kv.quarantine, y.frame = frame → y.cmds ≠ []) → exec (.kvQuarantineRelease frame) s = .next s)

/-- R196, R199, R201, R256, R259, R260, R265 to R268: the residency of contexts, and the page store. -/
def Obligations.ContextsAndPages : Prop := ContextResidency ∧ PageRequests


/-- R295, R297, R298, R306 to R309: the planner. An invalidation by a Heath or the scheduler core advances the map's epoch, clears
VALID and raises its event; another initiator's changes nothing. A held range that no map and no command uses is released. A batch
of an engine records the epochs as tags and takes its candidates in order: on a valid and aligned map with the outcome of their
checks, on another unchecked. The ranking takes the valid candidates in the order of SCORE and then of their number; with none,
PRA_NO_CANDIDATE. -/
def Obligations.PlannerMapsAndCandidates : Prop :=
  ∀ (s : State) (init : Init) (d : Fin 4) (base : Addr) (h : HeldMap) (list : Fin 2) (idx : BitVec 16) (c : Cmd), let r : CmdRef := ⟨list, idx.toNat⟩
    let w := c.words
    let todo := ((praCandsOf c d).drop (praDoneOf c d)).take 128
    let lead := (c.engines.map (·.die)).getD 0 0
    let invalid := fun (m : Nat) (s' : State) => s'.praEpoch d m = (s.praEpoch d m + 1) % 2 ^ 16 ∧ s'.praValid d m = false
      ∧ s'.reg (aPra d (if m = 0 then 0x08 else 0x0C)) = s'.praEpochWord d m ∧ s'.praEpochWord d (1 - m) = s.praEpochWord d (1 - m)
      ∧ s'.reported d "PRA_INVALIDATED" m 0
    s.frozen = false →
    (praInvalOk init.toNat = true → Leads (.praInvalGrid init d) s (invalid 0) ∧ Leads (.praInvalVox init d) s (invalid 1))
    ∧ (praInvalOk init.toNat = false → exec (.praInvalGrid init d) s = .next s ∧ exec (.praInvalVox init d) s = .next s)
    ∧ (s.prairie.held.find? (fun y => decide (y.base = base.toNat) && y.users.isEmpty && y.cmds.isEmpty) = some h → h.die < 5 →
        Leads (.prairieMapRelease base) s fun s' => s'.prairie = { s.prairie with held := s.prairie.held.erase h }
          ∧ s'.reported h.die "PRA_MAP_RELEASED" base.toNat 0)
    ∧ ((∀ y ∈ s.prairie.held, y.base = base.toNat → (y.users ≠ [] ∨ y.cmds ≠ [])) → exec (.prairieMapRelease base) s = .next s)
    ∧ (s.cmd r = some c → c.phase = .running → c.kind = 2 → praOp w = 1 →
        (todo ≠ [] → s.valeGone d = false → s.stacksTake = true → (∃ e ∈ c.engines, e.die = d ∧ e.state = 1) → praGridBit w = true → praVoxBit w = false →
          (∀ x ∈ todo, s.walkRead (whoPra d r) (praCand w + 576 * x) 576 = 0 ∧ s.access (whoPra d r) true (praResults w + 16 * x) 16 = 0) →
          (s.praValid d 0 = true → ∀ x ∈ todo, (s.checkCand w (s.checkEnv c d) x).fault = 0) →
          Leads (.prairieBatch list idx d) s fun s' => ∃ c', s'.cmd r = some c' ∧ praDoneOf c' d = praDoneOf c d + todo.length
            ∧ ∃ l, c'.results = c.results ++ l ∧ l.map (·.cand) = todo ∧ ∀ y ∈ l, y.die = d ∧ y.gridTag = s.praEpoch d 0
              ∧ (s.praValid d 0 = false → y.checked = false)
              ∧ (s.praValid d 0 = true → y.hit = (s.checkCand w (s.checkEnv c d) y.cand).hit
                ∧ y.pathCost = (s.checkCand w (s.checkEnv c d) y.cand).pathCost))
        ∧ (todo = [] → exec (.prairieBatch list idx d) s = .next s)
        ∧ (c.engines ≠ [] → c.rankingDone = false → praAllBatches c = true → Leads (.prairieRanking list idx) s fun s' => ∃ c', s'.cmd r = some c'
            ∧ c'.rankingDone = true ∧ c'.ranked = (rankAll c.results).map (·.cand)
            ∧ (∀ x, x ∈ rankAll c.results ↔ x ∈ c.results ∧ x.valid = true)
            ∧ (rankAll c.results).Pairwise (fun x y => x.score < y.score ∨ (x.score = y.score ∧ x.cand ≤ y.cand))
            ∧ ((∀ x ∈ c.results, x.valid = false) → lead < 4 → s'.reported lead "PRA_NO_CANDIDATE" 0 0))
        ∧ ((c.rankingDone = true ∨ praAllBatches c = false) → exec (.prairieRanking list idx) s = .next s))

/-! ## Self-test, repair, freeze and debug -/

/-- R460 to R463, R466: self-test and repair. At each multiple of 100 ms a lea's control core tests a free tile that the rotation or
a swap brought in, else swaps out the tile in service that was tested longest ago, and counts a skip where a swap is under way,
refused unless that swap is its own. A passed test, once its cycles are over, sends the tile to clearing; a failed one retires it. A
reported row takes a spare row of its bank; without one left a tile is marked and a pool asks for replacement. A lea that lost a
tile runs 15, the tile of logical 15 taking the lost one's place; with a second loss it is lost. -/
def Obligations.SelfTestsAndRepair : Prop :=
  ∀ (s : State) (l : LeaId) (t : TileId) (mac row n lost : Nat) (rest : List Nat) (bist : Bool),
    let d := l.die.val
    let i := l.lea.val
    let k := leaKey d i
    let step := s.now / 100000000 + 1
    let f := s.freeTile d i
    s.frozen = false →
    ((s.lea k).coreUp = true → s.now % 100000000 = 0 → (s.lea k).rotated ≠ step →
      (s.freeState d i = 0 → f < 17 → f ∈ (s.lea k).testNext → s.swapGo d i = false → Leads (.rotationStep l) s fun s' =>
          s'.freeState d i = 2 ∧ s'.freeTile d i = f ∧ s'.tileSt d i f = 3 ∧ (s'.lea k).testing = some f ∧ (s'.lea k).rotated = step
            ∧ s'.mem = s.mem)
      ∧ (s.freeState d i = 0 → f ∉ (s.lea k).testNext → s.swapGo d i = false → s.testChoice d i = some n → Leads (.rotationStep l) s fun s' =>
          s'.swapGo d i = true ∧ s'.fld (aLea d i 0x08) 3 0 = n ∧ (s'.lea k).testing = some (s.mapTile d i n) ∧ (s'.lea k).swapping = some n
            ∧ ∀ m < 16, s.mapTile d i m < 17 → (s.tile (tileKey d i (s.mapTile d i n))).lastTest ≤ (s.tile (tileKey d i (s.mapTile d i m))).lastTest)
      ∧ (s.swapGo d i = true → s.testChoice d i = some n → Leads (.rotationStep l) s fun s' =>
          s'.fld (aLea d i 0x88) 31 0 = satInc 32 (s.fld (aLea d i 0x88) 31 0) 1 ∧ (s'.lea k).rotated = step
            ∧ ((s.lea k).testing ≠ none → s.onlyRegs { s' with leas := s.leas } [aLea d i 0x88])
            ∧ ((s.lea k).testing = none → s'.reported d "LEA_SWAP_REFUSED" 0 0)))
    ∧ ((s.now % 100000000 ≠ 0 ∨ (s.lea k).rotated = step) → exec (.rotationStep l) s = .next s)
    ∧ (let d := t.die.val
       let i := t.lea.val
       s.freeTile d i = t.tile → s.freeState d i = 2 → (s.lea (leaKey d i)).coreUp = true → (s.lea (leaKey d i)).testAt ≤ s.tileEighths d →
        ((s.tile (tileIdKey t)).noSpare = false → Leads (.tileSelfTestDone t true) s fun s' => s'.freeState d i = 1 ∧ s'.freeTile d i = t.tile
          ∧ s'.tileSt d i t.tile = 2 ∧ (s'.tile (tileIdKey t)).lastTest = s.now ∧ (s'.lea (leaKey d i)).testing = none
          ∧ s'.fld (aLea d i 0x80) 31 0 = satInc 32 (s.fld (aLea d i 0x80) 31 0) 1)
        ∧ (s.tileRetired d i t.tile = false → Leads (.tileSelfTestDone t false) s fun s' => s'.tileRetired d i t.tile = true
          ∧ s'.freeTile d i = 0x1F ∧ s'.freeState d i = 3 ∧ s'.tileSt d i t.tile = 4 ∧ bit (s'.reg (aVal 0x100)) 0 = true
          ∧ s'.fld (aLea d i 0x84) 31 0 = satInc 32 (s.fld (aLea d i 0x84) 31 0) 1))
    ∧ (s.repairable mac = true → (bist = true ∨ (mac, row) ∈ s.repairs) → (macroPlace mac).1 < 4 →
        (readAt (fun _ => 0) s.rowsUsed mac < spareRows mac → Leads (.rowRepair mac row bist) s fun s' =>
          readAt (fun _ => 0) s'.rowsUsed mac = readAt (fun _ => 0) s.rowsUsed mac + 1 ∧ s'.repairs = s.repairs.erase (mac, row)
            ∧ s'.reported (macroPlace mac).1 "ROW_REPAIRED" (row + mac * 2 ^ 32) 0)
        ∧ (spareRows mac ≤ readAt (fun _ => 0) s.rowsUsed mac → Leads (.rowRepair mac row bist) s fun s' =>
          s'.rowsUsed = s.rowsUsed ∧ s'.repairs = s.repairs.erase (mac, row)
            ∧ (mac < 0x10000 → (s'.tile (mac / 8)).noSpare = true) ∧ (0x10000 ≤ mac → bit (s'.reg (aVal 0x100)) 1 = true)))
    ∧ (s.repairable mac = false → exec (.rowRepair mac row bist) s = .next s)
    ∧ ((s.lea k).losing = lost :: rest → (s.lea k).coreUp = true → lost < 17 → s.tileHeld d i lost = false →
        (s.mapTile d i 15 ≠ 0x1F → s.tileHeld d i (s.mapTile d i 15) = false) →
        (s.mapTile d i 15 < 17 → bit (s.reg (aMdw d 0x48)) i = false → s.fld (aLea d i 0) 12 8 ≠ 15 → Leads (.leaRebind l) s fun s' =>
          s'.mapTile d i 15 = 0x1F ∧ s'.fld (aLea d i 0) 12 8 = 15 ∧ bit (s'.reg (aMdw d 0x24)) i = true ∧ (s'.lea k).losing = rest
          ∧ s'.tileSt d i lost = 4 ∧ s'.reported d "LEA_DEGRADED" 0 0
          ∧ (s.mapTile d i 15 ≠ lost → s.fld (aTil d i lost 0) 7 4 ≠ 15 → s'.mapTile d i (s.fld (aTil d i lost 0) 7 4) = s.mapTile d i 15))
        ∧ (bit (s.reg (aMdw d 0x48)) i = false → s.fld (aLea d i 0) 12 8 = 15 → Leads (.leaRebind l) s fun s' =>
          bit (s'.reg (aMdw d 0x48)) i = true ∧ (s'.lea k).losing = rest ∧ s'.tileSt d i lost = 4 ∧ s'.reported d "LEA_LOST" 0 0)
        ∧ (bit (s.reg (aMdw d 0x48)) i = true → Leads (.leaRebind l) s fun s' => (s'.lea k).losing = rest ∧ s'.tileSt d i lost = 4
          ∧ s'.mem = s.mem))
    ∧ ((s.lea k).losing = [] → exec (.leaRebind l) s = .next s)

/-- A freeze from source `src` is in force (R471, R472): the time base stands, and the bypasses are closed; memory, the scheduler
and the threads stand too, where no stack has a write to perform before its self-refresh (R343). -/
def FrozenBy (s s' : State) (src : Nat) : Prop :=
  s'.frozen = true ∧ s'.fld (aVal 0x104) 3 1 = src ∧ s'.now = s.now ∧ s'.clock = s.clock ∧ s'.col.bypass = [true, true]
    ∧ ((∀ d < 4, (s.dramOf d).queue = []) → s'.mem = s.mem ∧ s'.sched = s.sched ∧ s'.slots = s.slots)

/-- R470 to R476, R559, R561: freeze, thaw and the debug port. FREEZE_N low for 100 ns freezes the module, and a pulse under 50 ns
does not; between them it may. The security core's request in SERVICE freezes it through a Heath whose Vale link is up, the ACTIVE
one first. A frozen module can be read out through the debug TAP. A thaw that is allowed ends the freeze, and another changes
nothing. The register instrument reads a register, and disabled answers zeros and sets ERROR. -/
def Obligations.FreezeThawAndDebug : Prop :=
  ∀ (s : State) (init : Init) (value : Word32) (lowNs n : Nat) (h : Fin 2) (addr : Addr) (chain : Nat) (b : Block) (base len : Nat),
    let may := s.frozen = false ∧ s.boot.phase ≠ 0
    let ok := s.frozen = true ∧ s.power.mainOk = true ∧ bit (s.reg (aVal 0x104)) 6 = true ∧ s.chainOpen = false
    let linked := fun k : Nat => (s.heath k).up = true ∧ s.valeLinked k = true
    (may → Leads (.freezeNFall none) s fun s' => FrozenBy s s' 1)
    ∧ (may → 100 ≤ lowNs → Leads (.freezeNFall (some lowNs)) s fun s' => FrozenBy s s' 1)
    ∧ (lowNs < 50 → Leads (.freezeNFall (some lowNs)) s fun s' => s.onlyRegs s' [aVal 0x220] ∧ s'.fld (aVal 0x220) 0 0 = 1)
    ∧ (may → 50 ≤ lowNs → lowNs < 100 → Leads (.freezeNFall (some lowNs)) s fun s' => FrozenBy s s' 1 ∨
        s.onlyRegs { s' with free := s.free } [aVal 0x220])
    ∧ (may → init.toNat = initSec → s.mode = 4 → bit value.toNat 0 = true →
        (linked h → (∀ k < 2, k ≠ h.val → linked k → s.role k ≠ 2) → (s.role h = 2 ∨ ∀ k < 2, k ≠ h.val → ¬ linked k) →
          Leads (.valFreezeReq init value) s fun s' => FrozenBy s s' (2 + h))
        ∧ ((∀ k < 2, ¬ linked k) → Leads (.valFreezeReq init value) s fun s' => s'.frozen = false ∧ s'.fld (aVal 0x104) 0 0 = 1
          ∧ s.onlyRegs s' [aVal 0x104]))
    ∧ ((init.toNat ≠ initSec ∨ s.mode ≠ 4 ∨ bit value.toNat 0 = false) → exec (.valFreezeReq init value) s = .next s)
    ∧ (s.frozen = true → s.power.mainOk = true → (Leads (.tapScanShift (.memory addr n)) s fun s' =>
          s' = { s with debugPort := { s.debugPort with out := s.bytes addr.toNat n } })
        ∧ (Leads (.tapScanShift (.shift chain n)) s fun s' => s' = { s with debugPort := s'.debugPort }
          ∧ readAt (fun _ => 0) s'.debugPort.shifted chain = (readAt (fun _ => 0) s.debugPort.shifted chain + n) % Config.chainLength chain))
    ∧ (s.frozen = false → exec (.tapScanShift (.memory addr n)) s = .next s ∧ exec .thaw s = .next s)
    ∧ (ok → Leads .thaw s fun s' => s'.frozen = false ∧ bit (s'.reg (aVal 0x104)) 4 = true ∧ s'.now = s.now ∧ s'.clock = s.clock
        ∧ s'.slots = s.slots ∧ s'.reported 4 "THAWED" 0 0)
    ∧ (s.frozen = true → ¬ ok → exec .thaw s = .next s)
    ∧ (s.frozen = false → s.power.mainOk = true →
        (s.debugEnabled = true → placeOf addr.toNat = some (.block b, base, len) → Leads (.debugRegisterAccess false addr value) s fun s' =>
          s' = { s with debugPort := { s.debugPort with answer := (s.read (whoIs 0x405) addr.toNat 4).2 } })
        ∧ (s.debugEnabled = true → placeOf addr.toNat = some (.block b, base, len) → Leads (.debugRegisterAccess true addr value) s fun s' =>
          let w := (s.write (whoIs 0x405) addr.toNat (leBytes 4 value.toNat)).2
          s' = { w with debugPort := { w.debugPort with answer := [] } })
        ∧ (s.debugEnabled = false → Leads (.debugRegisterAccess false addr value) s fun s' => s'.debugPort = { s.debugPort with answer := [0, 0, 0, 0] }
          ∧ s'.fld (aVal 0x224) 1 1 = 1 ∧ s.onlyRegs { s' with debugPort := s.debugPort } [aVal 0x224]))

/-- R487, R488, R491, R498 to R501: the start, and the firmware processors. The ROM starts the security core from the slot that it
chooses, and where none boots the module stays. The security core starts the two Vale cores, applies the configuration block and
draws the module's mode from it, SERVICE where the block's header is not good. A lea's control core runs once its Meadow's link is
up. M6 is extended once with both Heaths' measurements, or after 1 s with what can be read. 10 s after LOADED the boot has settled.
A crash stops a processor with its cause; the fourth within 60 s holds it; a restart makes it run again, with its count and cause.
-/
def Obligations.StartAndProcessors : Prop :=
  ∀ (s u : State) (r : RomChoice) (i : Nat) (l : LeaId) (code : BitVec 8) (imem : Bool),
    let c := code.toNat
    let p := s.proc c
    let recent := p.crashes.filter fun t => decide (s.now ≤ t + 60000000000)
    let started := s.boot.phase = 3 ∧ s.secRunning = true
    let block := s.componentBytes (s.proc 0).slot 5
    s.frozen = false →
    (s.boot.phase = 1 → s.romBoot valeSlot s.valeRoot false [] = (u, r) →
      (r.slot = none → Leads (.romBoot []) s fun s' => s'.boot.phase = 4 ∧ s'.reg (aSec 4) = bootWord r 0 % 2 ^ 64 ∧ s'.mode = s.mode
        ∧ s.onlyRegs { s' with boot := s.boot, flash := s.flash } [aSec 4])
      ∧ (r.slot = some i → i < 2 → Leads (.romBoot []) s fun s' => s'.boot.phase = 2 ∧ s'.secRunning = true ∧ s'.fld (aSec 0) 5 5 = i
        ∧ s'.reg (aSec 8) = hdrSvn (u.slotHeader (valeSlot i)) ∧ s'.boot.startAt = s.now ∧ (s'.proc 0).st = 1 ∧ (s'.proc 0).slot = i))
    ∧ (s.boot.phase ≠ 1 → exec (.romBoot []) s = .next s)
    ∧ (s.boot.phase = 2 → s.secRunning = true → Leads .securityCoreStart s fun s' => s'.boot.phase = 3 ∧ (s'.proc 1).st = 1 ∧ (s'.proc 2).st = 1
        ∧ bit (s'.reg (aVal 0x18)) 7 = true ∧ s'.boot.loadedAt = s.now ∧ s'.fwLocked = true ∧ (cfgHeaderOk block = false → s'.mode = 4))
    ∧ (started → s.linkUp l.die 2 = true → (s.proc (leaCode l.die l.lea)).st = 0 → Leads (.leaCoreLoad l) s fun s' =>
        (s'.lea (leaKey l.die l.lea)).coreUp = true ∧ (s'.proc (leaCode l.die l.lea)).st = 1 ∧ s'.boot.m4 = true
          ∧ (s.boot.m4 = true → s'.regs = s.regs))
    ∧ (s.linkUp l.die 2 = false → exec (.leaCoreLoad l) s = .next s)
    ∧ (started → s.boot.m6 = false → ((s.heathMeasure 0).isSome = true ∧ (s.heathMeasure 1).isSome = true ∨ s.boot.startAt + 1000000000 < s.now) →
        Leads .heathMeasRead s fun s' => s'.boot.m6 = true ∧ s'.boot.heathMeas = [s.heathMeasure 0, s.heathMeasure 1]
          ∧ (s.boot.log.length + 2 ≤ 1024 → s'.boot.log.length = s.boot.log.length + 2) ∧ s'.mem = s.mem)
    ∧ ((s.boot.m6 = true ∨ ((s.heathMeasure 0 = none ∨ s.heathMeasure 1 = none) ∧ s.now ≤ s.boot.startAt + 1000000000)) →
        exec .heathMeasRead s = .next s)
    ∧ (started → s.boot.settled = false → bit (s.reg (aVal 0x18)) 7 = true → (∀ e ∈ s.procs, e.2.st ≠ 3) →
        (s.boot.loadedAt + 10000000000 ≤ s.now → Leads .bootSettle s fun s' => s'.boot = { s.boot with settled := true } ∧ s'.regs = s.regs
          ∧ s' = { s with boot := s'.boot, flash := s'.flash })
        ∧ (s.now < s.boot.loadedAt + 10000000000 → exec .bootSettle s = .next s))
    ∧ (∀ e ∈ [(Instr.fwWatchdogExpiry code, 1), (.fwUnhandledTrap code, 2), (.fwMemoryUe code imem, 3)],
        (codeOk c = true → p.st = 1 → recent.length < 3 → Leads e.1 s fun s' => (s'.proc c).st = 2 ∧ (s'.proc c).cause = e.2
          ∧ (s'.proc c).since = s.now ∧ (s'.proc c).crashes = s.now :: recent ∧ ∀ x, x ≠ c → s'.proc x = s.proc x)
        ∧ (codeOk c = true → p.st = 1 → 3 ≤ recent.length → Leads e.1 s fun s' => (s'.proc c).st = 3 ∧ s'.reported 4 "FW_RESTART_LOOP" c 0)
        ∧ ((codeOk c = false ∨ p.st ≠ 1) → exec e.1 s = .next s))
    ∧ (codeOk c = true → p.st = 2 → (c ≠ 0 → s.secRunning = true) → p.reload = false → p.cause ≤ 4 → Leads (.fwRestartDone code) s fun s' =>
        (s'.proc c).st = 1 ∧ (c ≠ 2 → s'.reg (aSec 0x24) = c + p.cause * 2 ^ 8 ∧ s'.fld (aSec 0x20) 31 0 = satInc 32 (s.fld (aSec 0x20) 31 0) 1)
          ∧ (c = 0 → s'.secRunning = true) ∧ (c < 2 → s'.reported 4 "FW_RESTART" c p.cause)
          ∧ (0x40 ≤ c → s'.reported ((c - 0x40) / 16) "LEA_CORE_RESTARTED" 0 0))
    ∧ ((p.st ≠ 2 ∨ (c ≠ 0 ∧ s.secRunning = false)) → exec (.fwRestartDone code) s = .next s)

/-! ## Attestation and service -/

/-- The connection `p` has answered with `out` and stands at `x`; nothing else of the module but the count of free values has moved.
-/
def Answered (s s' : State) (p : Nat) (x : Spdm) (out : List Byte) : Prop :=
  s'.spdm p = { x with out := out } ∧ (∀ q, q ≠ p → s'.spdm q = s.spdm q)
    ∧ s' = { s with free := s'.free, boot := { s.boot with spdm := s'.boot.spdm } }

/-- R494, R495: `sig` is a signature of the transcript with the identity key, under some number of the responder's. -/
def SignedBy (s : State) (context : String) (transcript sig : List Byte) : Prop :=
  ∃ k, let z := ecdsaSign (idKey (leBytes 32 s.fuses.secret) 256 0) (beNat (sha256 (spdmPrefix context ++ sha256 transcript))) k
    sig = beBytes 32 z.1 ++ beBytes 32 z.2

/-- R494 to R496: the SPDM 1.2 responder. VERSION, CAPABILITIES and ALGORITHMS follow one another; then DIGESTS answer with the
SHA-256 of the chain, CERTIFICATE with its portion, CHALLENGE_AUTH with a fresh nonce and a signature by the identity key, and
MEASUREMENTS with the register asked for. A request out of its order is answered with ERROR 0x04, one of another version with 0x41,
and any while the security core is not RUNNING with 0x03. DOE discovery lists discovery and CMA/SPDM. The message layouts are the
model's (assumption 40). -/
def Obligations.Attestation : Prop :=
  ∀ (s : State) (p : Fin 2) (req : List Byte) (index : Byte) (n : Fin 8),
    let x := s.spdm p
    let code := hdr req 1 1
    let v12 := hdr req 0 1 = 0x12
    let chain := s.certChain
    let off := hdr req 4 2
    let len := min (min (hdr req 6 2) (chain.length - off)) 4080
    let all := fun (P : Instr → Prop) => (∀ e ∈ [(Instr.getCapabilities p req, 0xE1), (.negotiateAlgorithms p req, 0xE3), (.getDigests p req, 0x81),
      (.getCertificate p req, 0x82), (.challenge p req, 0x83), (.getMeasurements p req, 0xE0)], code = e.2 → P e.1)
    s.frozen = false → s.boot.phase ≠ 0 →
    (s.secRunning = true →
      (code = 0x84 → hdr req 0 1 = 0x10 → Leads (.getVersion p req) s fun s' =>
        Answered s s' p { spdmFresh with step := 1, vca := req ++ [0x10, 0x04, 0, 0, 0, 1, 0, 0x12] } [0x10, 0x04, 0, 0, 0, 1, 0, 0x12])
      ∧ (v12 → code = 0xE1 → x.step = 1 → Leads (.getCapabilities p req) s fun s' => ∃ out, out.length = 20 ∧ out.take 12 =
          [0x12, 0x61, 0, 0, 0, 14, 0, 0, 0x16, 0, 0, 0] ∧ Answered s s' p { x with step := 2, vca := x.vca ++ req ++ out } out)
      ∧ (v12 → code = 0xE3 → x.step = 2 → bit (hdr req 8 4) 4 = true → bit (hdr req 12 4) 0 = true → Leads (.negotiateAlgorithms p req) s fun s' =>
          ∃ out, out.length = 36 ∧ (out.drop 8).take 12 = [2, 0, 0, 0, 0x10, 0, 0, 0, 1, 0, 0, 0]
            ∧ Answered s s' p { x with step := 3, vca := x.vca ++ req ++ out } out)
      ∧ (v12 → code = 0x81 → x.step = 3 → Leads (.getDigests p req) s fun s' => let out := [0x12, 0x01, 0, 1] ++ sha256 chain
          Answered s s' p { x with certs := x.certs ++ req ++ out, meas := [] } out)
      ∧ (v12 → code = 0x82 → x.step = 3 → hdr req 2 1 % 16 = 0 → off < chain.length → Leads (.getCertificate p req) s fun s' =>
          let out := [0x12, 0x02, 0, 0] ++ leBytes 2 len ++ leBytes 2 (chain.length - off - len) ++ (chain.drop off).take len
          Answered s s' p { x with certs := x.certs ++ req ++ out, meas := [] } out)
      ∧ (v12 → code = 0x83 → x.step = 3 → 36 ≤ req.length → hdr req 2 1 = 0 → hdr req 3 1 = 0 → Leads (.challenge p req) s fun s' =>
          ∃ nonce sig, nonce.length = 32 ∧ SignedBy s "responder-challenge_auth signing"
              (x.vca ++ x.certs ++ req ++ [0x12, 0x03, 0, 1] ++ sha256 chain ++ nonce ++ [0, 0]) sig
            ∧ Answered s s' p { x with certs := [], meas := [] } ([0x12, 0x03, 0, 1] ++ sha256 chain ++ nonce ++ [0, 0] ++ sig))
      ∧ (v12 → code = 0xE0 → x.step = 3 → hdr req 3 1 = n.val + 1 → bit (hdr req 2 1) 0 = false → Leads (.getMeasurements p req) s fun s' =>
          ∃ nonce, nonce.length = 32 ∧ let out := [0x12, 0x60, 0, 0, 1] ++ leBytes 3 (s.measBlock n).length ++ s.measBlock n ++ nonce ++ [0, 0]
            Answered s s' p { x with meas := x.meas ++ req ++ out } out)
      ∧ (v12 → x.step = 0 → all fun i => Leads i s fun s' => Answered s s' p x [0x12, 0x7F, 4, 0])
      ∧ (¬ v12 → all fun i => Leads i s fun s' => Answered s s' p x [0x12, 0x7F, 0x41, 0]))
    ∧ (s.secRunning = false → all fun i => Leads i s fun s' => Answered s s' p x [0x12, 0x7F, 3, 0])
    ∧ (Leads (.doeDiscovery index) s fun s' => s' = { s with boot := { s.boot with doe := s'.boot.doe } }
        ∧ s'.boot.doe = (if index = 0 then [1, 0, 0, 1] else if index = 1 then [1, 0, 1, 0] else [0xFF, 0xFF, 0, 0]))

/-- R502, R503: the request of mailbox `m` has ended with a status and those of the Heaths' parts. -/
def ServedWith (s' : State) (m status a b : Nat) : Prop :=
  s'.reg (aBox m 0x14) = status + a * 2 ^ 8 + b * 2 ^ 16 ∧ bit (s'.reg (aBox m 0)) 31 = false ∧ s'.boot.lastBox = m ∧ s'.boot.serving = none

/-- R502 to R506: service requests, when it is their turn. STAGE programs the image into the slot that is not running, and
HEATH_STAGE into each Heath's other slot; an image that reads back wrong ends with 0x05, a bad one with 0x0F, and a bad range with
the status of its check. ACTIVATE restarts the processors whose component differs one by one onto the staged slot, and
HEATH_ACTIVATE resets Heath B and then Heath A; each ends with its event. ARB_COMMIT raises the counter to the running SVN.
FLASH_READ and LOG_READ copy into DRAM, where no pseudo-channel has failed. REVOKE revokes a programmed key that is not the running
image's, and refuses another with 0x0F. A request whose turn it is not does nothing. -/
def Obligations.ServiceRequests : Prop :=
  ∀ (s : State) (m : Fin 2) (readback : Bool) (c : Nat),
    let other := 1 - s.fld (aSec 0) 5 5
    let x := valeSlot other
    let image := s.bytes (s.boxAddr m) (s.boxLen m)
    let placed := ((s.putRecord x 4 0).flashErase x.dev x.base x.size).flashWrite x.dev x.base image
    let k := s.boxArg m
    let src := s.fld (aBox m 0x18) 26 0
    let n := s.boxLen m
    let to_ := s.boxAddr m
    let sound := ∀ d < 4, s.reg (aDmc d 0x0C) = 0
    let counters := fun s' : State => s'.reg (aSec 0x10) = s.reg (aSec 8) ∧ s'.fuses.words = s.fuses.words - 1
    s.frozen = false →
    (s.serves m 1 = true →
      (oneOf (s.stageFails m 0x1000000) = 0 →
        (readback = true → placed.imageGood x s.valeRoot false image.length = true → Leads (.stage m readback) s fun s' => ServedWith s' m 0 0 0
          ∧ s'.flashBytes other 0 image.length = image ∧ s'.reported 4 "FW_STAGED" 0 (hdrSvn (s'.slotHeader x)))
        ∧ (readback = false → Leads (.stage m readback) s fun s' => ServedWith s' m 5 0 0)
        ∧ (readback = true → placed.imageGood x s.valeRoot false image.length = false → Leads (.stage m readback) s fun s' => ServedWith s' m 0x0F 0 0))
      ∧ (oneOf (s.stageFails m 0x1000000) ≠ 0 → Leads (.stage m readback) s fun s' => (∃ st ∈ s.stageFails m 0x1000000, st ≠ 0 ∧ ServedWith s' m st 0 0)
          ∧ s'.flash = s.flash))
    ∧ (s.serves m 4 = true → let a := s.heathStage m 0 readback
        let b := a.2.heathStage m 1 readback
        Leads (.heathStage m readback readback) s fun s' => ServedWith s' m (partStatus a.1 b.1) a.1 b.1
          ∧ (s.heathAnswers 0 = false → oneOf (s.stageFails m 0x400000) = 0 → a.1 = 8)
          ∧ (oneOf (s.stageFails m 0x400000) = 0 → s.heathAnswers 0 = true → readback = false → a.1 = 5))
    ∧ (s.serves m 2 = true →
        (s.boot.serving = none → s.mayActivate other = false → Leads (.activate m) s fun s' => ServedWith s' m 0x0F 0 0)
        ∧ ((s.boot.serving.isSome = true ∨ s.mayActivate other = true) → (∀ y ∈ activateOrder, (s.proc y).st ≠ 2) →
          (activateOrder.find? (s.differs other) = some c → Leads (.activate m) s fun s' => (s'.proc c).st = 2 ∧ (s'.proc c).cause = 4
            ∧ (s'.proc c).slot = other ∧ s'.boot.serving = some (m.val, 0, 0) ∧ ∀ y, y ≠ c → s'.proc y = s.proc y)
          ∧ (activateOrder.find? (s.differs other) = none → Leads (.activate m) s fun s' => ServedWith s' m 0 0 0
            ∧ s'.reported 4 "FW_ACTIVATED" 0 0)))
    ∧ (s.serves m 5 = true →
        (s.heathPart 0 = 0 → s.heathPart 1 = 0 → s.boot.serving = none → s.boot.heathNext = none → Leads (.heathActivate m) s fun s' => (s'.heath 1).up = false ∧ s'.heath 0 = s.heath 0
          ∧ s'.boot.serving = some (m.val, 0, 0) ∧ s'.boot.heathNext = some 0)
        ∧ (s.boot.serving = some (m.val, 0, 0) → s.boot.heathNext = some 0 → s.heathReturned 1 = true → Leads (.heathActivate m) s fun s' =>
            (s'.heath 0).up = false ∧ s'.heath 1 = s.heath 1 ∧ s'.boot.heathNext = some 2)
        ∧ (s.boot.serving = some (m.val, 0, 0) → s.boot.heathNext = some 2 → s.heathReturned 0 = true → Leads (.heathActivate m) s fun s' =>
            ServedWith s' m 0 0 0 ∧ s'.reported 4 "FW_ACTIVATED" 0 0))
    ∧ (s.serves m 3 = true → (s.slotRecord (valeSlot (s.fld (aSec 0) 5 5))).1 = 2 → bit (s.reg (aSec 0)) 6 = false →
        s.heathAnswers 0 = false → s.heathAnswers 1 = false →
        (s.reg (aSec 0x10) < s.reg (aSec 8) → 0 < s.fuses.words → Leads (.arbCommit m) s fun s' => counters s' ∧ ServedWith s' m 0 8 8
          ∧ s'.reported 4 "ARB_RAISED" (s.reg (aSec 8)) 0)
        ∧ (s.reg (aSec 8) ≤ s.reg (aSec 0x10) → Leads (.arbCommit m) s fun s' => ServedWith s' m 0 8 8 ∧ s'.fuses = s.fuses))
    ∧ (s.serves m 6 = true → k = 0 → oneOf (s.rangeFails m) = 0 → src % 2 ^ 26 + n ≤ 0x4000000 → Leads (.flashRead m) s fun s' => ServedWith s' m 0 0 0
        ∧ (n ≠ 0 → to_ + n ≤ 0x001000000000 → sound → s'.bytes to_ n = s.flashBytes (src / 2 ^ 26) (src % 2 ^ 26) n) ∧ s'.flash = s.flash)
    ∧ (s.serves m 6 = true → 2 < k → Leads (.flashRead m) s fun s' => s'.mem = s.mem ∧ bit (s'.reg (aBox m 0)) 31 = false)
    ∧ (s.serves m 7 = true → oneOf (s.rangeFails m) = 0 → 64 * s.boot.log.length ≤ n → (∀ e ∈ s.boot.log, e.length = 64) → Leads (.logRead m) s fun s' =>
        ServedWith s' m 0 0 0 ∧ (to_ + n ≤ 0x001000000000 → sound → s'.bytes to_ (64 * s.boot.log.length) = s.boot.log.flatten))
    ∧ (s.serves m 8 = true →
        (k < 4 → bit (s.reg (aSec 0x18)) k = true → k ≠ s.fld (aSec 4) 13 12 → Leads (.revoke m) s fun s' => ServedWith s' m 0 0 0
          ∧ bit (s'.reg (aSec 0x18)) (4 + k) = true ∧ (∀ b, b ≠ 4 + k → bit (s'.reg (aSec 0x18)) b = bit (s.reg (aSec 0x18)) b))
        ∧ ((4 ≤ k ∨ bit (s.reg (aSec 0x18)) k = false ∨ k = s.fld (aSec 4) 13 12) → Leads (.revoke m) s fun s' =>
          ServedWith s' m 0x0F 0 0 ∧ s'.reg (aSec 0x18) = s.reg (aSec 0x18)))
    ∧ (∀ e ∈ [(Instr.stage m readback, 1), (.activate m, 2), (.arbCommit m, 3), (.heathStage m readback readback, 4), (.heathActivate m, 5),
        (.flashRead m, 6), (.logRead m, 7), (.revoke m, 8)], s.serves m e.2 = false → exec e.1 s = .next s)

/-! ## Host ports and register writes -/

/-- R562, R572: of what port A's reset touches, nothing but its own registers, EFF_HOST, the function, and what events leave. -/
def PortAOnly (s t : State) : Prop :=
  t = { s with
      mem := t.mem, poison := t.poison, spoilt := t.spoilt, regs := t.regs, collectors := t.collectors, host := t.host
      boot := { s.boot with doe := t.boot.doe }, debugPort := { s.debugPort with hostAt := t.debugPort.hostAt }
      sched := { s.sched with ringSeq := t.sched.ringSeq, evWait := t.sched.evWait } }
    ∧ ∀ a, a ∉ [aVal 0x10, aVal 0x200, aVal 0x220, aSch 0x34] → (∀ set < 4, a ≠ aRing set 0x30) → t.reg a = s.reg a

/-- R562, R566, R567, R571, R572: the links of the host ports. PERST_A_N low takes port A down alone, resets its function and clears
EFF_HOST; its rise changes its pin only. A port that may train shows its link, its speed and width, with an event where it was down;
EFF_HOST follows HOST_CFG. A port whose link goes down says so; one that may not train stays as it is. The device behind port B is
enumerated where the security core runs. A Heath's SGMII link is up on 1 Gb/s full duplex only. -/
def Obligations.HostLinks : Prop :=
  ∀ (s : State) (speed : Fin 8) (width : Fin 16) (h : Fin 2) (up gig full : Bool), let v := s.reg (aVal 0x18)
    let good := 1 ≤ speed.val ∧ speed.val ≤ 5 ∧ width.val ∈ [1, 2, 4, 8]
    let downA := fun (s' : State) => s'.fld (aVal 0x200) 7 0 = 0 ∧ s'.fld (aVal 0x200) 11 9 = 0 ∧ bit (s'.reg (aVal 0x10)) 12 = false
      ∧ s'.host.bar0 = 0 ∧ s'.host.bar2 = 0 ∧ s'.host.msixEnable = false ∧ s'.host.msixPending = 0 ∧ s'.reported 4 "PCIE_LINK" 0 0
    (s.frozen = false → s.pciaUp = true →
        Leads (.perstAChange true) s fun s' => downA s' ∧ s'.fld (aVal 0x220) 1 1 = 0 ∧ PortAOnly s s')
    ∧ Leads (.perstAChange false) s (fun s' => s'.fld (aVal 0x220) 1 1 = 1 ∧ s.onlyRegs s' [aVal 0x220])
    ∧ (s.frozen = false →
        (good → s.pciaMayTrain = true → Leads (.pcieLinkChange false true speed width) s fun s' =>
          s'.fld (aVal 0x200) 7 0 = linkWord speed width ∧ bit (s'.reg (aVal 0x10)) 12 = (bit v 7 && bit v 3)
            ∧ (s.pciaUp = false → s'.reported 4 "PCIE_LINK" 0 1) ∧ PortAOnly s s')
        ∧ ((¬ good ∨ s.pciaMayTrain = false) → exec (.pcieLinkChange false true speed width) s = .next s)
        ∧ (s.pciaUp = true → Leads (.pcieLinkChange false false speed width) s fun s' => downA s' ∧ PortAOnly s s')
        ∧ (s.pciaUp = false → exec (.pcieLinkChange false false speed width) s = .next s)
        ∧ (good → s.pcibMayTrain = true → s.fld (aVal 0x208) 0 0 = 0 → Leads (.pcieLinkChange true true speed width) s fun s' =>
            s'.fld (aVal 0x208) 7 0 = linkWord speed width ∧ s'.fld (aVal 0x208) 9 9 = b2n s.secRunning ∧ s'.reported 4 "PCIE_LINK" 1 1)
        ∧ ((¬ good ∨ s.pcibMayTrain = false) → exec (.pcieLinkChange true true speed width) s = .next s)
        ∧ (s.fld (aVal 0x208) 0 0 = 1 → Leads (.pcieLinkChange true false speed width) s fun s' =>
            s'.reg (aVal 0x208) = 0 ∧ s'.reported 4 "PCIE_LINK" 1 0 ∧ ∀ a, a ≠ aVal 0x208 → a ≠ aSch 0x34 →
              (∀ set < 4, a ≠ aRing set 0x30) → s'.reg a = s.reg a))
    ∧ (s.host.sgmii.length = 2 → Leads (.sgmiiLinkChange h up gig full) s fun s' =>
        s'.host.sgmii[h.val]? = some ((s.heath h).up && up && gig && full) ∧ s'.host.sgmii[1 - h.val]? = s.host.sgmii[1 - h.val]?
          ∧ s' = { s with host := { s.host with sgmii := s'.host.sgmii } })

/-- R443: of a refused write of `bs` at `a`, nothing but lines of it, where it has several, may have been performed. -/
def RefusedWrite (s t : State) (a : Nat) (bs : List Byte) : Prop :=
  let r := s.real a
  t = { s with mem := t.mem, poison := t.poison, spoilt := t.spoilt, free := t.free } ∧ ((linesOf a bs.length).length ≤ 1 → t = s)
    ∧ (∀ x, (x < r ∨ r + bs.length ≤ x) → t.byte x = s.byte x)
    ∧ ∀ i < bs.length, t.byte (r + i) = s.byte (r + i) ∨ some (t.byte (r + i)) = bs[i]?

/-- R563 to R566: requests at the host ports. Port A shows its header; its BARs take their sizes' bits, and Memory Space Enable and
Bus Master Enable stand in VAL_PCIA_STATUS. A read or a posted write through a BAR is the device access of the port's initiator and
ends as R564 says, a refusal being counted and its lines of DRAM charged; it waits where a controller does not take it; one outside
the BARs, or with Memory Space Enable 0, is an Unsupported Request. A vector that may send sends its table's message, at most one in
2 µs; one that may not holds its pending bit. A completion timeout at port B fails the running command whose image lies there, with
its event; a request of its device is an Unsupported Request. -/
def Obligations.HostRequests : Prop :=
  ∀ (s : State) (value : Word32) (addr : Word) (len : BitVec 13) (data : List Byte) (a : Nat) (vec : Fin 4) (status : Word32) (j : Job) (c : Cmd),
    let cfg := fun (d : Fin 1024) (P : State → Prop) => Leads (.pcieConfigRequest true d 15 value) s fun s' => P s' ∧ s'.mem = s.mem ∧ s'.sched = s.sched
    let n := len.toNat
    let r := s.read (whoIs initPcieA) a n
    let w := s.write (whoIs initPcieA) a data
    let at_ := s.barAddr addr.toNat n
    let to_ := s.barAddr addr.toNat data.length
    let readable := (at_.all fun a => s.dramTakes 4 false a n) = true
    let writable := (to_.all fun a => s.dramTakes 4 true a data.length) = true
    let counted := fun (b s' : State) => s'.fld (aVal 0x204) 31 0 = min (s.fld (aVal 0x204) 31 0 + 1) 0xFFFFFFFF
      ∧ b.onlyRegs { s' with host := b.host } [aVal 0x204]
    let atB := fun (c : Cmd) => decide (c.kind = 4) && decide (ckDest c.words = 2)
    s.frozen = false →
    (s.pciaUp = true →
      (Leads (.pcieConfigRequest false 0 15 value) s fun s' => s'.host.completion = 0 ∧ leNat s'.host.readData / 2 ^ 16 = 0x0D18
          ∧ s' = { s with host := s'.host })
      ∧ (Leads (.pcieConfigRequest false 2 15 value) s fun s' => s'.host.readData = leBytes 4 0x120000B0 ∧ s' = { s with host := s'.host })
      ∧ cfg 1 (fun s' => s'.fld (aVal 0x200) 11 11 = bits value.toNat 1 1 ∧ s'.fld (aVal 0x200) 10 10 = bits value.toNat 2 2
          ∧ s.onlyRegs { s' with host := s.host } [aVal 0x200])
      ∧ cfg 4 (fun s' => s'.pciConfig 4 = bits value.toNat 31 28 * 2 ^ 28 + 4 ∧ s'.regs = s.regs)
      ∧ cfg 5 (fun s' => s'.pciConfig 5 = value.toNat ∧ s'.regs = s.regs)
      ∧ cfg 7 (fun s' => s'.pciConfig 7 = bits value.toNat 31 4 * 16 ∧ s'.regs = s.regs)
      ∧ (1 ≤ n → n ≤ 4096 → readable →
          ((s.pciaTakes = false ∨ at_ = none) → Leads (.pcieInboundRead addr len) s fun s' =>
            s' = { s with host := { s.host with completion := 1, readData := [] } })
          ∧ (s.pciaTakes = true → at_ = some a → s.msixByte a = none → Leads (.pcieInboundRead addr len) s fun s' =>
              (r.1 = 0 → s' = { s.chargeAs 4 0xFF9 false a n with host := { s.host with completion := 0, readData := r.2 } })
              ∧ (r.1 = 4 → s'.host.completion = 1 ∧ counted s s') ∧ (r.1 = 8 → s'.host.completion = 4 ∧ counted s s')
              ∧ (r.1 = 5 → s'.host.completion = 8 ∧ s'.regs = s.regs)))
      ∧ (1 ≤ data.length → data.length ≤ 512 → writable →
          ((s.pciaTakes = false ∨ to_ = none) → Leads (.pcieInboundWrite addr data) s fun s' =>
            bit s'.host.aer 20 = true ∧ s' = { s with host := { s.host with aer := s'.host.aer } })
          ∧ (s.pciaTakes = true → to_ = some a → s.msixByte a = none → Leads (.pcieInboundWrite addr data) s fun s' =>
              (w.1 = 0 → s' = w.2.chargeAs 4 0xFF9 true a data.length)
              ∧ (w.1 = 4 → bit s'.host.aer 20 = true ∧ counted w.2 s' ∧ RefusedWrite s w.2 a data) ∧ (w.1 = 8 → bit s'.host.aer 15 = true ∧ counted s s'))))
    ∧ (s.pciaUp = false → ∀ d, exec (.pcieConfigRequest false d 15 value) s = .next s ∧ exec (.pcieInboundRead addr len) s = .next s
        ∧ exec (.pcieInboundWrite addr data) s = .next s)
    ∧ (¬ readable → exec (.pcieInboundRead addr len) s = .next s) ∧ (¬ writable → exec (.pcieInboundWrite addr data) s = .next s)
    ∧ ((bit s.host.msixDue vec = true ∨ bit s.host.msixPending vec = true) →
        let e := fun (k : Nat) => readAt msixReset s.host.msixTable (4 * vec + k)
        let last := readAt (fun _ => 0) s.host.msixSent vec
        (s.msixMay vec = true → (last = 0 ∨ last + 2000 ≤ s.now + 1) → Leads (.msixMessage vec) s fun s' =>
            s'.host.message = some (e 0 + e 1 * 2 ^ 32, e 2) ∧ bit s'.host.msixDue vec = false ∧ bit s'.host.msixPending vec = false
              ∧ s' = { s with host := s'.host })
        ∧ (s.msixMay vec = true → last ≠ 0 → s.now + 1 < last + 2000 → exec (.msixMessage vec) s = .next s)
        ∧ (s.msixMay vec = false → Leads (.msixMessage vec) s fun s' => bit s'.host.msixPending vec = true
            ∧ bit s'.host.msixDue vec = false ∧ s'.host.message = s.host.message ∧ s' = { s with host := s'.host }))
    ∧ (s.inFlight.filter atB = [] → Leads (.pcieCompletionTimeout status) s fun s' =>
        s'.reported 4 "PCIE_ERR" status.toNat 0 ∧ s.eventOnly s')
    ∧ (s.curJob = some j → j.phase = .running → NamedAlone s j → s.inFlight.filter atB = [c] → s.cmd c.ref = some c → c.phase = .running →
        c.due = false →
        Leads (.pcieCompletionTimeout status) s fun s' => s'.reported 4 "PCIE_ERR" status.toNat 0
          ∧ (s.workDies c = [] → CameTo s' j c.ref fun x => x.phase = .failed ∧ x.endStatus = 8)
          ∧ (s.workDies c ≠ [] → ∃ x, s'.cmd c.ref = some x ∧ x.phase = .killing))
    ∧ (s.fld (aVal 0x208) 0 0 = 1 → exec .portBInboundRequest s = .next { s with host := { s.host with completionB := 1 } })

/-- R10, R12, R219, R502: a register that has no behaviour of its own takes, of a write by an initiator that may write it, the bits
of its RW fields, and nothing else changes: the mailboxes' operand registers while no request is at work, the ring bases of a
disabled set, and DMC_CE_THRESH. Another initiator's write, a write of a ring base of an enabled set, and one in a block of
read-only registers change nothing. -/
def RegisterWrites : Prop :=
  ∀ (s : State) (init : Init) (addr : Addr) (value : Word) (m : Fin 2) (set : Fin 4) (d : Fin 4) (o : Nat),
    let a := addr.toNat
    let v := value.toNat
    let stored := fun (n : Nat) => Leads (.registerWrite init addr value) s fun s' =>
      s'.fld a (n - 1) 0 = v % 2 ^ n ∧ s.onlyRegs s' [a]
    let discarded := exec (.registerWrite init addr value) s = .next s
    s.frozen = false →
    (∀ e ∈ [(0x08, 48), (0x10, 32), (0x18, 27)], a = aBox m e.1 →
        (init.toNat = boxOwner m → bit (s.reg (aBox m 0)) 31 = false → stored e.2) ∧ (init.toNat ≠ boxOwner m → discarded))
    ∧ (∀ k < 3, a = aRing set (8 * k) →
        (init.toNat = ringOwner set → s.ringEn set = false → stored 48)
        ∧ ((init.toNat ≠ ringOwner set ∨ s.ringEn set = true) → discarded))
    ∧ (a = aDmc d 0x1C → (init.toNat = initSec → s.meadowUp d = true → stored 16) ∧ ((init.toNat ≠ initSec ∨ s.meadowUp d = false) → discarded))
    ∧ (o < 0x10000 → (a = aPwr o ∨ a = aMdw d o ∨ a = aPwrDie d o) → discarded)

/-- R10, R12, R109, R219, R246, R315, R344, R367, R387, R416, R502, R534: writes of registers: those that clear counters, and those
without behaviour of their own. -/
def Obligations.RegisterWritesAndClears : Prop := CounterClears ∧ RegisterWrites


/-- R12: a read of an offset that its block does not define answers zeros and a write to one changes nothing, neither with an error;
an access outside every block, and one that a firewall refuses, ends with FIREWALL_DENY and changes nothing, but that admitted lines
of a write that has a refused one may have been performed (R443). A Heath's block, which
its firewall guards whole, is left out of the first clause. -/
def Obligations.UndefinedOffsetsAndRefusals : Prop :=
  ∀ (s : State) (who : Who) (a : Nat) (b : Block) (base len : Nat) (bs : List Byte),
    (placeOf a = some (.block b, base, len) → (∀ h, b ≠ .ht h ∧ b ≠ .fdlHeath h) → s.targetUp a = true → a % 4 = 0 → bs.length = 4 →
        (∀ i < 4, regAt (a + i) = none) → writeOnly b (a - base) = false →
        s.write who a bs = (0, s) ∧ (s.access who false a 4 = 0 → s.readPoison a 4 = false → s.read who a 4 = (0, [0, 0, 0, 0])))
    ∧ (placeOf a = none → s.write who a bs = (4, s) ∧ ∀ n, s.read who a n = (4, []))
    ∧ (∀ r o, placeOf a = some (.block b, base, len) → regAt a = some (r, a) → o = a - base → bs.length = r.bytes → a + r.bytes ≤ base + len →
        s.regMay who.init b o = false → s.write who a bs = (4, s))
    ∧ (∀ d l, (placeOf a = some (.dram, base, len) ∨ placeOf a = some (.pool d l, base, len)) → 0 < bs.length → a + bs.length ≤ base + len →
        ((∃ x ∈ linesOf a bs.length, ∀ k, s.fwAdmits k who true x = false) → (s.write who a bs).1 = 4 ∧ RefusedWrite s (s.write who a bs).2 a bs)
        ∧ ((∃ x ∈ linesOf a bs.length, ∀ k, s.fwAdmits k who false x = false) → s.read who a bs.length = (4, [])))

/-! ## The module fabric: ports, frames and remote accesses -/

/-- A frame with these contents has left for `dst` by port `q` (R515). -/
def FrameSent (t : State) (q dst : Nat) (o : ColOut) : Prop :=
  ∃ x ∈ t.col.sent, x.port = q ∧ bits x.w0 11 0 = dst ∧ bits x.w0 27 24 = o.type ∧ bits x.w3 27 20 = o.sub ∧ bits x.w3 7 0 = o.status
    ∧ bits x.w2 47 0 = o.addr ∧ bits x.w2 57 48 = o.rtag ∧ x.data = o.data ∧ x.fields = o.fields

/-- R518: the module holds a current key, under which it may send every frame. -/
def Keyed (s : State) : Prop := (s.col.cur.bind s.colKey).isSome = true

/-- R511: the port trains from now on, and its partner is unknown. -/
def TrainsAnew (s t : State) (p : Nat) : Prop :=
  t.colState p = 2 ∧ (t.colPort p).trainAt = s.now ∧ (t.colPort p).unc = [] ∧ t.fld (aColPort p 0) 18 6 = 0

/-- R515 to R518, R523, R524: which frames are taken. A frame at a port that is not UP, one of another type and one for another
module are left; one whose layout is broken is dropped and counted in COL_DROP; of a module with a key, one in the clear, one whose
tag fails under its key, and one whose SEQ was accepted before, are dropped and counted in COL_AUTH_FAIL, and the time of the first
is kept. An accepted HEARTBEAT counts the codewords, renews its port's time, records the sender's mode, and its SEQ is not accepted
again; with 8 uncorrectable codewords within 1 ms its port trains anew. A frame for another module leaves by its route with TTL less
1, or is dropped and counted. -/
def Obligations.FabricFrames : Prop :=
  ∀ (s : State) (p : Fin 4) (frame : List Byte) (fec unc a : Nat) (k : ColKey) (pt : List Nat), let f := colParse p frame
    let beat := Instr.colHeartbeat p frame fec unc
    let rows := [(Instr.colRd p frame, 1, false), (.colRdrsp p frame, 2, false), (.colWr p frame, 3, false), (.colWrack p frame, 4, false), (beat, 9, true)]
    let quiet : State := { s with col := { s.col with sent := [] } }
    let lately := ((((s.now, unc) :: (s.colPort p).unc).filter fun e => decide (s.now < e.1 + 1000000)).map (·.2)).sum
    let counted := fun (o : Nat) (s' : State) => s'.fld (aCol o) 31 0 = min (s.fld (aCol o) 31 0 + 1) 0xFFFFFFFF
      ∧ s.onlyRegs { s' with col := s.col } [aCol o]
    let refused := fun (s' : State) => counted 0x3C s' ∧ s'.col = { s.col with sent := [], authBad := some (s.col.authBad.getD s.now) }
    let opened := gcmOpen (keyBytes k.key) (colNonce f.src f.w1) (colAad f) (f.data.map (·.toNat)) ((frame.drop (frame.length - 16)).map (·.toNat))
    s.frozen = false →
    (∀ e ∈ rows,
      (s.colState p ≠ 3 → exec e.1 s = .next quiet)
      ∧ (s.colState p = 3 → colLayoutOk f frame = false → Leads e.1 s fun s' => counted 0x38 s' ∧ s'.col = quiet.col)
      ∧ (s.colState p = 3 → colLayoutOk f frame = true →
          ((f.type ≠ e.2.1 ∨ (e.2.2 = false ∧ s.ownAddr ≠ some f.dst)) → exec e.1 s = .next quiet)
          ∧ (f.type = e.2.1 → (e.2.2 = true ∨ s.ownAddr = some f.dst) → s.colKey f.keyIdx = some k →
              (f.enc = false → Leads e.1 s refused)
              ∧ (f.enc = true → opened = none → Leads e.1 s refused)
              ∧ (f.enc = true → opened = some pt → s.seqNew f = false → Leads e.1 s refused))))
    ∧ (s.colState p = 3 → colLayoutOk f frame = true →
        (f.type = 9 → f.enc = true → s.colKey f.keyIdx = some k → opened = some pt → s.seqNew f = true → 8 ≤ lately →
            Leads beat s (TrainsAnew s · p))
        ∧ (f.type = 9 → f.enc = true → s.colKey f.keyIdx = some k → opened = some pt → s.seqNew f = true → lately < 8 → Leads beat s fun s' =>
          s'.fld (aColPort p 4) 31 0 = min (s.fld (aColPort p 4) 31 0 + fec) 0xFFFFFFFF
            ∧ s'.fld (aColPort p 8) 31 0 = min (s.fld (aColPort p 8) 31 0 + unc) 0xFFFFFFFF
            ∧ (s'.colPort p).heardAt = s.now ∧ readAt (fun _ => 0) s'.col.modes f.src = f.mode ∧ s'.seqNew f = false ∧ s'.col.authBad = none
            ∧ s.onlyRegs { s' with col := s.col } [aColPort p 4, aColPort p 8])
        ∧ (s.ownAddr = some a → f.dst ≠ a → (f.type = 8 ∨ f.type = 9) → exec (.frameForward p frame) s = .next quiet)
        ∧ (s.ownAddr = some a → f.dst ≠ a → f.type ≠ 8 → f.type ≠ 9 →
          (∀ q, s.colRoute f.dst = some q → 1 < f.ttl → Leads (.frameForward p frame) s fun s' => s' = { s with col := { s.col with
            sent := [⟨q, setBits f.w0 35 28 (f.ttl - 1), f.w1, f.w2, f.w3, f.data, []⟩] } })
          ∧ ((s.colRoute f.dst = none ∨ f.ttl ≤ 1) → Leads (.frameForward p frame) s fun s' => counted 0x38 s' ∧ s'.col = quiet.col)))

/-- R511 to R514, R518, R520, R521, R524: the ports. One that locks is UP and sends HELLO; one without lock for 20 ms, one that
loses it, and one whose first lane fails, with the spare in its place and the replace cause COL, train anew; a second failed lane
holds the port. A bypass closes for a cause and its ports are BYPASSED, or DISABLED where the module is STANDALONE; it opens for a
module in the fabric, and its ports train. A HELLO from a port of the same name holds the port, another names the partner; one that
names a lead to a joiner is answered with ADMIT_REQ; one that names a lower lead makes a manager's side stand down. HEARTBEATs,
under the current key, leave every UP port at each 250 µs; a partner silent for 1,000 µs is counted and named to the other managers.
A KEY is unwrapped and held, and a key is erased 100 ms after it stopped being current. -/
def Obligations.FabricPorts : Prop :=
  ∀ (s u : State) (p q : Fin 4) (unc : Nat) (lane : Fin 5) (axis : Fin 2) (frame : List Byte) (f : ColFrame) (uid fabric lead : Word) (name : Fin 4)
    (address : Option (BitVec 12)) (hasLead : Bool) (key : Fin 4) (wrapped : List Byte) (k : ColKey) (opened : List Nat) (t : Nat),
    let x := s.colPort p
    let role := s.fld (aVal 0x18) 2 1
    let loaded := bit (s.reg (aVal 0x18)) 7
    let used := bit (s.reg (aColPort p 0)) 5
    let serves := (used = true ∧ lane.val ≠ s.fld (aColPort p 0) 4 3) ∨ (used = false ∧ lane.val ≠ 4)
    let ofAxis := q.val = 2 * axis.val ∨ q.val = 2 * axis.val + 1
    let hello := Instr.colHello p frame uid fabric name address (if hasLead then some lead else none)
    let ask : ColOut := { type := 10, sub := 8, fields := [s.uid, s.reg (aCol 8)] }
    s.frozen = false →
    (s.colState p = 2 → Leads (.colLockAchieved p) s fun s' => s'.colState p = 3 ∧ (s'.colPort p).upAt = s.now ∧ (s'.colPort p).heardAt = s.now
        ∧ bits (s'.reg (aVal 0x10)) 11 10 = role
        ∧ FrameSent s' p 0 { type := 8, fields := [s.uid, s.reg (aCol 8), p, s.fld (aCol 0) 12 0, s.mgr] }
        ∧ s.onlyRegs { s' with col := s.col, host := s.host } [aColPort p 0, aVal 0x10])
    ∧ (s.colState p ≠ 2 → exec (.colLockAchieved p) s = .next s ∧ exec (.colTrainingTimeout p) s = .next s)
    ∧ (s.colState p = 2 → x.trainAt + 20000000 < s.now → Leads (.colTrainingTimeout p) s fun s' => TrainsAnew s s' p)
    ∧ (s.now ≤ x.trainAt + 20000000 → exec (.colTrainingTimeout p) s = .next s)
    ∧ (s.colState p = 3 → Leads (.colLossOfLock p unc) s fun s' => TrainsAnew s s' p
        ∧ s'.fld (aColPort p 8) 31 0 = min (s.fld (aColPort p 8) 31 0 + unc) 0xFFFFFFFF)
    ∧ (s.colState p ≠ 3 → exec (.colLossOfLock p unc) s = .next s)
    ∧ ((s.colState p = 2 ∨ s.colState p = 3) → serves →
        (x.failed = false → lane.val < 4 → Leads (.colLaneFail p lane) s fun s' => TrainsAnew s s' p ∧ s'.fld (aColPort p 0) 4 3 = lane
          ∧ bit (s'.reg (aColPort p 0)) 5 = true ∧ (s'.colPort p).failed = true ∧ bit (s'.reg (aVal 0x100)) 5 = true)
        ∧ (x.failed = true → Leads (.colLaneFail p lane) s fun s' => s'.colState p = 5))
    ∧ (¬ serves → exec (.colLaneFail p lane) s = .next s)
    ∧ (s.col.bypass.length = 2 → s.power.auxOk = true →
        (s.bypassCause = true → s.col.bypass[axis.val]? = some false → Leads (.bypassClose axis) s fun s' => s'.col.bypass[axis.val]? = some true
          ∧ (ofAxis → s.colState q ≠ 5 → s'.colState q = if loaded = true ∧ role ≠ 0 then 1 else 0) ∧ (¬ ofAxis → s'.colState q = s.colState q))
        ∧ (s.bypassCause = false → exec (.bypassClose axis) s = .next s)
        ∧ (loaded = true → role ≠ 0 → 3 ≤ s.boot.phase → s.col.bypass[axis.val]? = some true → Leads (.bypassOpen axis) s fun s' =>
            s'.col.bypass[axis.val]? = some false ∧ (ofAxis → (s.colState q = 0 ∨ s.colState q = 1) → s'.colState q = 2 ∧ (s'.colPort q).trainAt = s.now)
              ∧ (¬ ofAxis → s'.colState q = s.colState q))
        ∧ ((loaded = false ∨ role = 0 ∨ s.boot.phase < 3) → exec (.bypassOpen axis) s = .next s))
    ∧ (s.colTake p frame 8 true = (u, some f) →
        (name = p → Leads hello s fun s' => s'.colState p = 5 ∧ s'.fld (aColPort p 0) 18 6 = 0 ∧ s'.reported 4 "COL_MISWIRED" p 0)
        ∧ (name ≠ p → (hasLead = false ∨ s.reg (aCol 8) ≠ fabric.toNat) → Leads hello s fun s' => s'.col = u.col
            ∧ s'.fld (aColPort p 0) 18 18 = b2n address.isSome ∧ (∀ a, address = some a → s'.fld (aColPort p 0) 17 6 = a.toNat)
            ∧ s.onlyRegs { s' with col := s.col } [aColPort p 0])
        ∧ (name ≠ p → hasLead = true → s.reg (aCol 8) = fabric.toNat → u.col.managers = [] → Leads hello s fun s' =>
            s'.col.leadKnown = some lead.toNat ∧ (s.colMember = 1 → s.ownAddr = none → FrameSent s' p 0 ask)
              ∧ s.onlyRegs { s' with col := s.col } [aColPort p 0])
        ∧ (name ≠ p → hasLead = true → s.reg (aCol 8) = fabric.toNat → u.col.managers ≠ [] → (∀ m ∈ u.col.managers, lead.toNat < m.2) →
            Leads hello s fun s' => s'.ownAddr = none ∧ s'.mgr = 0 ∧ s'.keyless = true ∧ s'.col.managers = [] ∧ FrameSent s' p 0 ask))
    ∧ (s.col.beat ≤ s.now / 250000 → Leads .colHeartbeatSend s fun s' => s'.col.beat = s.now / 250000 + 1
        ∧ (Keyed s → ∀ p < 4, s.colState p = 3 → FrameSent s' p 0 { type := 9 }) ∧ s' = { s with col := s'.col })
    ∧ (s.now / 250000 < s.col.beat → exec .colHeartbeatSend s = .next s)
    ∧ (s.colState p = 3 → x.heardAt + 1000000 < s.now → Leads (.colHeartbeatMiss p) s fun s' => (s'.colPort p).heardAt = s.now
        ∧ s'.fld (aColPort p 0xC) 31 0 = min (s.fld (aColPort p 0xC) 31 0 + 1) 0xFFFFFFFF
        ∧ (Keyed s → bit (s.reg (aColPort p 0)) 18 = true → ∀ a ∈ s.otherManagers, a < 4096 → ∀ r, s.colRoute a = some r →
            FrameSent s' r a { type := 10, sub := 3, fields := [s.fld (aColPort p 0) 17 6, 0] })
        ∧ s.onlyRegs { s' with col := s.col } [aColPort p 0xC, aCol 0x38])
    ∧ ((s.colState p ≠ 3 ∨ s.now ≤ x.heardAt + 1000000) → exec (.colHeartbeatMiss p) s = .next s)
    ∧ (s.colTake p frame 11 s.ownAddr.isNone = (u, some f) → s.col.cur.bind s.colKey = some k →
        (keyUnwrap (keyBytes k.key) (wrapped.map (·.toNat)) = some opened → u.col.keys.length = 4 → Leads (.colKey p frame key wrapped false) s fun s' =>
          s'.colKey key = some ⟨numOf opened % 2 ^ 256, 0, none⟩ ∧ (∀ e ∈ s'.col.seen, e.1 / 4096 ≠ key.val) ∧ s' = { s with col := s'.col })
        ∧ (keyUnwrap (keyBytes k.key) (wrapped.map (·.toNat)) = none → exec (.colKey p frame key wrapped false) s = .next u))
    ∧ (s.colKey key = some { k with stopAt := some t } → s.col.cur ≠ some key.val →
        (t + 100000000 ≤ s.now → Leads (.keyErase key) s fun s' => s'.colKey key = none ∧ s' = { s with col := s'.col })
        ∧ (s.now < t + 100000000 → exec (.keyErase key) s = .next s))

/-- R516, R526 to R528: accesses between modules, of a module that holds a current key. RD is answered with the lines that the
export region holds, or with the status of the access; WR writes them, and is acknowledged; the lines of DRAM are charged. An offset
beyond COL_EXPORT_LEN is denied. A response brings its bytes to the request that it answers, which ends with its last line, as does
an acknowledged write; BUSY is kept. A request unanswered for 2 ms ends with DIE_ABSENT, and the thread that waits for it faults. A
COLL frame is answered BUSY until the command for its group runs, then kept; one that was answered BUSY is sent again 10 µs later.
-/
def Obligations.FabricAccess : Prop :=
  ∀ (s u : State) (p q : Fin 4) (frame : List Byte) (f : ColFrame) (r : RemoteReq) (group serial : Word32) (member : Fin 256) (tag : BitVec 10)
    (busy : List (Nat × Nat × Nat × Nat)) (t dst off n : Nat),
    let base := bits (s.reg (aCol 0x20)) 47 0
    let lines := 64 * f.lines
    let got := u.exportStatus false f.addr lines
    let put := u.exportStatus true f.addr f.data.length
    let answer := fun (s' : State) (type st : Nat) (data : List Byte) => FrameSent s' q f.src { type := type, addr := f.addr, rtag := f.rtag, status := st, data := data }
    let ended := fun (s' : State) => ∀ x ∈ s'.col.reqs, x.tag ≠ r.tag
    let runs := s.inFlight.any fun c => decide (c.kind = 3) && bit (word c.words 8) 8
      && decide (s.num (bits (word c.words 11) 47 0 + 4) 4 = group.toNat) && decide (s.num (bits (word c.words 11) 47 0 + 8) 4 = serial.toNat)
    s.frozen = false → Keyed s → s.colRoute f.src = some q.val →
    (∀ wr o, o % 64 = 0 → s.fld (aCol 0x28) 34 0 < o + n → s.exportStatus wr o n = 4)
    ∧ (s.colTake p frame 1 false = (u, some f) → 0 < f.lines → Leads (.colRd p frame) s fun s' =>
        (got = 0 → answer s' 2 0 (s.readOut (base + f.addr) lines)
            ∧ s' = { u.chargeAs 4 0xFF8 false (base + f.addr) lines with col := s'.col })
          ∧ (got ≠ 0 → answer s' 2 got [] ∧ s' = { s with col := s'.col }))
    ∧ (s.colTake p frame 3 false = (u, some f) → 0 < f.data.length → Leads (.colWr p frame) s fun s' => answer s' 4 put []
        ∧ (put = 0 → s' = { (u.chargeAs 4 0xFF8 true (base + f.addr) f.data.length).store (base + f.addr) f.data with col := s'.col })
        ∧ ((put = 3 ∨ put = 8 ∨ s.fld (aCol 0x28) 34 0 < f.addr + f.data.length) → s' = { s with col := s'.col })
        ∧ (put = 4 → ∃ t, RefusedWrite u t (base + f.addr) f.data ∧ s' = { t with col := s'.col }))
    ∧ (s.colTake p frame 2 false = (u, some f) →
        (u.remoteOf f false = none → exec (.colRdrsp p frame) s = .next u)
        ∧ (u.remoteOf f false = some r → f.status = 0 → Leads (.colRdrsp p frame) s fun s' => s' = { s with col := s'.col }
            ∧ (r.left ≤ f.lines → ended s')
            ∧ ∀ i < f.data.length, let a := 0x400000000000 + f.src * 0x400000000 + f.addr + i
                r.addr ≤ a → a < r.addr + r.len → readAt (fun _ => none) s'.col.got a = f.data[i]?)
        ∧ (u.remoteOf f false = some r → f.status ≠ 0 → Leads (.colRdrsp p frame) s fun s' => ended s'
            ∧ (r.slot ≠ moverSlot → s'.mem = s.mem ∧ s'.regs = s.regs)))
    ∧ (s.colTake p frame 4 false = (u, some f) →
        (f.status = 0x10 → exec (.colWrack p frame) s = .next { u with col := { u.col with busy := u.col.busy ++ [(s.now, f.src, f.addr, f.rtag)] } })
        ∧ (f.status = 0 → u.remoteOf f true = some r → r.left ≤ 64 → Leads (.colWrack p frame) s fun s' => ended s' ∧ s' = { s with col := s'.col })
        ∧ (f.status = 0 → u.remoteOf f true = none → exec (.colWrack p frame) s = .next u))
    ∧ (s.col.reqs.find? (fun x => decide (x.tag = tag.toNat)) = some r →
        (r.sentAt + 2000000 < s.now → Leads (.remoteTimeout tag) s fun s' => ended s' ∧ (r.slot ≠ moverSlot → s'.mem = s.mem ∧ s'.regs = s.regs)
          ∧ ((s.slot r.slot).busy = true → (s.slot r.slot).faulted = false →
              (∃ x ∈ (s.slot r.slot).reqs, overlaps x.addr x.len r.addr r.len = true) → (s'.slot r.slot).faulted = true
                ∧ ∃ d l ti c m, s'.sched.outbox = s.sched.outbox ++ [.fault d l ti c m 8]))
        ∧ (s.now ≤ r.sentAt + 2000000 → exec (.remoteTimeout tag) s = .next s))
    ∧ (s.colTake p frame 5 false = (u, some f) → Leads (.colColl p frame group serial member) s fun s' =>
        (runs = false → answer s' 4 0x10 [] ∧ s'.col.partials = s.col.partials)
          ∧ (runs = true → s'.col.partials = s.col.partials ++ [⟨group.toNat, serial.toNat, member.val, f.addr, f.data⟩])
          ∧ s.onlyRegs { s' with col := s.col } [aCol 0x38])
    ∧ (s.col.busy = (t, dst, off, tag.toNat) :: busy → dst < 4096 → off < 2 ^ 48 → s.colRoute dst = some q.val →
        (t + 10000 ≤ s.now → Leads .collRetry s fun s' => s'.col.busy = busy ∧ s' = { s with col := s'.col }
          ∧ (s.colMember ≠ 3 → ∀ x ∈ s.col.outs, x.dst = dst → x.part.off = off → x.part.serial % 1024 = tag.toNat → x.task < 4096 →
              FrameSent s' q dst { type := 5, addr := off, rtag := tag.toNat, data := x.part.data, fields := [x.part.group, x.part.serial, x.part.member] }))
        ∧ (s.now < t + 10000 → exec .collRetry s = .next s))

/-! ## The module fabric: management -/

/-- A management frame of subtype `sub` is taken (R515, R518, R519): `u` is the state after that, `f` the frame. -/
def MgmtTaken (s : State) (p : Nat) (frame : List Byte) (sub : Nat) (any : Bool) (u : State) (f : ColFrame) : Prop :=
  (colParse p frame).sub = sub ∧ s.colTake p frame 10 any = (u, some f)

/-- R523: the module has been expelled: it holds no address and no key, is no manager, and says so. -/
def Expelled (s t : State) (a : Nat) : Prop :=
  t.ownAddr = none ∧ t.keyless = true ∧ t.mgr = 0 ∧ t.col.managers = [] ∧ t.col.expelled = true ∧ (s.colMember ≠ 5 → t.colMember = 1)
    ∧ t.reported 4 "COL_EXPELLED" a 0

/-- R518 to R523, R525: suspicion, votes and routes. A manager probes a module that is suspected; a running firmware answers PROBE;
a module that answers is kept. One that does not within 250 µs is voted out by a manager, with the others told, unless fewer than
two managers answer, which is an event, or its mode was SERVICE. The lead expels a module at the second manager's vote. The expelled
one, by EXPEL or after 4 ms of frames that it cannot authenticate, leaves. A ROUTE fills the shadow bank; ROUTE_COMMIT of its epoch
makes it the current table, with its managers and the key that it names, and ends the requests to modules without a route. A manager
that resigns is a manager no more. What is sent goes under the current key. -/
def Obligations.FabricVotesAndRoutes : Prop :=
  ∀ (s u : State) (p : Fin 4) (frame : List Byte) (f : ColFrame) (who : BitVec 12) (cause : Fin 2) (epoch : Word32) (first : BitVec 12)
    (entries : List (BitVec 16)) (managers : List (BitVec 12 × Word)) (key : Fin 4) (a b t r : Nat),
    let w := who.toNat
    let voteFrame : ColOut := { type := 10, sub := 4, fields := [w] }
    let rest := u.col.managers.filter fun m => decide (m.1 ≠ f.src)
    let v := { u with col := { u.col with managers := rest } }
    let entry := fun (s : State) (a : Nat) => readAt (fun _ => 7) s.col.bank a
    let member := u.col.members.any (fun m => decide (m.addr = w)) = true
    let gone := fun (s' : State) => ∀ m ∈ s'.col.members, m.addr ≠ w
    s.frozen = false → s.manages = true → Keyed s →
    (MgmtTaken s p frame 1 false u f → s.colRoute f.src = some r → Leads (.mgmtProbe p frame) s fun s' =>
        FrameSent s' r f.src { type := 10, sub := 2 } ∧ s' = { s with col := s'.col })
    ∧ (MgmtTaken s p frame 2 false u f →
        ((∃ q ∈ s.col.probes, q.1 = f.src) → Leads (.mgmtProbeRsp p frame) s fun s' => (∀ q ∈ s'.col.probes, q.1 ≠ f.src)
          ∧ (∀ v ∈ s'.col.votes, v.1 ≠ f.src) ∧ s'.col.members = s.col.members ∧ (s.mgr ≠ 2 → s' = { s with col := s'.col }))
        ∧ ((∀ q ∈ s.col.probes, q.1 ≠ f.src) → exec (.mgmtProbeRsp p frame) s = .next u))
    ∧ (MgmtTaken s p frame 3 false u f →
        (s.mgr ≠ 0 → s.ownAddr ≠ some w → (∀ q ∈ s.col.probes, q.1 ≠ w) → s.colRoute w = some r → Leads (.mgmtSuspect p frame who cause) s fun s' =>
          s'.col.probes = s.col.probes ++ [(w, s.now)] ∧ FrameSent s' r w { type := 10, sub := 1 } ∧ s' = { s with col := s'.col })
        ∧ (s.mgr = 0 → exec (.mgmtSuspect p frame who cause) s = .next u))
    ∧ (MgmtTaken s p frame 4 false u f → s.mgr = 2 → member → (∃ m ∈ s.col.managers, m.1 = f.src) →
        ((∀ v ∈ s.col.votes, v.1 ≠ w) → exec (.mgmtVote p frame who) s = .next { u with col := { u.col with votes := u.col.votes ++ [(w, f.src)] } })
        ∧ ((w, b) ∈ s.col.votes → b ≠ f.src → Leads (.mgmtVote p frame who) s fun s' => gone s'
            ∧ (s.colRoute w = some r → FrameSent s' r w { type := 10, sub := 5 })))
    ∧ (s.col.probes.find? (fun q => decide (q.1 = w)) = some (w, t) → s.mgr ≠ 0 →
        (s.now ≤ t + 250000 → exec (.probeTimeout who) s = .next s)
        ∧ (t + 250000 < s.now → readAt (fun _ => 0) s.col.modes w = 4 → s.mgr = 1 → Leads (.probeTimeout who) s fun s' =>
            (∀ q ∈ s'.col.probes, q.1 ≠ w) ∧ s'.col.votes = s.col.votes ∧ s' = { s with col := s'.col })
        ∧ (t + 250000 < s.now → readAt (fun _ => 0) s.col.modes w ≠ 4 → s.answering < 2 → Leads (.probeTimeout who) s fun s' =>
            s'.reported 4 "COL_NO_QUORUM" w 0 ∧ (∀ q ∈ s'.col.probes, q.1 ≠ w) ∧ s'.col.votes = s.col.votes
              ∧ s'.col.members = s.col.members ∧ s.eventOnly { s' with col := s.col })
        ∧ (t + 250000 < s.now → readAt (fun _ => 0) s.col.modes w ≠ 4 → 2 ≤ s.answering →
            (s.mgr = 1 → Leads (.probeTimeout who) s fun s' => (∀ q ∈ s'.col.probes, q.1 ≠ w)
              ∧ (∀ m ∈ s.otherManagers, m < 4096 → ∀ r, s.colRoute m = some r → FrameSent s' r m voteFrame)
              ∧ s.onlyRegs { s' with col := s.col } [aCol 0x38])
            ∧ (s.mgr = 2 → s.col.members.any (fun m => decide (m.addr = w)) = true → (w, b) ∈ s.col.votes → s.ownAddr = some a → b ≠ a →
                Leads (.probeTimeout who) s fun s' => gone s' ∧ ∀ m ∈ s.otherManagers, m < 4096 → ∀ r, s.colRoute m = some r → FrameSent s' r m voteFrame)))
    ∧ (MgmtTaken s p frame 5 false u f → s.ownAddr = some a → Leads (.mgmtExpel p frame) s fun s' => Expelled s s' a)
    ∧ (s.col.authBad = some t → s.keyless = false → s.ownAddr = some a →
        (t + 4000000 < s.now → Leads .authFailExpulsion s fun s' => Expelled s s' a)
        ∧ (s.now ≤ t + 4000000 → exec .authFailExpulsion s = .next s))
    ∧ (MgmtTaken s p frame 6 false u f → Leads (.mgmtRoute p frame epoch first entries managers) s fun s' => s'.col.bankEpoch = epoch.toNat
        ∧ s'.col.bankManagers = managers.map (fun m => (m.1.toNat, m.2.toNat))
        ∧ (∀ i < entries.length, first.toNat + i < 4096 → entry s' (first.toNat + i) = (entries.getD i 7).toNat % 64)
        ∧ (∀ a, (a < first.toNat ∨ first.toNat + entries.length ≤ a) → entry s' a = if s.col.bankEpoch = epoch.toNat then entry s a else 7)
        ∧ s' = { s with col := s'.col })
    ∧ (MgmtTaken s p frame 7 false u f →
        (s.col.bankEpoch ≠ epoch.toNat → exec (.mgmtRouteCommit p frame epoch key) s = .next u)
        ∧ (s.col.bankEpoch = epoch.toNat → (∀ j ∈ s.sched.jobs, j.ringSet < 4) → Leads (.mgmtRouteCommit p frame epoch key) s fun s' =>
            (∀ a < 4096, s'.reg (aCol (0x1000 + 2 * a)) = entry s a % 2 ^ 64) ∧ s'.reg (aCol 0x30) = epoch.toNat
              ∧ s'.col.managers = s.col.bankManagers ∧ ((s.colKey key).isSome = true → s'.col.cur = some key.val)
              ∧ ((∀ m ∈ s.col.bankManagers, s.ownAddr ≠ some m.1) → s'.mgr = 0)
              ∧ (a < 4096 → s.routed a = true → s.ownAddr ≠ some a → entry s a % 8 = 7 → ∀ x ∈ s'.col.reqs, x.dst ≠ a)
              ∧ ((∀ a < 4096, s.routed a = true → s.ownAddr ≠ some a → entry s a % 8 ≠ 7) → s'.mem = s.mem ∧ s'.sched = s.sched ∧ s'.col.reqs = s.col.reqs)))
    ∧ (MgmtTaken s p frame 15 false u f → s.mgr ≠ 0 → (∃ m ∈ s.col.managers, m.1 = f.src) →
        (v.leadAddr ≠ s.ownAddr → Leads (.mgmtResign p frame) s fun s' => s'.col.managers = rest
          ∧ s'.mgr = (if rest.any (fun m => decide (s.ownAddr = some m.1)) then 1 else 0) ∧ s.onlyRegs { s' with col := s.col } [aCol 0])
        ∧ (v.leadAddr = s.ownAddr → rest.any (fun m => decide (s.ownAddr = some m.1)) = true → Leads (.mgmtResign p frame) s fun s' =>
            s'.col.managers = v.electManagers [f.src]))

/-- R410, R519 to R521, R526: formation, admission, roles and shadows, and what the channel carries. A manager-eligible module whose
ports have been UP for 20 ms without a lead is a candidate; candidates are passed on once; 20 ms later the lowest UID heard is the
lead, with the first key. The lead refuses a joiner that is not attested, or whose fabric or measurements differ, and admits another
with an address; a neighbour passes requests and answers on. A joiner takes its address, or asks again after 10 s. ROLE sets the
role, the shadow's target or who copies this module. A shadow's frame that agrees counts to 200 and a role; a third that does not
ends its trial, at the lead and at the shadow. Ring set 1's entries go to the lead, its submissions come from there with their
doorbell; an aperture's lines are written; an SPDM request is answered. -/
def Obligations.FabricAdmission : Prop :=
  ∀ (s u : State) (p : Fin 4) (frame : List Byte) (f : ColFrame) (uid : Word) (req : AdmitReq) (addr : BitVec 12) (x : ShadowRec) (y : CompareRec)
    (job : BitVec 16) (statuses : List Byte) (poses : List (Int × Int × Nat × Nat)) (tol : HeathParams) (agree : Bool) (z : Nat × List Nat × List Byte)
    (a b q l r t len : Nat),
    let ups := (List.range 4).filter fun p => decide (s.colState p = 3)
    let candidate := fun (n : Nat) => ({ type := 10, sub := 16, fields := [n] } : ColOut)
    let pref := s.reg (aCol 0x18)
    let own := if bit pref 12 then bits pref 11 0 else 0
    let meas := (List.range 4).map fun i => leNat (s.measBytes (i + 1))
    let colOnly := fun (s' : State) => s' = { s with col := s'.col }
    let rec_ : CompareRec := ⟨f.src, job.toNat, statuses.map (·.toNat), poses, (tol.posTol, tol.spdTol)⟩
    let msg := CompareMsg.summary job statuses poses tol
    s.frozen = false → s.manages = true →
    (s.fabricRole = 2 → s.mode ≠ 4 → s.ownAddr = none → s.col.leadKnown = none → s.col.candidateAt = none → ups ≠ [] →
        (∀ p ∈ ups, (s.colPort p).upAt + 20000000 ≤ s.now) → Leads .candidateWait s fun s' => s'.col.candidateAt = some s.now
          ∧ s.uid ∈ s'.col.heardUids ∧ (∀ p ∈ ups, FrameSent s' p 0 (candidate s.uid)) ∧ colOnly s')
    ∧ ((s.fabricRole ≠ 2 ∨ s.col.leadKnown.isSome = true ∨ s.ownAddr.isSome = true ∨ ups = []) → exec .candidateWait s = .next s)
    ∧ (MgmtTaken s p frame 16 true u f →
        (uid.toNat ∉ s.col.heardUids → Leads (.mgmtCandidate p frame uid) s fun s' => s'.col.heardUids = s.col.heardUids ++ [uid.toNat]
          ∧ (∀ r ∈ ups, r ≠ p.val → FrameSent s' r 0 (candidate uid.toNat)) ∧ colOnly s')
        ∧ (uid.toNat ∈ s.col.heardUids → exec (.mgmtCandidate p frame uid) s = .next u))
    ∧ (s.col.candidateAt = some t → s.ownAddr = none →
        (s.now < t + 20000000 → exec .formationElect s = .next s)
        ∧ (t + 20000000 ≤ s.now → s.col.leadKnown = none → (∀ n ∈ s.col.heardUids, s.uid ≤ n) → s.mode ≠ 4 → s.col.keys.length = 4 →
            (∀ a < 4096, s.routed a = false) → Leads .formationElect s fun s' => s'.ownAddr = some own ∧ s'.mgr = 2
              ∧ s'.col.members = [⟨own, s.uid, true, false⟩] ∧ s'.col.managers = [(own, s.uid)] ∧ s'.keyless = false ∧ s'.col.cur.isSome = true
              ∧ (s.colMember ≠ 5 → s'.colMember = 2) ∧ s'.reg (aCol (0x1000 + 2 * own)) = 4 ∧ s'.mem = s.mem)
        ∧ (t + 20000000 ≤ s.now → (s.col.leadKnown.isSome = true ∨ ∃ n ∈ s.col.heardUids, n < s.uid) →
            exec .formationElect s = .next { s with col := { s.col with candidateAt := none } }))
    ∧ (MgmtTaken s p frame 8 true u f → s.ownAddr = some a →
        (s.mgr = 2 → (req.attested = false ∨ req.fabric.toNat ≠ s.reg (aCol 8) ∨ req.meas.map (·.toNat) ≠ meas) →
          Leads (.mgmtAdmitReq p frame req) s fun s' =>
            s'.col.members = s.col.members
              ∧ (f.enc = false → FrameSent s' p 0 { type := 10, sub := 9, status := 4, fields := [req.uid.toNat] } ∧ colOnly s')
              ∧ (f.enc = true → Keyed s → s.colRoute f.src = some r →
                  FrameSent s' r f.src { type := 10, sub := 9, status := 4, fields := [req.uid.toNat] } ∧ colOnly s'))
        ∧ (s.mgr = 2 → req.attested = true → req.fabric.toNat = s.reg (aCol 8) → req.meas.map (·.toNat) = meas →
            Leads (.mgmtAdmitReq p frame req) s fun s' => (∃ m ∈ s'.col.members, m.addr = s.joinAddr req.pref ∧ m.uid = req.uid.toNat)
              ∧ (f.enc = false → FrameSent s' p 0 { type := 10, sub := 9, fields := [req.uid.toNat, s.joinAddr req.pref] })
              ∧ (f.enc = true → Keyed s → s.colRoute f.src = some r →
                  FrameSent s' r f.src { type := 10, sub := 9, fields := [req.uid.toNat, s.joinAddr req.pref] })
              ∧ s'.reported 4 "COL_ADMITTED" (s.joinAddr req.pref) 0)
        ∧ (s.mgr ≠ 2 → s.leadAddr = some l → l < 4096 → s.colRoute l = some r → Leads (.mgmtAdmitReq p frame req) s fun s' =>
            FrameSent s' r l { type := 10, sub := 8, fields := [req.uid.toNat, req.fabric.toNat] } ∧ (req.uid.toNat, p.val) ∈ s'.col.relay ∧ colOnly s'))
    ∧ (MgmtTaken s p frame 9 true u f →
        (uid.toNat = s.uid → s.ownAddr = none → s.colMember ≠ 0 →
          (f.status = 0 → Leads (.mgmtAdmit p frame uid addr) s fun s' => s'.ownAddr = some addr.toNat ∧ s'.col.expelled = false
            ∧ (s.colMember ≠ 5 → s'.colMember = 2) ∧ s'.reported 4 "COL_ADMITTED" addr.toNat 0)
          ∧ (f.status ≠ 0 → exec (.mgmtAdmit p frame uid addr) s = .next { u with col := { u.col with retryAt := some (s.now + 10000000000) } }))
        ∧ (uid.toNat ≠ s.uid → s.col.relay.find? (fun e => decide (e.1 = uid.toNat)) = some (uid.toNat, q) →
            Leads (.mgmtAdmit p frame uid addr) s fun s' =>
              FrameSent s' q 0 { type := 10, sub := 9, status := f.status, fields := [uid.toNat, addr.toNat] } ∧ colOnly s'))
    ∧ (s.col.retryAt = some t → s.ownAddr = none → ups.head? = some q →
        (t ≤ s.now → Leads .admitRetry s fun s' => s'.col.retryAt = none
          ∧ FrameSent s' q 0 { type := 10, sub := 8, fields := [s.uid, s.reg (aCol 8)] } ∧ colOnly s')
        ∧ (s.now < t → exec .admitRetry s = .next s))
    ∧ (MgmtTaken s p frame 13 false u f →
        (s.colMember = 5 → exec (.mgmtRole p frame .role) s = .next u ∧ exec (.mgmtRole p frame (.shadow addr)) s = .next u)
        ∧ (s.colMember ≠ 5 → s.ownAddr = some a →
            (Leads (.mgmtRole p frame .role) s fun s' => s'.colMember = 4 ∧ (s.colMember = 3 → s'.reported 4 "COL_ROLE" a 0))
            ∧ (Leads (.mgmtRole p frame (.shadow addr)) s fun s' => s'.colMember = 3 ∧ s'.fld (aCol 0x34) 11 0 = addr.toNat
                ∧ s'.fld (aCol 0x34) 19 12 = 0 ∧ s.onlyRegs { s' with col := s.col } [aCol 0, aCol 0x34])
            ∧ (Leads (.mgmtRole p frame (.watched addr)) s fun s' => addr.toNat ∈ s'.col.watchers ∧ colOnly s')
            ∧ exec (.mgmtRole p frame (.unwatched addr)) s = .next { u with col := { u.col with watchers := u.col.watchers.erase addr.toNat } }))
    ∧ (MgmtTaken s p frame 14 false u f →
        (s.mgr = 2 → s.col.shadows = [x] → x.shadow = f.src → x.target ≠ x.shadow → s.compareOf x.target job.toNat = some y →
          Leads (.mgmtCompare p frame msg) s fun s' =>
            (framesAgree rec_ y = true → x.agreed < 199 → x.fails < 3 → s'.col.shadows = [{ x with agreed := x.agreed + 1 }] ∧ s'.col.members = s.col.members)
            ∧ (framesAgree rec_ y = true → 199 ≤ x.agreed → s'.col.shadows = [] ∧ (∀ m ∈ s'.col.members, m.addr = x.shadow → m.role = true)
                ∧ s'.reported 4 "COL_ROLE" x.shadow 0)
            ∧ (framesAgree rec_ y = false → x.fails < 2 → s'.col.shadows = [{ x with agreed := 0, fails := x.fails + 1 }])
            ∧ (framesAgree rec_ y = false → 2 ≤ x.fails → s'.col.shadows = [] ∧ s'.reported 4 "COL_SHADOW_FAIL" x.shadow 0))
        ∧ (s.leadAddr = some f.src → s.colMember = 3 → Leads (.mgmtCompare p frame (.outcome agree)) s fun s' =>
            let n := s.fld (aCol 0x34) 19 12
            let bad := min 3 (s.fld (aCol 0x34) 21 20 + 1)
            (agree = true → s'.fld (aCol 0x34) 19 12 = min 200 (n + 1) ∧ s.onlyRegs { s' with col := s.col } [aCol 0x34])
              ∧ (agree = false → s'.fld (aCol 0x34) 19 12 = 0 ∧ s'.fld (aCol 0x34) 21 20 = bad
                  ∧ (bad = 3 → s'.colMember = 5 ∧ s'.reported 4 "COL_SHADOW_FAIL" (s.ownAddr.getD 0) 0) ∧ (bad < 3 → s'.colMember = 3))))
    ∧ (s.leadAddr = some l → l < 4096 → s.colRoute l = some r →
        (Keyed s → s.col.summaries.find? (fun x => decide (x.1 = job.toNat)) = some z → Leads (.mgmtCompare p [] msg) s fun s' =>
            (∃ x ∈ s'.col.sent, x.port = r ∧ bits x.w0 11 0 = l ∧ bits x.w3 27 20 = 14 ∧ x.data = z.2.1.map (BitVec.ofNat 8)
              ∧ x.fields.head? = some job.toNat) ∧ s'.col.summaries = s.col.summaries.erase z ∧ colOnly s')
        ∧ (s.col.summaries.find? (fun x => decide (x.1 = job.toNat)) = none → exec (.mgmtCompare p [] msg) s = .next s)
        ∧ (Keyed s → s.ringEn 1 = true → s.colMember ≠ 3 → Leads (.mgmtRing .send) s fun s' => s'.mem = s.mem
            ∧ ∀ e ∈ [(1, 0x2C, 0x28), (2, 0x34, 0x30)], s.ringEntries e.1 e.2.1 e.2.2 ≠ [] → s'.reg (aRing 1 e.2.1) = s.reg (aRing 1 e.2.2)
              ∧ FrameSent s' r l { type := 10, sub := 11, data := s.ringEntries e.1 e.2.1 e.2.2 }))
    ∧ (MgmtTaken s p frame 11 false u f → s.mgr ≠ 2 → s.leadAddr = some f.src → s.col.watchers = [] → 0 < f.data.length →
        let sq := bits (s.reg (aRing 1 0)) 47 0
        let size := 64 * 2 ^ s.ringLog 1 0
        let st := u.access ⟨initCol, none, false, true⟩ true f.addr f.data.length
        (st = 0 → sq ≤ f.addr → f.addr + f.data.length ≤ sq + size → Leads (.mgmtRing (.receive p frame)) s fun s' =>
            s'.reg (aRing 1 0x20) = (f.addr + f.data.length - sq) % size / 64 ∧ s'.mem = (s.store f.addr f.data).mem
              ∧ ∀ a, a ≠ aRing 1 0x20 → s'.reg a = s.reg a)
        ∧ (st = 8 → exec (.mgmtRing (.receive p frame)) s = .next u)
        ∧ (st = 4 → Leads (.mgmtRing (.receive p frame)) s fun s' => RefusedWrite u s' f.addr f.data))
    ∧ (MgmtTaken s p frame 12 false u f → s.col.watchers = [] → f.data.length = 64 →
        (placeOf f.addr = some (.aperture q, b, len) → exec (.mgmtAperture p frame) s = .next (u.apertureWrite initCol q (f.addr - b) f.data))
        ∧ ((s.mode ≠ 3 ∨ ∀ q b len, placeOf f.addr ≠ some (.aperture q, b, len)) → exec (.mgmtAperture p frame) s = .next u))
    ∧ (MgmtTaken s p frame 10 true u f →
        let req := f.data.take (min 4096 f.addr)
        (0x80 ≤ hdr req 1 1 → Leads (.mgmtSpdm p frame) s fun s' => s'.spdm 1 = (u.spdmServe 1 req).spdm 1
          ∧ (∃ x ∈ s'.col.sent, x.port = p.val ∧ bits x.w0 11 0 = f.src ∧ bits x.w3 27 20 = 10 ∧ (s'.spdm 1).out <+: x.data)
          ∧ s' = { s with col := s'.col, boot := s'.boot, free := s'.free })
        ∧ (hdr req 1 1 < 0x80 → exec (.mgmtSpdm p frame) s = .next u))

/-! ## What every step keeps, and what a freeze holds -/

/-- Every step keeps memory and registers in their canonical form: equal contents are equal data. -/
def Obligations.StepKeepsCanonical : Prop :=
  ∀ s t : State, s.canonical → step s = .next t → t.canonical

/-- The model's numbers of jobs: each names one job, a new job's number is free, and a job belongs to a ring set of the four. -/
def JobsNumbered (s : State) : Prop :=
  (s.sched.jobs.map (·.serial)).Nodup ∧ ∀ j ∈ s.sched.jobs, j.serial < s.sched.serial ∧ j.ringSet < 4

/-- The lists of the state whose length the spec fixes: two bypasses, four fabric keys, a port of each Heath and two paths of its
cross frames, log entries of 64 bytes, and a migration's 32 pseudo-channels. -/
def ListsWhole (s : State) : Prop :=
  s.col.bypass.length = 2 ∧ s.col.keys.length = 4 ∧ s.host.sgmii.length = 2 ∧ (∀ h, (s.heath h).heard.length = 2)
    ∧ (∀ e ∈ s.boot.log, e.length = 64) ∧ ∀ d m, (s.dramOf d).migration = some m → m.ptr.length = 32

/-- R472: while a freeze is in force no Heath's Vale port carries flits. -/
def FrozenStandby (s : State) : Prop := s.frozen = true → ∀ h < 2, s.linkState (5 + h) 4 ≠ 4

/-- The invariants that premises of other statements name hold right after reset, and every step keeps each of them. -/
def Obligations.StepKeepsInvariants : Prop :=
  (JobsNumbered State.reset ∧ ListsWhole State.reset ∧ FrozenStandby State.reset)
    ∧ ∀ s t : State, step s = .next t → (JobsNumbered s → JobsNumbered t) ∧ (ListsWhole s → ListsWhole t) ∧ (FrozenStandby s → FrozenStandby t)

/-- The commands that end a freeze, or that act on the inputs and the resets of the whole module while it lasts: the thaw, the
inputs, RESET_N, and the release of dies from reset. -/
def EndsFreeze : Instr → Prop
  | .thaw | .mainInputInRange | .mainInputOutOfRange | .auxInputInRange | .auxInputOutOfRange | .inputOvervoltage _
  | .resetNAssert _ | .resetNRelease | .sequencerRelease | .resetWireRelease _ | .heathResetRelease => True
  | _ => False

/-- R471, R472: while a freeze is in force, no command but those that end it changes anything of what it holds: the time base,
memory, the registers outside the Heaths, the compute elements and their queues, the scheduler, the stacks, the fabric and the boot.
The Heaths go on, but nothing that they do reaches the frozen dies. -/
def Obligations.FreezeHolds : Prop :=
  ∀ (c : Instr) (s t : State), s.frozen = true → FrozenStandby s → ¬ EndsFreeze c → exec c s = .next t → s.sameHeld t
end

