-- ==== Sys2Proof/Laws/Bits.lean ====
section
/-! SUPPORT. Bit fields and byte order: what a field reads after it, or another field, is set, and bytes there and
back. -/

namespace Sys2Proof.Machine

theorem bits_eq (w hi lo : Nat) : bits w hi lo = w / 2 ^ lo % 2 ^ (hi + 1 - lo) := by
  simp [bits, Nat.shiftRight_eq_div_pow]

theorem bits_lt (w hi lo : Nat) : bits w hi lo < 2 ^ (hi + 1 - lo) := Nat.mod_lt _ (Nat.two_pow_pos _)

/-- A number as what lies above a field, the field, and what lies below it. -/
theorem split_field (w hi lo : Nat) :
    w = w / 2 ^ lo / 2 ^ (hi + 1 - lo) * 2 ^ (hi + 1 - lo) * 2 ^ lo + bits w hi lo * 2 ^ lo + w % 2 ^ lo := by
  rw [bits_eq, ← Nat.add_mul, Nat.div_add_mod', Nat.div_add_mod']

theorem setBits_eq (w hi lo v : Nat) :
    setBits w hi lo v
      = (w / 2 ^ lo / 2 ^ (hi + 1 - lo) * 2 ^ (hi + 1 - lo) + v % 2 ^ (hi + 1 - lo)) * 2 ^ lo + w % 2 ^ lo := by
  have h := split_field w hi lo
  simp only [setBits, Nat.shiftLeft_eq]
  rw [Nat.add_mul]
  omega

theorem div_setBits (w hi lo v : Nat) :
    setBits w hi lo v / 2 ^ lo = w / 2 ^ lo / 2 ^ (hi + 1 - lo) * 2 ^ (hi + 1 - lo) + v % 2 ^ (hi + 1 - lo) := by
  rw [setBits_eq, Nat.mul_comm, Nat.mul_add_div (Nat.two_pow_pos _), Nat.div_eq_of_lt (Nat.mod_lt _ (Nat.two_pow_pos _)),
    Nat.add_zero]

/-- A field reads what it was set to, cut to its width. -/
@[simp] theorem bits_setBits (w hi lo v : Nat) : bits (setBits w hi lo v) hi lo = v % 2 ^ (hi + 1 - lo) := by
  rw [bits_eq, div_setBits]
  simp [Nat.add_mod]

/-- Setting a field leaves a field below it alone. -/
theorem bits_setBits_below (w v : Nat) {hi lo hi2 lo2 : Nat} (h : hi2 < lo) :
    bits (setBits w hi lo v) hi2 lo2 = bits w hi2 lo2 := by
  rw [bits_eq, bits_eq]
  have key : ∀ a : Nat, (a * 2 ^ lo + w % 2 ^ lo) / 2 ^ lo2 % 2 ^ (hi2 + 1 - lo2) = w % 2 ^ lo / 2 ^ lo2 % 2 ^ (hi2 + 1 - lo2) := by
    intro a
    by_cases hl : lo2 ≤ hi2
    · obtain ⟨k, rfl⟩ : ∃ k, lo = lo2 + (hi2 + 1 - lo2) + k := ⟨lo - (lo2 + (hi2 + 1 - lo2)), by omega⟩
      rw [Nat.pow_add, Nat.pow_add]
      generalize 2 ^ lo2 = x at *
      generalize hy : 2 ^ (hi2 + 1 - lo2) = y at *
      by_cases hx : x = 0
      · simp [hx]
      · have : a * (x * y * 2 ^ k) + w % (x * y * 2 ^ k) = w % (x * y * 2 ^ k) + x * (y * (a * 2 ^ k)) := by ring
        rw [this, Nat.add_mul_div_left _ _ (Nat.pos_of_ne_zero hx), Nat.add_mul_mod_self_left]
    · have : hi2 + 1 - lo2 = 0 := by omega
      simp [this, Nat.mod_one]
  rw [setBits_eq, key]
  conv_rhs => rw [← Nat.div_add_mod' w (2 ^ lo), key]

/-- Setting a field leaves a field above it alone. -/
theorem bits_setBits_above (w v : Nat) {hi lo hi2 lo2 : Nat} (hl : lo ≤ hi) (h : hi < lo2) :
    bits (setBits w hi lo v) hi2 lo2 = bits w hi2 lo2 := by
  have hs : ∀ x, x / 2 ^ lo2 = x / 2 ^ lo / 2 ^ (hi + 1 - lo) / 2 ^ (lo2 - hi - 1) := by
    intro x
    rw [Nat.div_div_eq_div_mul, Nat.div_div_eq_div_mul, ← Nat.pow_add, ← Nat.pow_add]
    congr 2
    omega
  rw [bits_eq, bits_eq, hs, hs w, div_setBits]
  have : (w / 2 ^ lo / 2 ^ (hi + 1 - lo) * 2 ^ (hi + 1 - lo) + v % 2 ^ (hi + 1 - lo)) / 2 ^ (hi + 1 - lo)
      = w / 2 ^ lo / 2 ^ (hi + 1 - lo) := by
    rw [Nat.mul_comm, Nat.mul_add_div (Nat.two_pow_pos _), Nat.div_eq_of_lt (Nat.mod_lt _ (Nat.two_pow_pos _)), Nat.add_zero]
  rw [this]

/-- Setting a field inside a width keeps the number inside it. -/
theorem setBits_lt {w hi lo n : Nat} (hw : w < 2 ^ n) (v : Nat) (hl : lo ≤ hi) (hh : hi < n) :
    setBits w hi lo v < 2 ^ n := by
  rw [setBits_eq]
  obtain ⟨k, rfl⟩ : ∃ k, n = lo + (hi + 1 - lo) + k := ⟨n - (lo + (hi + 1 - lo)), by omega⟩
  have hq : w / 2 ^ lo / 2 ^ (hi + 1 - lo) < 2 ^ k := by
    rw [Nat.div_div_eq_div_mul, ← Nat.pow_add]
    exact Nat.div_lt_of_lt_mul (by rwa [← Nat.pow_add])
  have hv := Nat.mod_lt v (Nat.two_pow_pos (hi + 1 - lo))
  have hr := Nat.mod_lt w (Nat.two_pow_pos lo)
  rw [Nat.pow_add, Nat.pow_add]
  generalize 2 ^ lo = x at *
  generalize 2 ^ (hi + 1 - lo) = y at *
  generalize 2 ^ k = z at *
  have h1 : w / x / y * y + v % y + 1 ≤ z * y := by
    calc w / x / y * y + v % y + 1 ≤ w / x / y * y + y := by omega
      _ = (w / x / y + 1) * y := by ring
      _ ≤ z * y := Nat.mul_le_mul_right _ hq
  calc _ < (w / x / y * y + v % y) * x + x := by omega
    _ = (w / x / y * y + v % y + 1) * x := by ring
    _ ≤ z * y * x := Nat.mul_le_mul_right _ h1
    _ = x * y * z := by ring

@[simp] theorem leBytes_length (n v : Nat) : (leBytes n v).length = n := by
  induction n generalizing v with
  | zero => rfl
  | succ n ih => simp [leBytes, ih]

/-- Bytes there and back (R6). -/
theorem leNat_leBytes (n v : Nat) : leNat (leBytes n v) = v % 256 ^ n := by
  induction n generalizing v with
  | zero => simp [leBytes, leNat, Nat.mod_one]
  | succ n ih =>
    simp only [leBytes, leNat, ih, BitVec.toNat_ofNat]
    rw [show (256 : Nat) ^ (n + 1) = 256 * 256 ^ n by rw [Nat.pow_succ, Nat.mul_comm], Nat.mod_mul]

theorem leNat_lt (l : List Byte) : leNat l < 256 ^ l.length := by
  induction l with
  | nil => simp [leNat]
  | cons b t ih =>
    have := b.isLt
    simp only [leNat, List.length_cons, Nat.pow_succ]
    omega

end Sys2Proof.Machine
end

