-- ==== Sys2Proof/Laws/Sparse.lean ====
section
/-! SUPPORT. Sparse data: a read after a write, at the same key and at another, and the canonical form that a write
keeps. -/

namespace Sys2Proof.Machine

variable {α : Type}

theorem lookup_insertKey_same (m : Sparse α) (k : Nat) (w : α) : lookup (insertKey m k w) k = some w := by
  induction m with
  | nil => simp [insertKey, lookup]
  | cons e t ih =>
    obtain ⟨i, v⟩ := e
    simp only [insertKey]
    split
    · simp [lookup]
    · split
      · simp [lookup]
      · simp [lookup, *]

theorem lookup_insertKey_ne (m : Sparse α) {j k : Nat} (w : α) (h : j ≠ k) :
    lookup (insertKey m k w) j = lookup m j := by
  induction m with
  | nil => simp [insertKey, lookup, Ne.symm h]
  | cons e t ih =>
    obtain ⟨i, v⟩ := e
    simp only [insertKey]
    split
    · next hi => subst hi; simp [lookup, Ne.symm h]
    · split
      · simp [lookup, Ne.symm h]
      · simp [lookup, ih]

theorem eraseKey_cons (i : Nat) (v : α) (t : Sparse α) (k : Nat) :
    eraseKey ((i, v) :: t) k = if i = k then eraseKey t k else (i, v) :: eraseKey t k := by
  by_cases h : i = k <;> simp [eraseKey, h]

theorem lookup_eraseKey_same (m : Sparse α) (k : Nat) : lookup (eraseKey m k) k = none := by
  induction m with
  | nil => simp [eraseKey, lookup]
  | cons e t ih =>
    obtain ⟨i, v⟩ := e
    rw [eraseKey_cons]
    split <;> simp_all [lookup]

theorem lookup_eraseKey_ne (m : Sparse α) {j k : Nat} (h : j ≠ k) : lookup (eraseKey m k) j = lookup m j := by
  induction m with
  | nil => simp [eraseKey, lookup]
  | cons e t ih =>
    obtain ⟨i, v⟩ := e
    rw [eraseKey_cons]
    split
    · next hi => subst hi; simp [lookup, ih, Ne.symm h]
    · simp [lookup, ih]

variable [DecidableEq α]

/-- A read of the key just written gives the value written. -/
@[simp] theorem readAt_writeAt_same (d : Nat → α) (m : Sparse α) (k : Nat) (w : α) :
    readAt d (writeAt d m k w) k = w := by
  unfold writeAt
  split
  · next h => simp [readAt, lookup_eraseKey_same, h]
  · simp [readAt, lookup_insertKey_same]

/-- A write leaves every other key alone. -/
theorem readAt_writeAt_ne (d : Nat → α) (m : Sparse α) {j k : Nat} (w : α) (h : j ≠ k) :
    readAt d (writeAt d m k w) j = readAt d m j := by
  unfold writeAt
  split
  · simp [readAt, lookup_eraseKey_ne m h]
  · simp [readAt, lookup_insertKey_ne m w h]

/-- A read after a write, in one equation. -/
theorem readAt_writeAt (d : Nat → α) (m : Sparse α) (j k : Nat) (w : α) :
    readAt d (writeAt d m k w) j = if j = k then w else readAt d m j := by
  by_cases h : j = k
  · subst h; simp
  · simp [readAt_writeAt_ne d m w h, h]

theorem wfFrom_mono (d : Nat → α) (m : Sparse α) {lo hi : Nat} (h : lo ≤ hi) (hm : wfFrom d hi m = true) :
    wfFrom d lo m = true := by
  cases m with
  | nil => rfl
  | cons e t =>
    obtain ⟨i, v⟩ := e
    simp only [wfFrom, Bool.and_eq_true, decide_eq_true_eq] at hm ⊢
    exact ⟨⟨by omega, hm.1.2⟩, hm.2⟩

theorem wfFrom_filter (d : Nat → α) (p : Nat × α → Bool) (m : Sparse α) (lo : Nat) (hm : wfFrom d lo m = true) :
    wfFrom d lo (m.filter p) = true := by
  induction m generalizing lo with
  | nil => rfl
  | cons e t ih =>
    obtain ⟨i, v⟩ := e
    simp only [wfFrom, Bool.and_eq_true, decide_eq_true_eq] at hm
    rw [List.filter_cons]
    split
    · simp only [wfFrom, Bool.and_eq_true, decide_eq_true_eq]
      exact ⟨hm.1, ih _ hm.2⟩
    · exact wfFrom_mono d _ (by omega) (ih _ hm.2)

theorem wfFrom_insertKey (d : Nat → α) (m : Sparse α) {lo k : Nat} {w : α} (hw : w ≠ d k) (hk : lo ≤ k)
    (hm : wfFrom d lo m = true) : wfFrom d lo (insertKey m k w) = true := by
  induction m generalizing lo with
  | nil => simp [insertKey, wfFrom, hw, hk]
  | cons e t ih =>
    obtain ⟨i, v⟩ := e
    simp only [wfFrom, Bool.and_eq_true, decide_eq_true_eq] at hm
    simp only [insertKey]
    split
    · next h => subst h; simp only [wfFrom, Bool.and_eq_true, decide_eq_true_eq]; exact ⟨⟨hk, hw⟩, hm.2⟩
    · split
      · simp only [wfFrom, Bool.and_eq_true, decide_eq_true_eq]
        exact ⟨⟨hk, hw⟩, ⟨by omega, hm.1.2⟩, hm.2⟩
      · simp only [wfFrom, Bool.and_eq_true, decide_eq_true_eq]
        exact ⟨hm.1, ih (by omega) hm.2⟩

/-- A write keeps the canonical form. -/
theorem wfSparse_writeAt (d : Nat → α) (m : Sparse α) (k : Nat) (w : α) (h : wfSparse d m = true) :
    wfSparse d (writeAt d m k w) = true := by
  unfold writeAt wfSparse at *
  split
  · exact wfFrom_filter d _ m 0 h
  · next hw => exact wfFrom_insertKey d m hw (Nat.zero_le _) h

end Sys2Proof.Machine
end

