-- ==== Sys2Proof/Laws/State.lean ====
section
/-! SUPPORT. The state under its primitive updates: one lemma per field per update. What an update does to its own field
is said with it. -/

namespace Sys2Proof.Machine

variable (s : State)

@[simp] theorem State.setReg_pending (a v : Nat) : (s.setReg a v).pending = s.pending := rfl
@[simp] theorem State.setReg_now (a v : Nat) : (s.setReg a v).now = s.now := rfl
@[simp] theorem State.setReg_past (a v : Nat) : (s.setReg a v).past = s.past := rfl
@[simp] theorem State.setReg_frozen (a v : Nat) : (s.setReg a v).frozen = s.frozen := rfl
@[simp] theorem State.setReg_free (a v : Nat) : (s.setReg a v).free = s.free := rfl
@[simp] theorem State.setReg_regs (a v : Nat) :
    (s.setReg a v).regs = writeAt regReset s.regs a (BitVec.ofNat 64 v) := rfl
@[simp] theorem State.setReg_mem (a v : Nat) : (s.setReg a v).mem = s.mem := rfl
@[simp] theorem State.setReg_slots (a v : Nat) : (s.setReg a v).slots = s.slots := rfl
@[simp] theorem State.setReg_tiles (a v : Nat) : (s.setReg a v).tiles = s.tiles := rfl
@[simp] theorem State.setReg_leas (a v : Nat) : (s.setReg a v).leas = s.leas := rfl
@[simp] theorem State.setReg_posts (a v : Nat) : (s.setReg a v).posts = s.posts := rfl
@[simp] theorem State.setReg_sramFix (a v : Nat) : (s.setReg a v).sramFix = s.sramFix := rfl
@[simp] theorem State.setReg_poison (a v : Nat) : (s.setReg a v).poison = s.poison := rfl
@[simp] theorem State.setReg_spoilt (a v : Nat) : (s.setReg a v).spoilt = s.spoilt := rfl
@[simp] theorem State.setReg_sched (a v : Nat) : (s.setReg a v).sched = s.sched := rfl
@[simp] theorem State.setReg_kv (a v : Nat) : (s.setReg a v).kv = s.kv := rfl
@[simp] theorem State.setReg_prairie (a v : Nat) : (s.setReg a v).prairie = s.prairie := rfl
@[simp] theorem State.setReg_queues (a v : Nat) : (s.setReg a v).queues = s.queues := rfl
@[simp] theorem State.setReg_iqm (a v : Nat) : (s.setReg a v).iqm = s.iqm := rfl
@[simp] theorem State.setReg_ptp (a v : Nat) : (s.setReg a v).ptp = s.ptp := rfl
@[simp] theorem State.setReg_tbCopy (a v : Nat) : (s.setReg a v).tbCopy = s.tbCopy := rfl
@[simp] theorem State.setReg_fwRules (a v : Nat) : (s.setReg a v).fwRules = s.fwRules := rfl
@[simp] theorem State.setReg_fwLocked (a v : Nat) : (s.setReg a v).fwLocked = s.fwLocked := rfl
@[simp] theorem State.setReg_domain (a v : Nat) : (s.setReg a v).domain = s.domain := rfl
@[simp] theorem State.setReg_domains (a v : Nat) : (s.setReg a v).domains = s.domains := rfl
@[simp] theorem State.setReg_sipKey (a v : Nat) : (s.setReg a v).sipKey = s.sipKey := rfl
@[simp] theorem State.setReg_scrubFix (a v : Nat) : (s.setReg a v).scrubFix = s.scrubFix := rfl
@[simp] theorem State.setReg_repairs (a v : Nat) : (s.setReg a v).repairs = s.repairs := rfl
@[simp] theorem State.setReg_rowsUsed (a v : Nat) : (s.setReg a v).rowsUsed = s.rowsUsed := rfl
@[simp] theorem State.setReg_dram (a v : Nat) : (s.setReg a v).dram = s.dram := rfl
@[simp] theorem State.setReg_collectors (a v : Nat) : (s.setReg a v).collectors = s.collectors := rfl
@[simp] theorem State.setReg_frec (a v : Nat) : (s.setReg a v).frec = s.frec := rfl
@[simp] theorem State.setReg_ports (a v : Nat) : (s.setReg a v).ports = s.ports := rfl
@[simp] theorem State.setReg_dies (a v : Nat) : (s.setReg a v).dies = s.dies := rfl
@[simp] theorem State.setReg_flr (a v : Nat) : (s.setReg a v).flr = s.flr := rfl
@[simp] theorem State.setReg_heaths (a v : Nat) : (s.setReg a v).heaths = s.heaths := rfl
@[simp] theorem State.setReg_flash (a v : Nat) : (s.setReg a v).flash = s.flash := rfl
@[simp] theorem State.setReg_fuses (a v : Nat) : (s.setReg a v).fuses = s.fuses := rfl
@[simp] theorem State.setReg_procs (a v : Nat) : (s.setReg a v).procs = s.procs := rfl
@[simp] theorem State.setReg_boot (a v : Nat) : (s.setReg a v).boot = s.boot := rfl
@[simp] theorem State.setReg_power (a v : Nat) : (s.setReg a v).power = s.power := rfl
@[simp] theorem State.setReg_diePower (a v : Nat) : (s.setReg a v).diePower = s.diePower := rfl
@[simp] theorem State.setReg_host (a v : Nat) : (s.setReg a v).host = s.host := rfl
@[simp] theorem State.setReg_debugPort (a v : Nat) : (s.setReg a v).debugPort = s.debugPort := rfl
@[simp] theorem State.setReg_col (a v : Nat) : (s.setReg a v).col = s.col := rfl

@[simp] theorem State.setFld_pending (a hi lo v : Nat) : (s.setFld a hi lo v).pending = s.pending := rfl
@[simp] theorem State.setFld_now (a hi lo v : Nat) : (s.setFld a hi lo v).now = s.now := rfl
@[simp] theorem State.setFld_past (a hi lo v : Nat) : (s.setFld a hi lo v).past = s.past := rfl
@[simp] theorem State.setFld_frozen (a hi lo v : Nat) : (s.setFld a hi lo v).frozen = s.frozen := rfl
@[simp] theorem State.setFld_free (a hi lo v : Nat) : (s.setFld a hi lo v).free = s.free := rfl
@[simp] theorem State.setFld_regs (a hi lo v : Nat) :
    (s.setFld a hi lo v).regs = writeAt regReset s.regs a (BitVec.ofNat 64 (setBits (s.reg a) hi lo v)) := rfl
@[simp] theorem State.setFld_mem (a hi lo v : Nat) : (s.setFld a hi lo v).mem = s.mem := rfl
@[simp] theorem State.setFld_slots (a hi lo v : Nat) : (s.setFld a hi lo v).slots = s.slots := rfl
@[simp] theorem State.setFld_tiles (a hi lo v : Nat) : (s.setFld a hi lo v).tiles = s.tiles := rfl
@[simp] theorem State.setFld_leas (a hi lo v : Nat) : (s.setFld a hi lo v).leas = s.leas := rfl
@[simp] theorem State.setFld_posts (a hi lo v : Nat) : (s.setFld a hi lo v).posts = s.posts := rfl
@[simp] theorem State.setFld_sramFix (a hi lo v : Nat) : (s.setFld a hi lo v).sramFix = s.sramFix := rfl
@[simp] theorem State.setFld_poison (a hi lo v : Nat) : (s.setFld a hi lo v).poison = s.poison := rfl
@[simp] theorem State.setFld_spoilt (a hi lo v : Nat) : (s.setFld a hi lo v).spoilt = s.spoilt := rfl
@[simp] theorem State.setFld_sched (a hi lo v : Nat) : (s.setFld a hi lo v).sched = s.sched := rfl
@[simp] theorem State.setFld_kv (a hi lo v : Nat) : (s.setFld a hi lo v).kv = s.kv := rfl
@[simp] theorem State.setFld_prairie (a hi lo v : Nat) : (s.setFld a hi lo v).prairie = s.prairie := rfl
@[simp] theorem State.setFld_queues (a hi lo v : Nat) : (s.setFld a hi lo v).queues = s.queues := rfl
@[simp] theorem State.setFld_iqm (a hi lo v : Nat) : (s.setFld a hi lo v).iqm = s.iqm := rfl
@[simp] theorem State.setFld_ptp (a hi lo v : Nat) : (s.setFld a hi lo v).ptp = s.ptp := rfl
@[simp] theorem State.setFld_tbCopy (a hi lo v : Nat) : (s.setFld a hi lo v).tbCopy = s.tbCopy := rfl
@[simp] theorem State.setFld_fwRules (a hi lo v : Nat) : (s.setFld a hi lo v).fwRules = s.fwRules := rfl
@[simp] theorem State.setFld_fwLocked (a hi lo v : Nat) : (s.setFld a hi lo v).fwLocked = s.fwLocked := rfl
@[simp] theorem State.setFld_domain (a hi lo v : Nat) : (s.setFld a hi lo v).domain = s.domain := rfl
@[simp] theorem State.setFld_domains (a hi lo v : Nat) : (s.setFld a hi lo v).domains = s.domains := rfl
@[simp] theorem State.setFld_sipKey (a hi lo v : Nat) : (s.setFld a hi lo v).sipKey = s.sipKey := rfl
@[simp] theorem State.setFld_scrubFix (a hi lo v : Nat) : (s.setFld a hi lo v).scrubFix = s.scrubFix := rfl
@[simp] theorem State.setFld_repairs (a hi lo v : Nat) : (s.setFld a hi lo v).repairs = s.repairs := rfl
@[simp] theorem State.setFld_rowsUsed (a hi lo v : Nat) : (s.setFld a hi lo v).rowsUsed = s.rowsUsed := rfl
@[simp] theorem State.setFld_dram (a hi lo v : Nat) : (s.setFld a hi lo v).dram = s.dram := rfl
@[simp] theorem State.setFld_collectors (a hi lo v : Nat) : (s.setFld a hi lo v).collectors = s.collectors := rfl
@[simp] theorem State.setFld_frec (a hi lo v : Nat) : (s.setFld a hi lo v).frec = s.frec := rfl
@[simp] theorem State.setFld_ports (a hi lo v : Nat) : (s.setFld a hi lo v).ports = s.ports := rfl
@[simp] theorem State.setFld_dies (a hi lo v : Nat) : (s.setFld a hi lo v).dies = s.dies := rfl
@[simp] theorem State.setFld_flr (a hi lo v : Nat) : (s.setFld a hi lo v).flr = s.flr := rfl
@[simp] theorem State.setFld_heaths (a hi lo v : Nat) : (s.setFld a hi lo v).heaths = s.heaths := rfl
@[simp] theorem State.setFld_flash (a hi lo v : Nat) : (s.setFld a hi lo v).flash = s.flash := rfl
@[simp] theorem State.setFld_fuses (a hi lo v : Nat) : (s.setFld a hi lo v).fuses = s.fuses := rfl
@[simp] theorem State.setFld_procs (a hi lo v : Nat) : (s.setFld a hi lo v).procs = s.procs := rfl
@[simp] theorem State.setFld_boot (a hi lo v : Nat) : (s.setFld a hi lo v).boot = s.boot := rfl
@[simp] theorem State.setFld_power (a hi lo v : Nat) : (s.setFld a hi lo v).power = s.power := rfl
@[simp] theorem State.setFld_diePower (a hi lo v : Nat) : (s.setFld a hi lo v).diePower = s.diePower := rfl
@[simp] theorem State.setFld_host (a hi lo v : Nat) : (s.setFld a hi lo v).host = s.host := rfl
@[simp] theorem State.setFld_debugPort (a hi lo v : Nat) : (s.setFld a hi lo v).debugPort = s.debugPort := rfl
@[simp] theorem State.setFld_col (a hi lo v : Nat) : (s.setFld a hi lo v).col = s.col := rfl

@[simp] theorem State.setSlot_pending (k : Nat) (th : ThreadSlot) : (s.setSlot k th).pending = s.pending := rfl
@[simp] theorem State.setSlot_now (k : Nat) (th : ThreadSlot) : (s.setSlot k th).now = s.now := rfl
@[simp] theorem State.setSlot_past (k : Nat) (th : ThreadSlot) : (s.setSlot k th).past = s.past := rfl
@[simp] theorem State.setSlot_frozen (k : Nat) (th : ThreadSlot) : (s.setSlot k th).frozen = s.frozen := rfl
@[simp] theorem State.setSlot_free (k : Nat) (th : ThreadSlot) : (s.setSlot k th).free = s.free := rfl
@[simp] theorem State.setSlot_regs (k : Nat) (th : ThreadSlot) : (s.setSlot k th).regs = s.regs := rfl
@[simp] theorem State.setSlot_mem (k : Nat) (th : ThreadSlot) : (s.setSlot k th).mem = s.mem := rfl
@[simp] theorem State.setSlot_slots (k : Nat) (th : ThreadSlot) :
    (s.setSlot k th).slots = writeAt (fun _ => slotFree) s.slots k th := rfl
@[simp] theorem State.setSlot_tiles (k : Nat) (th : ThreadSlot) : (s.setSlot k th).tiles = s.tiles := rfl
@[simp] theorem State.setSlot_leas (k : Nat) (th : ThreadSlot) : (s.setSlot k th).leas = s.leas := rfl
@[simp] theorem State.setSlot_posts (k : Nat) (th : ThreadSlot) : (s.setSlot k th).posts = s.posts := rfl
@[simp] theorem State.setSlot_sramFix (k : Nat) (th : ThreadSlot) : (s.setSlot k th).sramFix = s.sramFix := rfl
@[simp] theorem State.setSlot_poison (k : Nat) (th : ThreadSlot) : (s.setSlot k th).poison = s.poison := rfl
@[simp] theorem State.setSlot_spoilt (k : Nat) (th : ThreadSlot) : (s.setSlot k th).spoilt = s.spoilt := rfl
@[simp] theorem State.setSlot_sched (k : Nat) (th : ThreadSlot) : (s.setSlot k th).sched = s.sched := rfl
@[simp] theorem State.setSlot_kv (k : Nat) (th : ThreadSlot) : (s.setSlot k th).kv = s.kv := rfl
@[simp] theorem State.setSlot_prairie (k : Nat) (th : ThreadSlot) : (s.setSlot k th).prairie = s.prairie := rfl
@[simp] theorem State.setSlot_queues (k : Nat) (th : ThreadSlot) : (s.setSlot k th).queues = s.queues := rfl
@[simp] theorem State.setSlot_iqm (k : Nat) (th : ThreadSlot) : (s.setSlot k th).iqm = s.iqm := rfl
@[simp] theorem State.setSlot_ptp (k : Nat) (th : ThreadSlot) : (s.setSlot k th).ptp = s.ptp := rfl
@[simp] theorem State.setSlot_tbCopy (k : Nat) (th : ThreadSlot) : (s.setSlot k th).tbCopy = s.tbCopy := rfl
@[simp] theorem State.setSlot_fwRules (k : Nat) (th : ThreadSlot) : (s.setSlot k th).fwRules = s.fwRules := rfl
@[simp] theorem State.setSlot_fwLocked (k : Nat) (th : ThreadSlot) : (s.setSlot k th).fwLocked = s.fwLocked := rfl
@[simp] theorem State.setSlot_domain (k : Nat) (th : ThreadSlot) : (s.setSlot k th).domain = s.domain := rfl
@[simp] theorem State.setSlot_domains (k : Nat) (th : ThreadSlot) : (s.setSlot k th).domains = s.domains := rfl
@[simp] theorem State.setSlot_sipKey (k : Nat) (th : ThreadSlot) : (s.setSlot k th).sipKey = s.sipKey := rfl
@[simp] theorem State.setSlot_scrubFix (k : Nat) (th : ThreadSlot) : (s.setSlot k th).scrubFix = s.scrubFix := rfl
@[simp] theorem State.setSlot_repairs (k : Nat) (th : ThreadSlot) : (s.setSlot k th).repairs = s.repairs := rfl
@[simp] theorem State.setSlot_rowsUsed (k : Nat) (th : ThreadSlot) : (s.setSlot k th).rowsUsed = s.rowsUsed := rfl
@[simp] theorem State.setSlot_dram (k : Nat) (th : ThreadSlot) : (s.setSlot k th).dram = s.dram := rfl
@[simp] theorem State.setSlot_collectors (k : Nat) (th : ThreadSlot) : (s.setSlot k th).collectors = s.collectors := rfl
@[simp] theorem State.setSlot_frec (k : Nat) (th : ThreadSlot) : (s.setSlot k th).frec = s.frec := rfl
@[simp] theorem State.setSlot_ports (k : Nat) (th : ThreadSlot) : (s.setSlot k th).ports = s.ports := rfl
@[simp] theorem State.setSlot_dies (k : Nat) (th : ThreadSlot) : (s.setSlot k th).dies = s.dies := rfl
@[simp] theorem State.setSlot_flr (k : Nat) (th : ThreadSlot) : (s.setSlot k th).flr = s.flr := rfl
@[simp] theorem State.setSlot_heaths (k : Nat) (th : ThreadSlot) : (s.setSlot k th).heaths = s.heaths := rfl
@[simp] theorem State.setSlot_flash (k : Nat) (th : ThreadSlot) : (s.setSlot k th).flash = s.flash := rfl
@[simp] theorem State.setSlot_fuses (k : Nat) (th : ThreadSlot) : (s.setSlot k th).fuses = s.fuses := rfl
@[simp] theorem State.setSlot_procs (k : Nat) (th : ThreadSlot) : (s.setSlot k th).procs = s.procs := rfl
@[simp] theorem State.setSlot_boot (k : Nat) (th : ThreadSlot) : (s.setSlot k th).boot = s.boot := rfl
@[simp] theorem State.setSlot_power (k : Nat) (th : ThreadSlot) : (s.setSlot k th).power = s.power := rfl
@[simp] theorem State.setSlot_diePower (k : Nat) (th : ThreadSlot) : (s.setSlot k th).diePower = s.diePower := rfl
@[simp] theorem State.setSlot_host (k : Nat) (th : ThreadSlot) : (s.setSlot k th).host = s.host := rfl
@[simp] theorem State.setSlot_debugPort (k : Nat) (th : ThreadSlot) : (s.setSlot k th).debugPort = s.debugPort := rfl
@[simp] theorem State.setSlot_col (k : Nat) (th : ThreadSlot) : (s.setSlot k th).col = s.col := rfl

@[simp] theorem State.setTile_pending (k : Nat) (x : TileState) : (s.setTile k x).pending = s.pending := rfl
@[simp] theorem State.setTile_now (k : Nat) (x : TileState) : (s.setTile k x).now = s.now := rfl
@[simp] theorem State.setTile_past (k : Nat) (x : TileState) : (s.setTile k x).past = s.past := rfl
@[simp] theorem State.setTile_frozen (k : Nat) (x : TileState) : (s.setTile k x).frozen = s.frozen := rfl
@[simp] theorem State.setTile_free (k : Nat) (x : TileState) : (s.setTile k x).free = s.free := rfl
@[simp] theorem State.setTile_regs (k : Nat) (x : TileState) : (s.setTile k x).regs = s.regs := rfl
@[simp] theorem State.setTile_mem (k : Nat) (x : TileState) : (s.setTile k x).mem = s.mem := rfl
@[simp] theorem State.setTile_slots (k : Nat) (x : TileState) : (s.setTile k x).slots = s.slots := rfl
@[simp] theorem State.setTile_tiles (k : Nat) (x : TileState) :
    (s.setTile k x).tiles = writeAt (fun _ => tileFresh) s.tiles k x := rfl
@[simp] theorem State.setTile_leas (k : Nat) (x : TileState) : (s.setTile k x).leas = s.leas := rfl
@[simp] theorem State.setTile_posts (k : Nat) (x : TileState) : (s.setTile k x).posts = s.posts := rfl
@[simp] theorem State.setTile_sramFix (k : Nat) (x : TileState) : (s.setTile k x).sramFix = s.sramFix := rfl
@[simp] theorem State.setTile_poison (k : Nat) (x : TileState) : (s.setTile k x).poison = s.poison := rfl
@[simp] theorem State.setTile_spoilt (k : Nat) (x : TileState) : (s.setTile k x).spoilt = s.spoilt := rfl
@[simp] theorem State.setTile_sched (k : Nat) (x : TileState) : (s.setTile k x).sched = s.sched := rfl
@[simp] theorem State.setTile_kv (k : Nat) (x : TileState) : (s.setTile k x).kv = s.kv := rfl
@[simp] theorem State.setTile_prairie (k : Nat) (x : TileState) : (s.setTile k x).prairie = s.prairie := rfl
@[simp] theorem State.setTile_queues (k : Nat) (x : TileState) : (s.setTile k x).queues = s.queues := rfl
@[simp] theorem State.setTile_iqm (k : Nat) (x : TileState) : (s.setTile k x).iqm = s.iqm := rfl
@[simp] theorem State.setTile_ptp (k : Nat) (x : TileState) : (s.setTile k x).ptp = s.ptp := rfl
@[simp] theorem State.setTile_tbCopy (k : Nat) (x : TileState) : (s.setTile k x).tbCopy = s.tbCopy := rfl
@[simp] theorem State.setTile_fwRules (k : Nat) (x : TileState) : (s.setTile k x).fwRules = s.fwRules := rfl
@[simp] theorem State.setTile_fwLocked (k : Nat) (x : TileState) : (s.setTile k x).fwLocked = s.fwLocked := rfl
@[simp] theorem State.setTile_domain (k : Nat) (x : TileState) : (s.setTile k x).domain = s.domain := rfl
@[simp] theorem State.setTile_domains (k : Nat) (x : TileState) : (s.setTile k x).domains = s.domains := rfl
@[simp] theorem State.setTile_sipKey (k : Nat) (x : TileState) : (s.setTile k x).sipKey = s.sipKey := rfl
@[simp] theorem State.setTile_scrubFix (k : Nat) (x : TileState) : (s.setTile k x).scrubFix = s.scrubFix := rfl
@[simp] theorem State.setTile_repairs (k : Nat) (x : TileState) : (s.setTile k x).repairs = s.repairs := rfl
@[simp] theorem State.setTile_rowsUsed (k : Nat) (x : TileState) : (s.setTile k x).rowsUsed = s.rowsUsed := rfl
@[simp] theorem State.setTile_dram (k : Nat) (x : TileState) : (s.setTile k x).dram = s.dram := rfl
@[simp] theorem State.setTile_collectors (k : Nat) (x : TileState) : (s.setTile k x).collectors = s.collectors := rfl
@[simp] theorem State.setTile_frec (k : Nat) (x : TileState) : (s.setTile k x).frec = s.frec := rfl
@[simp] theorem State.setTile_ports (k : Nat) (x : TileState) : (s.setTile k x).ports = s.ports := rfl
@[simp] theorem State.setTile_dies (k : Nat) (x : TileState) : (s.setTile k x).dies = s.dies := rfl
@[simp] theorem State.setTile_flr (k : Nat) (x : TileState) : (s.setTile k x).flr = s.flr := rfl
@[simp] theorem State.setTile_heaths (k : Nat) (x : TileState) : (s.setTile k x).heaths = s.heaths := rfl
@[simp] theorem State.setTile_flash (k : Nat) (x : TileState) : (s.setTile k x).flash = s.flash := rfl
@[simp] theorem State.setTile_fuses (k : Nat) (x : TileState) : (s.setTile k x).fuses = s.fuses := rfl
@[simp] theorem State.setTile_procs (k : Nat) (x : TileState) : (s.setTile k x).procs = s.procs := rfl
@[simp] theorem State.setTile_boot (k : Nat) (x : TileState) : (s.setTile k x).boot = s.boot := rfl
@[simp] theorem State.setTile_power (k : Nat) (x : TileState) : (s.setTile k x).power = s.power := rfl
@[simp] theorem State.setTile_diePower (k : Nat) (x : TileState) : (s.setTile k x).diePower = s.diePower := rfl
@[simp] theorem State.setTile_host (k : Nat) (x : TileState) : (s.setTile k x).host = s.host := rfl
@[simp] theorem State.setTile_debugPort (k : Nat) (x : TileState) : (s.setTile k x).debugPort = s.debugPort := rfl
@[simp] theorem State.setTile_col (k : Nat) (x : TileState) : (s.setTile k x).col = s.col := rfl

@[simp] theorem State.setLea_pending (k : Nat) (x : LeaState) : (s.setLea k x).pending = s.pending := rfl
@[simp] theorem State.setLea_now (k : Nat) (x : LeaState) : (s.setLea k x).now = s.now := rfl
@[simp] theorem State.setLea_past (k : Nat) (x : LeaState) : (s.setLea k x).past = s.past := rfl
@[simp] theorem State.setLea_frozen (k : Nat) (x : LeaState) : (s.setLea k x).frozen = s.frozen := rfl
@[simp] theorem State.setLea_free (k : Nat) (x : LeaState) : (s.setLea k x).free = s.free := rfl
@[simp] theorem State.setLea_regs (k : Nat) (x : LeaState) : (s.setLea k x).regs = s.regs := rfl
@[simp] theorem State.setLea_mem (k : Nat) (x : LeaState) : (s.setLea k x).mem = s.mem := rfl
@[simp] theorem State.setLea_slots (k : Nat) (x : LeaState) : (s.setLea k x).slots = s.slots := rfl
@[simp] theorem State.setLea_tiles (k : Nat) (x : LeaState) : (s.setLea k x).tiles = s.tiles := rfl
@[simp] theorem State.setLea_leas (k : Nat) (x : LeaState) :
    (s.setLea k x).leas = writeAt (fun _ => leaFresh) s.leas k x := rfl
@[simp] theorem State.setLea_posts (k : Nat) (x : LeaState) : (s.setLea k x).posts = s.posts := rfl
@[simp] theorem State.setLea_sramFix (k : Nat) (x : LeaState) : (s.setLea k x).sramFix = s.sramFix := rfl
@[simp] theorem State.setLea_poison (k : Nat) (x : LeaState) : (s.setLea k x).poison = s.poison := rfl
@[simp] theorem State.setLea_spoilt (k : Nat) (x : LeaState) : (s.setLea k x).spoilt = s.spoilt := rfl
@[simp] theorem State.setLea_sched (k : Nat) (x : LeaState) : (s.setLea k x).sched = s.sched := rfl
@[simp] theorem State.setLea_kv (k : Nat) (x : LeaState) : (s.setLea k x).kv = s.kv := rfl
@[simp] theorem State.setLea_prairie (k : Nat) (x : LeaState) : (s.setLea k x).prairie = s.prairie := rfl
@[simp] theorem State.setLea_queues (k : Nat) (x : LeaState) : (s.setLea k x).queues = s.queues := rfl
@[simp] theorem State.setLea_iqm (k : Nat) (x : LeaState) : (s.setLea k x).iqm = s.iqm := rfl
@[simp] theorem State.setLea_ptp (k : Nat) (x : LeaState) : (s.setLea k x).ptp = s.ptp := rfl
@[simp] theorem State.setLea_tbCopy (k : Nat) (x : LeaState) : (s.setLea k x).tbCopy = s.tbCopy := rfl
@[simp] theorem State.setLea_fwRules (k : Nat) (x : LeaState) : (s.setLea k x).fwRules = s.fwRules := rfl
@[simp] theorem State.setLea_fwLocked (k : Nat) (x : LeaState) : (s.setLea k x).fwLocked = s.fwLocked := rfl
@[simp] theorem State.setLea_domain (k : Nat) (x : LeaState) : (s.setLea k x).domain = s.domain := rfl
@[simp] theorem State.setLea_domains (k : Nat) (x : LeaState) : (s.setLea k x).domains = s.domains := rfl
@[simp] theorem State.setLea_sipKey (k : Nat) (x : LeaState) : (s.setLea k x).sipKey = s.sipKey := rfl
@[simp] theorem State.setLea_scrubFix (k : Nat) (x : LeaState) : (s.setLea k x).scrubFix = s.scrubFix := rfl
@[simp] theorem State.setLea_repairs (k : Nat) (x : LeaState) : (s.setLea k x).repairs = s.repairs := rfl
@[simp] theorem State.setLea_rowsUsed (k : Nat) (x : LeaState) : (s.setLea k x).rowsUsed = s.rowsUsed := rfl
@[simp] theorem State.setLea_dram (k : Nat) (x : LeaState) : (s.setLea k x).dram = s.dram := rfl
@[simp] theorem State.setLea_collectors (k : Nat) (x : LeaState) : (s.setLea k x).collectors = s.collectors := rfl
@[simp] theorem State.setLea_frec (k : Nat) (x : LeaState) : (s.setLea k x).frec = s.frec := rfl
@[simp] theorem State.setLea_ports (k : Nat) (x : LeaState) : (s.setLea k x).ports = s.ports := rfl
@[simp] theorem State.setLea_dies (k : Nat) (x : LeaState) : (s.setLea k x).dies = s.dies := rfl
@[simp] theorem State.setLea_flr (k : Nat) (x : LeaState) : (s.setLea k x).flr = s.flr := rfl
@[simp] theorem State.setLea_heaths (k : Nat) (x : LeaState) : (s.setLea k x).heaths = s.heaths := rfl
@[simp] theorem State.setLea_flash (k : Nat) (x : LeaState) : (s.setLea k x).flash = s.flash := rfl
@[simp] theorem State.setLea_fuses (k : Nat) (x : LeaState) : (s.setLea k x).fuses = s.fuses := rfl
@[simp] theorem State.setLea_procs (k : Nat) (x : LeaState) : (s.setLea k x).procs = s.procs := rfl
@[simp] theorem State.setLea_boot (k : Nat) (x : LeaState) : (s.setLea k x).boot = s.boot := rfl
@[simp] theorem State.setLea_power (k : Nat) (x : LeaState) : (s.setLea k x).power = s.power := rfl
@[simp] theorem State.setLea_diePower (k : Nat) (x : LeaState) : (s.setLea k x).diePower = s.diePower := rfl
@[simp] theorem State.setLea_host (k : Nat) (x : LeaState) : (s.setLea k x).host = s.host := rfl
@[simp] theorem State.setLea_debugPort (k : Nat) (x : LeaState) : (s.setLea k x).debugPort = s.debugPort := rfl
@[simp] theorem State.setLea_col (k : Nat) (x : LeaState) : (s.setLea k x).col = s.col := rfl

@[simp] theorem State.setQueue_pending (q : Nat) (x : Queue) : (s.setQueue q x).pending = s.pending := rfl
@[simp] theorem State.setQueue_now (q : Nat) (x : Queue) : (s.setQueue q x).now = s.now := rfl
@[simp] theorem State.setQueue_past (q : Nat) (x : Queue) : (s.setQueue q x).past = s.past := rfl
@[simp] theorem State.setQueue_frozen (q : Nat) (x : Queue) : (s.setQueue q x).frozen = s.frozen := rfl
@[simp] theorem State.setQueue_free (q : Nat) (x : Queue) : (s.setQueue q x).free = s.free := rfl
@[simp] theorem State.setQueue_regs (q : Nat) (x : Queue) : (s.setQueue q x).regs = s.regs := rfl
@[simp] theorem State.setQueue_mem (q : Nat) (x : Queue) : (s.setQueue q x).mem = s.mem := rfl
@[simp] theorem State.setQueue_slots (q : Nat) (x : Queue) : (s.setQueue q x).slots = s.slots := rfl
@[simp] theorem State.setQueue_tiles (q : Nat) (x : Queue) : (s.setQueue q x).tiles = s.tiles := rfl
@[simp] theorem State.setQueue_leas (q : Nat) (x : Queue) : (s.setQueue q x).leas = s.leas := rfl
@[simp] theorem State.setQueue_posts (q : Nat) (x : Queue) : (s.setQueue q x).posts = s.posts := rfl
@[simp] theorem State.setQueue_sramFix (q : Nat) (x : Queue) : (s.setQueue q x).sramFix = s.sramFix := rfl
@[simp] theorem State.setQueue_poison (q : Nat) (x : Queue) : (s.setQueue q x).poison = s.poison := rfl
@[simp] theorem State.setQueue_spoilt (q : Nat) (x : Queue) : (s.setQueue q x).spoilt = s.spoilt := rfl
@[simp] theorem State.setQueue_sched (q : Nat) (x : Queue) : (s.setQueue q x).sched = s.sched := rfl
@[simp] theorem State.setQueue_kv (q : Nat) (x : Queue) : (s.setQueue q x).kv = s.kv := rfl
@[simp] theorem State.setQueue_prairie (q : Nat) (x : Queue) : (s.setQueue q x).prairie = s.prairie := rfl
@[simp] theorem State.setQueue_queues (q : Nat) (x : Queue) :
    (s.setQueue q x).queues = writeAt (fun _ => queueFresh) s.queues q x := rfl
@[simp] theorem State.setQueue_iqm (q : Nat) (x : Queue) : (s.setQueue q x).iqm = s.iqm := rfl
@[simp] theorem State.setQueue_ptp (q : Nat) (x : Queue) : (s.setQueue q x).ptp = s.ptp := rfl
@[simp] theorem State.setQueue_tbCopy (q : Nat) (x : Queue) : (s.setQueue q x).tbCopy = s.tbCopy := rfl
@[simp] theorem State.setQueue_fwRules (q : Nat) (x : Queue) : (s.setQueue q x).fwRules = s.fwRules := rfl
@[simp] theorem State.setQueue_fwLocked (q : Nat) (x : Queue) : (s.setQueue q x).fwLocked = s.fwLocked := rfl
@[simp] theorem State.setQueue_domain (q : Nat) (x : Queue) : (s.setQueue q x).domain = s.domain := rfl
@[simp] theorem State.setQueue_domains (q : Nat) (x : Queue) : (s.setQueue q x).domains = s.domains := rfl
@[simp] theorem State.setQueue_sipKey (q : Nat) (x : Queue) : (s.setQueue q x).sipKey = s.sipKey := rfl
@[simp] theorem State.setQueue_scrubFix (q : Nat) (x : Queue) : (s.setQueue q x).scrubFix = s.scrubFix := rfl
@[simp] theorem State.setQueue_repairs (q : Nat) (x : Queue) : (s.setQueue q x).repairs = s.repairs := rfl
@[simp] theorem State.setQueue_rowsUsed (q : Nat) (x : Queue) : (s.setQueue q x).rowsUsed = s.rowsUsed := rfl
@[simp] theorem State.setQueue_dram (q : Nat) (x : Queue) : (s.setQueue q x).dram = s.dram := rfl
@[simp] theorem State.setQueue_collectors (q : Nat) (x : Queue) : (s.setQueue q x).collectors = s.collectors := rfl
@[simp] theorem State.setQueue_frec (q : Nat) (x : Queue) : (s.setQueue q x).frec = s.frec := rfl
@[simp] theorem State.setQueue_ports (q : Nat) (x : Queue) : (s.setQueue q x).ports = s.ports := rfl
@[simp] theorem State.setQueue_dies (q : Nat) (x : Queue) : (s.setQueue q x).dies = s.dies := rfl
@[simp] theorem State.setQueue_flr (q : Nat) (x : Queue) : (s.setQueue q x).flr = s.flr := rfl
@[simp] theorem State.setQueue_heaths (q : Nat) (x : Queue) : (s.setQueue q x).heaths = s.heaths := rfl
@[simp] theorem State.setQueue_flash (q : Nat) (x : Queue) : (s.setQueue q x).flash = s.flash := rfl
@[simp] theorem State.setQueue_fuses (q : Nat) (x : Queue) : (s.setQueue q x).fuses = s.fuses := rfl
@[simp] theorem State.setQueue_procs (q : Nat) (x : Queue) : (s.setQueue q x).procs = s.procs := rfl
@[simp] theorem State.setQueue_boot (q : Nat) (x : Queue) : (s.setQueue q x).boot = s.boot := rfl
@[simp] theorem State.setQueue_power (q : Nat) (x : Queue) : (s.setQueue q x).power = s.power := rfl
@[simp] theorem State.setQueue_diePower (q : Nat) (x : Queue) : (s.setQueue q x).diePower = s.diePower := rfl
@[simp] theorem State.setQueue_host (q : Nat) (x : Queue) : (s.setQueue q x).host = s.host := rfl
@[simp] theorem State.setQueue_debugPort (q : Nat) (x : Queue) : (s.setQueue q x).debugPort = s.debugPort := rfl
@[simp] theorem State.setQueue_col (q : Nat) (x : Queue) : (s.setQueue q x).col = s.col := rfl

@[simp] theorem State.setCollector_pending (d : Nat) (x : Collector) : (s.setCollector d x).pending = s.pending := rfl
@[simp] theorem State.setCollector_now (d : Nat) (x : Collector) : (s.setCollector d x).now = s.now := rfl
@[simp] theorem State.setCollector_past (d : Nat) (x : Collector) : (s.setCollector d x).past = s.past := rfl
@[simp] theorem State.setCollector_frozen (d : Nat) (x : Collector) : (s.setCollector d x).frozen = s.frozen := rfl
@[simp] theorem State.setCollector_free (d : Nat) (x : Collector) : (s.setCollector d x).free = s.free := rfl
@[simp] theorem State.setCollector_regs (d : Nat) (x : Collector) : (s.setCollector d x).regs = s.regs := rfl
@[simp] theorem State.setCollector_mem (d : Nat) (x : Collector) : (s.setCollector d x).mem = s.mem := rfl
@[simp] theorem State.setCollector_slots (d : Nat) (x : Collector) : (s.setCollector d x).slots = s.slots := rfl
@[simp] theorem State.setCollector_tiles (d : Nat) (x : Collector) : (s.setCollector d x).tiles = s.tiles := rfl
@[simp] theorem State.setCollector_leas (d : Nat) (x : Collector) : (s.setCollector d x).leas = s.leas := rfl
@[simp] theorem State.setCollector_posts (d : Nat) (x : Collector) : (s.setCollector d x).posts = s.posts := rfl
@[simp] theorem State.setCollector_sramFix (d : Nat) (x : Collector) : (s.setCollector d x).sramFix = s.sramFix := rfl
@[simp] theorem State.setCollector_poison (d : Nat) (x : Collector) : (s.setCollector d x).poison = s.poison := rfl
@[simp] theorem State.setCollector_spoilt (d : Nat) (x : Collector) : (s.setCollector d x).spoilt = s.spoilt := rfl
@[simp] theorem State.setCollector_sched (d : Nat) (x : Collector) : (s.setCollector d x).sched = s.sched := rfl
@[simp] theorem State.setCollector_kv (d : Nat) (x : Collector) : (s.setCollector d x).kv = s.kv := rfl
@[simp] theorem State.setCollector_prairie (d : Nat) (x : Collector) : (s.setCollector d x).prairie = s.prairie := rfl
@[simp] theorem State.setCollector_queues (d : Nat) (x : Collector) : (s.setCollector d x).queues = s.queues := rfl
@[simp] theorem State.setCollector_iqm (d : Nat) (x : Collector) : (s.setCollector d x).iqm = s.iqm := rfl
@[simp] theorem State.setCollector_ptp (d : Nat) (x : Collector) : (s.setCollector d x).ptp = s.ptp := rfl
@[simp] theorem State.setCollector_tbCopy (d : Nat) (x : Collector) : (s.setCollector d x).tbCopy = s.tbCopy := rfl
@[simp] theorem State.setCollector_fwRules (d : Nat) (x : Collector) : (s.setCollector d x).fwRules = s.fwRules := rfl
@[simp] theorem State.setCollector_fwLocked (d : Nat) (x : Collector) : (s.setCollector d x).fwLocked = s.fwLocked := rfl
@[simp] theorem State.setCollector_domain (d : Nat) (x : Collector) : (s.setCollector d x).domain = s.domain := rfl
@[simp] theorem State.setCollector_domains (d : Nat) (x : Collector) : (s.setCollector d x).domains = s.domains := rfl
@[simp] theorem State.setCollector_sipKey (d : Nat) (x : Collector) : (s.setCollector d x).sipKey = s.sipKey := rfl
@[simp] theorem State.setCollector_scrubFix (d : Nat) (x : Collector) : (s.setCollector d x).scrubFix = s.scrubFix := rfl
@[simp] theorem State.setCollector_repairs (d : Nat) (x : Collector) : (s.setCollector d x).repairs = s.repairs := rfl
@[simp] theorem State.setCollector_rowsUsed (d : Nat) (x : Collector) : (s.setCollector d x).rowsUsed = s.rowsUsed := rfl
@[simp] theorem State.setCollector_dram (d : Nat) (x : Collector) : (s.setCollector d x).dram = s.dram := rfl
@[simp] theorem State.setCollector_collectors (d : Nat) (x : Collector) :
    (s.setCollector d x).collectors = writeAt (fun _ => collectorFresh) s.collectors d x := rfl
@[simp] theorem State.setCollector_frec (d : Nat) (x : Collector) : (s.setCollector d x).frec = s.frec := rfl
@[simp] theorem State.setCollector_ports (d : Nat) (x : Collector) : (s.setCollector d x).ports = s.ports := rfl
@[simp] theorem State.setCollector_dies (d : Nat) (x : Collector) : (s.setCollector d x).dies = s.dies := rfl
@[simp] theorem State.setCollector_flr (d : Nat) (x : Collector) : (s.setCollector d x).flr = s.flr := rfl
@[simp] theorem State.setCollector_heaths (d : Nat) (x : Collector) : (s.setCollector d x).heaths = s.heaths := rfl
@[simp] theorem State.setCollector_flash (d : Nat) (x : Collector) : (s.setCollector d x).flash = s.flash := rfl
@[simp] theorem State.setCollector_fuses (d : Nat) (x : Collector) : (s.setCollector d x).fuses = s.fuses := rfl
@[simp] theorem State.setCollector_procs (d : Nat) (x : Collector) : (s.setCollector d x).procs = s.procs := rfl
@[simp] theorem State.setCollector_boot (d : Nat) (x : Collector) : (s.setCollector d x).boot = s.boot := rfl
@[simp] theorem State.setCollector_power (d : Nat) (x : Collector) : (s.setCollector d x).power = s.power := rfl
@[simp] theorem State.setCollector_diePower (d : Nat) (x : Collector) : (s.setCollector d x).diePower = s.diePower := rfl
@[simp] theorem State.setCollector_host (d : Nat) (x : Collector) : (s.setCollector d x).host = s.host := rfl
@[simp] theorem State.setCollector_debugPort (d : Nat) (x : Collector) : (s.setCollector d x).debugPort = s.debugPort := rfl
@[simp] theorem State.setCollector_col (d : Nat) (x : Collector) : (s.setCollector d x).col = s.col := rfl

@[simp] theorem State.setFrec_pending (h : Nat) (x : FrecCopy) : (s.setFrec h x).pending = s.pending := rfl
@[simp] theorem State.setFrec_now (h : Nat) (x : FrecCopy) : (s.setFrec h x).now = s.now := rfl
@[simp] theorem State.setFrec_past (h : Nat) (x : FrecCopy) : (s.setFrec h x).past = s.past := rfl
@[simp] theorem State.setFrec_frozen (h : Nat) (x : FrecCopy) : (s.setFrec h x).frozen = s.frozen := rfl
@[simp] theorem State.setFrec_free (h : Nat) (x : FrecCopy) : (s.setFrec h x).free = s.free := rfl
@[simp] theorem State.setFrec_regs (h : Nat) (x : FrecCopy) : (s.setFrec h x).regs = s.regs := rfl
@[simp] theorem State.setFrec_mem (h : Nat) (x : FrecCopy) : (s.setFrec h x).mem = s.mem := rfl
@[simp] theorem State.setFrec_slots (h : Nat) (x : FrecCopy) : (s.setFrec h x).slots = s.slots := rfl
@[simp] theorem State.setFrec_tiles (h : Nat) (x : FrecCopy) : (s.setFrec h x).tiles = s.tiles := rfl
@[simp] theorem State.setFrec_leas (h : Nat) (x : FrecCopy) : (s.setFrec h x).leas = s.leas := rfl
@[simp] theorem State.setFrec_posts (h : Nat) (x : FrecCopy) : (s.setFrec h x).posts = s.posts := rfl
@[simp] theorem State.setFrec_sramFix (h : Nat) (x : FrecCopy) : (s.setFrec h x).sramFix = s.sramFix := rfl
@[simp] theorem State.setFrec_poison (h : Nat) (x : FrecCopy) : (s.setFrec h x).poison = s.poison := rfl
@[simp] theorem State.setFrec_spoilt (h : Nat) (x : FrecCopy) : (s.setFrec h x).spoilt = s.spoilt := rfl
@[simp] theorem State.setFrec_sched (h : Nat) (x : FrecCopy) : (s.setFrec h x).sched = s.sched := rfl
@[simp] theorem State.setFrec_kv (h : Nat) (x : FrecCopy) : (s.setFrec h x).kv = s.kv := rfl
@[simp] theorem State.setFrec_prairie (h : Nat) (x : FrecCopy) : (s.setFrec h x).prairie = s.prairie := rfl
@[simp] theorem State.setFrec_queues (h : Nat) (x : FrecCopy) : (s.setFrec h x).queues = s.queues := rfl
@[simp] theorem State.setFrec_iqm (h : Nat) (x : FrecCopy) : (s.setFrec h x).iqm = s.iqm := rfl
@[simp] theorem State.setFrec_ptp (h : Nat) (x : FrecCopy) : (s.setFrec h x).ptp = s.ptp := rfl
@[simp] theorem State.setFrec_tbCopy (h : Nat) (x : FrecCopy) : (s.setFrec h x).tbCopy = s.tbCopy := rfl
@[simp] theorem State.setFrec_fwRules (h : Nat) (x : FrecCopy) : (s.setFrec h x).fwRules = s.fwRules := rfl
@[simp] theorem State.setFrec_fwLocked (h : Nat) (x : FrecCopy) : (s.setFrec h x).fwLocked = s.fwLocked := rfl
@[simp] theorem State.setFrec_domain (h : Nat) (x : FrecCopy) : (s.setFrec h x).domain = s.domain := rfl
@[simp] theorem State.setFrec_domains (h : Nat) (x : FrecCopy) : (s.setFrec h x).domains = s.domains := rfl
@[simp] theorem State.setFrec_sipKey (h : Nat) (x : FrecCopy) : (s.setFrec h x).sipKey = s.sipKey := rfl
@[simp] theorem State.setFrec_scrubFix (h : Nat) (x : FrecCopy) : (s.setFrec h x).scrubFix = s.scrubFix := rfl
@[simp] theorem State.setFrec_repairs (h : Nat) (x : FrecCopy) : (s.setFrec h x).repairs = s.repairs := rfl
@[simp] theorem State.setFrec_rowsUsed (h : Nat) (x : FrecCopy) : (s.setFrec h x).rowsUsed = s.rowsUsed := rfl
@[simp] theorem State.setFrec_dram (h : Nat) (x : FrecCopy) : (s.setFrec h x).dram = s.dram := rfl
@[simp] theorem State.setFrec_collectors (h : Nat) (x : FrecCopy) : (s.setFrec h x).collectors = s.collectors := rfl
@[simp] theorem State.setFrec_frec (h : Nat) (x : FrecCopy) :
    (s.setFrec h x).frec = writeAt (fun _ => frecFresh) s.frec h x := rfl
@[simp] theorem State.setFrec_ports (h : Nat) (x : FrecCopy) : (s.setFrec h x).ports = s.ports := rfl
@[simp] theorem State.setFrec_dies (h : Nat) (x : FrecCopy) : (s.setFrec h x).dies = s.dies := rfl
@[simp] theorem State.setFrec_flr (h : Nat) (x : FrecCopy) : (s.setFrec h x).flr = s.flr := rfl
@[simp] theorem State.setFrec_heaths (h : Nat) (x : FrecCopy) : (s.setFrec h x).heaths = s.heaths := rfl
@[simp] theorem State.setFrec_flash (h : Nat) (x : FrecCopy) : (s.setFrec h x).flash = s.flash := rfl
@[simp] theorem State.setFrec_fuses (h : Nat) (x : FrecCopy) : (s.setFrec h x).fuses = s.fuses := rfl
@[simp] theorem State.setFrec_procs (h : Nat) (x : FrecCopy) : (s.setFrec h x).procs = s.procs := rfl
@[simp] theorem State.setFrec_boot (h : Nat) (x : FrecCopy) : (s.setFrec h x).boot = s.boot := rfl
@[simp] theorem State.setFrec_power (h : Nat) (x : FrecCopy) : (s.setFrec h x).power = s.power := rfl
@[simp] theorem State.setFrec_diePower (h : Nat) (x : FrecCopy) : (s.setFrec h x).diePower = s.diePower := rfl
@[simp] theorem State.setFrec_host (h : Nat) (x : FrecCopy) : (s.setFrec h x).host = s.host := rfl
@[simp] theorem State.setFrec_debugPort (h : Nat) (x : FrecCopy) : (s.setFrec h x).debugPort = s.debugPort := rfl
@[simp] theorem State.setFrec_col (h : Nat) (x : FrecCopy) : (s.setFrec h x).col = s.col := rfl

@[simp] theorem State.send_pending (r : FifoRec) : (s.send r).pending = s.pending := rfl
@[simp] theorem State.send_now (r : FifoRec) : (s.send r).now = s.now := rfl
@[simp] theorem State.send_past (r : FifoRec) : (s.send r).past = s.past := rfl
@[simp] theorem State.send_frozen (r : FifoRec) : (s.send r).frozen = s.frozen := rfl
@[simp] theorem State.send_free (r : FifoRec) : (s.send r).free = s.free := rfl
@[simp] theorem State.send_regs (r : FifoRec) : (s.send r).regs = s.regs := rfl
@[simp] theorem State.send_mem (r : FifoRec) : (s.send r).mem = s.mem := rfl
@[simp] theorem State.send_slots (r : FifoRec) : (s.send r).slots = s.slots := rfl
@[simp] theorem State.send_tiles (r : FifoRec) : (s.send r).tiles = s.tiles := rfl
@[simp] theorem State.send_leas (r : FifoRec) : (s.send r).leas = s.leas := rfl
@[simp] theorem State.send_posts (r : FifoRec) : (s.send r).posts = s.posts := rfl
@[simp] theorem State.send_sramFix (r : FifoRec) : (s.send r).sramFix = s.sramFix := rfl
@[simp] theorem State.send_poison (r : FifoRec) : (s.send r).poison = s.poison := rfl
@[simp] theorem State.send_spoilt (r : FifoRec) : (s.send r).spoilt = s.spoilt := rfl
@[simp] theorem State.send_sched (r : FifoRec) :
    (s.send r).sched = { s.sched with outbox := s.sched.outbox ++ [r] } := rfl
@[simp] theorem State.send_kv (r : FifoRec) : (s.send r).kv = s.kv := rfl
@[simp] theorem State.send_prairie (r : FifoRec) : (s.send r).prairie = s.prairie := rfl
@[simp] theorem State.send_queues (r : FifoRec) : (s.send r).queues = s.queues := rfl
@[simp] theorem State.send_iqm (r : FifoRec) : (s.send r).iqm = s.iqm := rfl
@[simp] theorem State.send_ptp (r : FifoRec) : (s.send r).ptp = s.ptp := rfl
@[simp] theorem State.send_tbCopy (r : FifoRec) : (s.send r).tbCopy = s.tbCopy := rfl
@[simp] theorem State.send_fwRules (r : FifoRec) : (s.send r).fwRules = s.fwRules := rfl
@[simp] theorem State.send_fwLocked (r : FifoRec) : (s.send r).fwLocked = s.fwLocked := rfl
@[simp] theorem State.send_domain (r : FifoRec) : (s.send r).domain = s.domain := rfl
@[simp] theorem State.send_domains (r : FifoRec) : (s.send r).domains = s.domains := rfl
@[simp] theorem State.send_sipKey (r : FifoRec) : (s.send r).sipKey = s.sipKey := rfl
@[simp] theorem State.send_scrubFix (r : FifoRec) : (s.send r).scrubFix = s.scrubFix := rfl
@[simp] theorem State.send_repairs (r : FifoRec) : (s.send r).repairs = s.repairs := rfl
@[simp] theorem State.send_rowsUsed (r : FifoRec) : (s.send r).rowsUsed = s.rowsUsed := rfl
@[simp] theorem State.send_dram (r : FifoRec) : (s.send r).dram = s.dram := rfl
@[simp] theorem State.send_collectors (r : FifoRec) : (s.send r).collectors = s.collectors := rfl
@[simp] theorem State.send_frec (r : FifoRec) : (s.send r).frec = s.frec := rfl
@[simp] theorem State.send_ports (r : FifoRec) : (s.send r).ports = s.ports := rfl
@[simp] theorem State.send_dies (r : FifoRec) : (s.send r).dies = s.dies := rfl
@[simp] theorem State.send_flr (r : FifoRec) : (s.send r).flr = s.flr := rfl
@[simp] theorem State.send_heaths (r : FifoRec) : (s.send r).heaths = s.heaths := rfl
@[simp] theorem State.send_flash (r : FifoRec) : (s.send r).flash = s.flash := rfl
@[simp] theorem State.send_fuses (r : FifoRec) : (s.send r).fuses = s.fuses := rfl
@[simp] theorem State.send_procs (r : FifoRec) : (s.send r).procs = s.procs := rfl
@[simp] theorem State.send_boot (r : FifoRec) : (s.send r).boot = s.boot := rfl
@[simp] theorem State.send_power (r : FifoRec) : (s.send r).power = s.power := rfl
@[simp] theorem State.send_diePower (r : FifoRec) : (s.send r).diePower = s.diePower := rfl
@[simp] theorem State.send_host (r : FifoRec) : (s.send r).host = s.host := rfl
@[simp] theorem State.send_debugPort (r : FifoRec) : (s.send r).debugPort = s.debugPort := rfl
@[simp] theorem State.send_col (r : FifoRec) : (s.send r).col = s.col := rfl

@[simp] theorem State.msixSignal_pending (v : Nat) : (s.msixSignal v).pending = s.pending := rfl
@[simp] theorem State.msixSignal_now (v : Nat) : (s.msixSignal v).now = s.now := rfl
@[simp] theorem State.msixSignal_past (v : Nat) : (s.msixSignal v).past = s.past := rfl
@[simp] theorem State.msixSignal_frozen (v : Nat) : (s.msixSignal v).frozen = s.frozen := rfl
@[simp] theorem State.msixSignal_free (v : Nat) : (s.msixSignal v).free = s.free := rfl
@[simp] theorem State.msixSignal_regs (v : Nat) : (s.msixSignal v).regs = s.regs := rfl
@[simp] theorem State.msixSignal_mem (v : Nat) : (s.msixSignal v).mem = s.mem := rfl
@[simp] theorem State.msixSignal_slots (v : Nat) : (s.msixSignal v).slots = s.slots := rfl
@[simp] theorem State.msixSignal_tiles (v : Nat) : (s.msixSignal v).tiles = s.tiles := rfl
@[simp] theorem State.msixSignal_leas (v : Nat) : (s.msixSignal v).leas = s.leas := rfl
@[simp] theorem State.msixSignal_posts (v : Nat) : (s.msixSignal v).posts = s.posts := rfl
@[simp] theorem State.msixSignal_sramFix (v : Nat) : (s.msixSignal v).sramFix = s.sramFix := rfl
@[simp] theorem State.msixSignal_poison (v : Nat) : (s.msixSignal v).poison = s.poison := rfl
@[simp] theorem State.msixSignal_spoilt (v : Nat) : (s.msixSignal v).spoilt = s.spoilt := rfl
@[simp] theorem State.msixSignal_sched (v : Nat) : (s.msixSignal v).sched = s.sched := rfl
@[simp] theorem State.msixSignal_kv (v : Nat) : (s.msixSignal v).kv = s.kv := rfl
@[simp] theorem State.msixSignal_prairie (v : Nat) : (s.msixSignal v).prairie = s.prairie := rfl
@[simp] theorem State.msixSignal_queues (v : Nat) : (s.msixSignal v).queues = s.queues := rfl
@[simp] theorem State.msixSignal_iqm (v : Nat) : (s.msixSignal v).iqm = s.iqm := rfl
@[simp] theorem State.msixSignal_ptp (v : Nat) : (s.msixSignal v).ptp = s.ptp := rfl
@[simp] theorem State.msixSignal_tbCopy (v : Nat) : (s.msixSignal v).tbCopy = s.tbCopy := rfl
@[simp] theorem State.msixSignal_fwRules (v : Nat) : (s.msixSignal v).fwRules = s.fwRules := rfl
@[simp] theorem State.msixSignal_fwLocked (v : Nat) : (s.msixSignal v).fwLocked = s.fwLocked := rfl
@[simp] theorem State.msixSignal_domain (v : Nat) : (s.msixSignal v).domain = s.domain := rfl
@[simp] theorem State.msixSignal_domains (v : Nat) : (s.msixSignal v).domains = s.domains := rfl
@[simp] theorem State.msixSignal_sipKey (v : Nat) : (s.msixSignal v).sipKey = s.sipKey := rfl
@[simp] theorem State.msixSignal_scrubFix (v : Nat) : (s.msixSignal v).scrubFix = s.scrubFix := rfl
@[simp] theorem State.msixSignal_repairs (v : Nat) : (s.msixSignal v).repairs = s.repairs := rfl
@[simp] theorem State.msixSignal_rowsUsed (v : Nat) : (s.msixSignal v).rowsUsed = s.rowsUsed := rfl
@[simp] theorem State.msixSignal_dram (v : Nat) : (s.msixSignal v).dram = s.dram := rfl
@[simp] theorem State.msixSignal_collectors (v : Nat) : (s.msixSignal v).collectors = s.collectors := rfl
@[simp] theorem State.msixSignal_frec (v : Nat) : (s.msixSignal v).frec = s.frec := rfl
@[simp] theorem State.msixSignal_ports (v : Nat) : (s.msixSignal v).ports = s.ports := rfl
@[simp] theorem State.msixSignal_dies (v : Nat) : (s.msixSignal v).dies = s.dies := rfl
@[simp] theorem State.msixSignal_flr (v : Nat) : (s.msixSignal v).flr = s.flr := rfl
@[simp] theorem State.msixSignal_heaths (v : Nat) : (s.msixSignal v).heaths = s.heaths := rfl
@[simp] theorem State.msixSignal_flash (v : Nat) : (s.msixSignal v).flash = s.flash := rfl
@[simp] theorem State.msixSignal_fuses (v : Nat) : (s.msixSignal v).fuses = s.fuses := rfl
@[simp] theorem State.msixSignal_procs (v : Nat) : (s.msixSignal v).procs = s.procs := rfl
@[simp] theorem State.msixSignal_boot (v : Nat) : (s.msixSignal v).boot = s.boot := rfl
@[simp] theorem State.msixSignal_power (v : Nat) : (s.msixSignal v).power = s.power := rfl
@[simp] theorem State.msixSignal_diePower (v : Nat) : (s.msixSignal v).diePower = s.diePower := rfl
@[simp] theorem State.msixSignal_host (v : Nat) :
    (s.msixSignal v).host = { s.host with msixDue := setBit s.host.msixDue v true } := rfl
@[simp] theorem State.msixSignal_debugPort (v : Nat) : (s.msixSignal v).debugPort = s.debugPort := rfl
@[simp] theorem State.msixSignal_col (v : Nat) : (s.msixSignal v).col = s.col := rfl

@[simp] theorem State.updJob_pending (n : Nat) (f : Job → Job) : (s.updJob n f).pending = s.pending := rfl
@[simp] theorem State.updJob_now (n : Nat) (f : Job → Job) : (s.updJob n f).now = s.now := rfl
@[simp] theorem State.updJob_past (n : Nat) (f : Job → Job) : (s.updJob n f).past = s.past := rfl
@[simp] theorem State.updJob_frozen (n : Nat) (f : Job → Job) : (s.updJob n f).frozen = s.frozen := rfl
@[simp] theorem State.updJob_free (n : Nat) (f : Job → Job) : (s.updJob n f).free = s.free := rfl
@[simp] theorem State.updJob_regs (n : Nat) (f : Job → Job) : (s.updJob n f).regs = s.regs := rfl
@[simp] theorem State.updJob_mem (n : Nat) (f : Job → Job) : (s.updJob n f).mem = s.mem := rfl
@[simp] theorem State.updJob_slots (n : Nat) (f : Job → Job) : (s.updJob n f).slots = s.slots := rfl
@[simp] theorem State.updJob_tiles (n : Nat) (f : Job → Job) : (s.updJob n f).tiles = s.tiles := rfl
@[simp] theorem State.updJob_leas (n : Nat) (f : Job → Job) : (s.updJob n f).leas = s.leas := rfl
@[simp] theorem State.updJob_posts (n : Nat) (f : Job → Job) : (s.updJob n f).posts = s.posts := rfl
@[simp] theorem State.updJob_sramFix (n : Nat) (f : Job → Job) : (s.updJob n f).sramFix = s.sramFix := rfl
@[simp] theorem State.updJob_poison (n : Nat) (f : Job → Job) : (s.updJob n f).poison = s.poison := rfl
@[simp] theorem State.updJob_spoilt (n : Nat) (f : Job → Job) : (s.updJob n f).spoilt = s.spoilt := rfl
@[simp] theorem State.updJob_kv (n : Nat) (f : Job → Job) : (s.updJob n f).kv = s.kv := rfl
@[simp] theorem State.updJob_prairie (n : Nat) (f : Job → Job) : (s.updJob n f).prairie = s.prairie := rfl
@[simp] theorem State.updJob_queues (n : Nat) (f : Job → Job) : (s.updJob n f).queues = s.queues := rfl
@[simp] theorem State.updJob_iqm (n : Nat) (f : Job → Job) : (s.updJob n f).iqm = s.iqm := rfl
@[simp] theorem State.updJob_ptp (n : Nat) (f : Job → Job) : (s.updJob n f).ptp = s.ptp := rfl
@[simp] theorem State.updJob_tbCopy (n : Nat) (f : Job → Job) : (s.updJob n f).tbCopy = s.tbCopy := rfl
@[simp] theorem State.updJob_fwRules (n : Nat) (f : Job → Job) : (s.updJob n f).fwRules = s.fwRules := rfl
@[simp] theorem State.updJob_fwLocked (n : Nat) (f : Job → Job) : (s.updJob n f).fwLocked = s.fwLocked := rfl
@[simp] theorem State.updJob_domain (n : Nat) (f : Job → Job) : (s.updJob n f).domain = s.domain := rfl
@[simp] theorem State.updJob_domains (n : Nat) (f : Job → Job) : (s.updJob n f).domains = s.domains := rfl
@[simp] theorem State.updJob_sipKey (n : Nat) (f : Job → Job) : (s.updJob n f).sipKey = s.sipKey := rfl
@[simp] theorem State.updJob_scrubFix (n : Nat) (f : Job → Job) : (s.updJob n f).scrubFix = s.scrubFix := rfl
@[simp] theorem State.updJob_repairs (n : Nat) (f : Job → Job) : (s.updJob n f).repairs = s.repairs := rfl
@[simp] theorem State.updJob_rowsUsed (n : Nat) (f : Job → Job) : (s.updJob n f).rowsUsed = s.rowsUsed := rfl
@[simp] theorem State.updJob_dram (n : Nat) (f : Job → Job) : (s.updJob n f).dram = s.dram := rfl
@[simp] theorem State.updJob_collectors (n : Nat) (f : Job → Job) : (s.updJob n f).collectors = s.collectors := rfl
@[simp] theorem State.updJob_frec (n : Nat) (f : Job → Job) : (s.updJob n f).frec = s.frec := rfl
@[simp] theorem State.updJob_ports (n : Nat) (f : Job → Job) : (s.updJob n f).ports = s.ports := rfl
@[simp] theorem State.updJob_dies (n : Nat) (f : Job → Job) : (s.updJob n f).dies = s.dies := rfl
@[simp] theorem State.updJob_flr (n : Nat) (f : Job → Job) : (s.updJob n f).flr = s.flr := rfl
@[simp] theorem State.updJob_heaths (n : Nat) (f : Job → Job) : (s.updJob n f).heaths = s.heaths := rfl
@[simp] theorem State.updJob_flash (n : Nat) (f : Job → Job) : (s.updJob n f).flash = s.flash := rfl
@[simp] theorem State.updJob_fuses (n : Nat) (f : Job → Job) : (s.updJob n f).fuses = s.fuses := rfl
@[simp] theorem State.updJob_procs (n : Nat) (f : Job → Job) : (s.updJob n f).procs = s.procs := rfl
@[simp] theorem State.updJob_boot (n : Nat) (f : Job → Job) : (s.updJob n f).boot = s.boot := rfl
@[simp] theorem State.updJob_power (n : Nat) (f : Job → Job) : (s.updJob n f).power = s.power := rfl
@[simp] theorem State.updJob_diePower (n : Nat) (f : Job → Job) : (s.updJob n f).diePower = s.diePower := rfl
@[simp] theorem State.updJob_host (n : Nat) (f : Job → Job) : (s.updJob n f).host = s.host := rfl
@[simp] theorem State.updJob_debugPort (n : Nat) (f : Job → Job) : (s.updJob n f).debugPort = s.debugPort := rfl
@[simp] theorem State.updJob_col (n : Nat) (f : Job → Job) : (s.updJob n f).col = s.col := rfl

/-! ## Updates of registers alone, and of the scheduler core's data alone -/

theorem State.regsOnly_refl : s.regsOnly s := rfl
theorem State.schedOnly_refl : s.schedOnly s := rfl
theorem State.regsOnly_setReg (a v : Nat) : s.regsOnly (s.setReg a v) := rfl
theorem State.regsOnly_setFld (a hi lo v : Nat) : s.regsOnly (s.setFld a hi lo v) := rfl
theorem State.regsOnly_count (a hi lo n : Nat) : s.regsOnly (s.count a hi lo n) := rfl

variable {s}

theorem State.regsOnly.trans {t u : State} (h : s.regsOnly t) (k : t.regsOnly u) : s.regsOnly u := by
  unfold State.regsOnly at *; rw [k, h]
theorem State.schedOnly.trans {t u : State} (h : s.schedOnly t) (k : t.schedOnly u) : s.schedOnly u := by
  unfold State.schedOnly at *; rw [k, h]

/-- A run of updates each of which changes registers alone does so. -/
theorem State.regsOnly_foldl {β : Type} (f : State → β → State) (l : List β) (hf : ∀ (s : State) (x : β), s.regsOnly (f s x)) (s : State) :
    s.regsOnly (l.foldl f s) := by
  induction l generalizing s with
  | nil => rfl
  | cons x t ih => exact (hf s x).trans (ih _)

theorem State.regsOnly.pending {t : State} (h : s.regsOnly t) : t.pending = s.pending := by rw [h]
theorem State.regsOnly.now {t : State} (h : s.regsOnly t) : t.now = s.now := by rw [h]
theorem State.regsOnly.past {t : State} (h : s.regsOnly t) : t.past = s.past := by rw [h]
theorem State.regsOnly.frozen {t : State} (h : s.regsOnly t) : t.frozen = s.frozen := by rw [h]
theorem State.regsOnly.free {t : State} (h : s.regsOnly t) : t.free = s.free := by rw [h]
theorem State.regsOnly.mem {t : State} (h : s.regsOnly t) : t.mem = s.mem := by rw [h]
theorem State.regsOnly.slots {t : State} (h : s.regsOnly t) : t.slots = s.slots := by rw [h]
theorem State.regsOnly.tiles {t : State} (h : s.regsOnly t) : t.tiles = s.tiles := by rw [h]
theorem State.regsOnly.leas {t : State} (h : s.regsOnly t) : t.leas = s.leas := by rw [h]
theorem State.regsOnly.posts {t : State} (h : s.regsOnly t) : t.posts = s.posts := by rw [h]
theorem State.regsOnly.sramFix {t : State} (h : s.regsOnly t) : t.sramFix = s.sramFix := by rw [h]
theorem State.regsOnly.poison {t : State} (h : s.regsOnly t) : t.poison = s.poison := by rw [h]
theorem State.regsOnly.spoilt {t : State} (h : s.regsOnly t) : t.spoilt = s.spoilt := by rw [h]
theorem State.regsOnly.sched {t : State} (h : s.regsOnly t) : t.sched = s.sched := by rw [h]
theorem State.regsOnly.kv {t : State} (h : s.regsOnly t) : t.kv = s.kv := by rw [h]
theorem State.regsOnly.prairie {t : State} (h : s.regsOnly t) : t.prairie = s.prairie := by rw [h]
theorem State.regsOnly.queues {t : State} (h : s.regsOnly t) : t.queues = s.queues := by rw [h]
theorem State.regsOnly.iqm {t : State} (h : s.regsOnly t) : t.iqm = s.iqm := by rw [h]
theorem State.regsOnly.ptp {t : State} (h : s.regsOnly t) : t.ptp = s.ptp := by rw [h]
theorem State.regsOnly.tbCopy {t : State} (h : s.regsOnly t) : t.tbCopy = s.tbCopy := by rw [h]
theorem State.regsOnly.fwRules {t : State} (h : s.regsOnly t) : t.fwRules = s.fwRules := by rw [h]
theorem State.regsOnly.fwLocked {t : State} (h : s.regsOnly t) : t.fwLocked = s.fwLocked := by rw [h]
theorem State.regsOnly.domain {t : State} (h : s.regsOnly t) : t.domain = s.domain := by rw [h]
theorem State.regsOnly.domains {t : State} (h : s.regsOnly t) : t.domains = s.domains := by rw [h]
theorem State.regsOnly.sipKey {t : State} (h : s.regsOnly t) : t.sipKey = s.sipKey := by rw [h]
theorem State.regsOnly.scrubFix {t : State} (h : s.regsOnly t) : t.scrubFix = s.scrubFix := by rw [h]
theorem State.regsOnly.repairs {t : State} (h : s.regsOnly t) : t.repairs = s.repairs := by rw [h]
theorem State.regsOnly.rowsUsed {t : State} (h : s.regsOnly t) : t.rowsUsed = s.rowsUsed := by rw [h]
theorem State.regsOnly.dram {t : State} (h : s.regsOnly t) : t.dram = s.dram := by rw [h]
theorem State.regsOnly.collectors {t : State} (h : s.regsOnly t) : t.collectors = s.collectors := by rw [h]
theorem State.regsOnly.frec {t : State} (h : s.regsOnly t) : t.frec = s.frec := by rw [h]
theorem State.regsOnly.ports {t : State} (h : s.regsOnly t) : t.ports = s.ports := by rw [h]
theorem State.regsOnly.dies {t : State} (h : s.regsOnly t) : t.dies = s.dies := by rw [h]
theorem State.regsOnly.flr {t : State} (h : s.regsOnly t) : t.flr = s.flr := by rw [h]
theorem State.regsOnly.heaths {t : State} (h : s.regsOnly t) : t.heaths = s.heaths := by rw [h]
theorem State.regsOnly.flash {t : State} (h : s.regsOnly t) : t.flash = s.flash := by rw [h]
theorem State.regsOnly.fuses {t : State} (h : s.regsOnly t) : t.fuses = s.fuses := by rw [h]
theorem State.regsOnly.procs {t : State} (h : s.regsOnly t) : t.procs = s.procs := by rw [h]
theorem State.regsOnly.boot {t : State} (h : s.regsOnly t) : t.boot = s.boot := by rw [h]
theorem State.regsOnly.power {t : State} (h : s.regsOnly t) : t.power = s.power := by rw [h]
theorem State.regsOnly.diePower {t : State} (h : s.regsOnly t) : t.diePower = s.diePower := by rw [h]
theorem State.regsOnly.host {t : State} (h : s.regsOnly t) : t.host = s.host := by rw [h]
theorem State.regsOnly.debugPort {t : State} (h : s.regsOnly t) : t.debugPort = s.debugPort := by rw [h]
theorem State.regsOnly.col {t : State} (h : s.regsOnly t) : t.col = s.col := by rw [h]
theorem State.schedOnly.pending {t : State} (h : s.schedOnly t) : t.pending = s.pending := by rw [h]
theorem State.schedOnly.now {t : State} (h : s.schedOnly t) : t.now = s.now := by rw [h]
theorem State.schedOnly.past {t : State} (h : s.schedOnly t) : t.past = s.past := by rw [h]
theorem State.schedOnly.frozen {t : State} (h : s.schedOnly t) : t.frozen = s.frozen := by rw [h]
theorem State.schedOnly.free {t : State} (h : s.schedOnly t) : t.free = s.free := by rw [h]
theorem State.schedOnly.regs {t : State} (h : s.schedOnly t) : t.regs = s.regs := by rw [h]
theorem State.schedOnly.mem {t : State} (h : s.schedOnly t) : t.mem = s.mem := by rw [h]
theorem State.schedOnly.slots {t : State} (h : s.schedOnly t) : t.slots = s.slots := by rw [h]
theorem State.schedOnly.tiles {t : State} (h : s.schedOnly t) : t.tiles = s.tiles := by rw [h]
theorem State.schedOnly.leas {t : State} (h : s.schedOnly t) : t.leas = s.leas := by rw [h]
theorem State.schedOnly.posts {t : State} (h : s.schedOnly t) : t.posts = s.posts := by rw [h]
theorem State.schedOnly.sramFix {t : State} (h : s.schedOnly t) : t.sramFix = s.sramFix := by rw [h]
theorem State.schedOnly.poison {t : State} (h : s.schedOnly t) : t.poison = s.poison := by rw [h]
theorem State.schedOnly.spoilt {t : State} (h : s.schedOnly t) : t.spoilt = s.spoilt := by rw [h]
theorem State.schedOnly.kv {t : State} (h : s.schedOnly t) : t.kv = s.kv := by rw [h]
theorem State.schedOnly.prairie {t : State} (h : s.schedOnly t) : t.prairie = s.prairie := by rw [h]
theorem State.schedOnly.queues {t : State} (h : s.schedOnly t) : t.queues = s.queues := by rw [h]
theorem State.schedOnly.iqm {t : State} (h : s.schedOnly t) : t.iqm = s.iqm := by rw [h]
theorem State.schedOnly.ptp {t : State} (h : s.schedOnly t) : t.ptp = s.ptp := by rw [h]
theorem State.schedOnly.tbCopy {t : State} (h : s.schedOnly t) : t.tbCopy = s.tbCopy := by rw [h]
theorem State.schedOnly.fwRules {t : State} (h : s.schedOnly t) : t.fwRules = s.fwRules := by rw [h]
theorem State.schedOnly.fwLocked {t : State} (h : s.schedOnly t) : t.fwLocked = s.fwLocked := by rw [h]
theorem State.schedOnly.domain {t : State} (h : s.schedOnly t) : t.domain = s.domain := by rw [h]
theorem State.schedOnly.domains {t : State} (h : s.schedOnly t) : t.domains = s.domains := by rw [h]
theorem State.schedOnly.sipKey {t : State} (h : s.schedOnly t) : t.sipKey = s.sipKey := by rw [h]
theorem State.schedOnly.scrubFix {t : State} (h : s.schedOnly t) : t.scrubFix = s.scrubFix := by rw [h]
theorem State.schedOnly.repairs {t : State} (h : s.schedOnly t) : t.repairs = s.repairs := by rw [h]
theorem State.schedOnly.rowsUsed {t : State} (h : s.schedOnly t) : t.rowsUsed = s.rowsUsed := by rw [h]
theorem State.schedOnly.dram {t : State} (h : s.schedOnly t) : t.dram = s.dram := by rw [h]
theorem State.schedOnly.collectors {t : State} (h : s.schedOnly t) : t.collectors = s.collectors := by rw [h]
theorem State.schedOnly.frec {t : State} (h : s.schedOnly t) : t.frec = s.frec := by rw [h]
theorem State.schedOnly.ports {t : State} (h : s.schedOnly t) : t.ports = s.ports := by rw [h]
theorem State.schedOnly.dies {t : State} (h : s.schedOnly t) : t.dies = s.dies := by rw [h]
theorem State.schedOnly.flr {t : State} (h : s.schedOnly t) : t.flr = s.flr := by rw [h]
theorem State.schedOnly.heaths {t : State} (h : s.schedOnly t) : t.heaths = s.heaths := by rw [h]
theorem State.schedOnly.flash {t : State} (h : s.schedOnly t) : t.flash = s.flash := by rw [h]
theorem State.schedOnly.fuses {t : State} (h : s.schedOnly t) : t.fuses = s.fuses := by rw [h]
theorem State.schedOnly.procs {t : State} (h : s.schedOnly t) : t.procs = s.procs := by rw [h]
theorem State.schedOnly.boot {t : State} (h : s.schedOnly t) : t.boot = s.boot := by rw [h]
theorem State.schedOnly.power {t : State} (h : s.schedOnly t) : t.power = s.power := by rw [h]
theorem State.schedOnly.diePower {t : State} (h : s.schedOnly t) : t.diePower = s.diePower := by rw [h]
theorem State.schedOnly.host {t : State} (h : s.schedOnly t) : t.host = s.host := by rw [h]
theorem State.schedOnly.debugPort {t : State} (h : s.schedOnly t) : t.debugPort = s.debugPort := by rw [h]
theorem State.schedOnly.col {t : State} (h : s.schedOnly t) : t.col = s.col := by rw [h]

end Sys2Proof.Machine
end

