-- ==== Sys2Proof/Laws/Ops.lean ====
section
/-! SUPPORT. The named operations: a register, a field, a slot or a byte read after it or another is written; and the
canonical form of memory, which every write of memory keeps. -/

namespace Sys2Proof.Machine

variable (s : State)

/-! ## Registers and fields -/

/-- A register reads what it was set to, cut to 64 bits. -/
@[simp] theorem State.reg_setReg_same (a v : Nat) : (s.setReg a v).reg a = v % 2 ^ 64 := by
  simp [State.reg]

/-- Setting a register leaves every other register alone. -/
theorem State.reg_setReg_ne {a b : Nat} (v : Nat) (h : b ≠ a) : (s.setReg a v).reg b = s.reg b := by
  simp [State.reg, readAt_writeAt_ne _ _ _ h]

theorem State.reg_lt (a : Nat) : s.reg a < 2 ^ 64 := (readAt regReset s.regs a).isLt

/-- A field inside 64 bits reads what it was set to, cut to its width. -/
theorem State.fld_setFld_same {a hi lo : Nat} (v : Nat) (hl : lo ≤ hi) (hh : hi < 64) :
    (s.setFld a hi lo v).fld a hi lo = v % 2 ^ (hi + 1 - lo) := by
  have h : setBits (s.reg a) hi lo v < 2 ^ 64 := setBits_lt (s.reg_lt a) v hl hh
  simp only [State.fld, State.setFld, State.reg_setReg_same, Nat.mod_eq_of_lt h, bits_setBits]

/-- Setting a field leaves the fields of every other register alone. -/
theorem State.fld_setFld_ne {a b : Nat} (hi lo v hi2 lo2 : Nat) (h : b ≠ a) :
    (s.setFld a hi lo v).fld b hi2 lo2 = s.fld b hi2 lo2 := by
  simp [State.fld, State.setFld, State.reg_setReg_ne _ _ h]

/-- Setting a field leaves the fields of its register below and above it alone. -/
theorem State.fld_setFld_apart {a hi lo : Nat} (v : Nat) {hi2 lo2 : Nat} (hl : lo ≤ hi) (hh : hi < 64)
    (h : hi2 < lo ∨ hi < lo2) : (s.setFld a hi lo v).fld a hi2 lo2 = s.fld a hi2 lo2 := by
  have hlt : setBits (s.reg a) hi lo v < 2 ^ 64 := setBits_lt (s.reg_lt a) v hl hh
  simp only [State.fld, State.setFld, State.reg_setReg_same, Nat.mod_eq_of_lt hlt]
  rcases h with h | h
  · exact bits_setBits_below _ _ h
  · exact bits_setBits_above _ _ hl h

/-! ## Tables -/

@[simp] theorem State.slot_setSlot_same (k : Nat) (th : ThreadSlot) : (s.setSlot k th).slot k = th := by
  simp [State.slot]

theorem State.slot_setSlot_ne {j k : Nat} (th : ThreadSlot) (h : j ≠ k) : (s.setSlot k th).slot j = s.slot j := by
  simp [State.slot, readAt_writeAt_ne _ _ _ h]

@[simp] theorem State.tile_setTile_same (k : Nat) (x : TileState) : (s.setTile k x).tile k = x := by
  simp [State.tile]

theorem State.tile_setTile_ne {j k : Nat} (x : TileState) (h : j ≠ k) : (s.setTile k x).tile j = s.tile j := by
  simp [State.tile, readAt_writeAt_ne _ _ _ h]

@[simp] theorem State.lea_setLea_same (k : Nat) (x : LeaState) : (s.setLea k x).lea k = x := by
  simp [State.lea]

theorem State.lea_setLea_ne {j k : Nat} (x : LeaState) (h : j ≠ k) : (s.setLea k x).lea j = s.lea j := by
  simp [State.lea, readAt_writeAt_ne _ _ _ h]

@[simp] theorem State.queue_setQueue_same (k : Nat) (x : Queue) : (s.setQueue k x).queue k = x := by
  simp [State.queue]

theorem State.queue_setQueue_ne {j k : Nat} (x : Queue) (h : j ≠ k) : (s.setQueue k x).queue j = s.queue j := by
  simp [State.queue, readAt_writeAt_ne _ _ _ h]

/-! ## The registers of a slot (R112) -/

/-- x0 reads as 0 whatever is written (R112). -/
@[simp] theorem ThreadSlot.xget_zero (th : ThreadSlot) : th.xget 0 = 0 := rfl

@[simp] theorem ThreadSlot.xset_zero (th : ThreadSlot) (w : Word) : th.xset 0 w = th := rfl

theorem ThreadSlot.xget_xset (th : ThreadSlot) (j k : Nat) (w : Word) :
    (th.xset k w).xget j = if j = k ∧ k ≠ 0 then w else th.xget j := by
  unfold ThreadSlot.xset ThreadSlot.xget
  by_cases hk : k = 0
  · simp [hk]
  · by_cases hj : j = 0
    · simp [hj, Ne.symm hk]
    · simp [hk, hj, readAt_writeAt]

theorem ThreadSlot.vget_vset (th : ThreadSlot) (j k : Nat) (w : BitVec 2048) :
    (th.vset k w).vget j = if j = k then w else th.vget j := by
  simp [ThreadSlot.vset, ThreadSlot.vget, readAt_writeAt]

/-- What an earlier load or wait would still bring a register is not its value (R114). -/
@[simp] theorem ThreadSlot.xget_xdrop (th : ThreadSlot) (j k : Nat) : (th.xdrop k).xget j = th.xget j := rfl

@[simp] theorem ThreadSlot.vget_vdrop (th : ThreadSlot) (j k : Nat) : (th.vdrop k).vget j = th.vget j := rfl

/-- R112, R114: a scalar register that an instruction wrote reads as written, x0 as 0, every other as before. -/
theorem ThreadSlot.xget_xput (th : ThreadSlot) (j k : Nat) (w : Word) :
    (th.xput k w).xget j = if j = k ∧ k ≠ 0 then w else th.xget j := by
  simp [ThreadSlot.xput, ThreadSlot.xget_xset]

theorem ThreadSlot.vget_vput (th : ThreadSlot) (j k : Nat) (w : BitVec 2048) :
    (th.vput k w).vget j = if j = k then w else th.vget j := by
  simp [ThreadSlot.vput, ThreadSlot.vget_vset]

@[simp] theorem ThreadSlot.xBusy_xset (th : ThreadSlot) (j k : Nat) (w : Word) : (th.xset k w).xBusy j = th.xBusy j := by
  unfold ThreadSlot.xset; split <;> rfl

/-- R114: a register that an instruction wrote waits for nothing. -/
theorem ThreadSlot.xBusy_xput (th : ThreadSlot) (r : Nat) (w : Word) : (th.xput r w).xBusy r = false := by
  by_cases hr : r = 0
  · simp [ThreadSlot.xBusy, hr]
  · rw [ThreadSlot.xput, ThreadSlot.xBusy_xset]
    simp only [ThreadSlot.xBusy, ThreadSlot.xdrop, List.any_map, Bool.and_eq_false_iff, Bool.or_eq_false_iff, List.any_eq_false,
      Function.comp]
    refine .inr ⟨fun q _ => ?_, fun x _ => ?_⟩
    · cases hk : q.kind with
      | load rd size signed => by_cases h : rd = r <;> simp [hk, h, Ne.symm hr]
      | _ => simp [hk]
    · split <;> simp_all [Ne.symm]

/-! ## Memory -/

/-- Memory with bytes put keeps its canonical form. -/
theorem memory_wf_memPut (m : List Host.Cell) (a : Nat) (bs : List Byte) (h : Memory.wf m = true) :
    Memory.wf (memPut m a bs) = true := by
  induction bs generalizing m a with
  | nil => exact h
  | cons b t ih => exact ih _ _ (wfSparse_writeAt memDefault m a b h)

/-- A byte of memory with bytes put: the byte put there, else what it was. -/
theorem readAt_memPut (m : List Host.Cell) (a : Nat) (bs : List Byte) (x : Nat) :
    readAt memDefault (memPut m a bs) x
      = if h : a ≤ x ∧ x < a + bs.length then bs[x - a]'(by omega) else readAt memDefault m x := by
  induction bs generalizing m a with
  | nil =>
    rw [dif_neg (by simp only [List.length_nil]; omega)]
    rfl
  | cons b t ih =>
    rw [memPut, ih]
    have hl : (b :: t).length = t.length + 1 := rfl
    by_cases h1 : a + 1 ≤ x ∧ x < a + 1 + t.length
    · rw [dif_pos h1, dif_pos (by omega)]
      simp only [show x - a = (x - (a + 1)) + 1 by omega, List.getElem_cons_succ]
    · rw [dif_neg h1]
      by_cases h2 : x = a
      · subst h2
        rw [dif_pos (by omega)]
        simp
      · rw [dif_neg (by omega), readAt_writeAt_ne _ _ _ h2]

/-- Bytes put keep the canonical form of memory. -/
theorem State.putBytes_wf (a : Nat) (bs : List Byte) (h : Memory.wf s.mem = true) :
    Memory.wf (s.putBytes a bs).mem = true := by
  unfold State.putBytes
  split
  · exact h
  · exact memory_wf_memPut _ _ _ h

/-- A line put keeps the canonical form of memory. -/
theorem State.putLine_wf (a : Nat) (bs : List Byte) (h : Memory.wf s.mem = true) :
    Memory.wf (s.putLine a bs).mem = true := by
  unfold State.putLine
  split
  · exact h
  · split
    · exact s.putBytes_wf a bs h
    · split
      · exact h
      · exact s.putBytes_wf a bs h

theorem State.putLines_wf (f : Nat) (s : State) (a : Nat) (bs : List Byte) (h : Memory.wf s.mem = true) :
    Memory.wf (s.putLines f a bs).mem = true := by
  induction f generalizing s a bs with
  | zero => exact h
  | succ f ih =>
    simp only [State.putLines]
    split
    · exact h
    · exact ih _ _ _ (s.putLine_wf _ _ h)

/-- The device's own write keeps the canonical form of memory. -/
theorem State.store_wf (a : Nat) (bs : List Byte) (h : Memory.wf s.mem = true) :
    Memory.wf (s.store a bs).mem = true := by
  simp only [State.store]
  split
  · exact State.putLines_wf _ _ _ _ h
  · exact h

/-- A refused write that is performed in part keeps the canonical form of memory. -/
theorem State.storeRefused_wf (may : Nat → Nat → Bool) (a : Nat) (bs : List Byte) (h : Memory.wf s.mem = true) :
    Memory.wf (s.storeRefused may a bs).mem = true := by
  unfold State.storeRefused
  split
  · exact h
  · split
    · exact h
    · refine List.foldlRecOn (motive := fun t : State => Memory.wf t.mem = true) _ _ h ?_
      intro t ht x _
      dsimp only
      split
      · exact ht
      · split
        · exact ht
        · exact State.store_wf _ _ _ ht

/-- Setting a register keeps the canonical form of the registers. -/
theorem State.setReg_wf (a v : Nat) (h : wfSparse regReset s.regs = true) :
    wfSparse regReset (s.setReg a v).regs = true := wfSparse_writeAt _ _ _ _ h

end Sys2Proof.Machine
end

