-- ==== Sys2Proof/Laws/Events.lean ====
section
/-! SUPPORT. What raising an event can do (R206, R211, R453): it touches the event rings, the reports and the vectors to signal, and
nothing else; and its report is the last one for Heath A. -/

namespace Sys2Proof.Machine

theorem State.eventOnly_refl (s : State) : s.eventOnly s := ⟨rfl, fun _ _ _ => rfl⟩

theorem State.eventOnly.trans {s t u : State} (h : s.eventOnly t) (k : t.eventOnly u) : s.eventOnly u := by
  refine ⟨?_, fun a h1 h2 => (k.2 a h1 h2).trans (h.2 a h1 h2)⟩
  have e := h.1
  have e2 := k.1
  rw [e] at e2
  exact e2

/-- Writing bytes changes memory, poison and spoilt lines alone. -/
def State.memOnly (s t : State) : Prop := t = { s with mem := t.mem, poison := t.poison, spoilt := t.spoilt }

theorem State.memOnly.trans {s t u : State} (h : s.memOnly t) (k : t.memOnly u) : s.memOnly u := by
  unfold State.memOnly at *; rw [k, h]

theorem State.putLine_only (s : State) (a : Nat) (bs : List Byte) : s.memOnly (s.putLine a bs) := by
  unfold State.putLine State.putBytes
  split
  · rfl
  · split
    · split <;> rfl
    · split
      · rfl
      · split <;> rfl

theorem State.putLines_only (f : Nat) (s : State) (a : Nat) (bs : List Byte) : s.memOnly (s.putLines f a bs) := by
  induction f generalizing s a bs with
  | zero => rfl
  | succ f ih =>
    simp only [State.putLines]
    split
    · rfl
    · exact (s.putLine_only _ _).trans (ih _ _ _)

/-- The device's own write changes memory, poison and spoilt lines alone. -/
theorem State.store_only (s : State) (a : Nat) (bs : List Byte) : s.memOnly (s.store a bs) := by
  simp only [State.store]
  split
  · exact State.putLines_only _ _ _ _
  · rfl

theorem State.memOnly.eventOnly {s t : State} (h : s.memOnly t) : s.eventOnly t := by
  unfold State.memOnly at h
  refine ⟨by rw [h], fun a _ _ => ?_⟩
  rw [h]; rfl

theorem State.ringPut_aux (u : State) {set : Nat} (hs : set < 4) (q : Sparse Nat) (v : Nat) (c : Prop) [Decidable c] (k : Nat) :
    u.eventOnly
      (if c then State.msixSignal (State.setReg { u with sched := { u.sched with ringSeq := q } } (aRing set 0x30) v) k
        else State.setReg { u with sched := { u.sched with ringSeq := q } } (aRing set 0x30) v) := by
  have h1 : u.eventOnly (State.setReg { u with sched := { u.sched with ringSeq := q } } (aRing set 0x30) v) :=
    ⟨rfl, fun a _ h => by rw [State.reg_setReg_ne _ _ (h set hs)]; rfl⟩
  split
  · exact h1.trans ⟨rfl, fun _ _ _ => rfl⟩
  · exact h1

/-- An entry written to an event ring. -/
theorem State.ringPut_event (s : State) {set : Nat} (hs : set < 4) (type : Nat) (ws : List Nat) :
    s.eventOnly (s.ringPut set 2 type ws) := by
  exact ((s.store_only (bits (s.reg (aRing set (8 * 2))) 47 0 + 64 * s.reg (aRing set 0x30))
    (wordBytes (ws ++ [ringWord type (readAt (fun _ => 0) s.sched.ringSeq (ringKey set 2)) (s.ringLog set 2)]))).eventOnly).trans
    (State.ringPut_aux _ hs _ _ _ _)

theorem State.count32_lost (s : State) : s.eventOnly (s.count32 (aSch 0x34)) :=
  ⟨rfl, fun _ h _ => State.reg_setReg_ne _ _ h⟩

theorem State.eventTo_only (s : State) {set : Nat} (hs : set < 4) (e : Ev) : s.eventOnly (s.eventTo set e) := by
  unfold State.eventTo
  split
  · exact s.count32_lost
  · exact s.ringPut_event hs _ _

theorem State.eventTo_foldl (e : Ev) (l : List Nat) (hl : ∀ x ∈ l, x < 4) (s : State) :
    s.eventOnly (l.foldl (fun s set => s.eventTo set e) s) := by
  induction l generalizing s with
  | nil => exact s.eventOnly_refl
  | cons x t ih => exact (s.eventTo_only (hl x (by simp)) e).trans (ih (fun y m => hl y (by simp [m])) _)

theorem State.eventOut_only (s : State) (e : Ev) (h : ∀ set, e.ringSet = some set → set < 4) : s.eventOnly (s.eventOut e) := by
  unfold State.eventOut
  split
  · next set he => exact s.eventTo_only (h set he) e
  · split
    · exact s.eventTo_foldl e _ (fun x m => by simpa using (List.mem_filter.1 m).1)
    · exact s.count32_lost

theorem State.report_only (s : State) (e : Ev) : s.eventOnly (s.report e) := by
  unfold State.report
  split
  · exact s.eventOnly_refl
  · exact ⟨rfl, fun _ _ _ => rfl⟩

/-- R206, R211: raising an event changes nothing but what events leave. -/
theorem State.raiseEv_only (s : State) (e : Ev) (h : ∀ set, e.ringSet = some set → set < 4) : s.eventOnly (s.raiseEv e) := by
  have h1 := s.report_only { e with time := s.now }
  have h2 := fun u : State => u.eventOut_only { e with time := s.now } h
  simp only [State.raiseEv]
  generalize s.report _ = u at *
  refine h1.trans ?_
  split
  · exact ⟨rfl, fun _ _ _ => rfl⟩
  · exact h2 u

/-- R206, R211: raising an event of no job changes nothing but what events leave. -/
theorem State.raise_only (s : State) (die lea tile : Nat) (name : String) (a b : Nat) :
    s.eventOnly (s.raise die lea tile name a b) := s.raiseEv_only _ (by simp)

theorem Collector.put_last (c : Collector) (linked : Bool) (h : Nat) (r : Report) :
    (readAt (fun _ => []) (c.put linked h r).out h).getLast? = some r := by
  simp only [Collector.put, readAt_writeAt_same]
  rw [List.getLast?_drop, if_neg]
  · simp
  · split <;> simp only [List.length_append, List.length_cons, List.length_nil] <;> omega

theorem Collector.put_other (c : Collector) (linked : Bool) {h k : Nat} (hk : k ≠ h) (r : Report) :
    readAt (fun _ => []) (c.put linked h r).out k = readAt (fun _ => []) c.out k := by
  simp [Collector.put, readAt_writeAt_ne _ _ _ hk]

theorem State.collector_congr {x y : State} (h : x.collectors = y.collectors) : x.collector = y.collector := by
  funext k; simp [State.collector, h]

/-- R454: a report is the last one for Heath A. -/
theorem State.report_last (s : State) (e : Ev) (h : e.die ≤ 4) :
    (readAt (fun _ => []) ((s.report e).collector e.die).out 0).getLast?
      = some ⟨e, (s.collector e.die).rseq % 2 ^ 32⟩ := by
  unfold State.report
  rw [if_neg (by omega)]
  simp only [State.collector, State.setCollector_collectors, readAt_writeAt_same]
  rw [Collector.put_other _ _ (by decide), Collector.put_last]

/-- What is written to the rings leaves the collectors alone. -/
theorem State.eventOut_collectors (s : State) (e : Ev) : (s.eventOut e).collectors = s.collectors := by
  have hp : ∀ (s : State) set, (s.eventTo set e).collectors = s.collectors := by
    intro s set
    unfold State.eventTo
    split
    · rfl
    · simp only [State.ringPut]
      have := (s.store_only (bits (s.reg (aRing set (8 * 2))) 47 0 + 64 * s.reg (aRing set (if (2 : Nat) = 1 then 0x28 else 0x30)))
        (wordBytes (e.words ++ [ringWord 4 (readAt (fun _ => 0) s.sched.ringSeq (ringKey set 2)) (s.ringLog set 2)])))
      unfold State.memOnly at this
      split
      · simp only [State.msixSignal_collectors, State.setReg_collectors]; rw [this]
      · simp only [State.setReg_collectors]; rw [this]
  have hf : ∀ (l : List Nat) (s : State), (l.foldl (fun s set => s.eventTo set e) s).collectors = s.collectors := by
    intro l
    induction l with
    | nil => intro s; rfl
    | cons x t ih => intro s; rw [List.foldl_cons, ih, hp]
  unfold State.eventOut
  split
  · exact hp _ _
  · split
    · exact hf _ _
    · rfl

/-- R453, R454: an event of a Meadow or the Vale is reported. -/
theorem State.raise_reported (s : State) {die : Nat} (hd : die ≤ 4) (lea tile : Nat) (name : String) (a b : Nat) :
    (s.raise die lea tile name a b).reported die name a b := by
  let e : Ev := ⟨die, lea, tile, 0xFFFF, 0, 0xFFFF, name, a, b, s.now, none⟩
  refine ⟨⟨e, (s.collector die).rseq % 2 ^ 32⟩, ?_, rfl, rfl, rfl, rfl⟩
  have hc : (s.raise die lea tile name a b).collectors = (s.report e).collectors := by
    show (s.raiseEv _).collectors = _
    simp only [State.raiseEv]
    split
    · rfl
    · exact State.eventOut_collectors _ _
  rw [State.collector_congr hc]
  exact s.report_last e hd

end Sys2Proof.Machine
end

