-- ==== Sys2Proof/Laws/Threads.lean ====
section
/-! SUPPORT. What the operations shared by the tile instructions can do: issuing, a thread's fault, the gathering of flags, an
injection that fires, a request to another module. -/

namespace Sys2Proof.Machine

theorem State.onlySlot_setSlot (s : State) (k : Nat) (th : ThreadSlot) : s.onlySlot (s.setSlot k th) k :=
  ⟨rfl, fun _ h => s.slot_setSlot_ne th h⟩

/-- A state with the same scheduler has the same commands. -/
theorem State.cmd_congr {x y : State} (h : x.sched = y.sched) : x.cmd = y.cmd := by
  funext r; simp [State.cmd, State.curJob, h]

/-- A state with the same slots has the same slot. -/
theorem State.slot_congr {x y : State} (h : x.slots = y.slots) : x.slot = y.slot := by
  funext k; simp [State.slot, h]

/-- R114, R134: a slot that is ready issues: its instruction's body runs. -/
theorem State.issue_of_ready {s : State} {t : SlotId} {th : ThreadSlot} {c : Cmd} {xs vs : List Nat}
    (h : s.ready t th c xs vs) (body : ThreadSlot → Cmd → State) : s.issue t xs vs body = body th c := by
  obtain ⟨-, hs, hc, hp, hl, hi, hx, hv⟩ := h
  have hx' : xs.any th.xBusy = false := by
    simp only [List.all_eq_true, Bool.not_eq_true', List.any_eq_false] at *
    intro x m; simp [hx x m]
  have hv' : vs.any th.vBusy = false := by
    simp only [List.all_eq_true, Bool.not_eq_true', List.any_eq_false] at *
    intro x m; simp [hv x m]
  simp [State.issue, hs, hc, hp, hl, hi, hx', hv']

/-- A slot that is ready for more registers is ready for fewer. -/
theorem State.ready.mono {s : State} {t : SlotId} {th : ThreadSlot} {c : Cmd} {xs vs xs' vs' : List Nat}
    (h : s.ready t th c xs vs) (hx : ∀ x ∈ xs', x ∈ xs) (hv : ∀ x ∈ vs', x ∈ vs) : s.ready t th c xs' vs' := by
  obtain ⟨hf, hs, hc, hp, hl, hi, h1, h2⟩ := h
  refine ⟨hf, hs, hc, hp, hl, hi, ?_, ?_⟩ <;> simp only [List.all_eq_true] at *
  · exact fun x m => h1 x (hx x m)
  · exact fun x m => h2 x (hv x m)

/-- The command of the running job after `f` has replaced it. -/
theorem State.cmd_updCmd {s : State} {r : CmdRef} {c : Cmd} (f : Cmd → Cmd) (hr : ∀ c, (f c).ref = c.ref)
    (h : s.cmd r = some c) : (s.updCmd r f).cmd r = some (f c) := by
  unfold State.cmd State.updCmd at *
  cases hj : s.curJob with
  | none => simp [hj] at h
  | some j =>
    simp only [hj] at h ⊢
    have hcur : (s.updJob j.serial fun j => { j with cmds := j.cmds.map fun c => if c.ref = r then f c else c }).curJob
        = some { j with cmds := j.cmds.map fun c => if c.ref = r then f c else c } := by
      unfold State.curJob at hj ⊢
      simp only [State.updJob, List.find?_map]
      have he : ((fun j : Job => decide (j.phase = .running) || decide (j.phase = .suspending)) ∘ fun x : Job =>
          if x.serial = j.serial then { x with cmds := x.cmds.map fun c => if c.ref = r then f c else c } else x)
          = fun j : Job => decide (j.phase = .running) || decide (j.phase = .suspending) := by
        funext x; simp only [Function.comp]; split <;> rfl
      rw [he, hj]; simp
    rw [hcur]
    simp only [List.find?_map]
    have he : ((fun c : Cmd => decide (c.ref = r)) ∘ fun c : Cmd => if c.ref = r then f c else c)
        = fun c : Cmd => decide (c.ref = r) := by
      funext x; simp only [Function.comp]; split <;> simp [hr]
    have h2 : c.ref = r := by simpa using List.find?_some h
    rw [he, h]; simp [h2]

/-- Replacing a command changes the scheduler alone. -/
theorem State.updCmd_only (s : State) (r : CmdRef) (f : Cmd → Cmd) : s.schedOnly (s.updCmd r f) := by
  unfold State.updCmd; split <;> rfl

/-- R71: gathering flags changes the scheduler alone. -/
theorem State.addFlags_only (s : State) (r : CmdRef) (f : BitVec 8) : s.schedOnly (s.addFlags r f) := by
  unfold State.addFlags; split
  · rfl
  · exact s.updCmd_only _ _

/-- R71: the command holds the flags gathered. -/
theorem State.cmd_addFlags {s : State} {r : CmdRef} {c : Cmd} (f : BitVec 8) (h : s.cmd r = some c) :
    (s.addFlags r f).cmd r = some { c with flags := c.flags ||| f } := by
  unfold State.addFlags
  split
  · next h0 => rw [h, h0]; simp
  · exact State.cmd_updCmd _ (fun _ => rfl) h

/-- R105: an injection that fires changes registers alone. -/
theorem State.injectFire_only (s : State) (d l t k : Nat) : s.regsOnly (s.injectFire d l t k) := by
  simp only [State.injectFire]; split
  · exact (s.regsOnly_setReg _ _).trans (State.regsOnly_setFld _ _ _ _ _)
  · rfl

/-- R105: a read of tile SRAM changes registers alone, by an injection that fires. -/
theorem State.sramFire_only (s : State) (d l t : Nat) : s.regsOnly (s.sramFire d l t) :=
  (s.injectFire_only _ _ _ _).trans (State.injectFire_only _ _ _ _ _)

/-- R516, R527: a request to another module changes the fabric's state alone, and none at all for an address of this module's own
memory. -/
theorem State.remoteIssue_only (s : State) (k a n : Nat) (wr : Bool) :
    s.remoteIssue k a n wr = { s with col := (s.remoteIssue k a n wr).col } := by
  simp only [State.remoteIssue]; split <;> rfl

theorem State.remoteIssue_local (s : State) (k : Nat) {a : Nat} (n : Nat) (wr : Bool) (h : a < 0x400000000000) :
    s.remoteIssue k a n wr = s := by
  simp only [State.remoteIssue]; rw [if_pos (Or.inl h)]

/-- R99: the checker of a vector result changes registers alone, by an injection that fires. -/
theorem State.vecChecked_only (s : State) (t : SlotId) (f : Fmt) : s.regsOnly (s.vecChecked t f) := s.injectFire_only _ _ _ _

/-- R129: what follows a vector result: vd, the flags of the command, and nothing of another slot or of memory. -/
theorem State.vecDone_spec {s : State} {t : SlotId} {th : ThreadSlot} {c : Cmd} (vd : Nat) (f : Fmt)
    (r : BitVec 2048 × BitVec 8) (h : s.cmd th.cmd = some c) :
    let s' := s.vecDone t th vd f r
    s'.slot (tkey t) = (th.vput vd r.1).pc4 ∧ (∀ k, k ≠ tkey t → s'.slot k = s.slot k)
      ∧ s'.cmd th.cmd = some { c with flags := c.flags ||| r.2 } ∧ s'.mem = s.mem := by
  intro s'
  have hf := State.addFlags_only (s.setSlot (tkey t) (th.vput vd r.1).pc4) th.cmd r.2
  have hi := State.vecChecked_only ((s.setSlot (tkey t) (th.vput vd r.1).pc4).addFlags th.cmd r.2) t f
  have hsl : s'.slots = (s.setSlot (tkey t) (th.vput vd r.1).pc4).slots := hi.slots.trans hf.slots
  have hsc : s'.sched = ((s.setSlot (tkey t) (th.vput vd r.1).pc4).addFlags th.cmd r.2).sched := hi.sched
  refine ⟨?_, fun k hk => ?_, ?_, hi.mem.trans hf.mem⟩
  · rw [State.slot_congr hsl]; simp
  · rw [State.slot_congr hsl, State.slot_setSlot_ne _ _ hk]
  · rw [State.cmd_congr hsc]; exact State.cmd_addFlags _ h

end Sys2Proof.Machine
end

