-- ==== Sys2Proof/Tests/Slice0.lean ====
section
/-! SUPPORT. The model's own tests: worked examples and tables of the spec, words written out bit by bit, the checks of
well-formedness, and for every statement states that meet the hypotheses of its clauses. -/

namespace Sys2Proof.Tests

-- The tests are checked one after another: side by side their kernel checks would hold a thread's stack each.
set_option Elab.async false

open Sys2Proof.Machine

/-! ## Small states -/

/-- The slot the tests use: Meadow 0, lea 0, tile 0, slot 0. -/
def slot0 : SlotId := ⟨0, 0, 0, 0⟩

/-- A running THREADS command with code at 0 to 0xFFF, a tile-share on Meadow 0, lea 0, tile 0, and DRAM 0x10000 to 0x1FFFF as its
output buffer. -/
def cmd0 : Cmd :=
  { cmdFresh ⟨0, 0⟩ with
    phase := .running, words := [0, 0, 0, 0, 0, 0, 0, 0, 0, 0, 0x1000, 0, 1], runs := 1
    owned := 1, shares := [⟨0, 0, 0, 0, 0, 1⟩], outs := [(0x10000, 0x10000)] }

/-- A running job with that command. -/
def job0 : Job := ⟨[], 0, 0, .running, true, 0, [cmd0], 0, 0, 0, [], []⟩

/-- Registers set one after another. -/
def State.withRegs (s : State) (l : List (Nat × Nat)) : State := l.foldl (fun s e => s.setReg e.1 e.2) s

/-- A firewall rule that admits everybody everywhere. -/
def openRule : FwRule := ⟨0, 2 ^ 48, 0, 0, 0, true, true, true⟩

/-- The links between the Meadows, and theirs to the Vale. -/
def innerLinks : List (Nat × Nat) :=
  (List.range 4).flatMap fun d => [(aFdl d 0 0, 4), (aFdl d 1 0, 4), (aFdl d 2 0, 4), (aFdl 4 d 0, 4)]

/-- A module that has started: every die and stack present, its inner links ACTIVE, the scheduler core running, the firewalls of stack
0 to 3 and of pool 0 open. Its registers are written out, for Lean's kernel reads them often (`up_regs`). -/
def up : State :=
  { State.reset with
    regs := [(137438953504, 3967), (137439019008, 1), (137439215616, 4), (137439219712, 4), (137439223808, 4), (137439227904, 4),
      (137707651072, 4), (137707655168, 4), (137707659264, 4), (137976086528, 4), (137976090624, 4), (137976094720, 4),
      (138244521984, 4), (138244526080, 4), (138244530176, 4), (138512957440, 4), (138512961536, 4), (138512965632, 4)]
    boot := { bootFresh with phase := 3 }
    fwRules := [(0, [openRule]), (1, [openRule]), (2, [openRule]), (3, [openRule]), (16, [openRule])] }

/-- The registers of that module by their names. -/
theorem up_regs : up.regs = (Tests.State.withRegs State.reset ((aVal 0x20, 0xF7F) :: (aSch 0, 1) :: innerLinks)).regs := by
  decide +kernel

/-- That module with the job's command running and the thread `th` in slot 0. -/
def withThread (th : ThreadSlot) : State :=
  ({ up with sched := { schedFresh with jobs := [job0] } }).setSlot (tkey slot0) th

/-- A thread with registers x1 = a and x2 = b. -/
def thread2 (a b : Word) : ThreadSlot :=
  { slotFree with busy := true, cmd := ⟨0, 0⟩, x := [(1, a), (2, b)], pc := 0x100 }

/-! ## Words of tile instructions, written out bit by bit from the encoding tables -/

/-- R119, R120, R121, R126, R128, R129, R132: one word of each format; reserved words spell nothing. -/
theorem test_tile_words :
    decodeTile 0 slot0 0b000_000000_00011_00001_00010_00000000 = some (.add slot0 3 1 2)
    ∧ decodeTile 0 slot0 0b001_0111_00100_00101_111111111111111 = some (.slti slot0 4 5 0x7FFF)
    ∧ decodeTile 0 slot0 0b010_0000_00110_00111_011_000000001000 = some (.ld slot0 6 7 3 8)
    ∧ decodeTile 0 slot0 0b011_010_01_00_1_0_00011_00000_0000000000 = some (.drain slot0 1 1 3)
    ∧ decodeTile 0 slot0 0b100_000000_001_010_011_000_0010_0000_000 = some (.vadd slot0 1 2 3 2)
    ∧ decodeTile 0 slot0 0b101_00000_00001_00010_00000000000001 = some (.beq slot0 1 2 1)
    ∧ decodeTile 0 slot0 (6 * 2 ^ 29) = none ∧ decodeTile 0 slot0 (16 * 2 ^ 23) = none ∧ decodeTile 0 slot0 1 = none := by
  decide

/-- R121, R140, R143: the words of the manual's example of a POST and a WAIT. -/
theorem test_sync_words : (decodeTile 0 slot0 0xA8424800).isSome ∧ (decodeTile 0 slot0 0xA9298E1C).isSome := by decide

/-- The round trip has instructions to speak of. -/
theorem test_round_trip_premise : tileSlot (.add slot0 3 1 2) = some slot0 ∧ encodeTile (.add slot0 3 1 2) = some 0x000C2200 := by decide

/-! ## Hypotheses of the statements on tile instructions -/

/-- A slot that is ready to issue; the operands of JALR aligned, and not. -/
theorem test_slot_ready :
    (withThread (thread2 8 7)).ready slot0 (thread2 8 7) cmd0 [3, 1, 2] [0, 7]
    ∧ (thread2 8 7).xget 1 % 4 = 0 ∧ ((thread2 8 7).xget 2).toNat % 4 ≠ 0 := by
  unfold State.ready; decide

/-- R121: the last 8 bytes of the tile's SRAM, the first bytes of the output buffer in DRAM, and a vector access: each is aligned
and admitted, with fifteen requests before it; an address of another module. -/
theorem test_access_premises :
    let q : MemReq := ⟨.store, 0, 1, [0], 0⟩
    let th : ThreadSlot := { thread2 0x00100083FFF8 0x10000 with reqs := List.replicate 15 q, x := [(1, 0x00100083FFF8), (2, 0x10000), (3, 0x401000000000)] }
    let s := withThread th
    s.ready slot0 th cmd0 [1, 1, 2, 3] [0] ∧ th.ea 1 0 = 0x00100083FFF8 ∧ th.ea 1 0 % 8 = 0 ∧ s.access (whoThread slot0 th.cmd) false (th.ea 1 0) 8 = 0
      ∧ s.access (whoThread slot0 th.cmd) true (th.ea 1 0) 8 = 0 ∧ s.access (whoThread slot0 th.cmd) true (th.ea 2 0) 256 = 0
      ∧ s.access (whoThread slot0 th.cmd) false (th.ea 2 0) 256 = 0 ∧ th.ea 2 0 % 64 = 0 ∧ th.acqHeld = false ∧ th.reqs.length < 16
      ∧ stepsBar slot0 th (th.ea 1 0) 8 = false ∧ stepsBar slot0 th (th.ea 2 0) 256 = false
      ∧ 0x400000000000 ≤ th.ea 3 0 ∧ th.ea 3 0 < 2 ^ 48 ∧ s.tagsOut = false := by
  unfold State.ready; decide

/-- R117, R122: an address beyond 48 bits, a misaligned one, a code region left, and a logical tile the command does not hold. -/
theorem test_fault_premises :
    let th := thread2 0x1000000000000 3
    let out : ThreadSlot := { th with pc := 0x1000 }
    (withThread th).ready slot0 th cmd0 [1, 2] [] ∧ th.acqHeld = false ∧ th.reqs.length < 16 ∧ (th.ea 1 0) % 8 = 0 ∧ 2 ^ 48 ≤ th.ea 1 0
      ∧ th.ea 2 0 % 2 ≠ 0 ∧ (th.xget 2).toNat % 4 ≠ 0 ∧ (∀ h ∈ cmd0.shares, h.ltile ≠ (th.xget 2).toNat)
      ∧ (withThread out).slot (tkey slot0) = out ∧ out.live = true ∧ cmd0.inCode 0x1000 = false ∧ cmd0.inCode 0xFFC = true := by
  unfold State.ready; decide

/-- A request of a load, of a vector load and of a store at the ends of the tile's SRAM window. -/
def threadReqs : ThreadSlot :=
  { thread2 0 0 with
    reqs := [⟨.load 3 8 true, 0x00100083FFF8, 8, [], 0⟩, ⟨.vload 1, 0x00100083FE00, 256, [], 0⟩, ⟨.store, 0x001000800000, 2, [1, 2], 0⟩] }

/-- R121, R123, R135: each of these requests may be acknowledged. -/
theorem test_ack_premises :
    let s := withThread threadReqs
    s.frozen = false ∧ s.slot (tkey slot0) = threadReqs
      ∧ (∀ k < 3, ∀ q, threadReqs.reqs[k]? = some q → earlierBars (threadReqs.reqs.take k) q = false
        ∧ s.remoteWaits (tkey slot0) q.addr q.len = false ∧ s.dramTakes (s.cmdClass ⟨0, 0⟩) (k == 2) q.addr q.len = true
        ∧ s.access (whoThread slot0 ⟨0, 0⟩) (k == 2) q.addr q.len = 0 ∧ s.readPoison q.addr q.len = false) := by
  refine ⟨by decide, by decide, fun k hk q hq => ?_⟩
  match k, hk with
  | 0, _ => cases hq; decide
  | 1, _ => cases hq; decide
  | 2, _ => cases hq; decide

/-- A thread whose x1, x2 and x3 are the destination, source and length of a copy within the output buffer. -/
def threadCopy : ThreadSlot := { thread2 0x10000 0x11000 with x := [(1, 0x10000), (2, 0x11000), (3, 0x40)] }

/-- R145: a copy may issue; and one that has issued may complete, with and without overlap. -/
theorem test_copy_premises :
    let s := withThread threadCopy
    let who := whoThread slot0 threadCopy.cmd
    let th : ThreadSlot := { threadCopy with reqs := [⟨.copy 0x10000 0 0, 0x11000, 0x40, [], 0⟩] }
    s.ready slot0 threadCopy cmd0 [1, 2, 3] [] ∧ threadCopy.acqHeld = false ∧ threadCopy.reqs.length < 16 ∧ s.copiesOn slot0 < 4
      ∧ s.copyStatus who 0x10000 0x11000 0x40 = 0 ∧ stepsBar slot0 threadCopy 0x10000 0x40 = false ∧ s.tagsOut = false
      ∧ (withThread th).slot (tkey slot0) = th ∧ (withThread th).cmd th.cmd = some cmd0
      ∧ s.access who false 0x11000 0x40 = 0 ∧ s.access who true 0x10000 0x40 = 0 ∧ s.readPoison 0x11000 0x40 = false
      ∧ s.readPoison 0x10000 0x40 = false ∧ cmd0.ownsCounter (ownCounter slot0 0) = true
      ∧ s.dramTakes (s.cmdClass ⟨0, 0⟩) false 0x11000 0x40 = true ∧ s.dramTakes (s.cmdClass ⟨0, 0⟩) true 0x10000 0x40 = true
      ∧ s.remoteWaits (tkey slot0) 0x11000 0x40 = false ∧ s.remoteWaits (tkey slot0) 0x10000 0x40 = false
      ∧ overlaps 0x11000 0x40 0x10000 0x40 = false ∧ overlaps 0x11000 0x40 0x10FE0 0x40 = true := by
  unfold State.ready; decide

/-! ## Tensor and vector instructions -/

/-- A dense INT8 descriptor of a 16 × 16 matrix at the start of the tile's SRAM (R124). -/
def desc8 : BitVec 256 := BitVec.ofNat 256 (1 * 2 ^ 48 + 1 * 2 ^ 54 + 16 * 2 ^ 64 + 16 * 2 ^ 80 + 1 * 2 ^ 176)

/-- The same matrix as a sparse B operand. -/
def desc8s : BitVec 256 := BitVec.ofNat 256 (1 * 2 ^ 48 + 1 * 2 ^ 53 + 1 * 2 ^ 54 + 16 * 2 ^ 64 + 16 * 2 ^ 80 + 1 * 2 ^ 176)

/-- A thread with both descriptors, x2 a reduction of the whole K, and set 0 cleared with 256 sums. -/
def threadMma : ThreadSlot :=
  { thread2 0 (16 * 2 ^ 32) with d := [(0, desc8), (1, desc8s)], acc := [(0, ⟨some .int32, List.replicate 256 7, [], false⟩)] }

/-- R126, R127: MMA over K = 16 and MMAS over K = 16, region (0, 0, 0). -/
theorem test_mma_premises :
    (withThread threadMma).ready slot0 threadMma cmd0 [1, 2] [] ∧ threadMma.acqHeld = false
      ∧ lookup threadMma.d 0 = some desc8 ∧ lookup threadMma.d 1 = some desc8s
      ∧ (threadMma.xget 1).toNat % 2 ^ 48 = 0 + 0 * 2 ^ 16 + 0 * 2 ^ 32 ∧ (threadMma.xget 2).toNat = 0 + 16 * 2 ^ 32
      ∧ mmaStatus false (tdesc desc8.toNat) (tdesc desc8.toNat) 0 0 0 0 16 = 0
      ∧ mmaStatus true (tdesc desc8.toNat) (tdesc desc8s.toNat) 0 0 0 0 16 = 0 := by
  unfold State.ready; decide +kernel

/-- R78, R81: a slot whose turn it is, with a step at the head of its queue, alone, behind a clearing and behind a taking up; and a
clearing alone. -/
theorem test_tensor_step_premises :
    ∀ pre ∈ [[], [TItem.clear 0 .int32], [TItem.take 0 .int32], [TItem.take 0 .fp32]],
      let th : ThreadSlot := { threadMma with steps := pre ++ [.step 0 desc8.toNat desc8.toNat 0 0 0 12] }
      let only : ThreadSlot := { threadMma with steps := [.clear 0 .int32] }
      (withThread th).frozen = false ∧ (withThread th).stepSlot ⟨0, 0, 0⟩ = some 0 ∧ (withThread th).slot (tkey slot0) = th
        ∧ (withThread th).cmd th.cmd = some cmd0 ∧ (withThread only).stepSlot ⟨0, 0, 0⟩ = some 0
        ∧ (withThread only).slot (tkey slot0) = only := by
  decide +kernel

/-- R128, R82: a drain of a cleared set, and of one that no instruction has cleared, to the tile's SRAM. -/
theorem test_drain_premises :
    let s := withThread threadMma
    let d := tdesc desc8.toNat
    let x := readAt (fun _ => accSetFresh) threadMma.acc 0
    s.ready slot0 threadMma cmd0 [1] [] ∧ threadMma.acqHeld = false ∧ threadMma.dget 0 = some d ∧ regionOf (threadMma.xget 1) = (0, 0, 0)
      ∧ drainStatus d 0 0 0 = 0 ∧ d.space = 1 ∧ x.kind = some .int32 ∧ x.vals ≠ [] ∧ (readAt (fun _ => accSetFresh) threadMma.acc 1).kind = none
      ∧ let out := drainOut cmd0.arith .int32 x.vals d 0 0 0 0
        drainStalls slot0 threadMma 0 (tileBase 0 0 0) out.1 = false
          ∧ ∀ b ∈ out.1, s.access (whoThread slot0 ⟨0, 0⟩) true (tileBase 0 0 0 + b.1) b.2.length = 0
              ∧ s.readPoison (tileBase 0 0 0 + b.1) b.2.length = false := by
  unfold State.ready; decide +kernel

/-- R129 to R131, R275: each kind of format; conversions whose registers do not wait; a format that vectors do not take, and a control word of VPOOL that is not legal. -/
theorem test_vector_premises :
    let th := thread2 0 0
    (withThread th).ready slot0 th cmd0 [1] [0, 1, 2, 3]
      ∧ (∀ f ∈ [(7, Fmt.fp32), (11, .q16), (5, .fp16), (6, .bf16), (1, .int8), (2, .int16)], fmtOf f.1 = some f.2 ∧ f.2 ∈ fmtsArith)
      ∧ (withThread th).ready slot0 th cmd0 [] (cvtReads 7 5 1 2 3) ∧ Fmt.fp32.float? ≠ none ∧ Fmt.fp32 ∈ fmtsSpecial ∧ Fmt.fp32.vectorOk = true
      ∧ fmtOf 0 = some .int4 ∧ Fmt.int4 ∉ fmtsArith ∧ fmtOf 12 = none
      ∧ (∀ m < 3, (poolCtl 16 (m + 1 * 2 ^ 7)).legal = true ∧ (poolCtl 16 (m + 1 * 2 ^ 7)).mode = m) ∧ (poolCtl 16 3).legal = false := by
  unfold State.ready; decide

/-- R129: 100 + −200 in INT16 lies in the format; R54 to R57: the least and greatest values of a lane. -/
theorem test_int16_lane :
    sext 16 ((lanes 16 (unlanes 16 (List.replicate 128 100))).getD 127 0) = 100 ∧ sext 16 0xFF38 = -200
      ∧ (-32768 : Int) ≤ 100 + -200 ∧ (100 * -200 : Int) ≤ 32767 := by
  decide +kernel

/-! ## Posts, waits, fences, control, tile-shares -/

/-- R140 to R143: counter 0 of the own tile, which the command owns, counter 63, which it does not, and a post on its way. -/
theorem test_post_premises :
    let th := thread2 (BitVec.ofNat 64 (ownCounter slot0 0)) 5
    let who := whoThread slot0 th.cmd
    let s : State := { withThread th with posts := [⟨ownCounter slot0 63, 1, 2 ^ 32 - 1, tkey slot0, ⟨0, 0⟩⟩] }
    s.ready slot0 th cmd0 [1, 2] [] ∧ s.postStatus who (ownCounter slot0 0) 0 = 0 ∧ s.postStatus who (ownCounter slot0 63) 1 = 0
      ∧ cmd0.ownsCounter (ownCounter slot0 0) = true ∧ cmd0.ownsCounter (ownCounter slot0 63) = false
      ∧ th.released = true ∧ s.posts[0]? = some ⟨ownCounter slot0 63, 1, 2 ^ 32 - 1, tkey slot0, ⟨0, 0⟩⟩
      ∧ syncAt (ownCounter slot0 63) = some (0, 0, 0, 63) ∧ s.meadowUp 0 = true := by
  unfold State.ready; decide

/-- R143: a wait that is met, and one whose last cycle has just passed; a thread with a request in flight, and one with none. -/
theorem test_wait_premises :
    let w : WaitRec := ⟨3, 63, 1, 0, false, 0, false⟩
    let th : ThreadSlot := { thread2 0 0 with waits := [{ w with met := true }, w] }
    let s : State := { withThread th with now := 3 }
    let busy : ThreadSlot := { thread2 0 0 with reqs := [⟨.store, 0x10000, 1, [0], 0⟩] }
    s.frozen = false ∧ s.slot (tkey slot0) = th ∧ th.busy = true ∧ th.waits[0]? = some { w with met := true } ∧ th.waits[1]? = some w
      ∧ w.timeout ≠ 0xFFFFFFFF ∧ w.since + w.timeout < s.tileCycle 0 ∧ (withThread busy).ready slot0 busy cmd0 [1, 2] [] ∧ busy.reqs ≠ []
      ∧ (thread2 0 0).reqs = [] ∧ (thread2 0 0).steps = [] := by
  unfold State.ready; decide

/-- R132, R133, R136: the last descriptor of a table of 64; the identity of a slot, its copy of the time base not ahead; the share of
logical tile 0, the only one; a reserved word. -/
theorem test_control_premises :
    let th := thread2 0 0
    let s := withThread th
    s.ready slot0 th cmd0 [31, 1] [] ∧ (∃ h ∈ cmd0.shares, h.ltile = (th.xget 1).toNat ∧ ∀ g ∈ cmd0.shares, g.ltile = h.ltile → g = h)
      ∧ 63 < { cmd0 with words := List.replicate 13 0 ++ [64 * 2 ^ 48] }.descCount ∧ readAt (fun _ => 0) s.tbCopy 0 ≤ s.now + 20
      ∧ decodeTile 0 slot0 (0xFFFFFFFF : Word32).toNat = none := by
  unfold State.ready; decide

/-- R116: an exited thread whose work is done, alone on its tile, with one place left in the completion FIFO. -/
theorem test_slot_free_premises :
    let th : ThreadSlot := { thread2 0 0 with exited := true }
    let s0 := withThread th
    let s : State := { s0 with sched := { s0.sched with fifo := List.replicate 1023 (.jobLimit 0) } }
    s.frozen = false ∧ s.slot (tkey slot0) = th ∧ th.busy = true ∧ th.exited = true ∧ th.faulted = false ∧ th.reqs = [] ∧ th.steps = []
      ∧ s.posts = [] ∧ s.recordsFull = false ∧ s.cmd th.cmd = some cmd0 ∧ cmd0.phase = .running
      ∧ (∀ k < 8, slotKey 0 0 0 k ≠ tkey slot0 → (s.slot (slotKey 0 0 0 k)).busy = false) := by
  decide +kernel

/-- A command whose only tile-share waits for tile 0 of lea 0. -/
def cmdWaiting : Cmd := { cmd0 with words := [0, 0, 0, 0, 0, 0, 0, 0, 0, 0, 0x1000 + 8 * 2 ^ 54], shares := [⟨0, 0, 0, 0, 0, 0⟩] }

/-- R113, R161: the share may start: its lea's control core runs, the lea is not reserved, and every slot of its tile is free. -/
theorem test_share_start_premises :
    let s : State := { up with sched := { schedFresh with jobs := [{ job0 with cmds := [cmdWaiting] }] }, leas := [(0, { leaFresh with coreUp := true })] }
    s.frozen = false ∧ s.cmd ⟨0, 0⟩ = some cmdWaiting ∧ cmdWaiting.phase = .running ∧ cmdWaiting.ref = ⟨0, 0⟩
      ∧ cmdWaiting.shares.find? (fun h => decide (h.ltile = 0) && decide (h.state = 0)) = some ⟨0, 0, 0, 0, 0, 0⟩
      ∧ s.meadowUp 0 = true ∧ s.valeGone 0 = false ∧ (s.lea (leaKey 0 0)).coreUp = true ∧ s.sched.reservations = []
      ∧ (∀ k < 8, (s.slot (slotKey 0 0 0 k)).busy = false) ∧ cmdWaiting.tpt ≤ 8 ∧ 7 < cmdWaiting.tpt := by
  decide

/-! ## Leas, tiles and injections -/

/-- R97: the free tile READY and no swap; a free tile that is being cleared, without a swap and with one; a swap under way; a logical
tile that may move; and a free tile that may become READY. -/
theorem test_swap_premises :
    let go : State := { State.withRegs up [(aLea 0 0 8, 2 ^ 31 + 3)] with leas := [(0, { leaFresh with coreUp := true, swapping := some 3 })] }
    let clearing := State.withRegs up [(aLea 0 0 0, 0x1010 + 2 ^ 5)]
    initLeaCore 0 0 = 0x20 ∧ up.swapGo 0 0 = false ∧ up.freeState 0 0 = 0 ∧ clearing.freeState 0 0 ≠ 0 ∧ clearing.swapGo 0 0 = false
      ∧ go.swapGo 0 0 = true ∧ (go.lea 0).coreUp = true ∧ (go.lea 0).swapping = some 3 ∧ go.tileHeld 0 0 (go.mapTile 0 0 3) = false
      ∧ go.mapTile 0 0 3 ≠ go.freeTile 0 0 ∧ go.tileRetired 0 0 (go.mapTile 0 0 3) = false ∧ (∀ x < 17, (go.tile (tileKey 0 0 x)).failed = false)
      ∧ clearing.freeTile 0 0 = 16 ∧ clearing.freeState 0 0 = 1 ∧ clearing.tileHeld 0 0 16 = false
      ∧ (∀ x < 17, (clearing.tile (tileKey 0 0 x)).swapOut = false ∧ (clearing.tile (tileKey 0 0 x)).failed = false)
      ∧ (clearing.lea 0).testing = none := by
  decide

/-- R102, R94, R96: a busy slot of a command in flight; a line to write back; the last line of the last tile's SRAM. -/
theorem test_mismatch_premises :
    let s : State := { withThread (thread2 0 0) with sramFix := [0x001000800000] }
    s.frozen = false ∧ (∀ j ∈ s.sched.jobs, j.ringSet < 4) ∧ (s.slot (tkey slot0)).busy = true ∧ s.cmd ⟨0, 0⟩ = some cmd0 ∧ cmd0.inFlight = true
      ∧ tileKey 0 0 0 ∉ cmd0.mismTiles ∧ s.fld (aTil 0 0 0 0x18) 15 0 < 0xFFFF ∧ s.sramFix.Nodup
      ∧ tileBase 3 15 16 + 0x3FFFF < 2 ^ 48 ∧ bit (s.reg (aTil 3 15 16 0x44)) 31 = false ∧ s.reg (aTil 3 15 16 8) < 2 ^ 32 - 1 := by
  decide

/-- R105: initiators that are a Heath and that are not; an injection armed at 0 whose 1 ms has just passed, and one whose has not. -/
theorem test_injection_premises :
    let s : State := { State.withRegs up [(aTil 0 0 0 0x44, 2 ^ 31 + 5), (aGln 0 0 0x44, 2 ^ 31 + 3), (aPra 0 0x84, 2 ^ 31 + 1)] with now := 1000001 }
    isHeath 0x500 = true ∧ isHeath 0x600 = true ∧ isHeath initSec = false ∧ bit (s.reg (aTil 0 0 0 0x44)) 31 = true
      ∧ s.reg (aTil 0 0 0 0x44) < 2 ^ 32 ∧ bit (s.reg (aGln 0 0 0x44)) 31 = true ∧ s.reg (aGln 0 0 0x44) < 2 ^ 32
      ∧ bit (s.reg (aPra 0 0x84)) 31 = true ∧ s.reg (aPra 0 0x84) < 2 ^ 32
      ∧ (s.tile 0).armedAt + 1000000 < s.now ∧ (s.lea 0).glnArmed + 1000000 < s.now ∧ readAt (fun _ => 0) s.prairie.armedAt 0 + 1000000 < s.now
      ∧ { up with now := 1000000 }.now ≤ (up.tile 0).armedAt + 1000000 := by
  decide

/-- R109, R367: an initiator of each kind that may clear counters, and a die link port of the Vale. -/
theorem test_counter_premises :
    isHeath 0x600 = true ∧ initLeaCore 3 15 = 0x32F ∧ initSec = 0x400 ∧ (⟨4, 5⟩ : PortId).ok = true ∧ up.frozen = false := by
  decide

/-! ## DRAM -/

/-- That module with its stacks READY. -/
def upD : State := State.withRegs up [(aDmc 0 0, 2), (aDmc 1 0, 2), (aDmc 2 0, 2), (aDmc 3 0, 2)]

/-- One symbol in error. -/
def oneError : List (Fin 72 × Byte) := [(3, 5)]

/-- R322, R329, R326: the last line of DRAM and the first; a write by the scheduler core; one symbol in error, which the decoder finds. -/
theorem test_dram_line_premises :
    upD.frozen = false ∧ upD.dramLine 0x000FFFFFFFC0 = some (3, 0x3FFFFFFC0) ∧ upD.dramLine 0 = some (0, 0)
      ∧ upD.access ⟨0x402, none, false, false⟩ true 0x000FFFFFFFC0 64 = 0 ∧ upD.access ⟨0x402, none, false, false⟩ false 0 64 = 0
      ∧ upD.pcFailed 0 = false ∧ upD.poisoned 0 = false ∧ ((upD.dramOf 0).queueOf 0).length < 64 ∧ (upD.dramOf 0).queued 0 ≠ 2 ^ 64 - 1
      ∧ upD.poison.Nodup ∧ upD.reg (aDmc 0 0x20) < 2 ^ 32 - 1 ∧ upD.reg (aDmc 0 0x24) < 2 ^ 32 - 1 ∧ upD.fld (aDmc 0 0x1C) 15 0 = 0
      ∧ upD.reg (aDmc 0 (0x100 + 8 * offPc 0)) = 0 ∧ (errWord oneError).any (fun e => decide (e ≠ 0)) = true
      ∧ rsEstimate (errWord oneError) [] = some (errWord oneError) ∧ (readAt (fun _ => []) (upD.dramOf 0).corrected 0).length < 63
      ∧ upD.dramPoison 0 < 1024 ∧ (∀ set < 4, upD.ringEn set = false) := by
  decide +kernel

/-- R332: a queued partial write, which its controller drains. -/
theorem test_dram_queue_premises :
    let s : State := { upD with dram := [(0, { dramFresh with queue := [⟨0, 1⟩] })] }
    s.dramLine 0 = some (0, 0) ∧ (s.dramOf 0).queued 0 ≠ 0 ∧ (s.dramOf 0).queued 0 ≠ 2 ^ 64 - 1 ∧ (s.dramOf 0).held 0 = false
      ∧ s.pcBusy 0 (offPc 0) = false ∧ (s.dramOf 0).drains (offPc 0) = true ∧ s.dramReady 0 = true ∧ s.dramPoison 0 < 1024 := by
  decide +kernel

/-- R377, R383: a class 7 read with 7 tags of its kind in use, and with all 8; one with 55 of the others in use, and with all 56; and a
read in its turn, 2 µs after it came. -/
theorem test_dram_tags_premises :
    let r : DramRead := ⟨0x402, 7, 0, 0, 0, true, 0⟩
    let slow : DramRead := { r with cls := 3, fast := false }
    let z := fun a b => { dramFresh with reads := List.replicate a r ++ List.replicate b slow }
    let s : State := { upD with dram := [(0, { dramFresh with reads := [r] })], now := 2000 }
    (z 7 0).tagsUsed 0 true < 8 ∧ 8 ≤ (z 8 55).tagsUsed 0 true ∧ (z 8 55).tagsUsed 0 false < 56 ∧ 56 ≤ (z 8 56).tagsUsed 0 false
      ∧ ((s.dramOf 0).reads.find? fun r => decide (r.init = 0x402) && decide (r.cls = 7) && decide (r.task = 0) && decide (r.off = 0)) = some r
      ∧ s.pcBusy 0 0 = false ∧ s.readTurn 0 r true = true ∧ s.now - r.since ≤ 2000 := by
  decide +kernel

/-- R342: a migration of layer select 7 with pseudo-channel 0 at its first unit, and one at its last. -/
def migrates (a b : Nat) : Dram := { dramFresh with migration := some ⟨7, a :: List.replicate 31 b, 0⟩ }

/-- R333, R334: a refresh period that starts, one that is over at its last cycle, pseudo-channel 31 due in it, and one not due yet;
temperatures that have just fallen due. -/
theorem test_dram_refresh_premises :
    let first : State := { upD with now := 5 }
    let again : State := { State.withRegs upD [(aDmc 0 0x10, 1)] with dram := [(0, { dramFresh with refreshed := [0], tempAt := some 5 })], now := 3900001 }
    first.dramReady 0 = true ∧ first.now < 2 ^ 64 ∧ first.refreshDue 0 0 = true ∧ first.refreshDue 0 1 = false
      ∧ again.refreshDue 0 0 = true ∧ again.refreshDue 0 31 = true ∧ first.tempDue 0 = true
      ∧ { again with now := 1000005 }.tempDue 0 = true ∧ { again with now := 1000004 }.tempDue 0 = false := by
  decide +kernel

/-- R334, R336, R338, R341 to R345: the care of a stack. -/
theorem test_dram_care_premises :
    let first : State := { upD with dram := [(0, migrates 0 0)] }
    let last : State := { upD with dram := [(0, migrates 65535 65536)] }
    let training : State := { State.withRegs up [(aDmc 0 0, 1)] with dies := [(0, { dieFresh with out := true, factory := true })], now := 10000000 }
    (first.dramOf 0).migration = some ⟨7, 0 :: List.replicate 31 0, 0⟩ ∧ first.dramReady 0 = true ∧ first.pcStalled 0 0 = false
      ∧ first.spoilt = [] ∧ (∃ q < 32, q ≠ 0 ∧ (0 :: List.replicate 31 0 : List Nat).getD q 0 < 65536)
      ∧ (last.dramOf 0).migration = some ⟨7, 65535 :: List.replicate 31 65536, 0⟩ ∧ last.pcStalled 0 0 = false
      ∧ (65535 :: List.replicate 31 65536 : List Nat).getD 0 0 = 65535
      ∧ (∀ q < 32, q ≠ 0 → 65536 ≤ (65535 :: List.replicate 31 65536 : List Nat).getD q 0)
      ∧ (List.replicate 9 (95 : Byte)).length = 9 ∧ (95 : Byte).toInt ≤ 95 ∧ 85 < (86 : Byte).toInt ∧ (83 : Byte).toInt ≤ 83
      ∧ 100 < (101 : Byte).toInt ∧ (training.dieSt 0).out = true ∧ (training.dieSt 0).factory = true
      ∧ readAt (fun _ => 0) (training.dramOf 0).eyeAt 0 + 10000000 ≤ training.now
      ∧ (7 : Byte).toInt.natAbs < 8 ∧ 24 ≤ (24 : Byte).toNat ∧ 8 ≤ (0xF8 : Byte).toInt.natAbs ∧ (sext 8 (up.fld (aDmc 0 0x400) 23 16)).natAbs < 8
      ∧ training.fld (aDmc 0 0) 2 0 = 1 ∧ training.reg (aDmc 0 0x0C) = 0
      ∧ bit 0x80000007 31 = true ∧ (upD.dramOf 0).migration = none ∧ upD.fld (aDmc 0 0) 5 5 = 0
      ∧ 256 ≤ (0x10100 : Word32).toNat % 2 ^ 16 ∧ (0x100FF : Word32).toNat % 2 ^ 16 < 256 := by
  decide +kernel

/-! ## Inputs, resets and the fault record -/

/-- R536 to R539, R558: the inputs in and out of range, at their times. -/
theorem test_input_premises :
    let off : State := { up with power := { powerFresh with mainOk := false, auxOk := false } }
    let late : State := { State.reset with now := 20000000 }
    let low : State := { up with power := { powerFresh with resetLow := true } }
    let lowLate : State := { low with now := 20000000 }
    off.power.mainOk = false ∧ off.power.auxOk = false ∧ up.power.mainOk = true ∧ up.power.auxOk = true
      ∧ late.power.auxAt + 12000000 ≤ late.clock ∧ (∀ h < 2, (late.dieSt (5 + h)).out = false ∧ (late.diePw (5 + h)).tripped = false)
      ∧ up.clock < up.power.auxAt + 12000000 ∧ late.boot.phase = 0 ∧ (late.dieSt 4).wire = false ∧ (late.diePw 4).tripped = false
      ∧ late.power.mainAt + 20000000 ≤ late.clock ∧ late.power.auxAt + 20000000 ≤ late.clock ∧ late.power.resetLow = false
      ∧ low.power.resetLow = true ∧ low.power.mainOk = true ∧ low.power.auxOk = true ∧ (low.dieSt 4).wire = false
      ∧ lowLate.power.mainAt + 20000000 ≤ lowLate.clock ∧ lowLate.power.auxAt + 20000000 ≤ lowLate.clock
      ∧ low.clock < low.power.mainAt + 20000000 := by
  decide

/-- R445, R446: dies to restart: a Meadow's port to Heath A, the Vale's, a decided restart, a wire whose time is over, a Meadow lost to both
Heaths, and a die that may leave reset. -/
theorem test_restart_premises :
    let linked := State.withRegs up [(aFdl 0 3 0, 4), (aFdl 4 4 0, 4)]
    let decided : State := { up with dies := [(0, { dieFresh with out := true, restartAt := some 0 })], now := 100001 }
    let wired : State := { up with dies := [(0, { dieFresh with wire := true }), (4, { dieFresh with wire := false })] }
    let wiredVale : State := { up with dies := [(4, { dieFresh with wire := true })] }
    let lost : State := { State.withRegs up [(aFdl 5 0 0, 6), (aFdl 6 0 0, 6), (aHt 0 0x10, 2)] with
      dies := [(0, { dieFresh with out := true })], heaths := [(0, { heathFresh with up := true })], now := 5000001 }
    1 ≤ linked.linkState 0 3 ∧ linked.linkState 0 3 ≤ 5 ∧ 1 ≤ linked.linkState 4 4 ∧ linked.linkState 4 4 ≤ 5
      ∧ decided.mayRestart = true ∧ (decided.dieSt 0).restartAt = some 0 ∧ 0 + 100000 < decided.clock ∧ up.clock ≤ 0 + 100000
      ∧ (wired.dieSt 0).wire = true ∧ (wired.dieSt 0).heldDown = false ∧ (wired.dieSt 0).wireUntil ≤ wired.clock ∧ (wired.dieSt 4).wire = false
      ∧ wired.power.mainOk = true ∧ { wired with dies := [(0, { dieFresh with wire := true, wireUntil := 1 })] }.clock < 1
      ∧ (wiredVale.dieSt 4).wire = true ∧ (wiredVale.dieSt 4).wireUntil ≤ wiredVale.clock ∧ wiredVale.power.resetLow = false ∧ (wiredVale.dieSt 4).heldDown = false ∧ (wiredVale.diePw 4).tripped = false
      ∧ (lost.heath 0).up = true ∧ lost.drives 0 = true ∧ lost.mayRestart = true
      ∧ (∀ h < 2, lost.linkState (5 + h) 0 = 6 ∧ (lost.port (5 + h) 0).downAt + 5000000 < lost.clock)
      ∧ (lost.dieSt 0).out = true ∧ (lost.dieSt 0).wire = false ∧ (lost.dieSt 0).heldDown = false ∧ (lost.dieSt 0).restartAt = none
      ∧ (lost.dieSt 0).restarts = [] ∧ up.mayLeave 0 = true ∧ { up with now := 12000000 }.mayLeave 6 = true := by
  decide

/-- Both Heaths up with links to Meadow 0 and to the Vale, and two entries in Heath A's copy of the fault record. -/
def withRecord : State :=
  { State.withRegs up [(aFdl 5 0 0, 3), (aFdl 0 3 0, 3), (aFdl 5 4 0, 3), (aFdl 4 4 0, 3)] with
    heaths := [(0, { heathFresh with up := true })]
    dies := [(0, { dieFresh with out := true }), (4, { dieFresh with out := true })]
    frec := [(0, { frecFresh with entries := [⟨1, 0, 3, 1, 0, 5⟩, ⟨1, 0, 4, 2, 0, 5⟩] })] }

/-- R459: the first entry, and the last, for a Meadow and for the Vale; a die that has waited 20 ms; a Meadow in its factory state. -/
theorem test_record_premises :
    let late : State := { withRecord with now := 20000001 }
    let factory : State := { withRecord with dies := [(0, { dieFresh with out := true, factory := true })] }
    withRecord.frecSource 0 = some 0 ∧ withRecord.frecSource 4 = some 0 ∧ (withRecord.dieSt 0).out = true ∧ (withRecord.dieSt 4).out = true
      ∧ (withRecord.dieSt 0).complete = false ∧ (withRecord.dieSt 0).factory = false ∧ (withRecord.dieSt 0).restored = false
      ∧ 0 = (withRecord.dieSt 0).entries.length ∧ 0 + 1 < (frecRecord (withRecord.frecCopy 0).entries).length
      ∧ (frecRecord (up.frecCopy 0).entries).length ≤ 0 + 1
      ∧ (late.dieSt 0).outAt + 20000000 < late.clock ∧ withRecord.clock ≤ (withRecord.dieSt 0).outAt + 20000000
      ∧ (factory.dieSt 0).factory = true ∧ (∀ t < 17, ∀ l < 16, factory.tileRetired 0 l t = false) := by
  decide +kernel

/-! ## The Fuora Die Link -/

/-- A flit whose header word is `w` and whose slots are empty. -/
def flitOf (w : Nat) : List Byte :=
  let b := leBytes 8 w ++ List.replicate 244 0
  b ++ leBytes 4 (crc32c b)

/-- The Vale's port to Meadow 0 ACTIVE, with a flit kept for replay. -/
def linked : State :=
  { State.withRegs up [(aFdl 4 0 0, 4), (aFdl 4 0 0x28, 8 * 16)] with ports := [(32, { portFresh with sent := [(0, ⟨1, 0, []⟩)], rxSeq := 4095 })], now := 1025 }

/-- A flit with one message without data in slot 0: SEQ 4,095 and the message's header and second word. -/
def flitMsg (h0 h1 : Nat) : List Byte :=
  let b := leBytes 8 (1 + 4095 * 16) ++ leBytes 8 h0 ++ leBytes 8 h1 ++ List.replicate 228 0
  b ++ leBytes 4 (crc32c b)

/-- R349, R352 to R354: a DATA flit with the SEQ expected, 4,095, and one with another; CTRL RETRAIN and CTRL RESET_NOTIFY; an IDLE flit; a
NAK; silence of ACK. -/
theorem test_flit_premises :
    linked.frozen = false ∧ (⟨4, 0⟩ : PortId).ok = true ∧ (linked.port 4 0).sent ≠ [] ∧ linked.linkUp 4 0 = true ∧ linked.linkState 4 0 = 4
      ∧ GoodFlit (flitOf (1 + 4095 * 16)) 1 ∧ leNat ((flitOf (1 + 4095 * 16)).take 8) / 2 ^ 4 % 4096 = (linked.port 4 0).rxSeq
      ∧ msgsFrom (flitOf (1 + 4095 * 16)) (linked.reg (aFdl 4 0 0x18)) 4 (facing 4 0) 15 0 = some []
      ∧ (∀ n ∈ [1, 2], GoodFlit (flitMsg 0x3C n) 1 ∧ (⟨0x3C, n, []⟩ : Msg).type = 12 ∧ (⟨0x3C, n, []⟩ : Msg).addr % 256 = n
        ∧ msgsFrom (flitMsg 0x3C n) (linked.reg (aFdl 4 0 0x18)) 4 (facing 4 0) 15 0 = some [⟨0x3C, n, []⟩])
      ∧ GoodFlit (flitOf 1) 1 ∧ leNat ((flitOf 1).take 8) / 2 ^ 4 % 4096 ≠ (linked.port 4 0).rxSeq
      ∧ GoodFlit (flitOf 0) 0 ∧ GoodFlit (flitOf 2) 2 ∧ bit (leNat ((flitOf 2).take 8)) 28 = false ∧ ([] : List Byte).length ≠ 256
      ∧ linked.reg (aFdl 4 0 0x34) < 2 ^ 32 - 1
      ∧ (linked.port 4 0).replays < 7 ∧ (linked.port 4 0).retryAt.length < 63 ∧ linked.reg (aFdl 4 0 0x30) < 2 ^ 32 - 1
      ∧ (linked.port 4 0).ackAt + 1024 < linked.clock ∧ up.clock ≤ (up.port 4 0).ackAt + 1024 := by
  unfold GoodFlit; decide +kernel

/-- R353 to R366: a port in each state: ACTIVE, RETRAIN at 50 µs and later, STANDBY, TRAIN with and without modules, a port that waits for
its Meadow's restore and one that does not; REJOIN and FENCE on their way from the Vale. -/
theorem test_link_state_premises :
    let st := fun n => State.withRegs up [(aFdl 4 0 0, n), (aFdl 4 0 0x28, 8 * 16), (aFdl 0 2 0, n), (aFdl 0 0 0, n)]
    let now : State := { st 5 with now := 50000 }
    let later : State := { st 5 with now := 50001 }
    let restored : State := { st 2 with dies := [(0, { dieFresh with restored := true })] }
    let sent := fun v => (st 3).setPort 4 0 { portFresh with sideband := [v] }
    (st 4).linkState 4 0 = 4 ∧ (st 5).linkState 4 0 = 5 ∧ (st 5).fld (aFdl 4 0 0x28) 7 4 = 8 ∧ (now.port 4 0).modsOff = 0
      ∧ (now.port 4 0).retryAt.length < 63 ∧ now.clock ≤ (now.port 4 0).retrainAt + 50000
      ∧ (later.port 4 0).retrainAt + 50000 < later.clock ∧ (st 3).linkState 4 0 = 3 ∧ (later.port 4 0).heard + 48 < later.clock
      ∧ (st 4).clock ≤ ((st 4).port 4 0).heard + 48
      ∧ (st 2).linkState 4 0 = 2 ∧ ((st 2).port 4 0).trained = false ∧ up.fld (aFdl 4 0 0x28) 7 4 = 0
      ∧ (st 2).waitsRestore 4 (facing 4 0) = true ∧ restored.waitsRestore 4 (facing 4 0) = false ∧ facing 0 2 = 4 ∧ facing 0 0 = 1
      ∧ (sent (rejoinPayload 0)).sideSent 0 2 (rejoinPayload 0) = true ∧ (sent (fencePayload 1)).sideSent 0 2 (fencePayload 1) = true
      ∧ portTo 0 1 = some 0 ∧ (st 3).linkState 0 0 = 3 ∧ (∀ j ∈ (st 3).sched.jobs, j.ringSet < 4) := by
  decide

/-- R356 to R359: the parts 0 to 2 of the record of Meadow 0; the last part of it, and that of a die of another position. -/
def negotiating (agreed : Bool) (exchanges : Nat) : State :=
  { State.withRegs up [(aFdl 4 0 0, 1)] with
    ports := [(32, { portFresh with capParts := [(0, 255), (1, 4 * 2 ^ 16), (2, 0x02C1 * 2 ^ 32)], agreed := agreed, exchanges := exchanges })] }

/-- R355 to R360: a DOWN port; a part 4; a part that is not the last; the last part of a fitting and of another die; CAP_ACK with the same
CRC and with another, before and at the third exchange. -/
theorem test_negotiation_premises :
    let record := fun (last : Nat) => (List.range 4).foldl (fun r i =>
      r + readAt (fun _ => 0) (insertKey ((negotiating false 0).port 4 0).capParts 3 last) i <<< (48 * i)) 0
    (State.withRegs up [(aFdl 4 0 0, 6)]).linkState 4 0 = 6 ∧ (negotiating false 0).linkState 4 0 = 1 ∧ 3 < (4 : Byte).toNat
      ∧ up.reg (aFdl 4 0 0x3C) < 2 ^ 32 - 1 ∧ (negotiating false 0).frozen = false ∧ (⟨4, 0⟩ : PortId).ok = true
      ∧ ((negotiating false 0).port 4 0).agreed = false ∧ (insertKey ((negotiating false 0).port 4 0).capParts 0 7).length ≠ 4
      ∧ (insertKey ((negotiating false 0).port 4 0).capParts 3 0x4D11).length = 4 ∧ record 0x4D11 % 256 = 255 ∧ record 0x4D11 / 2 ^ 64 % 16 = 4
      ∧ identityOk (facing 4 0) (record 0x4D11 / 2 ^ 128 % 2 ^ 32) = true ∧ identityOk (facing 4 0) (record 0x5610 / 2 ^ 128 % 2 ^ 32) = false
      ∧ ((negotiating true 1).port 4 0).agreed = true ∧ crc16 ((negotiating true 1).agreedBytes 4 0) < 2 ^ 16
      ∧ ((negotiating true 1).port 4 0).exchanges + 1 ≠ 3 ∧ ((negotiating true 2).port 4 0).exchanges + 1 = 3 := by
  decide +kernel

/-- R367, R368: the security core in SERVICE with an ACTIVE link, and in another mode. -/
theorem test_lane_test_premises :
    let s := State.withRegs up [(aFdl 4 0 0, 4), (aVal 0x10, 4)]
    s.mode = 4 ∧ s.linkState 4 0 = 4 ∧ up.mode ≠ 4 ∧ initSec ≠ initSch := by decide

/-- Meadow 0 with its Vale port and its port to Meadow 1 ACTIVE, the message `m` received from the Vale, and the requests `o` outstanding to it. -/
def received (m : Msg) (o : List Forwarded) : State :=
  { State.withRegs upD [(aFdl 0 2 0, 4), (aFdl 0 0 0, 4), (aFdl 0 1 0, 4)] with ports := [(2, { portFresh with inbox := [m], outstanding := o })] }

/-- R350, R351: a message of each request type to the line at 0 of stack 0, a POST to a counter of Meadow 0, responses to a forwarded request,
and requests for a pool of Meadow 1. -/
theorem test_message_premises :
    (∀ ty ∈ [1, 8, 2, 7, 3], ((received ⟨ty, 0, List.replicate 64 1⟩ []).port 0 2).first ty = some ⟨ty, 0, List.replicate 64 1⟩)
      ∧ (received ⟨1, 0, []⟩ []).dieOf 0 0 = 0 ∧ placeOf 0 = some (.dram, 0, 0x001000000000) ∧ (received ⟨1, 0, []⟩ []).linkUp 0 2 = true
      ∧ (received ⟨1, 0, []⟩ []).pcFailed 0 = false ∧ (received ⟨1, 0, []⟩ []).poisoned 0 = false
      ∧ (received ⟨1, 0, []⟩ []).dramTakes (1 / 2 ^ 6 % 8) false 0 128 = true ∧ (received ⟨2, 0, []⟩ []).dramTakes (2 / 2 ^ 6 % 8) true 0 64 = true
      ∧ (List.replicate 64 (1 : Byte)).length = 64
      ∧ syncAt (ownCounter slot0 63) = some (0, 0, 0, 63) ∧ (received ⟨6, ownCounter slot0 63, leBytes 8 5⟩ []).meadowUp 0 = true
      ∧ ((received ⟨6, ownCounter slot0 63, leBytes 8 5⟩ []).port 0 2).first 6 = some ⟨6, ownCounter slot0 63, leBytes 8 5⟩
      ∧ (received ⟨6, ownCounter slot0 63, leBytes 8 5⟩ []).postStatus whoFabric (ownCounter slot0 63) 0 = 0
      ∧ (received ⟨6, ownCounter slot0 63, []⟩ []).dieOf 0 (ownCounter slot0 63) = 0
      ∧ answered ⟨0x14, 0, []⟩ [⟨1, 0, 0⟩] = some ⟨1, 0, 0⟩ ∧ answered ⟨0x15, 0, []⟩ [⟨2, 0, 0⟩] = some ⟨2, 0, 0⟩
      ∧ ((received ⟨0x14, 0, []⟩ [⟨1, 0, 0⟩]).port 0 2).first 4 = some ⟨0x14, 0, []⟩
      ∧ ((received ⟨0x15, 0, []⟩ [⟨2, 0, 0⟩]).port 0 2).first 5 = some ⟨0x15, 0, []⟩
      ∧ (received ⟨0x14, 0, []⟩ [⟨1, 0, 0⟩]).linkUp 0 0 = true ∧ (1 : Nat) % 16 ≠ 8
      ∧ (∀ ty ∈ [1, 2, 3, 7, 8], ((received ⟨ty, poolBase 1 0, []⟩ []).port 0 2).first ty = some ⟨ty, poolBase 1 0, []⟩)
      ∧ (received ⟨1, poolBase 1 0, []⟩ []).dieOf 0 (poolBase 1 0) = 1 ∧ (received ⟨1, poolBase 1 0, []⟩ []).wayOut 0 2 1 = some 0 := by
  refine ⟨by decide +kernel, by decide, by decide, by decide, by decide, by decide, by decide, by decide, by decide, by decide, by decide,
    by decide, by decide, by decide, by decide, by decide, by decide, by decide, by decide, by decide, by decide +kernel, by decide, by decide⟩

/-- R175, R210, R364 to R366: a kill on its way to Meadow 0 and one that has reached it; a record in its outbox; Meadows and Heaths behind a
DOWN port; a Meadow all of whose links are up, and one all of whose links are ACTIVE. -/
theorem test_departure_premises :
    let kill : KillRec := ⟨[⟨0, 0⟩], [0, 1], [], 1, false, .go⟩
    let s := withThread (thread2 0 0)
    let killing : State := { s with sched := { s.sched with kills := [kill], outbox := [.shareEnd 0 ⟨0, 0⟩ 1 0] } }
    let drained : State := { s with sched := { s.sched with kills := [{ kill with reached := [0] }] } }
    let down := State.withRegs up [(aFdl 4 0 0, 6), (aFdl 4 4 0, 6)]
    let ends := fun n => (List.range 5).flatMap fun p => [(aFdl 0 p 0, n), (aFdl (facing 0 p) ((portTo (facing 0 p) 0).getD 0) 0, n)]
    let gone := fun n => State.withRegs up ((aVal 0x20, 0x70) :: ends n)
    killing.frozen = false ∧ (∀ j ∈ killing.sched.jobs, j.ringSet < 4) ∧ killing.sched.kills = [kill] ∧ kill.dies.contains 0 = true
      ∧ kill.reached.contains 0 = false ∧ (killing.slot (tkey slot0)).busy = true ∧ (killing.slot (tkey slot0)).cmd ∈ kill.cmds
      ∧ (killing.sched.outbox.find? fun r => decide (r.die = 0)).isSome ∧ killing.sched.fifo.length < 1024
      ∧ (List.replicate 1024 (FifoRec.jobLimit 0)).length = 1024
      ∧ drained.schRunning = true ∧ (drained.sched.kills.map (·.reached)) = [[0]] ∧ (∃ e ∈ kill.dies, e ≠ 0)
      ∧ down.schRunning = true ∧ down.linkState 4 0 = 6 ∧ down.meadowUp 0 = true ∧ down.linkState 4 4 = 6 ∧ bit (down.reg (aVal 0x20)) 5 = true
      ∧ down.linkState 4 1 ≠ 0 ∧ down.linkState 4 1 < 6 ∧ down.prairie.records = []
      ∧ (gone 3).meadowUp 0 = false ∧ (gone 3).curJob = none ∧ (gone 3).schRunning = true ∧ linksUp 0 (gone 3).linkUp = true
      ∧ linksUp 0 (fun e q => decide ((gone 3).linkState e q = 4)) = false
      ∧ linksUp 0 (fun e q => decide ((gone 4).linkState e q = 4)) = true := by
  decide +kernel

/-! ## Flow regulation, power, cooling, ageing -/

/-- R375 to R387: a new window; slacks at the thresholds; budgets at and above the limit of class 7. -/
theorem test_flow_premises :
    let s : State := { up with now := 10000 }
    let urgent : State := { up with flr := { flrFresh with levels := [(1, 2), (16, 2)] } }
    let handing : State := { up with prairie := { prairieFresh with records := [⟨0, 0, [], 0, 0, 0, ⟨0, 0⟩, 0⟩] } }
    s.reg (aFlr 0 0) < s.now / 10000 ∧ up.now / 10000 ≤ up.reg (aFlr 0 0) ∧ up.fld (aFlr 4 0x18) 15 0 = 0x40 ∧ up.fld (aFlr 4 0x18) 31 16 = 0x10
      ∧ up.urgency 4 0 < 2 ∧ 1 < urgent.urgency 4 0 ∧ handing.handingOff 0 = true ∧ handing.urgency 0 1 < 2
      ∧ urgent.handingOff 0 = false ∧ 0 < urgent.urgency 0 1 ∧ s.now / 10000 < 2 ^ 64
      ∧ pointExists 0 0 = true ∧ pointExists 4 4 = true ∧ 8192 ≤ up.class7Limit 0 0 ∧ up.class7Limit 0 0 < 8193
      ∧ 0x00100040 / 2 ^ 16 < 0x00100040 % 2 ^ 16 ∧ 0x00400040 % 2 ^ 16 ≤ 0x00400040 / 2 ^ 16 := by
  decide

/-- R540 to R549: power, budgets, reports and temperatures at their limits. -/
theorem test_power_premises :
    let s : State := { State.withRegs up [(aPwr 0, 0xB)] with
      power := { powerFresh with sent := [(0, (90000, 6))] }, dies := [(0, { dieFresh with out := true }), (5, { dieFresh with out := true })], now := 1000000 }
    let hot : State := { s with diePower := [(0, { diePowerFresh with tripped := true, samples := [(1000000, 5)] })] }
    up.boot.phase ≠ 0 ∧ up.power.samples = [] ∧ s.fld (aPwr 0) 4 3 = 1 ∧ s.now % 1000000 = 0 ∧ s.power.budgetAt ≠ some s.now ∧ lookup s.power.sent 0 = some (90000, 6)
      ∧ 90000 + 6 * 2 ^ 20 < 2 ^ 64 ∧ (s.dieSt 0).out = true ∧ (s.diePw 0).samples = [] ∧ (s.diePw 0).tripped = false
      ∧ periodOver (s.diePw 0).readAt 10000 s.clock = true ∧ periodOver (some 990000) 10000 s.clock = true ∧ periodOver (some 990001) 10000 s.clock = false
      ∧ (hot.diePw 0).tripped = true ∧ (hot.diePw 0).samples.head?.map (·.1) = some hot.now ∧ (100 : Byte).toInt ≤ 100 ∧ hot.frozen = false
      ∧ (104 : Byte).toInt < 105 ∧ 118 ≤ (118 : Byte).toInt ∧ (s.diePw 0).hot105 = false ∧ (s.diePw 0).hot110 = false
      ∧ (s.dieSt 5).out = true ∧ (s.diePw 5).tripped = false ∧ periodOver s.power.coolantAt 10000000 s.now = true ∧ 65 < (66 : Byte).toInt ∧ s.power.coolantBad = false := by
  decide

/-- R464, R465: an hour of measurements with a mean below 25 ps, and one with a mean of 25 ps. -/
theorem test_ageing_premises :
    let s := fun (v : Nat) => ({ up with dies := [(0, { dieFresh with out := true })], diePower := [(0, { diePowerFresh with slacks := List.replicate 3600 (v, 0) })] } : State)
    ((s 24).dieSt 0).out = true ∧ (up.diePw 0).measuredAt = 0 ∧ (List.replicate 32 (0 : BitVec 16)).length = monitors 0
      ∧ 3600 ≤ ((s 24).diePw 0).slacks.length ∧ (((s 24).diePw 0).slacks.map (·.1)).sum < 3600 * 25
      ∧ 3600 * 25 ≤ (((s 25).diePw 0).slacks.map (·.1)).sum ∧ ((s 24).diePw 0).steps < 12 ∧ ((s 24).diePw 0).stepAt = none := by
  decide +kernel

/-! ## Modes -/

/-- R39 to R44: requests that are latched, refused, decided and applied. -/
theorem test_mode_premises :
    let s := fun (req mode : Nat) => State.withRegs up [(aVal 0x14, req), (aVal 0x10, mode)]
    let asked := fun (req mode init : Nat) => ({ s req mode with sched := { schedFresh with modeInit := init } } : State)
    let pre : State := { s 0 (2 + 8 + 4 * 16) with sched := { schedFresh with jobs := [{ job0 with cmds := [] }] }, now := 50000000 }
    let host : State := { State.withRegs up [(aVal 0x18, 0x88)] with now := 1000000001 }
    modeWriter initSec = true ∧ modeWriter 0 = false ∧ bit (up.reg (aVal 0x14)) 31 = false ∧ bit (up.reg (aVal 0x10)) 3 = false
      ∧ bit ((s (2 ^ 31 + 2) 0).reg (aVal 0x14)) 31 = true ∧ bit ((s 0 8).reg (aVal 0x10)) 3 = true
      ∧ (asked (2 ^ 31 + 4) 2 initSec).modeReasons = [] ∧ (asked (2 ^ 31 + 1) 2 initPcieA).modeReasons ≠ []
      ∧ 0 ∉ (asked (2 ^ 31 + 1) 2 initPcieA).modeReasons ∧ (s (2 ^ 31 + 5) 2).fld (aVal 0x14) 2 0 = 5
      ∧ (s (2 ^ 31 + 1) 3).mode = 3 ∧ ((3, 1) : Nat × Nat) ∉ [(2, 1), (1, 2), (2, 3), (3, 2), (2, 4), (3, 4)]
      ∧ (s 0 (2 + 8 + 4 * 16)).curJob = none ∧ (s 0 (2 + 8 + 4 * 16)).handsOver = false ∧ (s 0 (2 + 8 + 4 * 16)).schRunning = true
      ∧ bit (pre.reg (aVal 0x10)) 3 = true ∧ pre.sched.modeAccepted + 50000000 ≤ pre.now ∧ (pre.curJob.map (·.phase)) = some .running
      ∧ pre.inFlight = [] ∧ pre.sched.kills = [] ∧ pre.commitsWait = false ∧ up.now < up.sched.modeAccepted + 50000000
      ∧ bit (host.reg (aVal 0x18)) 7 = true ∧ bit (host.reg (aVal 0x18)) 3 = true ∧ host.fld (aVal 0x200) 0 0 = 0
      ∧ host.boot.loadedAt + 1000000000 < host.now ∧ host.host.missed = false := by
  decide

/-! ## Modes, rings, contexts -/

/-- R40 to R44: requests at each boundary: BOOT to DRIVE has no row in the table; PARK to DRIVE by port A with the Heaths in service;
a latched and a pending request; a request pending for 50 ms with a job running; the host missing after 1 s. -/
theorem test_mode_change_premises :
    let s := fun (l : List (Nat × Nat)) => State.withRegs up l
    let park := s [(aVal 0x10, 2), (aVal 0x14, 2 ^ 31 + 1), (aVal 0x20, 0xF7F)]
    let asked := { park with sched := { park.sched with modeInit := initPcieA } }
    let pend := s [(aVal 0x10, 2 + 8 + 1 * 2 ^ 4)]
    let late : State := { pend with now := 50000000, sched := { schedFresh with jobs := [{ job0 with cmds := [] }] } }
    let host : State := { s [(aVal 0x18, 0x88)] with now := 1000000001 }
    modeWriter initPcieA = true ∧ modeWriter (initLeaCore 0 0) = false
      ∧ bit (up.reg (aVal 0x14)) 31 = false ∧ bit (up.reg (aVal 0x10)) 3 = false ∧ bit (0x80000001) 31 = true
      ∧ bit (park.reg (aVal 0x14)) 31 = true ∧ park.schRunning = true ∧ bit (pend.reg (aVal 0x10)) 3 = true
      ∧ asked.modeReasons ≠ [] ∧ 0 ∉ asked.modeReasons ∧ (s [(aVal 0x14, 5)]).fld (aVal 0x14) 2 0 = 5
      ∧ (up.mode, 1) ∉ [(2, 1), (1, 2), (2, 3), (3, 2), (2, 4), (3, 4)]
      ∧ pend.curJob = none ∧ pend.handsOver = false ∧ pend.schRunning = true
      ∧ (late.curJob.map (·.phase)) = some .running ∧ late.inFlight = [] ∧ late.sched.kills = [] ∧ late.commitsWait = false ∧ late.sched.modeAccepted + 50000000 ≤ late.now
      ∧ { late with now := 49999999 }.now < late.sched.modeAccepted + 50000000
      ∧ bit (host.reg (aVal 0x18)) 7 = true ∧ bit (host.reg (aVal 0x18)) 3 = true ∧ host.fld (aVal 0x200) 0 0 = 0
      ∧ host.boot.loadedAt + 1000000000 < host.now ∧ host.host.missed = false := by
  decide

/-- R40: SERVICE asked for in PARK by the security core: nothing speaks against it. -/
theorem test_mode_accepted :
    let s := State.withRegs up [(aVal 0x10, 2), (aVal 0x14, 2 ^ 31 + 4)]
    { s with sched := { s.sched with modeInit := initSec } }.modeReasons = [] := by
  decide

/-- Ring set 1, of the management channel, enabled with rings of 16 entries at 0x10000, 0x20000 and 0x30000, its head entry `w`. -/
def ringUp (w : List Nat) : State :=
  (State.withRegs upD [(aRing 1 0, 0x10000), (aRing 1 8, 0x20000), (aRing 1 0x10, 0x30000), (aRing 1 0x18, 1 + 4 * 2 + 4 * 2 ^ 5 + 4 * 2 ^ 9),
    (aRing 1 0x20, 1), (aSch 0x10, 0x40000), (aSch 0x18, 0x140000)]).store 0x10000 (wordBytes w)

/-- R204 to R207, R218 to R220: indices at the limit of 16 entries; a set that can be enabled, and one whose LOG is 3; sets without and with
a job; an entry that waits for the completion ring. -/
theorem test_ring_premises :
    let off := State.withRegs upD [(aRing 1 0, 0x10000), (aRing 1 8, 0x20000), (aRing 1 0x10, 0x30000)]
    let v := 1 + 4 * 2 + 4 * 2 ^ 5 + 4 * 2 ^ 9
    let e : Nat × Nat × List Nat × Option CmdRef := (1, 3, List.replicate 7 0, none)
    let s := ringUp []
    let waits : State := { s with sched := { s.sched with cqWait := [e] } }
    let busy : State := { s with sched := { s.sched with jobs := [{ job0 with ringSet := 1 }] } }
    initCol = ringOwner 1 ∧ initSch ≠ ringOwner 1 ∧ 15 % 2 ^ 15 < 2 ^ s.ringLog 1 0 ∧ 2 ^ s.ringLog 1 0 ≤ 16 % 2 ^ 15
      ∧ v % 2 = 1 ∧ bit (off.reg (aRing 1 0x18)) 13 = false ∧ off.ringEn 1 = false ∧ 4 ≤ v / 2 % 16 ∧ 4 ≤ v / 2 ^ 5 % 16 ∧ 4 ≤ v / 2 ^ 9 % 16
      ∧ off.ringBaseOk 1 0 4 = true ∧ off.ringBaseOk 1 8 4 = true ∧ off.ringBaseOk 1 0x10 4 = true ∧ (1 + 3 * 2) / 2 % 16 < 4
      ∧ s.ringEn 1 = true ∧ (∀ w ∈ waits.sched.cqWait, w.1 = 1 → w.2.1 = 3) ∧ (∀ j ∈ s.sched.jobs, j.ringSet ≠ 1) ∧ (∃ j ∈ busy.sched.jobs, j.ringSet = 1)
      ∧ waits.sched.cqWait.find? (fun w => decide (w.1 = 1)) = some e ∧ waits.schRunning = true ∧ waits.ringEn 1 = true
      ∧ ringFull (waits.reg (aRing 1 0x2C)) (waits.reg (aRing 1 0x28)) (waits.ringLog 1 1) = false := by
  decide +kernel

/-- A descriptor or image of context 0: domain 0, no page table, STATE `st`. -/
def ctxWords (st : Nat) : List Nat := st :: List.replicate 31 0

/-- The ring set with an entry of operation `op` with its address at `a`, domain 0 open to set 1, and context 5 in the table with STATE `st`. -/
def ringOp (op a st : Nat) : State :=
  let s := ringUp [op + 5 * 2 ^ 16, a, 0, 0, 0, 0, 0, 0]
  { s with domains := [(0, 0xF)], sched := { s.sched with ctxTable := if st = 0 then [] else [(5, ctxWords st)] } }

/-- R203, R208: the entry of each operation at the head of set 1. -/
theorem test_ring_turns : ∀ op ∈ [1, 2, 3, 4, 5, 6, 7, 8],
    let s := ringOp op 0x50000 2
    s.frozen = false ∧ s.schRunning = true ∧ s.sqTurn = some 1 ∧ sqOp (s.sqEntry 1) = op ∧ sqFails (s.sqEntry 1) = [] := by
  decide +kernel

/-- R195, R197, R208, R574: what each operation asks beside that. -/
theorem test_ring_operation_premises :
    let j : Job := { job0 with words := [0, 0, 0, 0, 0, 0, 0, 0], ringSet := 1, phase := .queued, started := false, cmds := [] }
    let c := ringOp 8 0 2
    let s := { c with sched := { c.sched with jobs := [j] } }
    (ringOp 1 0x50000 2).readStatus whoBetween 0x50000 64 = 0 ∧ (ringOp 1 0x50000 2).curJob = none
      ∧ (ringOp 2 0x50000 0).readStatus whoBetween 0x50000 256 = 0 ∧ imageBad ((ringOp 2 0x50000 0).words 0x50000 32) = false
      ∧ sqAddr ((ringOp 2 0x50000 0).sqEntry 1) % 64 = 0 ∧ ctxState ((ringOp 2 0x50000 0).ctx 5) = 0 ∧ (ringOp 2 0x50000 0).domainOpen 0 1 = true ∧ (ringOp 2 0x50000 0).walkStatus 0 0 = 0
      ∧ ctxState ((ringOp 3 0x50000 2).ctx 5) = 2 ∧ (ringOp 3 0 2).ctxInUse 5 = false ∧ 5 ∉ (ringOp 3 0 2).sched.swaps
      ∧ ((ringOp 6 0x50000 2).ctx 5).length = 32 ∧ ctxRoot ((ringOp 6 0x50000 2).words 0x50000 32) = ctxRoot ((ringOp 6 0x50000 2).ctx 5)
      ∧ (ringOp 7 0x50000 2).access whoBetween true 0x50000 256 = 0 ∧ j.phase = .queued ∧ j.started = false ∧ s.cancelTarget 1 (s.sqEntry 1) = some j := by
  decide +kernel

/-- R196, R199: resident contexts of both states, one of them not ready; a swap-in under way. -/
theorem test_context_premises :
    let res := ringOp 0 0 2
    let swap := { ringOp 0 0 0 with sched := { (ringOp 0 0 0).sched with swaps := [5] } }
    res.resident 5 = true ∧ (res.ctx 5).length = 32 ∧ 5 ∉ res.sched.swaps ∧ ctxState (res.ctx 5) = 2 ∧ res.ctxReady (res.ctx 5) = true
      ∧ res.ctxReady (0x21 :: List.replicate 31 0) = false ∧ ctxState (0x21 :: List.replicate 31 0) = 1
      ∧ swap.resident 5 = false ∧ swap.ctxCopyStatus 0 5 = 0 ∧ swap.frozen = false ∧ swap.schRunning = true ∧ swap.sched.swaps.length < 8 := by
  decide +kernel

/-- Context 5 alone is SWAPPED_READY, in the primary copies at 0x40000. -/
def oneSwapped : State := { State.withRegs upD [(aSch 0x10, 0x40000), (aSch 0x18, 0x140000)] with mem := [(0x40500, 3)] }

/-- The first word of a descriptor at any other address below 0x400000000000. -/
theorem oneSwapped_word (a : Nat) (h : a < 0x400000000000) (n : a ≠ 0x40500) : bits (word (oneSwapped.words a 32) 0) 2 0 = 0 := by
  have hw : word (oneSwapped.words a 32) 0 = (oneSwapped.byte a).toNat + 256 * leNat ((List.range 7).map fun i => oneSwapped.byte (a + (i + 1))) := rfl
  have hr : oneSwapped.real a = a := by
    have : oneSwapped.ownWindow a = none := by unfold State.ownWindow; rw [if_neg (by omega)]
    simp [State.real, this]
  have hb : oneSwapped.byte a = 0 := by
    have : readAt memDefault oneSwapped.mem a = 0 := by
      simp only [oneSwapped, readAt, lookup, if_neg (Ne.symm n)]; rfl
    simp only [State.byte, hr]; rw [if_neg (by omega), this]
  rw [hw, hb]; simp only [bits]; simp; omega

/-- R201: room in the table, and context 5 with the oldest LAST_USED of the SWAPPED_READY contexts. -/
theorem test_autonomous_swap_premises :
    let s := oneSwapped
    s.frozen = false ∧ s.schRunning = true ∧ s.ctxRoom = true ∧ s.demandWaits = false ∧ s.sched.swaps.length < 8 ∧ 5 ∉ s.sched.swaps ∧ ctxState (s.ctx 5) = 3
      ∧ ∀ x < 4096, x ≠ 5 → x ∉ s.sched.swaps → ctxState (s.ctx x) = 3 → ctxLastUsed (s.ctx 5) < ctxLastUsed (s.ctx x) := by
  refine ⟨by decide, by decide, by decide, by decide, by decide, by decide, by decide +kernel, fun x hx h5 _ h3 => ?_⟩
  exfalso
  have hl : lookup oneSwapped.sched.ctxTable x = none := rfl
  have h0 : oneSwapped.ctxAddr 0 x = 0x40000 + 256 * x := by unfold State.ctxAddr; congr 1
  have h1 : oneSwapped.ctxAddr 1 x = 0x140000 + 256 * x := by unfold State.ctxAddr; congr 1
  simp only [State.ctx, hl, ctxState] at h3
  split at h3
  · rw [h0, oneSwapped_word _ (by omega) (by omega)] at h3; cases h3
  · rw [h1, oneSwapped_word _ (by omega) (by omega)] at h3; cases h3

/-! ## Jobs and commands -/

/-- A job of list 0 alone: its list at 0x10000 with `n` commands, its map-set table at 0x11000 with one entry, no time limit, domain 0. -/
def jobWords (n : Nat) : List Nat := [0, 0x10000 + n * 2 ^ 48, 0, 0x11000 + 2 ^ 48, 0xFFFFFFFF, 0, 0, 0]

/-- A THREADS command with code at 0x13000, two threads a tile on tile 0 of its map, owning counter 0, and the time limit `lim`. -/
def threadsWords (lim : Nat) : List Nat :=
  [lim * 2 ^ 32, 0, 0, 0, 0, 0, 0, 0, 0x13000, 0x13000, 64 + 2 ^ 43 + 2 ^ 55, 0, 1, 0, 0, 0]

/-- The module running that job with a map of MAP_ID 7 that names tile 0 of Meadow 0, lea 0, and that command with a time limit
below 256; its memory is written out, for Lean's kernel reads it often. -/
def starting (lim : Nat) : State :=
  { upD with
    sched := { schedFresh with jobs := [⟨jobWords 1, 0, 0, .running, true, 0, [], 0, 0, 0, [], []⟩] }
    domain := some 0, domains := [(0, 0xF)], leas := [(0, { leaFresh with coreUp := true })]
    mem := (if lim = 0 then [] else [(0x10004, BitVec.ofNat 8 lim)]) ++
      [(0x10041, 0x30), (0x10042, 1), (0x10049, 0x30), (0x1004A, 1), (0x10050, 64), (0x10055, 8), (0x10056, 0x80), (0x10060, 1),
        (0x11000, 1), (0x11009, 0x20), (0x1100A, 1), (0x12000, 7), (0x12002, 1), (0x12004, 1), (0x12041, 0x80)] }

/-- Command 0 of list 0. -/
def cmd00 : CmdRef := ⟨0, 0⟩

/-- What the start of command 0 of a one-command job finds in `s`: for checks that pass, whether the start is open, its swaps and
frames among them; for checks that fail, the status, and whether its conditions hold. -/
def found (s : State) : Nat × Bool :=
  match s.findStart ⟨jobWords 1, 0, 0, .running, true, 0, [], 0, 0, 0, [], []⟩ cmd00 with
  | .passes e => (0, s.startOpen e && s.kvRoom (s.startFrames e) && e.ctxs.isEmpty && (s.noRoom e).isNone)
  | .fails st e => (st, s.conditions e)

/-- R155, R158: a command whose TIME_LIMIT is 5 ms, at its index; an index that is not in the window. -/
theorem test_start_premises :
    let s := starting 5
    let j : Job := ⟨jobWords 1, 0, 0, .running, true, 0, [], 0, 0, 0, [], []⟩
    s.frozen = false ∧ s.schRunning = true ∧ s.curJob = some j ∧ j.phase = .running ∧ s.words (j.cmdAddr cmd00) 16 = threadsWords 5
      ∧ s.readStatus (whoSch cmd00) (j.cmdAddr cmd00) 128 = 0 ∧ s.inWindow j cmd00 = true ∧ s.isTurn j cmd00 = true
      ∧ (starting 0).inWindow j cmd00 = true ∧ (starting 0).isTurn j cmd00 = true ∧ s.inWindow j ⟨0, 1⟩ = false := by
  decide +kernel

/-- R158, R159: its checks pass and its conditions hold. -/
theorem test_start_found : found (starting 5) = (0, true) := by decide +kernel

/-- R159: with a TIME_LIMIT of 0 they fail with 0x07. -/
theorem test_start_found_fails : found (starting 0) = (7, true) := by decide +kernel

/-- R158: its conditions do not hold where an earlier command still owns its counter. -/
theorem test_start_found_waits : found (State.withRegs (starting 5) [(aTil 0 0 0 0x1100, 1)]) = (0, false) := by decide +kernel

/-- R158: nor do those of the command whose checks fail. -/
theorem test_start_found_fails_waits : found (State.withRegs (starting 0) [(aTil 0 0 0 0x1100, 1)]) = (7, false) := by decide +kernel

/-- R155: a descriptor for each of the seventeen rows. -/
theorem test_start_rows :
    (StartRows 0 0).map (fun x => rowFits true (List.set (x.2.1 :: List.replicate 15 0) 8 (x.2.2.getD 0)) x.2.1 x.2.2)
      = List.replicate 17 true := by
  decide +kernel

/-- The module with the job's command replaced by `c`, at time `t`, and the records `f` in the completion FIFO. -/
def running (c : Cmd) (t : Nat) (f : List FifoRec) : State :=
  { up with now := t, sched := { schedFresh with jobs := [{ job0 with words := jobWords 1, cmds := [c] }], fifo := f } }

/-- A command that runs, with the descriptor `w` and neither shares nor engines. -/
def cmdOf (w : List Nat) : Cmd := { cmdFresh cmd00 with phase := .running, words := w, runs := 1 }

/-- R154, R155, R162, R166, R168, R175, R210, R254, R310: a command and a job with limits at the time they end and 1 ns before; every kind of
record; a fault with and without work on a die; a record of an earlier run; an engine's part at its end; the commit point of a command
that fits its log and of one that does not; a GLEN command whose context has another table; a CHECK command whose candidates are not
current. -/
theorem test_command_end_premises :
    let c := cmdOf (threadsWords 5)
    let works := { c with shares := [⟨0, 0, 0, 0, 0, 1⟩] }
    let ended := { c with shares := [⟨0, 0, 0, 0, 0, 2⟩], engines := [⟨0, 0, 2, 0, 0⟩] }
    let golden := { cmdOf (5 :: List.replicate 15 0) with engines := [⟨0, 0, 1, 0, 0⟩] }
    let coll := { cmdOf (3 :: List.replicate 15 0) with engines := [⟨0, 0, 1, 0, 0⟩] }
    let glen := { cmdOf ([1, 0, 0, 0, 0, 0, 0, 0, 2 ^ 5 + 2 ^ 9 + 2 ^ 14] ++ List.replicate 7 (2 ^ 48 - 1)) with snaps := [⟨0, 64, 0, 0, []⟩] }
    let check := { cmdOf ([2, 0, 0, 0, 0, 0, 0, 0, 1 + 2 ^ 4] ++ List.replicate 7 0) with ranked := [0] }
    let long := { c with log := [.take 0] }
    let j := { job0 with words := [0, 0x10000 + 2 ^ 48, 0, 0x11000 + 2 ^ 48, 5, 0, 0, 0], cmds := [works] }
    let limited := fun (t : Nat) (f : List FifoRec) =>
      { up with now := t, sched := { schedFresh with jobs := [j], fifo := f } }
    NamedAlone (limited 5001 []) j ∧ (limited 5001 []).curJob = some j ∧ j.phase = .running ∧ j.started = true
      ∧ bits (word j.words 4) 31 0 ≠ 0xFFFFFFFF ∧ j.tStart + 1000 * bits (word j.words 4) 31 0 < 5001
      ∧ 5000 ≤ j.tStart + 1000 * bits (word j.words 4) 31 0 ∧ (limited 5001 []).recordsFull = false
      ∧ (running c 5001 []).cmd cmd00 = some c ∧ c.phase = .running ∧ wTimeLimit c.words ≠ 0xFFFFFFFF ∧ c.tStart + 1000 * wTimeLimit c.words < 5001
      ∧ (limited 5001 [.jobLimit 0]).schRunning = true ∧ (limited 5001 [.jobLimit 0]).sched.cqWait = []
      ∧ (∀ x ∈ (limited 5001 [.jobLimit 0]).inFlight, (limited 5001 [.jobLimit 0]).workDies x = [0]) ∧ (limited 0 []).sched.kills = []
      ∧ (∀ x ∈ { limited 0 [] with sched := { (limited 0 []).sched with jobs := [{ j with cmds := [ended] }] } }.inFlight,
        (running ended 0 []).workDies x = []) ∧ (running works 0 []).commitsWait = false
      ∧ works.due = false ∧ ended.due = false ∧ c.due = true ∧ (running ended 0 []).workDies ended = [] ∧ (running works 0 []).workDies works = [0]
      ∧ golden.kind = 5 ∧ works.kind ≠ 5 ∧ works.serial ≠ works.serial + 1
      ∧ coll.enginePart 0 0 = some ⟨0, 0, 1, 0, 0⟩ ∧ (running coll 0 []).meadowUp 0 = true ∧ (running coll 0 []).stacksTake = true
      ∧ (running coll 0 []).cutOff 0 = false ∧ (((running coll 0 []).enginePart coll 0 0).bind fun x => x.1.cmd cmd00).isSome = true
      ∧ (running c 0 []).handing { job0 with words := jobWords 1, cmds := [c] } c = false
      ∧ (∀ h ∈ c.shares, h.state = 3) ∧ (∀ e ∈ c.engines, e.state = 3) ∧ c.kind ∉ [1, 2, 4] ∧ c.logNeed ≤ wLogLen c.words
      ∧ wLogLen long.words < long.logNeed ∧ glen.kind = 1 ∧ (running glen 0 []).glenStale glen = true
      ∧ check.kind = 2 ∧ praOp check.words = 1 ∧ praHandoff check.words = true ∧ check.ranked ≠ [] ∧ (running check 0 []).handed check = none := by
  unfold NamedAlone; decide +kernel

/-- The module with the job `j` waiting in DRIVE, and domain 0 known. -/
def waiting (j : Job) : State :=
  { State.withRegs up [(aVal 0x10, 1)] with sched := { schedFresh with jobs := [j] }, domains := [(0, 0xF)] }

/-- R152 to R154, R176, R203: a queued job that passes its checks, one whose limit is 0, one without commands, a suspended one with a
command that waits for its re-run, and a job that holds the place. -/
theorem test_job_premises :
    let j : Job := ⟨jobWords 1, 0, 0, .queued, false, 0, [], 0, 0, 0, [], []⟩
    let bad := { j with words := [0, 0x10000 + 2 ^ 48, 0, 0x11000 + 2 ^ 48, 0, 0, 0, 0] }
    let empty := { j with words := jobWords 0 }
    let susp := { j with phase := .suspended, started := true, cmds := [{ cmdFresh cmd00 with runs := 1, rerun := true }] }
    NamedAlone (waiting j) j ∧ (waiting j).nextJob = some j ∧ (waiting j).jobSlot = true ∧ (waiting j).jobFails j = [] ∧ 0 < j.count 0 + j.count 1
      ∧ oneOf ((waiting bad).jobFails bad) ≠ 0 ∧ (waiting bad).nextJob = some bad ∧ empty.count 0 + empty.count 1 = 0 ∧ (waiting empty).nextJob = some empty
      ∧ bits (word bad.words 4) 31 0 = 0 ∧ (waiting susp).nextJob = some susp ∧ (waiting susp).jobSlot = true
      ∧ (∃ list < 2, ∃ i < susp.count list, (susp.cmdAt ⟨list, i⟩).phase = .waiting ∧ 0 < (susp.cmdAt ⟨list, i⟩).runs)
      ∧ (running (cmdOf []) 0 []).jobSlot = false := by
  unfold NamedAlone
  refine ⟨by decide, by decide, by decide, by decide, by decide, by decide, by decide, by decide, by decide, by decide, by decide, by decide,
    ⟨0, by decide, 0, by decide, by decide⟩, by decide⟩

/-- R214 to R217: an idle target of a running DRIVE job; its golden run, all of whose shares have ended, that has failed, and that still
runs in the last ns of SLOT_US and 1 ns over; the part of a GOLDEN command. -/
theorem test_golden_premises :
    let b := leaKey 0 0
    let with_ := fun (cs : List Cmd) (t : Nat) =>
      ({ State.withRegs (running (cmdOf (threadsWords 5)) t []) [(aSch 0x20, 1), (aLea 0 0 0, 16 * 2 ^ 8 + 1)] with
        leas := [(b, { leaFresh with coreUp := true })]
        sched := { schedFresh with jobs := [{ job0 with words := jobWords 1, cmds := cs }], reservations := if cs = [] then [] else [(b, 0)] } } : State)
    let run := fun (st : Nat) => ({ cmdFresh ⟨2, b⟩ with phase := .running, shares := [⟨0, 0, 0, 0, 0, st⟩] } : Cmd)
    let failed := { run 3 with phase := .failed, endStatus := 5 }
    let part := { cmdOf (5 :: List.replicate 15 0) with engines := [⟨0, 0, 1, 0, 0⟩] }
    let idle := with_ [] 1
    NamedAlone idle { job0 with words := jobWords 1, cmds := [] } ∧ idle.schRunning = true ∧ (idle.curJob.map (·.kind)) = some 0
      ∧ bit (idle.reg (aSch 0x20)) 0 = true ∧ b ∈ idle.goldenTargets ∧ bit idle.sched.goldenDone b = false ∧ idle.cmd ⟨2, b⟩ = none
      ∧ (idle.lea b).coreUp = true ∧ idle.leaIdle 0 0 = true
      ∧ (with_ [run 3] 1).cmd ⟨2, b⟩ = some (run 3) ∧ (with_ [run 3] 1).recordsFull = false ∧ (∀ h ∈ (run 3).shares, h.state = 3)
      ∧ (with_ [failed] 1).cmd ⟨2, b⟩ = some failed ∧ failed.endStatus ≠ 0 ∧ (with_ [run 3] 1).goldenPart ⟨0, 0⟩ = none
      ∧ (with_ [run 3] 1).reserved 0 0 = true ∧ (with_ [part, run 3] 1).goldenPart ⟨0, 0⟩ = some part
      ∧ (with_ [part, run 3] 1).cmd ⟨2, b⟩ = some (run 3) ∧ (∃ h ∈ (run 1).shares, h.state ≠ 3)
      ∧ 1000 * bits (word (with_ [run 1] 1).goldenDesc 10) 47 32 + (run 1).tStart < (with_ [run 1] 1).now
      ∧ (with_ [run 1] 0).now ≤ 1000 * bits (word (with_ [run 1] 0).goldenDesc 10) 47 32 + (run 1).tStart := by
  unfold NamedAlone; decide +kernel

/-! ## Sensor ingress and the time unit -/

/-- Queue 0 as an enabled camera queue of port 0, channel 0, data type 0x2A, with lines of 64 bytes and a free cell in its reserve; its
writer `w` and one cell returned. -/
def camera (w : Writer) : State :=
  { State.withRegs up [(aIqm 0x1000, 1), (aQueue 0 0, 1 + 0x2A * 2 ^ 16), (aQueue 0 4, 2), (aQueue 0 0x0C, 64), (aIqm 0, 5)] with
    iqm := { iqmFresh with freed := [7] }, queues := [(0, { queueFresh with w := w })], now := 100000001 }

/-- R389 to R391, R400, R401, R408, R409, R416: a line of an open frame, one of another data type, packets before, in and after a frame, a
port that is off, and no frame start for FT_MS ms. -/
theorem test_camera_premises :
    let w := { writerFresh with frameOpen := true }
    let item : OpenItem := ⟨64, [7], 1, 0, 0, false, false⟩
    let s := camera w
    let t := { State.withRegs s [(aQueue 0 0x10, 100 * 2 ^ 20)] with queues := [(0, { queueFresh with w := writerFresh })] }
    s.frozen = false ∧ s.cameraOn 0 = true ∧ s.cameraQueue 0 0 = some 0 ∧ bits (s.qcfg 0) 21 16 = 0x2A ∧ bit (s.qcfg 0) 22 = false ∧ (64 : Nat) ≤ 256
      ∧ (s.writer 0).frameOpen = true ∧ (s.writer 0).item = none ∧ s.lineBytes 0 = 64 ∧ CellFree s 0 7 [] ∧ bits (s.qcfg 0) 21 16 ≠ 0x2B
      ∧ ((camera writerFresh).writer 0).frameOpen = false ∧ ((camera { w with item := some item }).writer 0).item = some item
      ∧ item.dropped = false ∧ 0 < item.len ∧ s.detects 0 = false ∧ up.cameraOn 0 = false
      ∧ t.isCamera 0 = true ∧ t.fld (aQueue 0 0x10) 27 20 ≠ 0 ∧ (t.writer 0).outage = false
      ∧ (t.writer 0).startAt + t.fld (aQueue 0 0x10) 27 20 * 1000000 < t.now
      ∧ { t with now := 100000000 }.now ≤ (t.writer 0).startAt + t.fld (aQueue 0 0x10) 27 20 * 1000000 := by
  unfold CellFree; decide

/-- A payload of 22 bytes of stream 3, counter 9, with its CRC-32C, and its Ethernet frame with its FCS (`bad` spoils one of them). -/
def ethBody (bad : Nat) : List Byte :=
  let head := beBytes 2 3 ++ beBytes 2 9 ++ beBytes 2 22 ++ [0, 0] ++ beBytes 8 5
  head ++ beBytes 4 (crc32c (head ++ List.replicate 22 1) ^^^ bad) ++ [0, 0, 0, 0] ++ List.replicate 22 1
def ethFrame (badCrc badFcs : Nat) : List Byte :=
  let body := List.replicate 12 2 ++ [0x88, 0xB5] ++ ethBody badCrc
  body ++ leBytes 4 (crc32 body ^^^ badFcs)

/-- R393 to R397, R399, R400: a frame of stream 3 of MAC 0, one with a wrong CRC-32C, one with a wrong FCS. -/
theorem test_network_premises :
    let s := State.withRegs (camera writerFresh) [(aIqm 0x1400, 1), (aIqm 4, 2 ^ 16 + 0x88B5), (aQueue 0 0, 1 + 1 * 2 + 3 * 2 ^ 16)]
    let fcs := fun (f : List Byte) => leNat (f.drop (f.length - 4)) = crc32 (f.take (f.length - 4))
    let crc := fun (b : List Byte) => beNat ((b.drop 16).take 4) = crc32c (b.take 16 ++ (b.drop 24).take 22)
    s.frozen = false ∧ bit (s.reg (aIqm 0x1400)) 0 = true ∧ s.mode ≠ 3 ∧ (ethFrame 0 0).length = 64 ∧ fcs (ethFrame 0 0) ∧ ¬ fcs (ethFrame 0 1)
      ∧ (∀ p ∈ [(6, 2), (20, 4)], beNat (((ethBody 0).drop p.1).take p.2) = 0) ∧ beNat (((ethBody 0).drop 4).take 2) = 22
      ∧ 24 + 22 ≤ (ethBody 0).length ∧ beNat (((ethFrame 0 0).drop 12).take 2) = s.fld (aIqm 4) 15 0 ∧ bit (s.reg (aIqm 4)) 16 = true
      ∧ s.fld (aIqm 4) 15 0 ∉ [0x8100, 0x8808, 0x88F7] ∧ ethBody 0 = ((ethFrame 0 0).take 60).drop 14 ∧ s.streamQueue 0 3 = some 0
      ∧ crc (ethBody 0) ∧ ¬ crc (ethBody 1) ∧ fcs (ethFrame 1 0) ∧ (s.writer 0).counter = none ∧ (s.writer 0).e2eAt = none ∧ (s.writer 0).e2eBits = 0
      ∧ s.fld (aQueue 0 0x10) 15 0 = 0 ∧ CellFree s 0 7 [] ∧ bit (up.reg (aIqm 0x1400)) 0 = false := by
  unfold CellFree; decide +kernel

/-- R407, R410, R411, R416: a header line of an aperture in REPLAY, the last line of its item, a configuration write in SERVICE, and the
record of an overwritten take for the command's run and for an earlier one. -/
theorem test_replay_premises :
    let hdr := [64 * 2 ^ 32 + 3 * 2 ^ 56, 0, 0, 0, 0, 0, 0, 0]
    let a : ApItem := ⟨hdr, 64, false⟩
    let i : OpenItem := ⟨0, [7], 0, 0, 0, false, false⟩
    let s := State.withRegs (camera writerFresh) [(aVal 0x10, 3), (aQueue 0 0, 1 + 1 * 2)]
    let t := { s with queues := [(0, { queueFresh with w := { writerFresh with aperture := some a, item := some i } })] }
    let c := { cmdOf (threadsWords 5) with shares := [⟨0, 0, 0, 0, 0, 2⟩] }
    let r := { running c 0 [] with iqm := { iqmFresh with records := [⟨cmd00, 0, 0x0E⟩] } }
    let j := { job0 with words := jobWords 1, cmds := [c] }
    s.apertureOpen initPcieA 0 0 64 = true ∧ (s.writer 0).aperture = none ∧ bits (word hdr 0) 51 32 = 64 ∧ 64 ≤ s.largestItem 0
      ∧ (List.range 8).map (fun i => leNat (((wordBytes hdr).drop (8 * i)).take 8)) = hdr
      ∧ bits (word hdr 0) 31 0 = 0 ∧ bits (word hdr 0) 63 60 = 0 ∧ (∀ k ∈ [4, 5, 6, 7], word hdr k = 0)
      ∧ (t.writer 0).aperture = some a ∧ (t.writer 0).item = some i ∧ t.isCamera 0 = false ∧ (t.writer 0).counter = none
      ∧ i.len + a.left ≤ 256 * i.cells.length ∧ i.len = bits (word a.hdr 0) 51 32 - a.left ∧ a.left ≤ bits (word a.hdr 0) 51 32
      ∧ up.apertureOpen initPcieA 0 0 64 = false ∧ (State.withRegs up [(aVal 0x10, 4)]).mode = 4
      ∧ r.schRunning = true ∧ r.curJob = some j ∧ NamedAlone r j ∧ r.cmd cmd00 = some c ∧ c.phase = .running ∧ c.serial = 0 ∧ c.due = false
      ∧ c.kind ≠ 5 ∧ r.workDies c = [] ∧ (0x0E : Nat) ≠ 1 ∧ c.serial ≠ 1 := by
  unfold NamedAlone; decide +kernel

/-- R412 to R414: the time unit running in each state, with a static path delay and without, and its limits of time. -/
theorem test_time_premises :
    let s := fun (st : Nat) => { State.withRegs up [(aIqm 0x28, 1 + 2 * 2 ^ 8), (aIqm 0x20, st)] with now := 4000000001 }
    let st := State.withRegs (s 0) [(aIqm 0x28, 3 + 100 * 2 ^ 16)]
    let p := fun (x : Ptp) => { s 1 with ptp := x }
    (s 0).frozen = false ∧ (s 0).ptpOn = true ∧ (∀ k < 4, (s k).tbState = k) ∧ (s 0).ptpStatic = false ∧ st.pathDelay = some 100
      ∧ intervalNs ((0xFB : BitVec 8).toInt) = some 31250000 ∧ intervalNs ((0x00 : BitVec 8).toInt) = some 1000000000
      ∧ (p { ptpFresh with waiting := some (7, 3) }).ptp.waiting = some (7, 3) ∧ (p { ptpFresh with request := some (7, 3) }).ptp.request = some (7, 3)
      ∧ (s 1).ptp.lastResp = none ∧ (s 1).ptp.ratio = (1, 1) ∧ (s 1).ptp.reqAt = none ∧ ptpFresh.good < 7 ∧ 7 ≤ { ptpFresh with good := 7 }.good
      ∧ (∃ t, (p { ptpFresh with reqAt := some 3000000002 }).ptp.reqAt = some t ∧ (s 1).now < t + 1000000000)
      ∧ (s 1).ptp.syncAt + 4 * (s 1).ptp.interval < (s 1).now ∧ { s 1 with now := 4000000000 }.now ≤ (s 1).ptp.syncAt + 4 * (s 1).ptp.interval
      ∧ (s 3).ptp.holdAt + (s 3).fld (aIqm 0x28) 15 8 * 1000000000 < (s 3).now
      ∧ { s 3 with now := 2000000000 }.now ≤ (s 3).ptp.holdAt + (s 3).fld (aIqm 0x28) 15 8 * 1000000000 := by
  refine ⟨by decide, by decide, by decide, by decide, by decide, by decide, by decide, by decide, by decide, by decide, by decide, by decide,
    by decide, by decide, ⟨3000000002, by decide, by decide⟩, by decide, by decide, by decide, by decide⟩

/-! ## The safety islands -/

/-- Heath 0 as `x`, up since 0, its Vale link ACTIVE and its links to the Meadows ready, with HT0_STATUS `st`, at time 250,001. -/
def heathAt (x : HeathSt) (st : Nat) : State :=
  { State.withRegs up [(aHt 0 0x10, st), (aFdl 5 4 0, 4), (aFdl 5 0 0, 4), (aFdl 5 1 0, 4), (aFdl 4 4 0, 4), (aFdl 4 5 0, 4),
      (aFdl 0 3 0, 4), (aFdl 0 4 0, 4), (aVal 0x10, 1)] with
    heaths := [(0, { x with up := true })], now := 250001, dies := [(0, { dieFresh with out := true }), (4, { dieFresh with out := true })],
    power := { powerFresh with mainOk := true } }

/-- A cross frame of a partner in STANDBY. -/
def crossOf : CrossFrame := ⟨1, 5, 100, none, none, none, none, none⟩

/-- A record of one pose that stands still. -/
def rec1 : TrajRec := ⟨0, 7, 0, 0, 0, 0, 0, 0, [⟨0, 0, 0, 0⟩], 0⟩

/-- R420, R422, R423, R425 to R427, R560: a slot due and one 1 ns before, with and without an accepted trajectory; a mid-slot; cross frames
on both paths; a partner silent for more than 240 µs and one heard 240 µs ago; vehicle frames in and out of succession; a silence of more than 1 s. -/
theorem test_heath_output_premises :
    let active := 2 + 1 * 4 + 2 ^ 13
    let t : Traj := ⟨rec1, 0, 0, false⟩
    let x := { heathFresh with lastSlot := 1 }
    let s := heathAt x active
    let f := crossOf
    let data : List Byte := [1, 0, 0, 0, 8, 0, 0, 0] ++ leBytes 4 (crc32c [1, 0, 0, 0, 8, 0, 0, 0]) ++ [0, 0, 0, 0]
    (s.heath 0).up = true ∧ s.role 0 = 2 ∧ (s.heath 0).demote = false ∧ (s.heath 0).lastSlot = 1 ∧ 1 + 250000 ≤ s.clock ∧ s.valeLinked 0 = true
      ∧ (s.heath 0).hold = false ∧ s.paramOk 0 = true ∧ (s.heath 0).held = [] ∧ s.partnerState 0 = 0 ∧ (s.heath 0).queueHold = [] ∧ s.mode = 1
      ∧ (s.heath 0).accepted = none ∧ rec1.poses.length ≤ 64 ∧ (heathAt { x with accepted := some t } active).ageUs t ≤ 100 * 1000 + 200
      ∧ { t with at_ := 250001 }.at_ = s.clock ∧ (s.heath 0).disagreed = false ∧ ({ s with now := 250000 } : State).clock < 1 + 250000
      ∧ (s.heath 0).midAt ≠ (s.heath 0).lastSlot ∧ (s.heath 0).lastSlot + 125000 ≤ s.clock ∧ ({ s with now := 125000 } : State).clock < 1 + 125000
      ∧ (∀ via : Bool, (let y := (heathAt { x with xlink := [f], via := [f] } active).heath 0
          if via then y.via else y.xlink) = f :: []) ∧ (s.heath 0).heard.length = 2 ∧ f.verdict = none ∧ f.valeDown = none ∧ f.valeHung = none
      ∧ (s.heath 0).silentAt = none ∧ (s.heath 0).upAt + 240000 < s.clock ∧ (s.heath 0).frames = [] ∧ (s.heath 0).heard = [none, none]
      ∧ s.clock ≤ 10001 + 240000 ∧ data.length = 16 ∧ leNat ((data.drop 8).take 4) = crc32c (data.take 8) ∧ leNat ((data.drop 4).take 2) = 8
      ∧ (up.heath 0).up = false ∧ (heathAt { x with toVale := [f] } active).linkUp 4 4 = true ∧ s.linkUp 4 5 = true
      ∧ 0 + 1000000000 < ({ s with now := 1000000001 } : State).clock
      ∧ ({ s with now := 1000000000 } : State).clock ≤ 0 + 1000000000 := by
  decide +kernel

/-- R311, R429 to R438, R456: a frame of Heath 0 with its record, its verdict and its partner's; a record on its way; a golden mismatch. -/
theorem test_heath_decision_premises :
    let f : FrameDec := ⟨7, [rec1], false, [], 0, none, 0, none⟩
    let s := fun (f : FrameDec) (st : Nat) => heathAt { heathFresh with frames := [f] } st
    let zero := List.replicate 64 (0 : Byte)
    let good := (List.range 4).foldl (fun b i => b.set (56 + i) ((leBytes 4 (crc32c (zero.take 56 ++ zero.drop 64))).getD i 0)) zero
    let e : HandOff := ⟨0, 0, good, 0, 0, 0, ⟨0, 0⟩, 0⟩
    let r := { heathAt heathFresh 2 with prairie := { prairieFresh with records := [e] } }
    let ev : Ev := ⟨0, 0, 0x1F, 7, 0, 0xFFFF, "GOLDEN_MISMATCH", 0, 0, 0, none⟩
    let g := { heathAt heathFresh 2 with collectors := [(0, { collectorFresh with out := [(0, [⟨ev, 0⟩])] })] }
    (s f 2).frameDec 0 7 = some f ∧ f.need = [] ∧ f.own = none ∧ ((s f 2).checkerCause 0 rec1).1 = 5 ∧ ({ s f 2 with mem := [(0x10002, 7)] }.checkerCause 0 rec1).1 = 0
      ∧ { s f 2 with mem := [(0x10002, 7)] }.compareCause 0 rec1 rec1 = 0 ∧ rec1.channel ≤ rec1.channel
      ∧ (s { f with partner := some ⟨7, true, 0⟩ } 2).frameDec 0 7 = some { f with partner := some ⟨7, true, 0⟩ } ∧ (s f (2 + 2 ^ 5)).partnerState 0 ≠ 0
      ∧ (s f 2).partnerState 0 = 0 ∧ (s f 2).fld (aHt 0 0x1C) 31 24 = 0 ∧ ones8 (2 * 1 % 256) ≠ 0
      ∧ (s { f with need := [1] } 2).frameDec 0 7 = some { f with need := [1] } ∧ f.t0 + paramsDefault.pairUs * 1000 < 2000001
      ∧ 2000000 ≤ f.t0 + paramsDefault.pairUs * 1000 ∧ heathFresh.lone = false ∧ { heathFresh with lone := true }.lone = true ∧ (s { f with own := some ⟨7, true, 0⟩ } 2).frameDec 0 7 = some { f with own := some ⟨7, true, 0⟩ }
      ∧ f.ownAt + paramsDefault.verdictUs * 1000 < 300001
      ∧ 300000 ≤ f.ownAt + paramsDefault.verdictUs * 1000
      ∧ r.prairie.records.find? (fun z => decide (z.heath = 0)) = some e ∧ recCrcOk good = true ∧ (recOf 0 good).job = 0 ∧ r.heathLinked 0 0 = true
      ∧ r.heldMode 0 ≠ 4 ∧ r.frozen = false ∧ (r.heath 0).up = true ∧ up.heathLinked 0 0 = false
      ∧ recCrcOk (good.set 0 1) = false ∧ r.frameDec 0 0 = none ∧ 0 ∉ (r.heath 0).closed
      ∧ readAt (fun _ => []) (g.collector 0).out 0 = [⟨ev, 0⟩] ∧ g.heathLinked 0 0 = true ∧ ev.name = "GOLDEN_MISMATCH" ∧ (g.heath 0).frames = []
      ∧ (heathAt { heathFresh with accepted := some ⟨rec1, 0, 0, false⟩ } (1 * 4)).heldMode 0 = 1
      ∧ 100 * 1000 < ({ up with now := 100001000 } : State).ageUs ⟨rec1, 0, 0, false⟩ := by
  decide +kernel

/-- R419, R441, R447, R455, R456, R458, R459: what the Heaths watch, at the limits of time. -/
theorem test_heath_watch_premises :
    let ev : Ev := ⟨0, 0, 0x1F, 7, 0, 0xFFFF, "ACC_SAT", 0, 0, 0, none⟩
    let s0 := heathAt heathFresh 2
    let s := { s0 with collectors := [(0, { collectorFresh with out := [(0, [⟨ev, 0⟩])] })] }
    let e : FrecEntry := ⟨1, 0, 0, 0, 5, 0⟩
    let f := { s0 with frec := [(0, { frecFresh with todo := [e] })] }
    s.frozen = false ∧ (s.heath 0).up = true ∧ readAt (fun _ => []) (s.collector 0).out 0 = [⟨ev, 0⟩] ∧ s.heathLinked 0 0 = true
      ∧ ev.name ∉ ["GOLDEN_MISMATCH", "IQM_STALE_FRAME", "IQM_NO_FRAME", "IQM_E2E"]
      ∧ ({ s with now := 10000000 } : State).now % 10000000 = 0 ∧ (s.collector 0).beat ≠ 10000000 / 10000000 + 1 ∧ (s.dieSt 0).out = true ∧ (s.dieSt 4).out = true ∧ s.boot.silent = false
      ∧ s.now % 10000000 ≠ 0 ∧ ({ collectorFresh with beat := 2 } : Collector).beat = 10000000 / 10000000 + 1 ∧ s.mayRestart = true ∧ s.linkUp 5 0 = true
      ∧ max (readAt (fun _ => 0) (s.heath 0).lastReport 0) (max (s.dieSt 0).outAt (s.heath 0).upAt) + 25000000 < ({ s with now := 25000001 } : State).clock
      ∧ ({ s with now := 25000000 } : State).clock ≤ max (readAt (fun _ => 0) (s.heath 0).lastReport 0) (max (s.dieSt 0).outAt (s.heath 0).upAt) + 25000000
      ∧ s.drives 0 = true ∧ (s.dieSt 0).wire = false ∧ (s.dieSt 0).heldDown = false ∧ (s.dieSt 0).restartAt = none ∧ (s.dieSt 0).restarts = []
      ∧ (f.frecCopy 0).todo = [e] ∧ (f.frecCopy 0).entries.length < frecHalf
      ∧ s.covers 0 0 = true ∧ s.meadowUp 0 = true ∧ s.linkState 5 0 = 4 ∧ s.tileSt 0 0 3 < 2 ∧ bit (s.reg (aTil 0 0 3 0x44)) 31 = false
      ∧ s.reg (aTil 0 0 3 0x44 + 4) ≠ 2 ∧ (State.withRegs s [(aTil 0 0 3 0x48, 2), (aFdl 5 4 0, 6)]).reg (aTil 0 0 3 0x44 + 4) = 2
      ∧ (State.withRegs s [(aTil 0 0 3 0x48, 2), (aFdl 5 4 0, 6)]).valeLinked 0 = false := by
  decide

/-- R447, R487, R497: a Heath that is out of reset and down; its flash is empty, so that its ROM finds no image. -/
theorem test_heath_boot_premises :
    let s : State := { up with dies := [(5, { dieFresh with out := true })] }
    (s.heath 0).up = false ∧ (s.dieSt 5).out = true ∧ (s.romBoot (heathSlot 0) (s.heathRoot 0) true []).2.slot = none := by
  decide +kernel

/-! ## The page store and the planner -/

/-- R256, R259, R260, R265 to R268: a publication of a table for a context without layers, one beyond the contexts, one that waits, EVICT at the last
node and beyond it, a node that is not valid, one that is in use and one that is not; retired copies and frames in quarantine. -/
theorem test_page_request_premises :
    let ask := fun (arg : Nat) => State.withRegs (ringOp 0 0 2) [(aSch 0x864, arg), (aSch 0x868, 0), (aSch 0x840, 2), (aSch 0x838, 0x60000)]
    let pub := (ask 5).store 0x70000 [1]
    let odd := { (ask 5).store 0x70001 [1] with sched := { (ask 5).sched with ctxTable := [(5, [2, 2 ^ 48] ++ List.replicate 30 0)] } }
    let later := { pub with kv := { kvFresh with waitingPublish := some (5, 0x70000) } }
    let run := withThread (thread2 0 0)
    let glen := { cmdOf ([1, 0, 0, 0, 0, 0, 0, 0, 2 ^ 5] ++ List.replicate 7 0) with ctxs := [5] }
    let uses := running glen 0 []
    let held := fun (l : List CmdRef) => { run with kv := { kvFresh with retired := [⟨64, 5, l⟩], quarantine := [⟨9, l⟩] } }
    let valid := (ask 1).store (0x60000 + 64 + 40) [1]
    kvOpOk initSch = true ∧ bit (2 ^ 31 + 1) 31 = true ∧ bit ((ask 5).reg (aSch 0x860)) 31 = false ∧ bits (2 ^ 31 + 1) 3 0 = 1 ∧ bit (2 ^ 31 + 1) 4 = false
      ∧ (ask 5).kv.waitingPublish = none ∧ (ask 5).fld (aSch 0x864) 19 0 = 5 ∧ (ask 5).resident 5 = true ∧ (ask 5).appending 5 = false
      ∧ oneOf (pub.publishFails 5 0x70000) = 0 ∧ pub.walkStatus 0x70000 (ctxLayers (pub.ctx 5)) = 0 ∧ pub.resident 5 = true ∧ (((ask 5).store 0x70004 [1]).pdir 0x70000).mods ≠ ((ask 5).pdir (ctxRoot ((ask 5).ctx 5))).mods
      ∧ oneOf (odd.publishFails 5 0x70001) = 0 ∧ odd.walkStatus 0x70001 (ctxLayers (odd.ctx 5)) = 3 ∧ oneOf (later.publishFails 5 0x70000) = 0
      ∧ later.appending 5 = false ∧ later.walkStatus 0x70000 (ctxLayers (later.ctx 5)) = 0 ∧ later.resident 5 = true
      ∧ oneOf ((ask 4096).publishFails 4096 0) ≠ 0 ∧ uses.appending 5 = true ∧ bit (2 ^ 31 + 1 + 2 ^ 4) 4 = true
      ∧ ctxState ((ask 5).ctx 5) ≠ 0 ∧ ctxState ((ask 5).ctx 5) ≠ 5 ∧ bits (2 ^ 31 + 2) 3 0 = 2
      ∧ (ask 2).nodeMax ≤ 2 ∧ 1 < (ask 1).nodeMax ∧ (ask 1).nodeValid 1 = false ∧ valid.nodeValid 1 = true ∧ valid.nodeWord 1 3 = 0
      ∧ (valid.store (0x60000 + 64 + 24) [1]).nodeWord 1 3 ≠ 0 ∧ (valid.store (0x60000 + 64 + 24) [1]).nodeValid 1 = true ∧ kvOpOk initPcieA = false
      ∧ (held []).kv.retired.find? (fun y => decide (y.root = 64) && y.cmds.isEmpty) = some ⟨64, 5, []⟩
      ∧ (∀ y ∈ (held [⟨0, 0⟩]).kv.retired, y.root = 64 → y.cmds ≠ [])
      ∧ (held []).kv.quarantine.find? (fun y => decide (y.frame = 9) && y.cmds.isEmpty) = some ⟨9, []⟩ ∧ (held []).kvFree < 2 ^ 23 - 1 := by
  decide +kernel

/-- R295, R297, R298, R306 to R309: a CHECK of four candidates on Meadow 0 with a valid grid, and one on another; its ranking; a held range. -/
theorem test_planner_premises :
    let w := [2, 0, 0, 0, 0, 0, 0, 0, 1 + 2 ^ 2, 0x10000 + 4 * 2 ^ 48, 0x20000, 0x30000, 0x40000, 0, 0, 0]
    let c := { cmdOf w with engines := [⟨0, 0, 1, 0, 0⟩] }
    let s0 := running c 0 []
    let s := { s0 with prairie := { prairieFresh with epochs := [(0, 2 ^ 16 + 3)], held := [⟨0, 64, 64, [], []⟩] } }
    let done := { c with praDone := [(0, 4)] }
    praInvalOk initSch = true ∧ praInvalOk initPcieA = false ∧ s.praValid 0 0 = true ∧ s0.praValid 0 0 = false
      ∧ s.prairie.held.find? (fun y => decide (y.base = 64) && y.users.isEmpty && y.cmds.isEmpty) = some ⟨0, 64, 64, [], []⟩
      ∧ s.cmd cmd00 = some c ∧ c.phase = .running ∧ c.kind = 2 ∧ praOp w = 1 ∧ ((praCandsOf c 0).drop (praDoneOf c 0)).take 128 = [0, 1, 2, 3]
      ∧ s.valeGone 0 = false ∧ s.stacksTake = true ∧ (∃ e ∈ c.engines, e.die = 0 ∧ e.state = 1) ∧ praGridBit w = true ∧ praVoxBit w = false
      ∧ (∀ x ∈ [0, 1, 2, 3], s.walkRead (whoPra 0 cmd00) (praCand w + 576 * x) 576 = 0 ∧ s.access (whoPra 0 cmd00) true (praResults w + 16 * x) 16 = 0)
      ∧ (∀ x ∈ [0, 1, 2, 3], (s.checkCand w (s.checkEnv c 0) x).fault = 0) ∧ ((praCandsOf done 0).drop (praDoneOf done 0)).take 128 = []
      ∧ done.engines ≠ [] ∧ done.rankingDone = false ∧ praAllBatches done = true ∧ praAllBatches c = false := by
  decide +kernel

/-! ## Self-test, repair, freeze and debug -/

/-- Lea 0 of Meadow 0 with its control core up, the map of its tiles in order and LEA_STATUS `st`, at 100 ms. -/
def leaAt (x : LeaState) (st : Nat) : State :=
  { State.withRegs up ((aLea 0 0 0, st) :: (List.range 16).map fun n => (aLea 0 0 (0x40 + 4 * n), n)) with
    leas := [(0, { x with coreUp := true })], now := 100000000 }

/-- R460 to R463, R466: a rotation step with a free tile to test, with none, with a swap under way, and one not due; a self-test; rows with a
spare and without; a tile to be lost with 16 tiles and with 15. -/
theorem test_self_test_premises :
    let ready := 16 + 16 * 2 ^ 8
    let s := leaAt leaFresh ready
    let next := leaAt { leaFresh with testNext := [16] } ready
    let swap := State.withRegs s [(aLea 0 0 8, 2 ^ 31)]
    let tests := State.withRegs (leaAt { leaFresh with testing := some 2 } ready) [(aLea 0 0 8, 2 ^ 31)]
    let test := leaAt leaFresh (16 + 2 * 2 ^ 5 + 16 * 2 ^ 8)
    let mac := 0x10000
    let row := { State.withRegs s [(aTil 0 0 3 0, 3)] with repairs := [(8 * tileKey 0 0 3, 9), (mac, 9)] }
    let full := { row with rowsUsed := [(8 * tileKey 0 0 3, 4), (mac, 16)] }
    let lose := leaAt { leaFresh with losing := [3] } ready
    let lose15 := State.withRegs (leaAt { leaFresh with losing := [3] } (16 + 15 * 2 ^ 8)) [(aLea 0 0 0x7C, 0x1F)]
    let lost := State.withRegs lose [(aMdw 0 0x48, 1)]
    s.frozen = false ∧ (s.lea 0).coreUp = true ∧ s.now % 100000000 = 0 ∧ (s.lea 0).rotated ≠ s.now / 100000000 + 1 ∧ s.freeState 0 0 = 0
      ∧ s.freeTile 0 0 = 16 ∧ 16 ∈ (next.lea 0).testNext ∧ 16 ∉ (s.lea 0).testNext ∧ s.swapGo 0 0 = false ∧ s.testChoice 0 0 = some 0
      ∧ swap.swapGo 0 0 = true ∧ swap.testChoice 0 0 = some 0 ∧ (swap.lea 0).testing = none ∧ (tests.lea 0).testing ≠ none ∧ tests.swapGo 0 0 = true
      ∧ tests.testChoice 0 0 = some 0 ∧ up.now % 100000000 = 0 ∧ ({ s with now := 1 } : State).now % 100000000 ≠ 0
      ∧ test.freeTile 0 0 = 16 ∧ test.freeState 0 0 = 2 ∧ (test.lea 0).testAt ≤ test.tileEighths 0 ∧ (test.tile (tileKey 0 0 16)).noSpare = false ∧ test.tileRetired 0 0 16 = false
      ∧ (∀ m ∈ [8 * tileKey 0 0 3, mac], row.repairable m = true ∧ (m, 9) ∈ row.repairs ∧ (macroPlace m).1 < 4
          ∧ readAt (fun _ => 0) row.rowsUsed m < spareRows m ∧ spareRows m ≤ readAt (fun _ => 0) full.rowsUsed m)
      ∧ s.repairable (8 * tileKey 0 0 3) = false
      ∧ (lose.lea 0).losing = [3] ∧ lose.tileHeld 0 0 3 = false ∧ lose.mapTile 0 0 15 < 17 ∧ lose.tileHeld 0 0 (lose.mapTile 0 0 15) = false
      ∧ lose.fld (aLea 0 0 0) 12 8 ≠ 15 ∧ lose.mapTile 0 0 15 ≠ 3 ∧ lose.fld (aTil 0 0 3 0) 7 4 ≠ 15
      ∧ bit (lose.reg (aMdw 0 0x48)) 0 = false ∧ (lost.lea 0).losing = [3] ∧ bit (lost.reg (aMdw 0 0x48)) 0 = true ∧ lose15.mapTile 0 0 15 = 0x1F ∧ lose15.fld (aLea 0 0 0) 12 8 = 15 ∧ (s.lea 0).losing = [] := by
  decide

/-- R470 to R476, R559, R561: a module that may freeze, one that is frozen and may thaw, one that may not; SERVICE with a Heath linked and with
none; the debug port enabled and disabled. -/
theorem test_freeze_premises :
    let s := { State.withRegs (heathAt heathFresh 2) [(aVal 0x10, 4)] with boot := { bootFresh with phase := 3 } }
    let f := { State.withRegs s [(aVal 0x104, 1 + 2 ^ 6)] with power := { powerFresh with mainOk := true }, frozen := true }
    let none_ := State.withRegs s [(aFdl 5 4 0, 6)]
    s.frozen = false ∧ s.boot.phase ≠ 0 ∧ s.mode = 4 ∧ bit 1 0 = true ∧ (s.heath 0).up = true ∧ s.valeLinked 0 = true ∧ (s.heath 1).up = false
      ∧ s.role 0 = 2 ∧ (∀ k < 2, ¬ ((none_.heath k).up = true ∧ none_.valeLinked k = true)) ∧ initSch ≠ initSec
      ∧ f.frozen = true ∧ f.power.mainOk = true ∧ bit (f.reg (aVal 0x104)) 6 = true ∧ f.chainOpen = false
      ∧ (State.withRegs f [(aVal 0x104, 1)]).frozen = true ∧ bit ((State.withRegs f [(aVal 0x104, 1)]).reg (aVal 0x104)) 6 = false
      ∧ s.power.mainOk = true ∧ s.debugEnabled = true ∧ placeOf (aSch 0) = some (.block .sch, aSch 0, 0x10000) ∧ up.debugEnabled = false := by
  decide

/-- R487, R488, R491, R498 to R501: the phases of the start, a processor that runs, crashes and loops, and the limits of time. -/
theorem test_start_phase_premises :
    let rom := { up with boot := { bootFresh with phase := 1 } }
    let sec := { State.withRegs up [(aSec 0, 1)] with boot := { bootFresh with phase := 2 } }
    let s := { State.withRegs up [(aSec 0, 1), (aFdl 0 2 0, 4), (aVal 0x18, 0x80)] with now := 10000000000 }
    let p := { s with procs := [(1, { procFresh with st := 1 })] }
    let looped := { s with procs := [(1, { procFresh with st := 1, crashes := [1, 2, 3] })] }
    let down := { s with procs := [(1, { procFresh with st := 2, cause := 1 })] }
    let recent := fun (s : State) => (s.proc 1).crashes.filter fun t => decide (s.now ≤ t + 60000000000)
    rom.boot.phase = 1 ∧ (rom.romBoot valeSlot rom.valeRoot false []).2.slot = none ∧ up.boot.phase ≠ 1 ∧ sec.boot.phase = 2 ∧ sec.secRunning = true
      ∧ cfgHeaderOk (sec.componentBytes (sec.proc 0).slot 5) = false ∧ s.boot.phase = 3 ∧ s.secRunning = true ∧ s.linkUp 0 2 = true
      ∧ (s.proc (leaCode 0 0)).st = 0 ∧ (State.withRegs s [(aFdl 0 2 0, 6)]).linkUp 0 2 = false ∧ s.boot.m6 = false ∧ s.boot.startAt + 1000000000 < s.now ∧ s.heathMeasure 0 = none ∧ ({ s with now := 1000000000 } : State).now ≤ s.boot.startAt + 1000000000 ∧ s.boot.log.length + 2 ≤ 1024
      ∧ s.boot.settled = false ∧ bit (s.reg (aVal 0x18)) 7 = true ∧ (∀ e ∈ p.procs, e.2.st ≠ 3) ∧ s.boot.loadedAt + 10000000000 ≤ s.now
      ∧ ({ s with now := 9999999999 } : State).now < s.boot.loadedAt + 10000000000
      ∧ codeOk 1 = true ∧ codeOk 0x7F = true ∧ codeOk 0x80 = false ∧ codeOk 3 = false ∧ (p.proc 1).st = 1 ∧ (recent p).length < 3 ∧ 3 ≤ (recent looped).length
      ∧ (down.proc 1).st = 2 ∧ down.secRunning = true ∧ (down.proc 1).reload = false ∧ (down.proc 1).cause ≤ 4 ∧ (p.proc 1).st ≠ 2 := by
  decide +kernel

/-! ## Attestation and service -/

/-- R494 to R496: a request of each kind in its order, one out of its order, one of SPDM 1.0, and a security core that does not run. -/
theorem test_attestation_premises :
    let s := State.withRegs up [(aSec 0, 1)]
    let at_ := fun (n : Nat) => { s with boot := { s.boot with spdm := [(0, { spdmFresh with step := n })] } }
    let req := fun (code : Byte) (rest : List Byte) => [0x12, code] ++ rest
    let algs := req 0xE3 ([0, 0, 0, 0, 0, 0, 0x10, 0, 0, 0, 1, 0, 0, 0] ++ List.replicate 16 0)
    s.frozen = false ∧ 2 ≤ s.boot.phase ∧ s.boot.phase ≠ 4 ∧ s.secRunning = true ∧ up.secRunning = false ∧ (∀ n ∈ [0, 1, 2, 3], ((at_ n).spdm 0).step = n)
      ∧ hdr [0x10, 0x84, 0, 0] 0 1 = 0x10 ∧ hdr [0x10, 0x84, 0, 0] 1 1 = 0x84 ∧ (∀ c ∈ [0xE1, 0xE3, 0x81, 0x82, 0x83, 0xE0], ∃ b, hdr (req b []) 0 1 = 0x12 ∧ hdr (req b []) 1 1 = c)
      ∧ bit (hdr algs 8 4) 4 = true ∧ bit (hdr algs 12 4) 0 = true ∧ hdr (req 0x82 [0, 0, 0, 0, 0, 4]) 2 1 % 16 = 0
      ∧ hdr (req 0x82 [0, 0, 0, 0, 0, 4]) 4 2 < (s.certChain).length ∧ 36 ≤ (req 0x83 (List.replicate 34 0)).length ∧ hdr (req 0x83 (List.replicate 34 0)) 2 1 = 0
      ∧ hdr (req 0x83 (List.replicate 34 0)) 3 1 = 0 ∧ hdr (req 0xE0 [0, 8]) 3 1 = (7 : Fin 8).val + 1 ∧ bit (hdr (req 0xE0 [0, 8]) 2 1) 0 = false := by
  refine ⟨by decide, by decide, by decide, by decide, by decide, by decide, by decide, by decide, ?_, by decide, by decide, by decide, by decide +kernel, by decide,
    by decide, by decide, by decide, by decide⟩
  intro c hc
  exact ⟨BitVec.ofNat 8 c, by revert c; decide, by revert c; decide⟩

/-- Mailbox 0 with a request of operation `op`, argument `arg` and `len` bytes at 0x10000. -/
def boxed (op arg len : Nat) : State :=
  State.withRegs upD [(aSec 0, 1), (aBox 0 0, 2 ^ 31 + op + arg * 2 ^ 4), (aBox 0 8, 0x10000), (aBox 0 0x10, len)]

/-- R502 to R506: each operation in its turn, a range that is not aligned, slots and counters of each kind, and a request that has ended. -/
theorem test_service_premises :
    let s := boxed 1 0 4096
    let heaths : State := { State.withRegs (boxed 5 0 0) [(aFdl 5 4 0, 4), (aFdl 6 4 0, 4), (aHt 0 0x10, 2), (aHt 1 0x10, 1)] with
      heaths := [(0, { heathFresh with up := true }), (1, { heathFresh with up := true })] }
    let going := fun (n : Nat) => { heaths with boot := { heaths.boot with serving := some (0, 0, 0), heathNext := some n } }
    let keys := State.withRegs (boxed 8 1 0) [(aSec 0x18, 3)]
    s.frozen = false ∧ (∀ op ∈ [1, 2, 3, 4, 5, 6, 7, 8], (boxed op 0 4096).serves 0 op = true) ∧ oneOf (s.stageFails 0 0x1000000) = 0
      ∧ oneOf ((boxed 1 0 1).stageFails 0 0x1000000) ≠ 0 ∧ s.heathAnswers 0 = false ∧ heaths.heathAnswers 0 = true
      ∧ oneOf ((boxed 4 0 4096).stageFails 0 0x400000) = 0 ∧ (boxed 2 0 0).boot.serving = none ∧ (boxed 2 0 0).mayActivate 1 = false
      ∧ (going 0).serves 0 5 = true ∧ (going 0).heathReturned 1 = true ∧ (going 2).heathReturned 0 = true
      ∧ upD.reg (aDmc 3 0x0C) = 0 ∧ (boxed 2 0 0).mayActivate 0 = false ∧ oneOf ((boxed 6 0 4096).rangeFails 0) = 0 ∧ (boxed 6 0 4096).fld (aBox 0 0x18) 26 0 % 2 ^ 26 + 4096 ≤ 0x4000000 ∧ (boxed 6 3 0).boxArg 0 = 3
      ∧ 64 * (boxed 7 0 4096).boot.log.length ≤ 4096 ∧ (∀ e ∈ (boxed 7 0 4096).boot.log, e.length = 64)
      ∧ keys.boxArg 0 = 1 ∧ bit (keys.reg (aSec 0x18)) 1 = true ∧ 1 ≠ keys.fld (aSec 4) 13 12 ∧ bit ((boxed 8 1 0).reg (aSec 0x18)) 1 = false
      ∧ up.serves 0 1 = false := by
  decide +kernel

/-! ## Host ports and register writes -/

/-- R562, R566, R571, R572: port A up, and down but free to train; port B up, down and free to train; ports that may not train. -/
theorem test_host_link_premises :
    let a := State.withRegs up [(aVal 0x200, 1), (aVal 0x220, 2), (aVal 0x18, 0x88)]
    let b := State.withRegs a [(aVal 0x208, 1), (aVal 0x200, 0)]
    a.frozen = false ∧ a.pciaUp = true ∧ a.pciaMayTrain = true ∧ b.pciaUp = false ∧ b.pciaMayTrain = true ∧ a.pcibMayTrain = true
      ∧ a.fld (aVal 0x208) 0 0 = 0 ∧ b.fld (aVal 0x208) 0 0 = 1 ∧ (State.withRegs a [(aVal 0x220, 0)]).pciaMayTrain = false ∧ up.pcibMayTrain = false
      ∧ 1 ≤ (5 : Fin 8).val ∧ (5 : Fin 8).val ≤ 5 ∧ (8 : Fin 16).val ∈ [1, 2, 4, 8] ∧ (16 : Nat) ∉ [1, 2, 4, 8] ∧ a.host.sgmii.length = 2 := by
  decide

/-- R563 to R566: requests inside and outside the BARs, at the MSI-X table, and with Memory Space Enable 0; vectors that may and may not send, at the limit of
2 µs; a completion timeout with and without a command at port B. -/
theorem test_host_request_premises :
    let s := { State.withRegs up [(aVal 0x200, 1 + 2 ^ 10 + 2 ^ 11)] with
      host := { hostPortsFresh with bar0 := 0x10000000, bar2 := 0x1000000000, msixEnable := true, msixDue := 1, msixTable := [(3, 0)], msixSent := [(0, 1)] }, now := 2000 }
    let refresh := State.withRegs s [(aDmc 0 0, 3), (aDmc 1 0, 3), (aDmc 2 0, 3), (aDmc 3 0, 3)]
    let shut := { s with fwRules := [] }
    let c := { cmdOf (4 :: List.replicate 7 0 ++ [2 * 4] ++ List.replicate 7 0) with engines := [⟨4, 0, 1, 0, 0⟩] }
    let atB := fun (c : Cmd) => decide (c.kind = 4) && decide (ckDest c.words = 2)
    s.frozen = false ∧ s.pciaUp = true ∧ s.pciaTakes = true ∧ s.barAddr 0x10000000 1 = some valeBase ∧ s.msixByte valeBase = none
      ∧ s.barAddr 0x1FFFFFFF 1 = some (valeBase + 0xFFFFFFF) ∧ s.barAddr 0x1FFFFFFFFF 1 = some 0xFFFFFFFFF ∧ s.barAddr 0x1FFFFFFF 2 = none ∧ s.barAddr 0x2000000000 1 = none ∧ s.barAddr 0 1 = none
      ∧ (s.barAddr 0x1000000000 1 = some 0 ∧ s.dramTakes 4 false 0 1 = true ∧ s.dramTakes 4 true 0 512 = true ∧ refresh.dramTakes 4 false 0 1 = false
        ∧ refresh.dramTakes 4 true 0 512 = false) ∧ s.dramTakes 4 false valeBase 4096 = true ∧ s.msixByte 0 = none
      ∧ (shut.read (whoIs initPcieA) 0 1).1 = 4 ∧ (shut.write (whoIs initPcieA) 0 [1]).1 = 4
      ∧ (State.withRegs s [(aVal 0x200, 1)]).pciaTakes = false ∧ up.pciaUp = false ∧ bit s.host.msixDue 0 = true ∧ s.msixMay 0 = true
      ∧ readAt (fun _ => 0) s.host.msixSent 0 + 2000 ≤ s.now + 1 ∧ ({ s with now := 1999 } : State).now + 1 < 1 + 2000 ∧ s.msixMay 1 = false
      ∧ s.inFlight.filter atB = [] ∧ (running c 0 []).inFlight.filter atB = [c] ∧ (running c 0 []).cmd c.ref = some c ∧ c.phase = .running ∧ c.due = false
      ∧ (running c 0 []).workDies c = [] ∧ (State.withRegs up [(aVal 0x208, 1)]).fld (aVal 0x208) 0 0 = 1 := by
  decide +kernel

/-- R10, R12, R219, R246, R315, R344, R367, R387, R416, R502, R534: who writes: a Heath, the security core, a lea's own control core, another; each register
that a write is stored in, at its address. -/
theorem test_register_write_premises :
    isHeath (initHeath 0) = true ∧ isHeath initSch = false ∧ (⟨0, 0⟩ : PortId).ok = true ∧ initCol = boxOwner 1 ∧ initSch ≠ boxOwner 0
      ∧ bit (up.reg (aBox 0 0)) 31 = false ∧ (∃ a : Addr, a.toNat = aBox 0 8) ∧ initCol = ringOwner 1 ∧ up.ringEn 1 = false ∧ (ringUp []).ringEn 1 = true
      ∧ (∃ a : Addr, a.toNat = aRing 1 0x10) ∧ up.meadowUp 3 = true ∧ State.reset.meadowUp 3 = false ∧ (∃ a : Addr, a.toNat = aDmc 3 0x1C)
      ∧ (∃ a : Addr, a.toNat = aPwr 0xFFFF) := by
  refine ⟨by decide, by decide, by decide, by decide, by decide, by decide, ⟨BitVec.ofNat 48 (aBox 0 8), by decide⟩, by decide, by decide, by decide +kernel,
    ⟨BitVec.ofNat 48 (aRing 1 0x10), by decide⟩, by decide, by decide, ⟨BitVec.ofNat 48 (aDmc 3 0x1C), by decide⟩, ⟨BitVec.ofNat 48 (aPwr 0xFFFF), by decide⟩⟩

/-- R12: an undefined offset of the SCH block, an address outside every block, a register that its block keeps from the initiator, and lines of DRAM
that no firewall rule admits. -/
theorem test_offset_premises :
    let a := aSch 0xFF00
    placeOf a = some (.block .sch, aSch 0, 0x10000) ∧ up.targetUp a = true ∧ a % 4 = 0 ∧ (∀ i < 4, regAt (a + i) = none) ∧ writeOnly .sch (a - aSch 0) = false
      ∧ up.access (whoIs initSec) false a 4 = 0 ∧ up.readPoison a 4 = false ∧ placeOf (2 ^ 47) = none
      ∧ (regAt (aRing 1 0x20)).any (fun r => decide (r.2 = aRing 1 0x20) && decide (aRing 1 0x20 + r.1.bytes ≤ aSch 0 + 0x10000)) = true
      ∧ up.regMay (whoIs initSch).init .sch (aRing 1 0x20 - aSch 0) = false
      ∧ placeOf 0 = some (.dram, 0, 0x001000000000)
      ∧ (∃ x ∈ linesOf 0 64, ∀ k, ({ up with fwRules := [] } : State).fwAdmits k (whoIs initSch) true x = false)
      ∧ (∃ x ∈ linesOf 0 64, ∀ k, ({ up with fwRules := [] } : State).fwAdmits k (whoIs initSch) false x = false) := by
  refine ⟨by decide, by decide, by decide, by decide, by decide, by decide, by decide, by decide, by decide, by decide,
    by decide, ⟨0, by decide, fun _ => rfl⟩, ⟨0, by decide, fun _ => rfl⟩⟩

/-! ## The module fabric -/

/-- The substitution gives bytes. -/
theorem aesS_lt (a : Nat) : aesS a < 256 := by
  have h : ∀ x ∈ aesTable, x < 256 := by decide +kernel
  unfold aesS
  rw [List.getD_eq_getElem?_getD]
  by_cases ha : a < aesTable.length
  · rw [List.getElem?_eq_getElem ha]; exact h _ (List.getElem_mem ha)
  · rw [List.getElem?_eq_none (by omega)]; decide

/-- The round keys of the zero key. -/
def zeroKeys : List (List Nat) := aesKeys (keyBytes 0)

/-- The last round key has 16 bytes. -/
theorem zeroKeys_last : (zeroKeys.getD 14 []).length = 16 ∧ ∀ x ∈ zeroKeys.getD 14 [], x < 256 := by
  decide +kernel

/-- An exclusive or of bytes is bytes. -/
theorem xorBytes_lt {a b : List Nat} (ha : ∀ x ∈ a, x < 256) (hb : ∀ x ∈ b, x < 256) : ∀ x ∈ xorBytes a b, x < 256 := by
  intro x hx
  obtain ⟨i, hi, rfl⟩ := List.mem_iff_getElem.mp hx
  simp only [xorBytes, List.getElem_zipWith]
  exact Nat.xor_lt_two_pow (n := 8) (ha _ (List.getElem_mem _)) (hb _ (List.getElem_mem _))

/-- A block under the zero key has 16 bytes. -/
theorem zeroKeys_encrypt (b : List Nat) : (aesEncrypt zeroKeys b).length = 16 ∧ ∀ x ∈ aesEncrypt zeroKeys b, x < 256 := by
  simp only [aesEncrypt]
  refine ⟨?_, xorBytes_lt ?_ zeroKeys_last.2⟩
  · have h := zeroKeys_last.1
    rw [List.getD_eq_getElem?_getD] at h
    simp [xorBytes, aesShift, h]
  · intro x hx
    simp only [aesShift, List.mem_map] at hx
    obtain ⟨i, -, rfl⟩ := hx
    generalize List.foldl _ _ _ = z
    rw [List.getD_eq_getElem?_getD, List.getElem?_map]
    cases z[(i + 4 * (i % 4)) % 16]? with
    | none => decide
    | some y => exact aesS_lt y

/-- A tag under the zero key has 16 bytes. -/
theorem zeroKeys_tag (n a c : List Nat) : (gcmTag zeroKeys n a c).length = 16 ∧ ∀ x ∈ gcmTag zeroKeys n a c, x < 256 := by
  simp only [gcmTag]
  refine ⟨?_, xorBytes_lt ?_ (zeroKeys_encrypt _).2⟩
  · simp [xorBytes, (zeroKeys_encrypt _).1, bytesOf, beBytes]
  · intro x hx
    simp only [bytesOf, List.mem_map] at hx
    obtain ⟨y, -, rfl⟩ := hx
    exact y.isLt

/-- The payload of a frame opened under the zero key has its length. -/
theorem zeroKeys_ctr (nonce : List Nat) (n c : Nat) (l : List Nat) (h : l.length ≤ 16 * n) : (gcmCtr zeroKeys nonce n c l).length = l.length := by
  induction n generalizing c l with
  | zero => have : l = [] := List.length_eq_zero_iff.mp (by omega); subst this; rfl
  | succ n ih =>
    simp only [gcmCtr]
    split
    · next he => have : l = [] := List.isEmpty_iff.mp he; subst this; rfl
    · rw [List.length_append, ih _ _ (by simp; omega)]
      simp [xorBytes, (zeroKeys_encrypt _).1]; omega

/-- A frame with the header words `a` to `d` and the ciphertext `ct`, sealed under the zero key. -/
def sealedFrame (a b c d : Nat) (ct : List Byte) : List Byte :=
  let f : ColFrame := ⟨a, b, c, d, ct, 0⟩
  wordBytes [a, b, c, d] ++ ct ++ (gcmTag zeroKeys (colNonce f.src f.w1) (colAad f) (ct.map (·.toNat))).map (BitVec.ofNat 8)

/-- What the wire bytes of such a frame spell. -/
theorem sealedFrame_parse (a b c d : Nat) (ct : List Byte) (ha : a < 2 ^ 64) (hb : b < 2 ^ 64) (hc : c < 2 ^ 64) (hd : d < 2 ^ 64) :
    (sealedFrame a b c d ct).length = 48 + ct.length ∧ colParse 0 (sealedFrame a b c d ct) = ⟨a, b, c, d, ct, 0⟩
      ∧ ((sealedFrame a b c d ct).drop ((sealedFrame a b c d ct).length - 16)).map (·.toNat)
        = gcmTag zeroKeys (colNonce (ColFrame.src ⟨a, b, c, d, ct, 0⟩) b) (colAad ⟨a, b, c, d, ct, 0⟩) (ct.map (·.toNat)) := by
  have ht := zeroKeys_tag (colNonce (ColFrame.src ⟨a, b, c, d, ct, 0⟩) b) (colAad ⟨a, b, c, d, ct, 0⟩) (ct.map (·.toNat))
  have e : sealedFrame a b c d ct = leBytes 8 a ++ (leBytes 8 b ++ (leBytes 8 c ++ (leBytes 8 d ++ (ct ++
      (gcmTag zeroKeys (colNonce (ColFrame.src ⟨a, b, c, d, ct, 0⟩) b) (colAad ⟨a, b, c, d, ct, 0⟩) (ct.map (·.toNat))).map (BitVec.ofNat 8))))) := by
    simp [sealedFrame, wordBytes]
  generalize gcmTag zeroKeys (colNonce (ColFrame.src ⟨a, b, c, d, ct, 0⟩) b) (colAad ⟨a, b, c, d, ct, 0⟩) (ct.map (·.toNat)) = t at ht e
  have hl : (sealedFrame a b c d ct).length = 48 + ct.length := by rw [e]; simp [ht.1]; omega
  have p : ∀ (k : Nat) (u v : List Byte), u.length = k → (u ++ v).drop k = v := fun k u v h => by subst h; exact List.drop_left
  have w0 : (sealedFrame a b c d ct).take 8 = leBytes 8 a := by rw [e]; exact List.take_left' (by simp)
  have d8 : (sealedFrame a b c d ct).drop 8 = leBytes 8 b ++ (leBytes 8 c ++ (leBytes 8 d ++ (ct ++ (t.map (BitVec.ofNat 8))))) := by rw [e]; exact p 8 _ _ (by simp)
  have n8 : ∀ x, x < 2 ^ 64 → leNat (leBytes 8 x) = x := fun x h => by rw [leNat_leBytes]; exact Nat.mod_eq_of_lt h
  have d16 : (sealedFrame a b c d ct).drop 16 = leBytes 8 c ++ (leBytes 8 d ++ (ct ++ (t.map (BitVec.ofNat 8)))) := by
    rw [show 16 = 8 + 8 from rfl, ← List.drop_drop, d8]; exact p 8 _ _ (by simp)
  have d24 : (sealedFrame a b c d ct).drop 24 = leBytes 8 d ++ (ct ++ (t.map (BitVec.ofNat 8))) := by
    rw [show 24 = 16 + 8 from rfl, ← List.drop_drop, d16]; exact p 8 _ _ (by simp)
  have d32 : (sealedFrame a b c d ct).drop 32 = ct ++ (t.map (BitVec.ofNat 8)) := by
    rw [show 32 = 24 + 8 from rfl, ← List.drop_drop, d24]; exact p 8 _ _ (by simp)
  refine ⟨hl, ?_, ?_⟩
  · simp only [colParse, hl, d8, d16, d24, d32, w0, List.drop_zero, Nat.mul_zero, Nat.mul_one, show 8 * 2 = 16 from rfl, show 8 * 3 = 24 from rfl]
    rw [List.take_left' (by simp), List.take_left' (by simp), List.take_left' (by simp), List.take_left' (by omega), n8 a ha, n8 b hb, n8 c hc, n8 d hd]
  · rw [hl, show 48 + ct.length - 16 = 32 + ct.length by omega, ← List.drop_drop, d32, p _ ct _ rfl, List.map_map]
    conv => rhs; rw [← List.map_id t]
    refine List.map_congr_left fun x hx => ?_
    simp [Nat.mod_eq_of_lt (ht.2 x hx)]

/-- A module in the fabric: address 5, port 0 UP with the neighbour 7 behind it, the zero key current, the scheduler core running. -/
def fab : State :=
  { State.withRegs up [(aColPort 0 0, 3 + 7 * 2 ^ 6 + 2 ^ 18), (aCol 0, 2 ^ 12 + 5 + 2 * 2 ^ 13)] with
    col := { colFresh with keys := [some ⟨0, 0, none⟩, none, none, none], cur := some 0 } }

/-- The header word 0 of a frame of a type and CLASS 7 from 7 to 5 with `n` lines under key 0. -/
def word0 (type n : Nat) : Nat := 5 + 7 * 2 ^ 12 + type * 2 ^ 24 + 4 * 2 ^ 28 + 7 * 2 ^ 36 + n * 2 ^ 39 + 2 ^ 46

/-- R515, R518: a sealed frame is taken by a module with the zero key at slot 0, where its layout holds and its SEQ is new. -/
theorem taken (s : State) (type : Nat) (any : Bool) (a b c d : Nat) (ct : List Byte) (ha : a < 2 ^ 64) (hb : b < 2 ^ 64) (hc : c < 2 ^ 64) (hd : d < 2 ^ 64)
    (hs : s.colState 0 = 3) (hk : s.colKey 0 = some ⟨0, 0, none⟩) (hn : s.seqNew ⟨a, b, c, d, ct, 0⟩ = true)
    (ho : any = true ∨ s.ownAddr = some (bits a 11 0)) (ht : bits a 27 24 = type) (hr : colTypeOk ⟨a, b, c, d, ct, 0⟩ = true)
    (hf : bit a 46 = true ∧ bits a 48 47 = 0 ∧ bits a 63 52 = 0 ∧ bits c 63 58 = 0 ∧ bits d 63 28 = 0)
    (hl : bits a 45 39 ≤ 64 ∧ ct.length = 64 * (if type = 1 then 0 else bits a 45 39)) :
    ∃ pt : List Byte, pt.length = ct.length ∧ s.colTake 0 (sealedFrame a b c d ct) type any
      = ((({ s with col := { s.col with sent := [] } }).seqTake ⟨a, b, c, d, ct, 0⟩).updCol fun c => { c with authBad := none }, some ⟨a, b, c, d, pt, 0⟩) := by
  obtain ⟨h1, h2, h3⟩ := sealedFrame_parse a b c d ct ha hb hc hd
  refine ⟨(gcmCtr zeroKeys (colNonce (ColFrame.src ⟨a, b, c, d, ct, 0⟩) b) ((ct.map (·.toNat)).length / 16 + 1) 2 (ct.map (·.toNat))).map (BitVec.ofNat 8), ?_, ?_⟩
  · rw [List.length_map, zeroKeys_ctr _ _ _ _ (by simp; omega), List.length_map]
  · subst ht
    have lay : colLayoutOk (⟨a, b, c, d, ct, 0⟩ : ColFrame) (sealedFrame a b c d ct) = true := by
      have q1 : (ColFrame.mk a b c d ct 0).type = bits a 27 24 := rfl
      have q2 : (ColFrame.mk a b c d ct 0).lines = bits a 45 39 := rfl
      have q3 : (ColFrame.mk a b c d ct 0).enc = true := hf.1
      unfold colLayoutOk ColFrame.payloadLines
      simp only [h1, q1, q2, q3, hr, hf, Bool.true_or, Bool.and_true, Bool.and_eq_true, decide_eq_true_eq, and_true]
      exact ⟨⟨by omega, hl.1⟩, by rw [hl.2]⟩
    have e1 : (ColFrame.mk a b c d ct 0).enc = true := hf.1
    have e2 : (ColFrame.mk a b c d ct 0).keyIdx = 0 := hf.2.1
    have e3 : (ColFrame.mk a b c d ct 0).type = bits a 27 24 := rfl
    unfold State.colTake State.updCol
    simp only [h2, h3, lay, e1, e2, e3]
    have k : ({ s with col := { s.col with sent := [] } } : State).colKey 0 = some ⟨0, 0, none⟩ := hk
    have st : ({ s with col := { s.col with sent := [] } } : State).colState 0 = 3 := hs
    have n : ({ s with col := { s.col with sent := [] } } : State).seqNew ⟨a, b, c, d, ct, 0⟩ = true := hn
    have o : ¬ (bits a 27 24 ≠ bits a 27 24 ∨ (!any && decide (({ s with col := { s.col with sent := [] } } : State).ownAddr ≠ some (ColFrame.mk a b c d ct 0).dst)) = true) := by
      rcases ho with ho | ho
      · simp [ho]
      · have : ({ s with col := { s.col with sent := [] } } : State).ownAddr = some (ColFrame.mk a b c d ct 0).dst := ho
        simp [this]
    rw [if_neg (by simp [st, colUp]), if_neg (by simp), if_neg o, if_neg (by simp), k]
    have g : gcmOpen (keyBytes 0) (colNonce (ColFrame.src ⟨a, b, c, d, ct, 0⟩) b) (colAad ⟨a, b, c, d, ct, 0⟩) (ct.map (·.toNat))
        (gcmTag zeroKeys (colNonce (ColFrame.src ⟨a, b, c, d, ct, 0⟩) b) (colAad ⟨a, b, c, d, ct, 0⟩) (ct.map (·.toNat)))
        = some (gcmCtr zeroKeys (colNonce (ColFrame.src ⟨a, b, c, d, ct, 0⟩) b) ((ct.map (·.toNat)).length / 16 + 1) 2 (ct.map (·.toNat))) := by
      simp only [gcmOpen, zeroKeys, if_true]
    simp only [g]
    rw [if_neg (by simp [n])]

/-- What such a frame opens to. -/
theorem opened (a b c d : Nat) (ct : List Byte) (ha : a < 2 ^ 64) (hb : b < 2 ^ 64) (hc : c < 2 ^ 64) (hd : d < 2 ^ 64) :
    ∃ pt, gcmOpen (keyBytes 0) (colNonce (colParse 0 (sealedFrame a b c d ct)).src (colParse 0 (sealedFrame a b c d ct)).w1)
      (colAad (colParse 0 (sealedFrame a b c d ct))) ((colParse 0 (sealedFrame a b c d ct)).data.map (·.toNat))
      (((sealedFrame a b c d ct).drop ((sealedFrame a b c d ct).length - 16)).map (·.toNat)) = some pt := by
  obtain ⟨-, h2, h3⟩ := sealedFrame_parse a b c d ct ha hb hc hd
  rw [h2, h3]
  simp only [gcmOpen, zeroKeys, if_true]
  exact ⟨_, rfl⟩

/-- One of two tags is wrong. -/
theorem wrong_tag (key n a c : List Nat) : ∃ t : Nat, t < 2 ∧ gcmOpen key n a c (List.replicate 16 t) = none := by
  by_cases h : gcmTag (aesKeys key) n a c = List.replicate 16 0
  · exact ⟨1, by decide, by simp only [gcmOpen, h]; rfl⟩
  · exact ⟨0, by decide, by simp only [gcmOpen, if_neg h]⟩

/-- That module with routes by port 0 to 7 and to 9, an export region of 4 KiB at 0x10000, the registers `l`, and `x` done to the rest of its
fabric. -/
def fabX (l : List (Nat × Nat)) (x : Col → Col) : State :=
  let s := State.withRegs fab ([(aCol (0x1000 + 14), 0), (aCol (0x1000 + 18), 0), (aCol 0x20, 0x10000), (aCol 0x28, 0x1000), (aDmc 0 0, 2)] ++ l)
  { s with col := x s.col, now := 4000000 }

/-- R515 to R518: a frame for this module is taken by it. -/
theorem takenX (l : List (Nat × Nat)) (x : Col → Col) (type n c d : Nat) (any : Bool) (h3 : (fabX l x).colState 0 = 3)
    (hk : (fabX l x).colKey 0 = some ⟨0, 0, none⟩) (hs : (fabX l x).col.seen = []) (ho : any = true ∨ (fabX l x).ownAddr = some 5)
    (ht : colTypes.contains type = true ∧ type ≠ 8 ∧ type ≠ 11 ∧ (type ≠ 10 ∨ 1 ≤ bits d 27 20 ∧ bits d 27 20 ≤ 16)) (hn : n ≤ 64) (hc : c < 2 ^ 58) (hd : d < 2 ^ 28) :
    ∃ (frame pt : List Byte), pt.length = 64 * (if type = 1 then 0 else n) ∧ (colParse 0 frame).w3 = d
      ∧ (fabX l x).colTake 0 frame type any
        = (((({ fabX l x with col := { (fabX l x).col with sent := [] } }).seqTake
            ⟨word0 type n, 1, c, d, List.replicate (64 * (if type = 1 then 0 else n)) 0, 0⟩).updCol fun c => { c with authBad := none }),
          some ⟨word0 type n, 1, c, d, pt, 0⟩) := by
  have h12 : type < 12 := by
    have := ht.1
    simp only [colTypes, List.contains_iff_mem, List.mem_cons, List.not_mem_nil, or_false] at this
    omega
  have hb : ∀ v hi lo : Nat, v < 2 ^ lo → bits v hi lo = 0 := fun v hi lo h => by
    simp only [bits, Nat.shiftRight_eq_div_pow, Nat.div_eq_of_lt h, Nat.zero_mod]
  have e : ∀ hi lo, bits (word0 type n) hi lo = word0 type n / 2 ^ lo % 2 ^ (hi + 1 - lo) := fun hi lo => by
    simp only [bits, Nat.shiftRight_eq_div_pow]
  have t1 : bits (word0 type n) 27 24 = type := by rw [e]; unfold word0; omega
  have t2 : bits (word0 type n) 45 39 = n := by rw [e]; unfold word0; omega
  have t3 : bits (word0 type n) 11 0 = 5 := by rw [e]; unfold word0; omega
  have t4 : bits (word0 type n) 48 47 = 0 := by rw [e]; unfold word0; omega
  have t5 : bits (word0 type n) 63 52 = 0 := by rw [e]; unfold word0; omega
  have t6 : bit (word0 type n) 46 = true := by
    simp only [bit, Nat.testBit_eq_decide_div_mod_eq, decide_eq_true_eq]; unfold word0; omega
  have t7 : bits (word0 type n) 38 36 = 7 := by rw [e]; unfold word0; omega
  have hk8 : colTypeOk ⟨word0 type n, 1, c, d, List.replicate (64 * (if type = 1 then 0 else n)) 0, 0⟩ = true := by
    obtain ⟨q1, q2, q3, q4⟩ := ht
    simp [colTypeOk, ColFrame.type, ColFrame.sub, ColFrame.cls, ColFrame.enc, t1, t7, q2, q3]
    exact ⟨by simpa using q1, q4.imp id fun h => ⟨decide_eq_true h.1, decide_eq_true h.2⟩⟩
  have hl : word0 type n < 2 ^ 64 := by unfold word0; omega
  obtain ⟨pt, h1, h2⟩ := taken (fabX l x) type any (word0 type n) 1 c d (List.replicate (64 * (if type = 1 then 0 else n)) 0) hl (by decide) (by omega) (by omega)
    h3 hk (by unfold State.seqNew; rw [hs]; rfl) (by rw [t3]; exact ho) t1 hk8 ⟨t6, t4, t5, hb _ _ _ hc, hb _ _ _ hd⟩ ⟨by omega, by rw [t2]; simp⟩
  exact ⟨_, pt, by rw [h1]; simp, by rw [(sealedFrame_parse _ _ _ _ _ hl (by decide) (by omega) (by omega)).2.1], h2⟩

/-- A request that a frame answers. -/
theorem remoteOf_of {u : State} {f : ColFrame} {r : RemoteReq} {wr : Bool} (h : u.col.reqs = [r]) (h1 : r.tag = f.rtag) (h2 : r.dst = f.src)
    (h3 : r.wr = wr) : u.remoteOf f wr = some r := by
  simp [State.remoteOf, h, h1, h2, h3]

/-- A request to 7 under tag 3 for the line at its offset 0, sent at 2 ms. -/
def remote3 (wr : Bool) : RemoteReq := ⟨3, 7, wr, tkey slot0, 0x41C000000000, 64, 1, 2000000⟩

/-- R516, R526 to R528: frames of each type taken, with a request to answer and without; a request unanswered for 2 ms; a busy group. -/
theorem test_fabric_access_premises :
    let r := remote3 false
    let w := remote3 true
    let req := fun (r : RemoteReq) => fabX [] fun c => { c with reqs := [r] }
    ((fabX [] id).frozen = false ∧ (fabX [] id).colRoute 7 = some 0 ∧ (fabX [] id).colMember ≠ 3 ∧ 0xFC0 % 64 = 0 ∧ (fabX [] id).fld (aCol 0x28) 34 0 < 0xFC0 + 65
      ∧ (req r).col.reqs.find? (fun x => decide (x.tag = 3)) = some r ∧ r.sentAt + 2000000 < { req r with now := 4000001 }.now ∧ (req r).now ≤ r.sentAt + 2000000
      ∧ ((fabX [] id).col.cur.bind (fabX [] id).colKey).isSome = true
      ∧ (fabX [] fun c => { c with busy := [(3990000, 7, 0, 3)] }).col.busy = [(3990000, 7, 0, 3)] ∧ 3990000 + 10000 ≤ (fabX [] id).now
      ∧ (fabX [] id).now < 3990001 + 10000)
      ∧ (∃ frame u f, (fabX [] id).colTake 0 frame 1 false = (u, some f) ∧ f.lines = 1 ∧ f.src = 7)
      ∧ (∃ frame u f, (fabX [] id).colTake 0 frame 3 false = (u, some f) ∧ f.data.length = 64)
      ∧ (∀ st ∈ [0, 8], ∃ frame u f, (req r).colTake 0 frame 2 false = (u, some f) ∧ u.remoteOf f false = some r ∧ f.status = st ∧ f.lines = r.left)
      ∧ (∃ frame u f, (fabX [] id).colTake 0 frame 2 false = (u, some f) ∧ u.remoteOf f false = none)
      ∧ (∃ frame u f, (fabX [] id).colTake 0 frame 4 false = (u, some f) ∧ f.status = 0x10)
      ∧ (∃ frame u f, (req w).colTake 0 frame 4 false = (u, some f) ∧ f.status = 0 ∧ u.remoteOf f true = some w ∧ w.left ≤ 64)
      ∧ (∃ frame u f, (fabX [] id).colTake 0 frame 5 false = (u, some f)) := by
  intro r w req
  have go := fun (x : Col → Col) (type n c d : Nat) => takenX [] x type n c d false
  refine ⟨by decide, ?_, ?_, ?_, ?_, ?_, ?_, ?_⟩
  · obtain ⟨_, pt, -, -, e⟩ := go id 1 1 0 0 (by decide) (by decide) (by decide) (.inr (by decide)) (by decide) (by decide) (by decide) (by decide)
    exact ⟨_, _, _, e, by show bits (word0 1 1) 45 39 = 1; decide, by show bits (word0 1 1) 23 12 = 7; decide⟩
  · obtain ⟨_, pt, hl, -, e⟩ := go id 3 1 0 0 (by decide) (by decide) (by decide) (.inr (by decide)) (by decide) (by decide) (by decide) (by decide)
    exact ⟨_, _, _, e, hl⟩
  · intro st hst
    obtain ⟨_, pt, -, -, e⟩ := go (fun c => { c with reqs := [remote3 false] }) 2 1 (3 * 2 ^ 48) st (by decide) (by decide) (by decide) (.inr (by decide)) ⟨by decide, by decide, by decide, .inl (by decide)⟩ (by decide) (by decide) (by revert st; decide)
    refine ⟨_, _, _, e, remoteOf_of rfl (by show 3 = bits (3 * 2 ^ 48) 57 48; decide) (by show 7 = bits (word0 2 1) 23 12; decide) rfl, ?_,
      by show bits (word0 2 1) 45 39 = 1; decide⟩
    show bits st 7 0 = st
    clear e; revert st; decide
  · obtain ⟨_, pt, -, -, e⟩ := go id 2 1 (3 * 2 ^ 48) 0 (by decide) (by decide) (by decide) (.inr (by decide)) (by decide) (by decide) (by decide) (by decide)
    exact ⟨_, _, _, e, rfl⟩
  · obtain ⟨_, pt, -, -, e⟩ := go id 4 0 0 0x10 (by decide) (by decide) (by decide) (.inr (by decide)) (by decide) (by decide) (by decide) (by decide)
    exact ⟨_, _, _, e, by show bits 0x10 7 0 = 0x10; decide⟩
  · obtain ⟨_, pt, -, -, e⟩ := go (fun c => { c with reqs := [remote3 true] }) 4 0 (3 * 2 ^ 48) 0 (by decide) (by decide) (by decide) (.inr (by decide)) (by decide) (by decide) (by decide) (by decide)
    exact ⟨_, _, _, e, by show bits 0 7 0 = 0; decide, remoteOf_of rfl (by show 3 = bits (3 * 2 ^ 48) 57 48; decide)
      (by show 7 = bits (word0 4 0) 23 12; decide) rfl, by decide⟩
  · obtain ⟨_, pt, -, -, e⟩ := go id 5 1 0 0 (by decide) (by decide) (by decide) (.inr (by decide)) (by decide) (by decide) (by decide) (by decide)
    exact ⟨_, _, _, e⟩

/-- R515 to R518, R523, R524: a port that is not UP; frames whose layout is broken, in the clear, of another type and for another module; one whose tag is
wrong; a sealed HEARTBEAT, new and accepted before; the last hop. -/
theorem test_fabric_frame_premises :
    let s := fabX [] id
    let beat := sealedFrame (word0 9 0) 1 0 0 []
    let f := colParse 0 beat
    let plain := wordBytes [5 + 7 * 2 ^ 12 + 1 * 2 ^ 24 + 1 * 2 ^ 39, 0, 0, 0]
    let clear := plain ++ leBytes 4 (crc32c plain) ++ List.replicate 12 0
    (s.frozen = false ∧ up.colState 0 ≠ 3 ∧ s.colState 0 = 3 ∧ s.colKey 0 = some ⟨0, 0, none⟩ ∧ colLayoutOk (colParse 0 []) [] = false
      ∧ colLayoutOk (colParse 0 clear) clear = true ∧ (colParse 0 clear).type = 1 ∧ (colParse 0 clear).enc = false ∧ s.ownAddr = some (colParse 0 clear).dst
      ∧ (fabX [(aCol 0, 2 ^ 12 + 6)] id).ownAddr = some 6 ∧ (colParse 0 clear).dst ≠ 6 ∧ (fabX [(aCol (0x1000 + 10), 0)] id).colRoute 5 = some 0
      ∧ (fabX [] id).colRoute 6 = none ∧ (colParse 0 clear).ttl ≤ 1)
      ∧ (f.type = 9 ∧ f.enc = true ∧ f.keyIdx = 0 ∧ 1 < f.ttl ∧ s.seqNew f = true
        ∧ (∃ pt, gcmOpen (keyBytes 0) (colNonce f.src f.w1) (colAad f) (f.data.map (·.toNat)) ((beat.drop (beat.length - 16)).map (·.toNat)) = some pt)
        ∧ (fabX [] fun c => { c with seen := [(7, (2, [1]))] }).seqNew f = false
        ∧ 8 ≤ ((((s.now, 8) :: (s.colPort 0).unc).filter fun e => decide (s.now < e.1 + 1000000)).map (·.2)).sum
        ∧ ((((s.now, 7) :: (s.colPort 0).unc).filter fun e => decide (s.now < e.1 + 1000000)).map (·.2)).sum < 8)
      ∧ ∃ t < 2, gcmOpen (keyBytes 0) (colNonce f.src f.w1) (colAad f) [] (List.replicate 16 t) = none := by
  intro s beat f plain clear
  have hf : f = ⟨word0 9 0, 1, 0, 0, [], 0⟩ := (sealedFrame_parse _ _ _ _ _ (by decide) (by decide) (by decide) (by decide)).2.1
  refine ⟨by decide +kernel, ⟨?_, ?_, ?_, ?_, ?_, opened _ _ _ _ _ (by decide) (by decide) (by decide) (by decide), ?_, ?_, ?_⟩, wrong_tag _ _ _ _⟩ <;> (try rw [hf]) <;> decide

/-- R511 to R514, R518, R520, R521, R524: ports in TRAINING and UP at their limits of time; lanes that serve and that do not; bypasses with a cause and without; a
HELLO and a KEY that are taken; keys that have stopped being current. -/
theorem test_fabric_port_premises :
    let tr := fabX [(aColPort 0 0, 2)] fun c => { c with bypass := [false, false] }
    let old := { tr with now := 20000001 }
    let open_ := fabX [(aVal 0x18, 0x82)] fun c => { c with bypass := [true, true] }
    let spare := fabX [(aColPort 0 0, 3 + 2 * 2 ^ 3 + 2 ^ 5)] id
    let keys := fun (t : Nat) => fabX [] fun c => { c with keys := [some ⟨0, 0, none⟩, some ⟨1, 0, some t⟩, none, none] }
    tr.frozen = false ∧ tr.colState 0 = 2 ∧ (tr.colPort 0).trainAt + 20000000 < old.now ∧ ({ old with now := 20000000 } : State).now ≤ (tr.colPort 0).trainAt + 20000000
      ∧ (fabX [] id).colState 0 = 3 ∧ bit (tr.reg (aColPort 0 0)) 5 = false ∧ (4 : Fin 5).val = 4 ∧ (tr.colPort 0).failed = false
      ∧ bit (spare.reg (aColPort 0 0)) 5 = true ∧ spare.fld (aColPort 0 0) 4 3 = 2
      ∧ tr.col.bypass.length = 2 ∧ tr.power.auxOk = true ∧ tr.bypassCause = true ∧ tr.col.bypass[0]? = some false
      ∧ bit (open_.reg (aVal 0x18)) 7 = true ∧ open_.fld (aVal 0x18) 2 1 ≠ 0 ∧ 3 ≤ open_.boot.phase ∧ open_.col.bypass[0]? = some true ∧ open_.bypassCause = false
      ∧ (fabX [] id).col.beat ≤ (fabX [] id).now / 250000 ∧ (fabX [] id).now / 250000 < (fabX [] fun c => { c with beat := 17 }).col.beat
      ∧ ((fabX [] id).colPort 0).heardAt + 1000000 < (fabX [] id).now ∧ ({ up with now := 1000000 } : State).now ≤ (up.colPort 0).heardAt + 1000000
      ∧ (keys 0).colKey 1 = some ⟨1, 0, some 0⟩ ∧ (keys 0).col.cur ≠ some 1 ∧ 0 + 100000000 ≤ ({ keys 0 with now := 100000000 } : State).now
      ∧ (keys 0).now < 0 + 100000000 ∧ (fabX [] id).col.cur.bind (fabX [] id).colKey = some ⟨0, 0, none⟩ ∧ (fabX [] id).col.keys.length = 4
      ∧ keyUnwrap (keyBytes 0) [] = none := by
  decide +kernel

/-- A frame in the clear with the header words `a` and `d` and no payload. -/
def clearFrame (a d : Nat) : List Byte :=
  let b := wordBytes [a, 1, 0, d]
  b ++ leBytes 4 (crc32c b) ++ List.replicate 12 0

/-- R518: where a frame is taken, it is. -/
theorem takenClear {s : State} {frame : List Byte} {type : Nat} {any : Bool} (h : (s.colTake 0 frame type any).2.isSome = true) :
    ∃ f, s.colTake 0 frame type any = ((s.colTake 0 frame type any).1, some f) := by
  obtain ⟨f, hf⟩ := Option.isSome_iff_exists.mp h
  exact ⟨f, by rw [← hf]⟩

/-- The header word 0 of a frame of a type in the clear. -/
def clear0 (type : Nat) : Nat := 5 + 7 * 2 ^ 12 + type * 2 ^ 24 + 4 * 2 ^ 28 + 7 * 2 ^ 36

/-- R518, R520: a HELLO, also of a module with managers, and a KEY that is taken. -/
theorem test_hello_key_premises :
    (∃ frame u f, (fabX [] id).colTake 0 frame 8 true = (u, some f) ∧ u.col.managers = [])
      ∧ (∃ frame u f, (fabX [] fun c => { c with managers := [(5, 9)] }).colTake 0 frame 8 true = (u, some f) ∧ u.col.managers = [(5, 9)])
      ∧ (∃ frame u f, (fabX [] id).colTake 0 frame 11 (fabX [] id).ownAddr.isNone = (u, some f) ∧ u.col.keys.length = 4)
      ∧ (0 : Fin 4) ≠ 1 ∧ (fabX [] id).reg (aCol 8) = 0 := by
  refine ⟨?_, ?_, ?_, by decide, by decide⟩
  · obtain ⟨f, e⟩ := takenClear (s := fabX [] id) (frame := clearFrame (clear0 8) 0) (type := 8) (any := true) (by decide +kernel)
    exact ⟨_, _, f, e, by decide +kernel⟩
  · obtain ⟨f, e⟩ := takenClear (s := fabX [] fun c => { c with managers := [(5, 9)] }) (frame := clearFrame (clear0 8) 0) (type := 8) (any := true)
      (by decide +kernel)
    exact ⟨_, _, f, e, by decide +kernel⟩
  · obtain ⟨f, e⟩ := takenClear (s := fabX [] id) (frame := clearFrame (clear0 11) 0) (type := 11) (any := (fabX [] id).ownAddr.isNone)
      (by decide +kernel)
    exact ⟨_, _, f, e, by decide +kernel⟩

/-- R515, R518, R519: a management frame of any subtype and `n` lines is taken; its source is 7, its status `st`, and the members, probes and managers stay. -/
theorem mgmtX (l : List (Nat × Nat)) (x : Col → Col) (sub n st : Nat) (any : Bool) (h3 : (fabX l x).colState 0 = 3)
    (hk : (fabX l x).colKey 0 = some ⟨0, 0, none⟩) (hs : (fabX l x).col.seen = []) (ho : any = true ∨ (fabX l x).ownAddr = some 5)
    (hsub : 1 ≤ sub ∧ sub ≤ 16) (hst : st < 256) (hn : n ≤ 64) :
    ∃ frame u f, MgmtTaken (fabX l x) 0 frame sub any u f ∧ f.src = 7 ∧ f.status = st ∧ f.addr = 0 ∧ f.data.length = 64 * n ∧ u.col.managers = (fabX l x).col.managers
      ∧ u.col.members = (fabX l x).col.members := by
  have hd : ∀ hi lo, bits (st + sub * 2 ^ 20) hi lo = (st + sub * 2 ^ 20) / 2 ^ lo % 2 ^ (hi + 1 - lo) := fun hi lo => by
    simp only [bits, Nat.shiftRight_eq_div_pow]
  obtain ⟨frame, pt, hl, hw, e⟩ := takenX l x 10 n 0 (st + sub * 2 ^ 20) any h3 hk hs ho
    ⟨by decide, by decide, by decide, .inr (by rw [hd]; omega)⟩ hn (by decide) (by omega)
  refine ⟨frame, _, _, ⟨?_, e⟩, ?_, ?_, ?_, ?_, rfl, rfl⟩
  · show bits (colParse 0 frame).w3 27 20 = sub
    rw [hw, hd]; omega
  · show bits (word0 10 n) 23 12 = 7
    simp only [bits, Nat.shiftRight_eq_div_pow]; unfold word0; omega
  · show bits (st + sub * 2 ^ 20) 7 0 = st
    rw [hd]; omega
  · rfl
  · rw [hl]; rfl

/-- Every management subtype is taken, with a status of 0 and of 4, by a member with address 5, as a member (`m` = 0), a manager (1) or the lead (2), whatever
its fabric holds beside its keys. -/
theorem test_mgmt_taken_premises (x : Col → Col) (hx : ∀ c, (x c).keys = c.keys ∧ (x c).seen = c.seen) : ∀ m < 3, ∀ sub, 1 ≤ sub → sub ≤ 16 → ∀ st ∈ [0, 4],
    ∃ frame u f, MgmtTaken (fabX [(aCol 0, 2 ^ 12 + 5 + 2 * 2 ^ 13 + m * 2 ^ 16)] x) 0 frame sub false u f ∧ f.src = 7 ∧ f.status = st ∧ f.data.length = 64 := by
  intro m hm sub hs ht st hst
  let l := fun m => [(aCol 0, 2 ^ 12 + 5 + 2 * 2 ^ 13 + m * 2 ^ 16)]
  have h3 : ∀ m < 3, (fabX (l m) id).colState 0 = 3 := by decide
  have ho : ∀ m < 3, (fabX (l m) id).ownAddr = some 5 := by decide
  have hk : (fabX (l m) x).colKey 0 = some ⟨0, 0, none⟩ := by
    show ((x fab.col).keys[0]?).join = _
    rw [(hx _).1]; rfl
  obtain ⟨frame, u, f, h, h1, h2, -, h4, -, -⟩ := mgmtX (l m) x sub 1 st false
    ((rfl : (fabX (l m) x).colState 0 = (fabX (l m) id).colState 0).trans (h3 m hm)) hk (show (x fab.col).seen = [] by rw [(hx _).2]; rfl)
    (.inr ((rfl : (fabX (l m) x).ownAddr = (fabX (l m) id).ownAddr).trans (ho m hm))) ⟨hs, ht⟩ (by revert st; decide) (by decide)
  exact ⟨frame, u, f, h, h1, h2, h4⟩

/-- R518 to R523, R525: suspicion, votes and routes: a probe of 7 outstanding and none, at 250 µs and 1 ns later; votes by one manager and by two; the quorum;
a route bank of the epoch. -/
theorem test_fabric_vote_premises :
    let reg := fun (m : Nat) => [(aCol 0, 2 ^ 12 + 5 + 2 * 2 ^ 13 + m * 2 ^ 16)]
    let asks := fun (m : Nat) => fabX (reg m) fun c => { c with
      probes := [(7, 3750000)], managers := [(5, 9), (7, 3)], members := [⟨7, 3, true, false⟩, ⟨9, 4, false, false⟩], votes := [(9, 5)] }
    let alone := fabX (reg 1) fun c => { c with probes := [(7, 3750000)], managers := [(5, 9)] }
    let bank := fabX (reg 1) fun c => { c with bankEpoch := 6, bankManagers := [(7, 3)] }
    (asks 2).manages = true ∧ (asks 2).colRoute 7 = some 0 ∧ (∃ q ∈ (asks 2).col.probes, q.1 = 7) ∧ (∀ q ∈ (fabX [] id).col.probes, q.1 ≠ 7)
      ∧ (∀ m < 3, (asks m).mgr = m) ∧ (asks 1).ownAddr ≠ some 9 ∧ (∀ q ∈ (asks 1).col.probes, q.1 ≠ 9) ∧ (asks 1).colRoute 9 = some 0
      ∧ (asks 2).col.members.any (fun m => decide (m.addr = 9)) = true ∧ (∃ m ∈ (asks 2).col.managers, m.1 = 7) ∧ (9, 5) ∈ (asks 2).col.votes ∧ 5 ≠ 7
      ∧ (∀ v ∈ (fabX [] id).col.votes, v.1 ≠ 9)
      ∧ (asks 1).col.probes.find? (fun q => decide (q.1 = 7)) = some (7, 3750000) ∧ 3750000 + 250000 < ({ asks 1 with now := 4000001 } : State).now
      ∧ (asks 1).now ≤ 3750000 + 250000 ∧ readAt (fun _ => 0) (asks 1).col.modes 7 ≠ 4
      ∧ readAt (fun _ => 0) (fabX (reg 1) fun c => { c with modes := [(7, 4)] }).col.modes 7 = 4 ∧ alone.answering < 2
      ∧ 2 ≤ (fabX (reg 1) fun c => { c with probes := [(9, 0)], managers := [(5, 9), (7, 3)] }).answering
      ∧ (fabX (reg 1) fun c => { c with authBad := some 0 }).col.authBad = some 0 ∧ (asks 1).keyless = false ∧ 0 + 4000000 < ({ asks 1 with now := 4000001 } : State).now ∧ (asks 1).now ≤ 0 + 4000000
      ∧ bank.col.bankEpoch = 6 ∧ bank.col.bankEpoch ≠ 7 ∧ (∀ j ∈ bank.sched.jobs, j.ringSet < 4) ∧ (bank.colKey 0).isSome = true
      ∧ (∀ m ∈ bank.col.bankManagers, bank.ownAddr ≠ some m.1) ∧ bank.routed 7 = true ∧ bank.ownAddr ≠ some 7
      ∧ readAt (fun _ => 7) bank.col.bank 7 % 8 = 7 ∧ (asks 2).leadAddr = some 7 ∧ (asks 2).leadAddr ≠ (asks 2).ownAddr := by
  decide +kernel

/-- R410, R519 to R521, R526: a candidate and an election, a joiner that is attested and one that is not, a shadow at the limits of agreement, what the channel
carries. -/
theorem test_fabric_admission_premises :
    let reg := fun (m st : Nat) => [(aCol 0, 2 ^ 12 + 5 + st * 2 ^ 13 + m * 2 ^ 16), (aVal 0x18, 0x84)]
    let new := fabX [(aCol 0, 2 ^ 13), (aVal 0x18, 0x84)] id
    let late := { new with now := 20000000 }
    let cand := { fabX [(aCol 0, 2 ^ 13), (aVal 0x18, 0x84), (aCol (0x1000 + 14), 7), (aCol (0x1000 + 18), 7)] fun c => { c with
      candidateAt := some 0, heardUids := [0, 9] } with now := 20000000 }
    let meas := (List.range 4).map fun i => leNat (new.measBytes (i + 1))
    let req : AdmitReq := ⟨9, 0, true, none, true, [0, 0, 0, 0]⟩
    let lead := fabX (reg 2 2) fun c => { c with managers := [(5, 9)] }
    let low := fabX (reg 0 2) fun c => { c with managers := [(7, 3)], relay := [(11, 0)] }
    let rec_ : CompareRec := ⟨9, 6, [], [], (0, 0)⟩
    let judge := fun (n k : Nat) => fabX (reg 2 2) fun c => { c with shadows := [⟨7, 9, n, k⟩], compares := [rec_] }
    let shadow := fabX (reg 0 3) fun c => { c with managers := [(7, 3)] }
    new.manages = true ∧ new.fabricRole = 2 ∧ new.mode ≠ 4 ∧ new.ownAddr = none ∧ new.col.leadKnown = none ∧ new.col.candidateAt = none
      ∧ (List.range 4).filter (fun p => decide (new.colState p = 3)) = [0] ∧ (new.colPort 0).upAt + 20000000 ≤ late.now
      ∧ 9 ∉ new.col.heardUids ∧ cand.col.candidateAt = some 0 ∧ 0 + 20000000 ≤ cand.now ∧ (∀ n ∈ cand.col.heardUids, cand.uid ≤ n)
      ∧ cand.col.keys.length = 4 ∧ ({ cand with now := 19999999 } : State).now < 0 + 20000000
      ∧ lead.mgr = 2 ∧ lead.ownAddr = some 5 ∧ req.attested = true ∧ req.fabric.toNat = lead.reg (aCol 8) ∧ req.meas.map (·.toNat) = meas
      ∧ { req with attested := false }.attested = false ∧ low.mgr ≠ 2 ∧ low.leadAddr = some 7 ∧ low.colRoute 7 = some 0
      ∧ (0 : Word).toNat = new.uid ∧ new.colMember ≠ 0 ∧ (11 : Word).toNat ≠ low.uid ∧ low.col.relay.find? (fun e => decide (e.1 = (11 : Word).toNat)) = some (11, 0)
      ∧ (fabX [(aCol 0, 2 ^ 13)] fun c => { c with retryAt := some 4000000 }).col.retryAt = some 4000000 ∧ low.colMember ≠ 5 ∧ (fabX (reg 0 5) id).colMember = 5
      ∧ (∀ n ∈ [198, 199], (judge n 2).col.shadows = [⟨7, 9, n, 2⟩] ∧ (judge n 2).compareOf 9 6 = some rec_)
      ∧ framesAgree { rec_ with src := 7 } rec_ = true ∧ framesAgree { rec_ with src := 7, statuses := [1] } rec_ = false
      ∧ shadow.leadAddr = some 7 ∧ shadow.colMember = 3 ∧ (State.withRegs low [(aRing 1 0x18, 1)]).ringEn 1 = true ∧ low.col.watchers = []
      ∧ low.access ⟨initCol, none, false, true⟩ true 0x10000 64 = 0 ∧ new.mode ≠ 3 ∧ 0x80 ≤ hdr [0x10, 0x84] 1 1 ∧ hdr [] 1 1 < 0x80 := by
  decide +kernel

/-- R518, R520: an ADMIT_REQ in the clear is taken; a frame of this module waits to be reported. -/
theorem test_admit_clear_premises :
    (∃ frame u f, MgmtTaken (fabX [] id) 0 frame 8 true u f ∧ f.enc = false)
      ∧ (fabX [] fun c => { c with summaries := [(6, [0], [])] }).col.summaries.find? (fun x => decide (x.1 = 6)) = some (6, [0], [])
      ∧ ((fabX [] id).col.cur.bind (fabX [] id).colKey).isSome = true := by
  refine ⟨?_, by decide, by decide⟩
  obtain ⟨f, e⟩ := takenClear (s := fabX [] id) (frame := clearFrame (clear0 10) (8 * 2 ^ 20)) (type := 10) (any := true) (by decide +kernel)
  have h : ((fabX [] id).colTake 0 (clearFrame (clear0 10) (8 * 2 ^ 20)) 10 true).2.map (·.enc) = some false := by decide +kernel
  rw [e] at h
  exact ⟨_, _, f, ⟨by decide +kernel, e⟩, Option.some.inj h⟩

/-- R520, R522: right after reset a module is not routed: the first and the last address, and two between. -/
theorem test_unrouted : ∀ a ∈ [0, 5, 2048, 4095], State.reset.routed a = false := by
  decide +kernel

/-! ## Invariants, the freeze, the queue -/

/-- A started module with a job, with bytes in memory, and with commands waiting. -/
def live0 : State :=
  { (withThread (thread2 0 0)).putBytes 0x10000 [1, 0, 2] with pending := [.mainInputOutOfRange, .thaw] }

/-- Memory lists what was written and not the zero between; it and the registers are in canonical form. -/
theorem test_canonical_premise : live0.mem = [(0x10000, 1), (0x10002, 2)] ∧ live0.canonical := by
  unfold State.canonical; decide +kernel

/-- The lists and the freeze are as the invariants say, at a module that has started. -/
theorem test_invariant_premises : ListsWhole live0 ∧ FrozenStandby live0 ∧ JobsNumbered { live0 with sched := { live0.sched with serial := 1 } } := by
  refine ⟨⟨by decide, by decide, by decide, fun h => ?_, by decide, fun d m hm => ?_⟩, fun h => absurd h (by decide), by decide, by decide⟩
  · show (readAt (fun _ => heathFresh) ([] : List (Nat × HeathSt)) h).heard.length = 2
    rfl
  · cases hm

/-- A step from it answers a next state, in which the first command has gone from the queue. -/
theorem test_front_command : ∃ t, step live0 = .next t ∧ t.pending = [.thaw] := ⟨_, rfl, by decide +kernel⟩

/-- R471, R472: a freeze in force with the Heaths' Vale ports in standby; a command that does not end it, and one that does. -/
theorem test_freeze_hold_premises :
    let s : State := { live0 with frozen := true }
    s.frozen = true ∧ FrozenStandby s ∧ ¬ EndsFreeze (.heathSlot 0) ∧ EndsFreeze .thaw ∧ ∃ t, exec (.heathSlot 0) s = .next t := by
  refine ⟨rfl, fun _ => by decide +kernel, id, trivial, _, rfl⟩

/-! ## Commands that cannot be sent: one ill-formed term for each check -/

/-- R348: the Vale has six ports, a Meadow five. -/
theorem test_wf_port : Instr.wf (.rd ⟨4, 5⟩) = true ∧ Instr.wf (.rd ⟨3, 5⟩) = false ∧ Instr.wf (.hello ⟨5, 5⟩ 0) = false := by decide

/-- R349: a flit of 255 bytes. -/
theorem test_wf_flit : Instr.wf (.flitData ⟨0, 0⟩ (List.replicate 255 0)) = false ∧ Instr.wf (.flitData ⟨0, 0⟩ (List.replicate 256 0)) = true
    ∧ Instr.wf (.flitData ⟨0, 5⟩ (List.replicate 256 0)) = false := by decide +kernel

/-- R140, R133: a reserved KIND of POST, a reserved selector of RDID. -/
theorem test_wf_post_rdid : Instr.wf (.post slot0 1 2 1 true) = true ∧ Instr.wf (.post slot0 1 2 2 true) = false
    ∧ Instr.wf (.rdid slot0 1 10) = true ∧ Instr.wf (.rdid slot0 1 11) = false := by decide

/-- R329, R334: a DRAM line of 63 bytes, eight temperatures of a stack that has nine sensors. -/
theorem test_wf_dram : Instr.wf (.dramWrite ⟨0, 7, 0⟩ 0 0 (List.replicate 63 0)) = false ∧ Instr.wf (.dramWrite ⟨0, 7, 0⟩ 0 0 (List.replicate 64 0)) = true
    ∧ Instr.wf (.dramTempRead 0 (List.replicate 8 0)) = false := by decide

/-- An aperture write of 65 bytes; a vehicle state frame of 15 (R425). -/
theorem test_wf_lines : Instr.wf (.apertureWrite 0 0 0 (List.replicate 65 0)) = false ∧ Instr.wf (.apertureWrite 0 0 0 (List.replicate 64 0)) = true
    ∧ Instr.wf (.vehicleStateFrame 0 (List.replicate 15 0)) = false := by decide

/-- R448: 257 entries of QUEUE_ACT. -/
theorem test_wf_params : Instr.wf (.heathBoot 0 { paramsDefault with queueAct := List.replicate 257 0 }) = false
    ∧ Instr.wf (.heathBoot 0 paramsDefault) = true := by decide +kernel

/-- R464, R547: the slack monitors and the sensors of each kind of die. -/
theorem test_wf_monitors : Instr.wf (.ageingMeasure 4 (List.replicate 32 0)) = false ∧ Instr.wf (.ageingMeasure 4 (List.replicate 16 0)) = true
    ∧ Instr.wf (.thermalRead 5 (List.replicate 8 0)) = false ∧ Instr.wf (.thermalRead 5 (List.replicate 4 0)) = true := by decide

/-- R562: reads of 0 and 4,097 bytes, writes of 0 and 513. -/
theorem test_wf_pcie : Instr.wf (.pcieInboundRead 0 0) = false ∧ Instr.wf (.pcieInboundRead 0 4097) = false ∧ Instr.wf (.pcieInboundRead 0 4096) = true
    ∧ Instr.wf (.pcieInboundWrite 0 []) = false ∧ Instr.wf (.pcieInboundWrite 0 (List.replicate 513 0)) = false := by decide +kernel

/-! ## Worked examples of the spec -/

/-- R3: the example of MDW_ID of M2 at stepping B1. -/
theorem test_example_id : State.reset.reg (aMdw 2 0) = 0x4D1122C1 := by decide

/-- R28, and the example of the TIL block of the same tile: tile 5 of lea 9 on M2. -/
theorem test_example_tile_address : tileBase 2 9 5 = 0x001029940000 ∧ aTil 2 9 5 0 = 0x002032270000
    ∧ tileBase 2 9 7 = 0x0010299C0000 ∧ aTil 2 9 7 0x100C = 0x00203229100C := by decide

/-- R48: 1.5 × −2.25 in Q16.16. -/
theorem test_example_q16 : putElem .q16 (arithCtl 0) 0 ((elemNum .q16 0x18000).mul (elemNum .q16 0xFFFDC000)) = ⟨0xFFFCA000, 0⟩ := by decide

/-- R54, R55: the LOG8 example, and R100: its term leaves 21. -/
theorem test_example_log8 : log8Mul 0x4D 0xA5 = (-4987904, false) ∧ wrap 32 (log8Mul 0x4D 0xA5).1 = 0xFFB3E400 ∧ (log8Mul 0x4D 0xA5).1 % 127 = 21 := by
  decide

/-- R57: element (5, 9) of 8 rows and 12 columns. -/
theorem test_example_b4 : 0x001029940000 + elemByte .int8 (b4Index 12 5 9) = 0x001029940055 := by decide

/-- R63: the MXFP4 block of −2.6 and 10.0, where −2.6 is held to 30 bits. -/
theorem test_example_mx : mxPut .mxfp4 (arithCtl 0) [.fin true 2791728742 (-30), .fin false 10 0] = (0x80, [0xB, 0x6], 0) := by decide

/-- R155: word 0 of a THREADS command. -/
theorem test_example_command :
    let c : Cmd := { cmd0 with words := [0x000007D00032A350] }
    c.kind = 0 ∧ c.task = 0x2A3 ∧ bits (word c.words 0) 6 4 = 5 ∧ bits (word c.words 0) 63 32 = 2000 := by decide

/-- R273, R274: SELECT with k = 1, P = 3 and D = 12; output pixel 0 of a block is pixel 3 of the block of `va` at its place. -/
theorem test_example_select : (poolCtl 12 0x0632).legal = true ∧ (poolCtl 12 0x0632).k = 1 ∧ (poolCtl 12 0x0632).p = 3 ∧ (poolCtl 12 0x0632).d = 12
    ∧ poolSources .int8 (poolCtl 12 0x0632) (BitVec.ofNat 2048 (0x5A <<< (8 * 12))) 0 0 = [0x5A] := by decide +kernel

/-- The flagged line of the ZB64 example. -/
def zbExample : List Byte :=
  (List.range 64).map fun i => match i with | 0 => 0x12 | 3 => 0x05 | 17 => 0x7F | 40 => 0x21 | 63 => 0x80 | _ => 0

/-- R286: its record, and the line read back. -/
theorem test_example_zb64 :
    zbRecord zbExample = [0x09, 0x00, 0x02, 0x00, 0x00, 0x01, 0x00, 0x80, 0x12, 0x05, 0x7F, 0x21, 0x80]
      ∧ zbLine (zbRecord zbExample) = some (zbExample, []) := by decide +kernel

/-- R305: the example's table entry and disc; one cell covered, and one that is not. -/
theorem test_example_disc :
    cos1024 128 = 11585 ∧ sin1024 128 = 11585 ∧ discCentre (10000 + 8000 * 2 ^ 16 + 0x2000 * 2 ^ 32) (160 + 0xFFC0 * 2 ^ 16 + 352 * 2 ^ 32) = (10158, 8068)
      ∧ (163, 126) ∈ discCells (10000 + 8000 * 2 ^ 16 + 0x2000 * 2 ^ 32) (160 + 0xFFC0 * 2 ^ 16 + 352 * 2 ^ 32)
      ∧ (164, 126) ∉ discCells (10000 + 8000 * 2 ^ 16 + 0x2000 * 2 ^ 32) (160 + 0xFFC0 * 2 ^ 16 + 352 * 2 ^ 32) := by decide +kernel

/-- R321: the address of the example with regions 0 to 3 local and the others interleaved. -/
theorem test_example_dram :
    (Tests.State.withRegs State.reset [(aDmc 0 0x80, 0x8888888888883210)]).stackOf 0x000234567A40 = (3, 0x8D159A40) := by decide +kernel

/-- R430: pose 12 of the two channels. -/
theorem test_example_poses :
    let a : TrajRec := ⟨0, 0, 0, 0, 0, 0, -51200, 0, [⟨20000, 0, 0, 0⟩], 0⟩
    let b : TrajRec := ⟨0, 0, 0, 0, 0, 1, -51000, 0, [⟨19950, 0, 0, 0⟩], 0⟩
    (a.pos8 0).1 - (b.pos8 0).1 = -350 ∧ 8 * paramsDefault.posTol = 1200 ∧ posesAgree paramsDefault a b = true := by decide

/-- The bytes of "123456789". -/
def nine : List Byte := (List.range 9).map fun i => BitVec.ofNat 8 (0x31 + i)

/-- R349, R360, R408: the published check values of the three CRCs, over the nine bytes "123456789". -/
theorem test_crc : crc32c nine = 0xE3069283 ∧ crc32 nine = 0xCBF43926 ∧ crc16 nine = 0x29B1 := by decide +kernel

/-- FIPS 180-4: the digest of "abc". -/
theorem test_sha256 : (sha256 [0x61, 0x62, 0x63]).map (·.toNat)
    = bytesOf 32 0xBA7816BF8F01CFEA414140DE5DAE2223B00361A396177A9CB410FF61F20015AD := by decide +kernel

/-- FIPS 197, appendix C.3: AES-256 of its example block. -/
theorem test_aes256 : aesEncrypt (aesKeys (List.range 32)) (bytesOf 16 0x00112233445566778899AABBCCDDEEFF)
    = bytesOf 16 0x8EA2B7CA516745BFEAFC49904B496089 := by decide +kernel

end Sys2Proof.Tests
end

section

/-! PROOFS of the family "scope": O1 and O58.

`State.canonical` speaks of the memory and the registers only, and every command of the model writes them through the few
operations of `Laws/State.lean`. So the proof has one rule per operation of the model, named after it: an operation keeps
the canonical form of the state it is given. A rule's proof is the operation's own text read from the outside in: `.ite` for
a test, `.foldl` for a loop, `.keep` for an update of other fields, and the rule of each operation it calls. -/

namespace Sys2Proof.Machine

/-- Settles O1: the queue's front command is the one the step matches on. -/
theorem stepRunsTheFrontCommand : Obligations.StepRunsTheFrontCommand := fun _ _ _ => rfl

variable {s t : State}

/-! ## How states are put together -/

/-- An update of fields other than the memory and the registers. -/
theorem State.canonical.keep {pending now past frozen free slots tiles leas posts sramFix poison spoilt sched kv prairie
    queues iqm ptp tbCopy fwRules fwLocked domain domains sipKey scrubFix repairs rowsUsed dram collectors frec ports dies
    flr heaths flash fuses procs boot power diePower host debugPort col} (h : s.canonical) :
    State.canonical ⟨pending, now, past, frozen, free, s.regs, s.mem, slots, tiles, leas, posts, sramFix, poison, spoilt,
      sched, kv, prairie, queues, iqm, ptp, tbCopy, fwRules, fwLocked, domain, domains, sipKey, scrubFix, repairs, rowsUsed,
      dram, collectors, frec, ports, dies, flr, heaths, flash, fuses, procs, boot, power, diePower, host, debugPort, col⟩ :=
  h

theorem State.canonical.ite {c : Prop} [Decidable c] (h : s.canonical) (k : t.canonical) :
    State.canonical (if c then s else t) := by
  split <;> assumption

/-- A step done under a condition only, so that the rule of the state before it is given once. -/
theorem State.canonical.when {c : Prop} [Decidable c] (h : s.canonical) (k : s.canonical → t.canonical) :
    State.canonical (if c then t else s) := .ite (k h) h

theorem State.canonical.whenNot {c : Prop} [Decidable c] (h : s.canonical) (k : s.canonical → t.canonical) :
    State.canonical (if c then s else t) := .ite h (k h)

theorem State.canonical.foldl {β : Type} {f : State → β → State} {l : List β} (h : s.canonical)
    (hf : ∀ t x, State.canonical t → (f t x).canonical) : (l.foldl f s).canonical := by
  induction l generalizing s with
  | nil => exact h
  | cons x l ih => exact ih (hf _ _ h)

/-! The same for a state that is answered beside another value. -/

section
variable {α β γ : Type} {c : Prop} [Decidable c]

theorem State.canonical.ite₁ {x y : State × α} (h : x.1.canonical) (k : y.1.canonical) :
    (if c then x else y).1.canonical := by
  split <;> assumption

theorem State.canonical.ite₂ {x y : α × State} (h : x.2.canonical) (k : y.2.canonical) :
    (if c then x else y).2.canonical := by
  split <;> assumption

theorem State.canonical.ite₂₁ {x y : α × State × γ} (h : x.2.1.canonical) (k : y.2.1.canonical) :
    (if c then x else y).2.1.canonical := by
  split <;> assumption

theorem State.canonical.ite₂₂ {x y : α × γ × State} (h : x.2.2.canonical) (k : y.2.2.canonical) :
    (if c then x else y).2.2.canonical := by
  split <;> assumption

theorem State.canonical.foldl₁ {f : State × α → β → State × α} {l : List β} {x : State × α} (h : x.1.canonical)
    (hf : ∀ (t : State × α) (x : β), t.1.canonical → (f t x).1.canonical) : (l.foldl f x).1.canonical := by
  induction l generalizing x with
  | nil => exact h
  | cons x l ih => exact ih (hf _ _ h)

theorem State.canonical.foldl₂ {f : α × State → β → α × State} {l : List β} {x : α × State} (h : x.2.canonical)
    (hf : ∀ (t : α × State) (x : β), t.2.canonical → (f t x).2.canonical) : (l.foldl f x).2.canonical := by
  induction l generalizing x with
  | nil => exact h
  | cons x l ih => exact ih (hf _ _ h)

theorem State.canonical.fst {a : α} {x : State × α} (e : x = (s, a)) (h : x.1.canonical) : s.canonical := by
  subst e; exact h

theorem State.canonical.snd {a : α} {x : α × State} (e : x = (a, s)) (h : x.2.canonical) : s.canonical := by
  subst e; exact h

end

/-! ## The operations that write the memory and the registers -/

theorem State.canonical.setReg (h : s.canonical) {a v : Nat} : (s.setReg a v).canonical :=
  ⟨h.1, State.setReg_wf _ _ _ h.2⟩

theorem State.canonical.putBytes (h : s.canonical) {a : Nat} {bs : List Byte} : (s.putBytes a bs).canonical := by
  refine ⟨State.putBytes_wf _ _ _ h.1, ?_⟩
  unfold State.putBytes
  split <;> exact h.2

theorem State.canonical.putLines (h : s.canonical) {n a : Nat} {bs : List Byte} : (s.putLines n a bs).canonical := by
  have hframe := State.putLines_only n s a bs
  unfold State.memOnly at hframe
  exact ⟨State.putLines_wf _ _ _ _ h.1, by rw [hframe]; exact h.2⟩

theorem State.canonical.clearMem (h : s.canonical) {gone : Nat → Bool} : (s.clearMem gone).canonical :=
  ⟨wfFrom_filter _ _ _ _ h.1, h.2⟩

theorem State.canonical.clearRegs (h : s.canonical) {keep : Nat → Bool} : (s.clearRegs keep).canonical :=
  ⟨h.1, wfFrom_filter _ _ _ _ h.2⟩

theorem State.canonical.live (h : s.canonical) (k : t.canonical) : (s.live t).canonical := by
  unfold State.live
  split <;> assumption

/-! ## What a command answers -/

/-- A command's answer that is a next state in canonical form. -/
def KeepsCanonical (o : Host.Outcome State Fault Refusal) : Prop := ∃ t, o = .next t ∧ t.canonical

theorem KeepsCanonical.next (h : s.canonical) : KeepsCanonical (.next s) := ⟨s, rfl, h⟩

/-! ## One rule per operation of the model, in the model's order -/

/-! ### The named operations over registers, memory, events and commands that every meaning shares -/

theorem State.canonical.setFld {a hi lo v : Nat} (h : s.canonical) : (s.setFld a hi lo v).canonical :=
  .setReg h

theorem State.canonical.count {a hi lo n : Nat} (h : s.canonical) : (s.count a hi lo n).canonical :=
  .setFld h

theorem State.canonical.count32 {a : Nat} (h : s.canonical) : (s.count32 a).canonical := .count h

theorem State.canonical.msixSignal {v : Nat} (h : s.canonical) : (s.msixSignal v).canonical :=
  .keep h

theorem State.canonical.setModeFld {hi lo v : Nat} (h : s.canonical) : (s.setModeFld hi lo v).canonical :=
  .ite (.setFld h) (.msixSignal (.setFld h))

theorem State.canonical.draw {k : Nat} (h : s.canonical) : (s.draw k).2.canonical := .keep h

theorem State.canonical.addPoison {a : Nat} (h : s.canonical) : (s.addPoison a).canonical :=
  .ite h (.keep h)

theorem State.canonical.putLine {a : Nat} {bs : List Byte} (h : s.canonical) : (s.putLine a bs).canonical :=
  .ite h (.ite (.keep (.putBytes h)) (.ite h (.putBytes h)))

theorem State.canonical.setLink {die p v : Nat} (h : s.canonical) : (s.setLink die p v).canonical :=
  .setFld h

theorem State.canonical.store {a : Nat} {bs : List Byte} (h : s.canonical) : (s.store a bs).canonical :=
  .ite (.putLines h) h

theorem State.canonical.setSlot {k : Nat} {th : ThreadSlot} (h : s.canonical) : (s.setSlot k th).canonical :=
  .keep h

theorem State.canonical.setTile {k : Nat} {a2 : TileState} (h : s.canonical) : (s.setTile k a2).canonical :=
  .keep h

theorem State.canonical.setLea {k : Nat} {l : LeaState} (h : s.canonical) : (s.setLea k l).canonical :=
  .keep h

theorem State.canonical.setDiePw {die : Nat} {p : DiePower} (h : s.canonical) : (s.setDiePw die p).canonical :=
  .keep h

theorem State.canonical.updJob {serial : Nat} {f : Job → Job} (h : s.canonical) : (s.updJob serial f).canonical :=
  .keep h

theorem State.canonical.updCmd {r : CmdRef} {f : Cmd → Cmd} (h : s.canonical) : (s.updCmd r f).canonical := by
  unfold State.updCmd
  split
  · exact .updJob h
  · exact h

theorem State.canonical.spoil {outs : List (Nat × Nat)} (h : s.canonical) : (s.spoil outs).canonical :=
  .foldl h fun _ _ ht => .keep (.putBytes ht)

theorem State.canonical.setQueue {q : Nat} {x : Queue} (h : s.canonical) : (s.setQueue q x).canonical :=
  .keep h

theorem State.canonical.remoteIssue {slot a n : Nat} {wr : Bool} (h : s.canonical) :
    (s.remoteIssue slot a n wr).canonical :=
  .ite h (.keep h)

theorem State.canonical.storeRefused {may : Nat → Nat → Bool} {a : Nat} {bs : List Byte} (h : s.canonical) :
    (s.storeRefused may a bs).canonical := by
  unfold State.storeRefused
  split
  · exact h
  · exact .ite h (.foldl h fun _ _ ht => .ite ht (.ite (.keep ht) (.store (.keep ht))))

theorem State.canonical.ringPut {set ring type : Nat} {ws : List Nat} (h : s.canonical) :
    (s.ringPut set ring type ws).canonical :=
  .when (.setReg (.keep (.store h))) fun ht => .msixSignal ht

theorem State.canonical.eventTo {set : Nat} {e : Ev} (h : s.canonical) : (s.eventTo set e).canonical :=
  .ite (.count32 h) (.ringPut h)

theorem State.canonical.eventOut {e : Ev} (h : s.canonical) : (s.eventOut e).canonical := by
  unfold State.eventOut
  split
  · exact .eventTo h
  · exact .ite (.foldl h fun _ _ ht => .eventTo ht) (.count32 h)

theorem State.canonical.setCollector {die : Nat} {c : Collector} (h : s.canonical) :
    (s.setCollector die c).canonical :=
  .keep h

theorem State.canonical.report {e : Ev} (h : s.canonical) : (s.report e).canonical :=
  .ite h (.setCollector h)

theorem State.canonical.raiseEv {e : Ev} (h : s.canonical) : (s.raiseEv e).canonical :=
  .ite (.keep (.report h)) (.eventOut (.report h))

theorem State.canonical.raise {die lea tile : Nat} {name : String} {arg0 arg1 : Nat} (h : s.canonical) :
    (s.raise die lea tile name arg0 arg1).canonical :=
  .raiseEv h

theorem State.canonical.raiseCmd {j : Job} {r : CmdRef} {die lea tile : Nat} {name : String} {arg0 arg1 : Nat}
    (h : s.canonical) : (s.raiseCmd j r die lea tile name arg0 arg1).canonical :=
  .raiseEv h

theorem State.canonical.raiseJob {j : Job} {name : String} {arg0 arg1 : Nat} (h : s.canonical) :
    (s.raiseJob j name arg0 arg1).canonical :=
  .raiseEv h

theorem State.canonical.raiseFor {r : CmdRef} {die lea tile : Nat} {name : String} {arg0 arg1 : Nat}
    (h : s.canonical) :
    (s.raiseFor r die lea tile name arg0 arg1).canonical := by
  unfold State.raiseFor
  split
  · exact .raiseCmd h
  · exact .raise h

theorem State.canonical.setFrec {a1 : Nat} {c : FrecCopy} (h : s.canonical) : (s.setFrec a1 c).canonical :=
  .keep h

theorem State.canonical.frecNote {type die unit value : Nat} (h : s.canonical) :
    (s.frecNote type die unit value).canonical :=
  .foldl h fun _ _ ht => .setFrec ht

theorem State.canonical.replaceReq {b : Nat} (h : s.canonical) : (s.replaceReq b).canonical :=
  .ite h (.frecNote (.raise (.setFld h)))

theorem State.canonical.send {r : FifoRec} (h : s.canonical) : (s.send r).canonical := .keep h

/-! ### Flash devices, slot records, images and their checks, and the measurement registers -/

theorem State.canonical.flashErase {dev off n : Nat} (h : s.canonical) : (s.flashErase dev off n).canonical :=
  .keep h

theorem State.canonical.flashWrite {dev off : Nat} {bs : List Byte} (h : s.canonical) :
    (s.flashWrite dev off bs).canonical :=
  .keep h

theorem State.canonical.putRecord {x : Slot} {st tries : Nat} (h : s.canonical) :
    (s.putRecord x st tries).canonical := by
  unfold State.putRecord
  exact .ite (.flashWrite h) (.flashErase (.flashWrite h))

theorem State.canonical.romTry {slots : Nat → Slot} {bad : List (Nat × Nat × Nat)} {l : List Nat} {r : RomChoice}
    (h : s.canonical) : (s.romTry slots bad l r).1.canonical := by
  induction l generalizing s r with
  | nil => exact h
  | cons i l ih =>
    unfold State.romTry
    dsimp only
    split
    · dsimp only
      exact .putRecord h
    · exact ih (.putRecord (.putRecord h))

theorem State.canonical.romBoot {slots : Nat → Slot} {root : ImageRoot} {heath : Bool} {bad : List (Nat × Nat × Nat)}
    (h : s.canonical) : (s.romBoot slots root heath bad).1.canonical :=
  .romTry h

theorem State.canonical.setReg256 {a : Nat} {bs : List Byte} (h : s.canonical) : (s.setReg256 a bs).canonical :=
  .foldl h fun _ _ ht => .setReg ht

theorem State.canonical.extend {n digest kind : Nat} (h : s.canonical) : (s.extend n digest kind).canonical :=
  .ite (.setReg (.keep (.setReg256 h))) (.setFld (.setReg256 h))

theorem State.canonical.runtime {kind who cause : Nat} (h : s.canonical) : (s.runtime kind who cause).canonical :=
  .extend h

/-! ### Charging in the flow regulator and the urgency levels of the dies -/

theorem State.canonical.countTask {die task n : Nat} (h : s.canonical) : (s.countTask die task n).canonical :=
  .foldl h fun _ _ ht => .ite (.count ht) ht

theorem State.canonical.charge {die q c task n : Nat} (h : s.canonical) : (s.charge die q c task n).canonical :=
  .ite h (.countTask (.count (.ite (.count32 h) h)))

theorem State.canonical.chargeAs {cls task : Nat} {wr : Bool} {a len : Nat} (h : s.canonical) :
    (s.chargeAs cls task wr a len).canonical := by
  unfold State.chargeAs
  refine .foldl h fun _ _ ht => ?_
  split
  · exact .charge ht
  · exact ht

theorem State.canonical.chargeLines {r : CmdRef} {wr : Bool} {a len : Nat} (h : s.canonical) :
    (s.chargeLines r wr a len).canonical := by
  unfold State.chargeLines
  split
  · exact h
  · exact .chargeAs h

theorem State.canonical.chargeMaps {r : CmdRef} (h : s.canonical) : (s.chargeMaps r).canonical := by
  unfold State.chargeMaps
  split
  · exact h
  · exact .foldl (.keep h) fun _ _ ht => .charge ht

theorem State.canonical.measureC7 {die time a : Nat} (h : s.canonical) : (s.measureC7 die time a).canonical :=
  .ite h (.whenNot (.ite (.setReg h) h) fun ht => .ite (.count32 ht) (.raise (.keep (.count32 ht))))

theorem State.canonical.setUrgency {die src level : Nat} (h : s.canonical) : (s.setUrgency die src level).canonical :=
  .when (.ite (.setFld (.keep h)) (.keep h)) fun ht => .raise (.keep ht)

/-! ### The DRAM controllers -/

theorem State.canonical.setDram {d : Nat} {x : Dram} (h : s.canonical) : (s.setDram d x).canonical :=
  .keep h

theorem State.canonical.activate {d p layer bank row : Nat} (h : s.canonical) :
    (s.activate d p layer bank row).canonical :=
  .count (.setDram h)

theorem State.canonical.remakeLine {a keep : Nat} {f : Nat → Byte → Byte} (h : s.canonical) :
    (s.remakeLine a keep f).canonical :=
  .putBytes h

theorem State.canonical.dramPoisonLine {d a off keep : Nat} (h : s.canonical) :
    (s.dramPoisonLine d a off keep).canonical :=
  .ite h (.ite (.addPoison h) (.replaceReq (.raise (.remakeLine h))))

theorem State.canonical.noteLayers {d : Nat} (h : s.canonical) : (s.noteLayers d).canonical :=
  .frecNote h

theorem State.canonical.noSpareLayer {d sid : Nat} (h : s.canonical) : (s.noSpareLayer d sid).canonical :=
  .setFld (.noteLayers (.replaceReq (.raise (.setFld h))))

theorem State.canonical.retireLayer {d sid : Nat} (h : s.canonical) : (s.retireLayer d sid).canonical := by
  unfold State.retireLayer
  dsimp only
  split
  · exact .setDram h
  · exact .ite (.noSpareLayer h) (.raise (.setFld (.setReg (.setFld (.setFld (.setDram h))))))

theorem State.canonical.retireFor {d sid : Nat} (h : s.canonical) : (s.retireFor d sid).canonical :=
  .ite h (.retireLayer h)

theorem State.canonical.dramUeNote {d off : Nat} {cmdErr : Bool} (h : s.canonical) :
    (s.dramUeNote d off cmdErr).canonical :=
  .raise (.setReg (.count32 h))

theorem State.canonical.dramUe {d a off : Nat} {cmdErr : Bool} {keep : Nat} (h : s.canonical) :
    (s.dramUe d a off cmdErr keep).canonical :=
  .ite (.whenNot (.retireFor (.dramUeNote h)) fun ht => .keep ht) (.dramPoisonLine (.retireFor (.dramUeNote h)))

theorem State.canonical.markLane {d p l : Nat} (h : s.canonical) : (s.markLane d p l).canonical :=
  .ite h (.ite (.frecNote (.raise (.setReg h))) (.ite h (.frecNote (.replaceReq (.raise (.setFld h))))))

theorem State.canonical.laneHistory {d p lanes : Nat} (h : s.canonical) : (s.laneHistory d p lanes).canonical :=
  .foldl (.setDram h) fun _ _ ht => .ite (.markLane ht) ht

theorem State.canonical.ceHistory {d sid : Nat} (h : s.canonical) : (s.ceHistory d sid).canonical :=
  .ite (.retireFor (.setDram h)) (.setDram h)

theorem State.canonical.dramCeNote {d off : Nat} {est : List Nat} (h : s.canonical) :
    (s.dramCeNote d off est).canonical :=
  .laneHistory (.setReg (.count32 h))

theorem State.canonical.dramCe {d a off : Nat} {est err : List Nat} {keep : Nat} (h : s.canonical) :
    (s.dramCe d a off est err keep).canonical :=
  .whenNot (.ite h (.remakeLine h)) fun ht => .whenNot (.dramCeNote ht) fun hu => .ceHistory hu

theorem State.canonical.dramDecode {d a off : Nat} {err : List Nat} {cmdErr : Bool} {keep left : Nat}
    (h : s.canonical) : (s.dramDecode d a off err cmdErr keep left).2.canonical := by
  dsimp only [State.dramDecode]
  refine .ite₂ (.dramUe h) (.ite₂ h ?_)
  split
  · exact .dramCe h
  · exact .dramUe h

theorem State.canonical.spareDecode {d off : Nat} {err : List Nat} {cmdErr : Bool} (h : s.canonical) :
    (s.spareDecode d off err cmdErr).canonical := by
  unfold State.spareDecode
  refine .ite (.dramUeNote (.keep h)) (.ite (.keep h) ?_)
  split
  · exact .ite (.keep h) (.dramCeNote (.keep h))
  · exact .dramUeNote (.keep h)

theorem State.canonical.tagBack {d : Nat} {r : DramRead} (h : s.canonical) : (s.tagBack d r).canonical :=
  .setDram h

/-! ### The 4,096 contexts -/

theorem State.canonical.ctxStore {c : Nat} {w : List Nat} (h : s.canonical) : (s.ctxStore c w).canonical :=
  .whenNot (.store (.store h)) fun ht => .raise ht

theorem State.canonical.setCtx {c : Nat} {w : List Nat} (h : s.canonical) : (s.setCtx c w).canonical :=
  .ite (.keep h) (.ctxStore h)

theorem State.canonical.chargeCtx {wr : Bool} {m c : Nat} (h : s.canonical) : (s.chargeCtx wr m c).canonical :=
  .chargeAs h

theorem State.canonical.evict {c : Nat} (h : s.canonical) : (s.evict c).canonical :=
  .count32 (.ctxStore (.chargeCtx (.chargeCtx (.keep h))))

theorem State.canonical.swapIn {c : Nat} (h : s.canonical) : (s.swapIn c).canonical :=
  .ite (.raise (.ctxStore h)) (.count32 (.chargeCtx (.keep h)))

theorem State.canonical.demand {own : List Nat} {c : Nat} {t : State} (h : s.canonical)
    (e : s.demand own c = some t) :
    t.canonical := by
  unfold State.demand at e
  split at e
  · cases e; exact h
  split at e
  · cases e; exact .swapIn (.keep h)
  split at e
  · cases e; exact .swapIn h
  split at e <;> cases e
  exact .swapIn (.evict h)

theorem State.canonical.demands {own cs : List Nat} {t : State} (h : s.canonical) (e : s.demands own cs = some t) :
    t.canonical := by
  induction cs generalizing s with
  | nil => cases e; exact h
  | cons c cs ih =>
    unfold State.demands at e
    split at e
    · next e1 => exact ih (.demand h e1) e
    · cases e

theorem State.canonical.tearDown {j : Job} {r : CmdRef} {cause c : Nat} (h : s.canonical) :
    (s.tearDown j r cause c).canonical :=
  .ite h (.raiseCmd (.ctxStore (.keep h)))

theorem State.canonical.queueShow {q : Nat} (h : s.canonical) : (s.queueShow q).canonical :=
  .setReg h

theorem State.canonical.takeMark {r : CmdRef} {q : Nat} (h : s.canonical) : (s.takeMark r q).canonical :=
  .queueShow (.setQueue h)

theorem State.canonical.takeRewind {q : Nat} (h : s.canonical) : (s.takeRewind q).canonical :=
  .queueShow (.setQueue h)

theorem State.canonical.freeCells {q : Nat} {cs : List Nat} (h : s.canonical) : (s.freeCells q cs).canonical :=
  .setFld (.setFld (.keep h))

theorem State.canonical.takeRelease {q : Nat} (h : s.canonical) : (s.takeRelease q).canonical :=
  .queueShow (.freeCells (.setQueue h))

/-! ### The page store -/

theorem State.canonical.kvLow (h : s.canonical) : (s.kvLow).canonical := .ite h (.raise (.keep h))

theorem State.canonical.setKvFree {n : Nat} (h : s.canonical) : (s.setKvFree n).canonical :=
  .ite (.kvLow (.setFld h)) (.ite (.keep (.setFld h)) (.setFld h))

theorem State.canonical.frameAcquire {f : Nat} (h : s.canonical) : (s.frameAcquire f).canonical :=
  .store h

theorem State.canonical.frameRelease {f : Nat} (h : s.canonical) : (s.frameRelease f).canonical :=
  .ite (.setFld (.keep (.store h))) (.store h)

theorem State.canonical.framePush {f : Nat} (h : s.canonical) : (s.framePush f).canonical :=
  .setKvFree (.store h)

theorem State.canonical.framePop (h : s.canonical) : (s.framePop).2.canonical :=
  .setKvFree (.setFld h)

theorem State.canonical.setNodeWord {x i v : Nat} (h : s.canonical) : (s.setNodeWord x i v).canonical :=
  .store h

theorem State.canonical.nodeCtxref {x : Nat} {k : ℤ} (h : s.canonical) : (s.nodeCtxref x k).canonical :=
  .setNodeWord h

theorem State.canonical.tableAcquire {root layers : Nat} (h : s.canonical) : (s.tableAcquire root layers).canonical :=
  .ite h (.foldl (.foldl h fun _ _ ht => .frameAcquire ht) fun _ _ ht => .nodeCtxref ht)

theorem State.canonical.tableRelease {root layers : Nat} (h : s.canonical) : (s.tableRelease root layers).canonical :=
  .ite h (.foldl (.foldl h fun _ _ ht => .frameRelease ht) fun _ _ ht => .nodeCtxref ht)

theorem State.canonical.retire {root ctx : Nat} (h : s.canonical) : (s.retire root ctx).canonical :=
  .keep h

theorem State.canonical.kvSkip (h : s.canonical) : (s.kvSkip).canonical := .count32 h

theorem State.canonical.modsUp {root : Nat} (h : s.canonical) : (s.modsUp root).canonical :=
  .store h

theorem State.canonical.prefixPage {root n : Nat} (h : s.canonical) : (s.prefixPage root n).2.1.canonical := by
  dsimp only [State.prefixPage]
  refine .ite₂₁ (.kvSkip h) (.ite₂₁ h (.ite₂₁ (.kvSkip h) ?_))
  split
  · exact .ite₂₁ (.kvSkip h) (.modsUp (.count32 (.store (.setNodeWord (.nodeCtxref (.foldl h fun _ _ ht => .store
      (.frameRelease (.frameAcquire ht))))))))
  · split
    · exact .ite₂₁ (.kvSkip h) (.modsUp (.count32 (.setFld (.store (.store (.when (.store (.foldl (.store (.store
        (.framePop h))) fun _ _ ht => .frameAcquire ht)) fun ht => .setNodeWord ht))))))
    · exact .kvSkip h

theorem State.canonical.prefixPages {root k n : Nat} (h : s.canonical) : (s.prefixPages root k n).1.canonical := by
  induction k generalizing s n with
  | zero => exact h
  | succ k ih =>
    have hp : (s.prefixPage root n).2.1.canonical := .prefixPage h
    unfold State.prefixPages
    split
    · next e => rw [e] at hp; exact hp
    · next e => rw [e] at hp; exact ih hp

theorem State.canonical.prefixEntry {root t0 t1 : Nat} (h : s.canonical) : (s.prefixEntry root t0 t1).1.canonical :=
  .ite₁ h (.ite₁ (.count h) (.prefixPages h))

theorem State.canonical.nodeEvict {x : Nat} (h : s.canonical) : (s.nodeEvict x).canonical := by
  unfold State.nodeEvict
  refine .setFld (.ite (.setNodeWord (.foldl (.setNodeWord ?_) fun _ _ ht => .frameRelease ht)) (.foldl
    (.setNodeWord ?_) fun _ _ ht => .frameRelease ht))
  · split
    · exact .store h
    · exact h
  · split
    · exact .store h
    · exact h

/-! ### How commands and jobs end -/

theorem State.canonical.cqPut {set type : Nat} {ws : List Nat} {r : Option CmdRef} (h : s.canonical) :
    (s.cqPut set type ws r).canonical :=
  .ite (.keep h) (.ringPut h)

theorem State.canonical.dropOwned {c : Cmd} (h : s.canonical) : (s.dropOwned c).canonical :=
  .foldl h fun _ _ ht => .setReg ht

theorem State.canonical.dropReserve {c : Cmd} (h : s.canonical) : (s.dropReserve c).canonical :=
  .setFld h

theorem State.canonical.runOver {r : CmdRef} (h : s.canonical) : (s.runOver r).canonical := .keep h

theorem State.canonical.abandon {c : Cmd} (h : s.canonical) : (s.abandon c).canonical :=
  .dropOwned (.dropReserve (.foldl (.foldl (.spoil (.runOver h)) fun _ _ ht => .takeRewind ht)
    fun _ _ ht => .framePush ht))

theorem State.canonical.goldenOver {c : Cmd} {status : Nat} (h : s.canonical) : (s.goldenOver c status).canonical :=
  .updCmd (.abandon h)

theorem State.canonical.failCmd {j : Job} {c : Cmd} {status : Nat} {tears : Bool} (h : s.canonical) :
    (s.failCmd j c status tears).canonical :=
  .ite (.goldenOver h) (.foldl (.raiseCmd (.cqPut (.updCmd (.abandon h)))) fun _ _ ht => .tearDown ht)

theorem State.canonical.killedInfo {c : Cmd} (h : s.canonical) : (s.killedInfo c).2.canonical :=
  .ite₂ (.keep h) h

theorem State.canonical.killedCmd {j : Job} {c : Cmd} (h : s.canonical) : (s.killedCmd j c).canonical :=
  .ite (.goldenOver h) (.cqPut (.updJob (.updCmd (.abandon (.killedInfo h)))))

theorem State.canonical.skipOne {serial : Nat} {r : CmdRef} (h : s.canonical) : (s.skipOne serial r).canonical := by
  unfold State.skipOne
  split
  · exact h
  · refine .ite h (.ite h ?_)
    dsimp only
    split
    · exact h
    · exact .cqPut (.updJob h)

theorem State.canonical.skips (h : s.canonical) : (s.skips).canonical := by
  unfold State.skips
  split
  · exact h
  · exact .ite h (.foldl h fun _ _ ht => .foldl ht fun _ _ hu => .skipOne hu)

theorem State.canonical.drainSet {set : Nat} (h : s.canonical) : (s.drainSet set).canonical :=
  .ite (.setFld (.setFld h)) h

theorem State.canonical.goldenDefer {j : Job} (h : s.canonical) : (s.goldenDefer j).canonical :=
  .ite (.setFld h) h

theorem State.canonical.noteFrame {j : Job} (h : s.canonical) : (s.noteFrame j).canonical :=
  .ite h (.keep h)

theorem State.canonical.endJob {j : Job} {status : Nat} (h : s.canonical) : (s.endJob j status).canonical :=
  .drainSet (.cqPut (.noteFrame (.keep (.ite (.goldenDefer h) h))))

theorem State.canonical.jobCheck (h : s.canonical) : (s.jobCheck).canonical := by
  unfold State.jobCheck
  split
  · exact h
  · exact .ite (.endJob h) h

theorem State.canonical.suspendJob (h : s.canonical) : (s.suspendJob).canonical := by
  unfold State.suspendJob
  split
  · exact .keep (.updJob (.raiseJob h))
  · exact h

theorem State.canonical.limitJob {serial : Nat} (h : s.canonical) : (s.limitJob serial).canonical := by
  unfold State.limitJob
  split
  · exact h
  · dsimp only
    split
    · exact .endJob (.foldl h fun _ _ ht => .raiseCmd (.cqPut (.updJob ht)))
    · exact .foldl h fun _ _ ht => .raiseCmd (.cqPut (.updJob ht))

theorem State.canonical.killDone {k : KillRec} (h : s.canonical) : (s.killDone k).canonical := by
  unfold State.killDone
  extract_lets t
  have ht : t.canonical := .foldl h fun _ _ hu => by
    split
    · exact .ite (.killedCmd hu) (.failCmd hu)
    · exact hu
  split
  · exact .jobCheck (.skips ht)
  · exact .suspendJob ht
  · split
    · exact .limitJob ht
    · exact ht

theorem State.canonical.killsDone {n : Nat} (h : s.canonical) : (State.killsDone n s).canonical := by
  induction n generalizing s with
  | zero => exact h
  | succ n ih =>
    unfold State.killsDone
    split
    · exact h
    · exact ih (.killDone (.keep h))

theorem State.canonical.kill {rs : List CmdRef} {status : Nat} {tears : Bool} {after : KillThen} (h : s.canonical) :
    (s.kill rs status tears after).canonical := by
  unfold State.kill
  extract_lets refs cs dies t u k
  have ht : t.canonical := .foldl h fun _ _ hx => .updCmd hx
  have hu : u.canonical := by
    unfold u
    refine .ite ht ?_
    split
    · exact .updJob ht
    · exact ht
  exact .ite hu (.ite (.killDone hu) (.keep hu))

theorem State.canonical.preempt (h : s.canonical) : (s.preempt).canonical := .kill h

theorem State.canonical.jobLimit {serial : Nat} (h : s.canonical) : (s.jobLimit serial).canonical := by
  unfold State.jobLimit
  split
  · exact h
  · split
    · exact h
    · exact .limitJob h
    · exact .keep h
    · exact .kill h

theorem State.canonical.faultCmd {r : CmdRef} {die lea tile status : Nat} {tears : Bool} (h : s.canonical) :
    (s.faultCmd r die lea tile status tears).canonical :=
  .ite h (.kill (.updCmd h))

theorem State.canonical.overwriteRecord {q status : Nat} (h : s.canonical) :
    (s.overwriteRecord q status).canonical := by
  unfold State.overwriteRecord
  split
  · exact h
  · exact .keep h

theorem State.canonical.flushQueue {q status : Nat} (h : s.canonical) : (s.flushQueue q status).canonical :=
  .queueShow (.setReg (.setReg (.setReg (.setQueue (.freeCells (.ite h (.overwriteRecord h)))))))

theorem State.canonical.iqmUe {q cell : Nat} (h : s.canonical) : (s.iqmUe q cell).canonical :=
  .raise (.count32 h)

theorem State.canonical.linkUe {q cell : Nat} (h : s.canonical) : (s.linkUe q cell).canonical :=
  .flushQueue (.iqmUe h)

/-! ### The Fuora Die Link -/

theorem State.canonical.setPort {die p : Nat} {x : Port} (h : s.canonical) : (s.setPort die p x).canonical :=
  .keep h

theorem State.canonical.setDie {die : Nat} {x : DieSt} (h : s.canonical) : (s.setDie die x).canonical :=
  .keep h

theorem State.canonical.raiseFdl {die p : Nat} {name : String} {arg0 : Nat} (h : s.canonical) :
    (s.raiseFdl die p name arg0).canonical :=
  .raise h

theorem State.canonical.chargeMsg {die p : Nat} {m : Msg} (h : s.canonical) : (s.chargeMsg die p m).canonical := by
  unfold State.chargeMsg
  split
  · exact .charge h
  · exact h

theorem State.canonical.pump {die p : Nat} (h : s.canonical) : (s.pump die p).canonical :=
  .ite h (.foldl (.setPort h) fun _ _ ht => .chargeMsg ht)

theorem State.canonical.bareFlit {die p ty : Nat} (h : s.canonical) : (s.bareFlit die p ty).canonical :=
  .ite (.setPort h) h

theorem State.canonical.queueMsg {die p from_ : Nat} {m : Msg} (h : s.canonical) :
    (s.queueMsg die p from_ m).canonical :=
  .pump (.setPort h)

theorem State.canonical.answerAbsent {die : Nat} {f : Forwarded} (h : s.canonical) :
    (s.answerAbsent die f).canonical :=
  .when (.ite h (.queueMsg h)) fun ht => .queueMsg ht

theorem State.canonical.sideSend {die p v : Nat} (h : s.canonical) : (s.sideSend die p v).canonical :=
  .setPort h

theorem State.canonical.sideTake {die p v : Nat} (h : s.canonical) : (s.sideTake die p v).canonical := by
  unfold State.sideTake
  split
  · exact .ite (.setPort h) h
  · exact h

theorem State.canonical.retrain {die p : Nat} (h : s.canonical) : (s.retrain die p).canonical :=
  .ite h (.raiseFdl (.setPort (.setLink h)))

theorem State.canonical.retrainFirst {die p : Nat} (h : s.canonical) : (s.retrainFirst die p).canonical :=
  .ite h (.retrain (.queueMsg h))

theorem State.canonical.replay {die p : Nat} (h : s.canonical) : (s.replay die p).canonical :=
  .ite h (.when (.count32 (.setPort h)) fun ht => .retrainFirst ht)

theorem State.canonical.portDown {die p : Nat} (h : s.canonical) : (s.portDown die p).canonical :=
  .kill (.raiseFdl (.count32 (.foldl (.setFld (.setLink (.setPort h))) fun _ _ ht => .answerAbsent ht)))

theorem State.canonical.portLost {die p : Nat} (h : s.canonical) : (s.portLost die p).canonical :=
  .ite (.portDown h) h

theorem State.canonical.nakGap {die q : Nat} (h : s.canonical) : (s.nakGap die q).canonical :=
  .ite h (.bareFlit (.setPort h))

theorem State.canonical.flit {p : PortId} {bs : List Byte} {ty : Nat} {f : State → Nat → State} (h : s.canonical)
    (hf : ∀ t x, State.canonical t → (f t x).canonical) : (s.flit p bs ty f).canonical :=
  .ite h (.ite (.when (.count32 (.setPort h)) fun ht => .nakGap ht) (.when (.pump (.setPort (.ite (.setFld
    (.setPort h)) (.setPort h)))) fun ht => hf _ _ ht))

theorem State.canonical.ctrlIn {die q : Nat} {m : Msg} (h : s.canonical) : (s.ctrlIn die q m).canonical :=
  .ite (.retrain h) (.ite (.portLost h) h)

theorem execFlitData_keepsCanonical {p : PortId} {flit : List Byte} (h : s.canonical) :
    KeepsCanonical (execFlitData p flit s) := by
  unfold execFlitData
  refine .next (.live h (.flit h (fun _ _ ht => .ite (.nakGap ht) ?_)))
  dsimp only
  split
  · exact .retrainFirst (.setPort ht)
  · exact .foldl (.bareFlit (.setPort ht)) fun _ _ hu => .ctrlIn hu

theorem execFlitIdle_keepsCanonical {p : PortId} {flit : List Byte} (h : s.canonical) :
    KeepsCanonical (execFlitIdle p flit s) :=
  .next (.live h (.flit h (fun _ _ ht => ht)))

theorem execFlitNak_keepsCanonical {p : PortId} {flit : List Byte} (h : s.canonical) :
    KeepsCanonical (execFlitNak p flit s) :=
  .next (.live h (.flit h (fun _ _ ht => .replay ht)))

theorem execReplayTimeout_keepsCanonical {p : PortId} (h : s.canonical) : KeepsCanonical (execReplayTimeout p s) :=
  .next (.live h (.ite (.replay h) h))

theorem execCtrlRetrain_keepsCanonical {p : PortId} (h : s.canonical) : KeepsCanonical (execCtrlRetrain p s) :=
  .next (.live h (.ite (.retrain h) h))

theorem execTrainingPatternDetect_keepsCanonical {p : PortId} (h : s.canonical) :
    KeepsCanonical (execTrainingPatternDetect p s) :=
  .next (.live h (.ite (.retrain (.setPort h)) h))

theorem State.canonical.notifyTaken {die p : Nat} (h : s.canonical) : (s.notifyTaken die p).canonical := by
  unfold State.notifyTaken
  dsimp only
  split
  · exact .ite (.setDie h) h
  · exact h

theorem execCtrlResetNotify_keepsCanonical {p : PortId} (h : s.canonical) :
    KeepsCanonical (execCtrlResetNotify p s) :=
  .next (.live h (.ite (.portLost (.notifyTaken h)) h))

theorem execLinkRxTimeout_keepsCanonical {p : PortId} (h : s.canonical) : KeepsCanonical (execLinkRxTimeout p s) :=
  .next (.live h (.ite (.portLost h) h))

theorem State.canonical.sendCaps {die p : Nat} (h : s.canonical) : (s.sendCaps die p).canonical :=
  .foldl h fun _ _ ht => .sideSend ht

theorem State.canonical.startNegotiate {die p : Nat} (h : s.canonical) : (s.startNegotiate die p).canonical := by
  unfold State.startNegotiate
  exact .sendCaps (.setPort (.setLink h))

theorem State.canonical.refuseLink {die p cause : Nat} (h : s.canonical) : (s.refuseLink die p cause).canonical :=
  .raiseFdl (.setFld (.setFld (.setLink h)))

theorem State.canonical.negotiate {die p r : Nat} (h : s.canonical) : (s.negotiate die p r).canonical :=
  .ite (.refuseLink (.setReg (.setReg h))) (.ite (.refuseLink (.setReg (.setReg h))) (.when (.sideSend (.setPort
    (.setReg (.setReg (.setReg (.setReg (.setReg h))))))) fun ht => .raiseFdl ht))

theorem execCap_keepsCanonical {p : PortId} {part : Byte} {data : BitVec 48} (h : s.canonical) :
    KeepsCanonical (execCap p part data s) :=
  .next (.live h (.ite (.sideTake h) (.ite (.count32 (.sideTake h)) (.ite (.sideTake h) (.when (.setPort
    (.sideTake h)) fun ht => .negotiate ht)))))

theorem execCapAck_keepsCanonical {p : PortId} {crc : BitVec 16} (h : s.canonical) :
    KeepsCanonical (execCapAck p crc s) :=
  .next (.live h (.ite (.sideTake h) (.ite (.setLink (.sideTake h)) (.ite (.refuseLink (.sideTake h)) (.sendCaps
    (.setPort (.sideTake h)))))))

theorem execHello_keepsCanonical {p : PortId} {id : Word32} (h : s.canonical) : KeepsCanonical (execHello p id s) :=
  .next (.live h (.ite h (.ite (.startNegotiate (.sideTake h)) (.sideTake h))))

theorem State.canonical.repairLanes {die p m : Nat} {ls : List Nat} (h : s.canonical) :
    (s.repairLanes die p m ls).canonical := by
  induction ls generalizing s with
  | nil => exact h
  | cons l ls ih =>
    unfold State.repairLanes
    dsimp only
    split
    · exact h
    · exact ih (.frecNote (.raiseFdl (.setFld h)))

theorem State.canonical.factoryRepairs {die : Nat} (h : s.canonical) : (s.factoryRepairs die).canonical := by
  unfold State.factoryRepairs
  refine .foldl h fun _ _ ht => ?_
  dsimp only
  split
  · exact .setFld ht
  · exact ht

theorem State.canonical.moduleResult {die p m : Nat} {lanes : List Nat} {redundant : Bool} (h : s.canonical) :
    (s.moduleResult die p m lanes redundant).1.canonical :=
  .ite₁ h (.ite₁ (.frecNote (.replaceReq (.raiseFdl (.setPort h)))) (.when (.repairLanes h) fun ht => .replaceReq ht))

theorem State.canonical.laneTests {p : PortId} {mods : List ModuleTest} {eye : Eye} (h : s.canonical) :
    (s.laneTests p mods eye).1.canonical := by
  unfold State.laneTests
  refine .ite (.setReg (.setFld (.foldl₁ h fun _ _ ht => ?_))) (.setFld (.foldl₁ h fun _ _ ht => ?_))
  · dsimp only
    split
    · exact .moduleResult ht
    · exact .moduleResult ht
  · dsimp only
    split
    · exact .moduleResult ht
    · exact .moduleResult ht

theorem State.canonical.heathBack {die p : Nat} (h : s.canonical) : (s.heathBack die p).canonical :=
  .ite (.ite (.raise (.setFld h)) (.setFld h)) h

theorem State.canonical.standby {die p : Nat} (h : s.canonical) : (s.standby die p).canonical :=
  .ite (.heathBack (.pump (.setLink (.setPort (.setLink h))))) (.pump (.setPort (.setLink h)))

theorem execLinkTrainDone_keepsCanonical {p : PortId} {mods : List ModuleTest} {eye : Eye} (h : s.canonical) :
    KeepsCanonical (execLinkTrainDone p mods eye s) :=
  .next (.live h (.ite h (.ite (.setFld (.setLink (.laneTests h))) (.ite (.setPort (.laneTests h)) (.standby
    (.laneTests h))))))

theorem State.canonical.testResult {die p passed failed : Nat} (h : s.canonical) :
    (s.testResult die p passed failed).canonical :=
  .ite (.setFld (.setReg h)) h

theorem execRetrainEnd_keepsCanonical {p : PortId} {mods : List ModuleTest} {eye : Eye} (h : s.canonical) :
    KeepsCanonical (execRetrainEnd p mods eye s) :=
  .next (.live h (.ite h (.ite (.portDown (.testResult (.laneTests h))) (.pump (.replay (.setPort (.setLink
    (.testResult (.laneTests h)))))))))

theorem execRejoin_keepsCanonical {p : PortId} {pos : Fin 16} (h : s.canonical) :
    KeepsCanonical (execRejoin p pos s) :=
  .next (.live h (.ite h (.ite (.count32 h) (.ite h (.foldl (.sideTake h) fun _ _ ht => .ite (.pump
    (.setLink ht)) ht)))))

theorem execFence_keepsCanonical {p : PortId} {pos : Fin 16} (h : s.canonical) :
    KeepsCanonical (execFence p pos s) := by
  unfold execFence
  refine .next (.live h (.ite h (.ite (.count32 h) (.ite h ?_))))
  dsimp only
  split
  · exact .portLost (.sideTake h)
  · exact .sideTake h

theorem State.canonical.fdlTest {init : Nat} {p : PortId} {pattern : Nat} (h : s.canonical) :
    (s.fdlTest init p pattern).canonical :=
  .ite h (.ite (.setFld h) (.retrainFirst (.setFld (.setFld h))))

theorem execFdlTestP1_keepsCanonical {init : Init} {p : PortId} (h : s.canonical) :
    KeepsCanonical (execFdlTestP1 init p s) :=
  .next (.live h (.fdlTest h))

theorem execFdlTestP2_keepsCanonical {init : Init} {p : PortId} (h : s.canonical) :
    KeepsCanonical (execFdlTestP2 init p s) :=
  .next (.live h (.fdlTest h))

theorem execFdlTestP3_keepsCanonical {init : Init} {p : PortId} (h : s.canonical) :
    KeepsCanonical (execFdlTestP3 init p s) :=
  .next (.live h (.fdlTest h))

theorem execFdlCntClrErr_keepsCanonical {init : Init} {p : PortId} (h : s.canonical) :
    KeepsCanonical (execFdlCntClrErr init p s) :=
  .next (.ite h (.ite (.foldl h fun _ _ ht => .setReg ht) h))

/-! ### What every meaning of the safety islands shares -/

theorem State.canonical.setHeath {a1 : Nat} {x : HeathSt} (h : s.canonical) : (s.setHeath a1 x).canonical :=
  .keep h

theorem State.canonical.setRole {a1 v : Nat} (h : s.canonical) : (s.setRole a1 v).canonical :=
  .setFld h

theorem State.canonical.setWithheld {a1 : Nat} {b : Bool} (h : s.canonical) : (s.setWithheld a1 b).canonical :=
  .setFld h

theorem State.canonical.heathEvent {a1 : Nat} {name : String} {arg0 arg1 : Nat} (h : s.canonical) :
    (s.heathEvent a1 name arg0 arg1).canonical :=
  .ite (.raiseEv h) (.ite (.setHeath h) (.count32 (.setHeath h)))

theorem State.canonical.heathFlush {a1 : Nat} (h : s.canonical) : (s.heathFlush a1).canonical :=
  .ite (.foldl (.setHeath h) fun _ _ ht => .ite (.keep ht) (.eventOut ht)) h

theorem State.canonical.crossSend {a1 : Nat} {withTraj : Bool} (h : s.canonical) :
    (s.crossSend a1 withTraj).canonical :=
  .when (.ite (.setHeath h) h) fun ht => .setHeath ht

/-! ### The commands of the flow regulator -/

theorem execFlrWindowStart_keepsCanonical {die : Fin 5} (h : s.canonical) :
    KeepsCanonical (execFlrWindowStart die s) :=
  .next (.live h (.ite h (.foldl (.setReg h) fun _ _ ht => .setReg (.foldl ht fun _ _ hu => .keep (.setReg hu)))))

theorem execUrgencyRise_keepsCanonical {die : Fin 7} {source : Fin 3} {slack : Nat} (h : s.canonical) :
    KeepsCanonical (execUrgencyRise die source slack s) :=
  .next (.live h (.ite (.setUrgency h) h))

theorem execUrgencyFall_keepsCanonical {die : Fin 7} {source : Fin 3} {slack : Nat} (h : s.canonical) :
    KeepsCanonical (execUrgencyFall die source slack s) :=
  .next (.live h (.ite (.setUrgency h) h))

theorem execFlrBudgetWrite_keepsCanonical {init : Init} {die q : Fin 5} {c : Fin 8} {value : Word32}
    (h : s.canonical) :
    KeepsCanonical (execFlrBudgetWrite init die q c value s) :=
  .next (.live h (.ite h (.setReg h)))

theorem execFlrIqmUrgWrite_keepsCanonical {init : Init} {value : Word32} (h : s.canonical) :
    KeepsCanonical (execFlrIqmUrgWrite init value s) :=
  .next (.live h (.ite (.setReg h) h))

theorem execFlrCntClrLat_keepsCanonical {init : Init} {die : Fin 5} (h : s.canonical) :
    KeepsCanonical (execFlrCntClrLat init die s) :=
  .next (.live h (.ite (.setReg (.setReg h)) h))

theorem execFlrCntClrOver_keepsCanonical {init : Init} {die : Fin 5} (h : s.canonical) :
    KeepsCanonical (execFlrCntClrOver init die s) :=
  .next (.live h (.ite (.foldl (.foldl h fun _ _ ht => .setReg ht) fun _ _ ht => .foldl ht
    fun _ _ hu => .setReg hu) h))

/-! ### The checkers' registers of a tile -/

theorem State.canonical.injectFire {d l a3 target : Nat} (h : s.canonical) : (s.injectFire d l a3 target).canonical :=
  .ite (.setFld (.setReg h)) h

theorem State.canonical.sramFire {d l a3 : Nat} (h : s.canonical) : (s.sramFire d l a3).canonical :=
  .injectFire (.injectFire h)

theorem State.canonical.tileError {d l a3 off : Nat} {ue : Bool} (h : s.canonical) :
    (s.tileError d l a3 off ue).canonical :=
  .setReg (.count32 h)

theorem State.canonical.countSkips {d l a3 : Nat} {n : Nat × Nat} (h : s.canonical) :
    (s.countSkips d l a3 n).canonical :=
  .count (.count h)

/-! ### What every tile instruction shares -/

theorem State.canonical.threadFault {a1 : SlotId} {th : ThreadSlot} {status : Nat} (h : s.canonical) :
    (s.threadFault a1 th status).canonical :=
  .send (.setSlot h)

theorem State.canonical.issue {a1 : SlotId} {xs vs : List Nat} {body : ThreadSlot → Cmd → State} (h : s.canonical)
    (hbody : ∀ x y, (body x y).canonical) : (s.issue a1 xs vs body).canonical := by
  unfold State.issue
  dsimp only
  split
  · exact h
  · exact .ite h (.ite (.threadFault h) (.ite h (hbody _ _)))

theorem State.canonical.alu {a1 : SlotId} {rd : Nat} {srcs : List Nat} {f : ThreadSlot → Word} (h : s.canonical) :
    (s.alu a1 rd srcs f).canonical :=
  .issue h (fun _ _ => .setSlot h)

theorem State.canonical.addFlags {r : CmdRef} {f : BitVec 8} (h : s.canonical) : (s.addFlags r f).canonical :=
  .ite h (.updCmd h)

/-! ### The free tile and the swap, retirement, rebinding, rows that wait for repair, and what follows a checker
mismatch or an uncorrectable error of a tile's or a pool's SRAM -/

theorem State.canonical.accessFault {a1 : SlotId} {th : ThreadSlot} {status : Nat} {spans : List (Nat × Nat)}
    (h : s.canonical) : (s.accessFault a1 th status spans).canonical :=
  .ite (.kill h) (.threadFault h)

theorem State.canonical.setFreeState {d l v : Nat} (h : s.canonical) : (s.setFreeState d l v).canonical :=
  .setFld h

theorem State.canonical.setTileSt {d l a3 st n : Nat} (h : s.canonical) : (s.setTileSt d l a3 st n).canonical :=
  .setFld (.setFld h)

theorem State.canonical.zeroTile {d l t : Nat} (h : s.canonical) : (s.zeroTile d l t).canonical :=
  ⟨wfFrom_filter _ _ _ _ h.1, h.2⟩

theorem State.canonical.swapRefused {d l n : Nat} (h : s.canonical) : (s.swapRefused d l n).canonical :=
  .raise h

theorem State.canonical.swapRequest {d l n : Nat} (h : s.canonical) : (s.swapRequest d l n).canonical :=
  .ite (.swapRefused (.setFld h)) (.setLea (.setFld (.setFld h)))

theorem State.canonical.noFreeTile {d l : Nat} (h : s.canonical) : (s.noFreeTile d l).canonical :=
  .replaceReq (.setFld (.setFld (.setFreeState (.setFld h))))

theorem State.canonical.moveTile {d l n : Nat} (h : s.canonical) : (s.moveTile d l n).canonical :=
  .ite (.noFreeTile (.setTileSt (.setTileSt (.setFld h)))) (.setFreeState (.setFld (.setTileSt (.setTileSt
    (.setFld h)))))

theorem State.canonical.reportRow {a : Nat} (h : s.canonical) : (s.reportRow a).canonical := by
  unfold State.reportRow
  split
  · exact .ite h (.keep h)
  · exact h

theorem State.canonical.retireTile {d l a3 : Nat} (h : s.canonical) : (s.retireTile d l a3).canonical :=
  .ite h (.ite (.noFreeTile (.setTileSt (.frecNote (.raise (.setFld h))))) (.when (.frecNote (.raise
    (.setFld h))) fun ht => .kill (.setLea ht)))

theorem State.canonical.swapOut {d l a3 : Nat} (h : s.canonical) : (s.swapOut d l a3).canonical := by
  unfold State.swapOut
  refine .ite (.setTile h) ?_
  dsimp only
  split
  · refine .setLea (.moveTile (.setTile (.setLea ?_)))
    split
    · exact .ite h (.swapRefused (.setFld h))
    · exact h
  · exact .setTile h
  · exact .setTile (.setLea (.setTileSt (.setFreeState h)))
  · exact .setTile h

theorem State.canonical.failedNext {d l : Nat} (h : s.canonical) : (s.failedNext d l).canonical := by
  unfold State.failedNext
  split
  · exact h
  · exact .ite (.retireTile h) (.ite (.swapRequest h) h)

theorem State.canonical.failTile {d l a3 : Nat} (h : s.canonical) : (s.failTile d l a3).canonical :=
  .failedNext (.setTile h)

theorem State.canonical.countMismatch {d l a3 check : Nat} (h : s.canonical) :
    (s.countMismatch d l a3 check).canonical :=
  .count32 (.setReg (.setReg (.setReg (.setFld (.count h)))))

theorem State.canonical.rerunOnce {r : CmdRef} {d l a4 status : Nat} (h : s.canonical) :
    (s.rerunOnce r d l a4 status).canonical := by
  unfold State.rerunOnce
  split
  · exact h
  · exact .ite h (.ite (.faultCmd h) (.kill (.updCmd h)))

theorem State.canonical.mismatch {r : CmdRef} {d l a4 check : Nat} (h : s.canonical) :
    (s.mismatch r d l a4 check).canonical := by
  unfold State.mismatch
  split
  · exact h
  · exact .ite h (.failedNext (.swapOut (.when (.rerunOnce (.raiseFor (.ite h (.updCmd (.countMismatch h)))))
      fun ht => .retireTile ht)))

theorem State.canonical.tileSramError {d l a3 a : Nat} {ue : Bool} (h : s.canonical) :
    (s.tileSramError d l a3 a ue).canonical :=
  .ite (.reportRow (.raise (.count32 (.tileError h)))) (.ite (.tileError h) (.keep (.tileError h)))

theorem State.canonical.tileUe {r : CmdRef} {d l a4 a : Nat} (h : s.canonical) : (s.tileUe r d l a4 a).canonical :=
  .rerunOnce (.failedNext (.swapOut (.tileSramError h)))

theorem State.canonical.poolError {d l a : Nat} {ue : Bool} (h : s.canonical) : (s.poolError d l a ue).canonical :=
  .ite (.reportRow (.addPoison (.raise (.count32 (.count32 h))))) (.ite (.count32 h) (.keep (.count32 h)))

theorem State.canonical.errLine {lines : List Nat} (h : s.canonical) : (s.errLine lines).2.canonical := by
  unfold State.errLine
  split
  · exact h
  · exact .keep h

theorem State.canonical.sramStore {r : CmdRef} {a : Nat} {bs : List Byte} {ecc : Ecc} (h : s.canonical) :
    (s.sramStore r a bs ecc).canonical := by
  unfold State.sramStore
  split
  · refine .ite (.store h) ?_
    dsimp only
    split
    · exact .store (.sramFire h)
    · exact .store (.tileSramError (.sramFire h))
    · exact .tileUe (.sramFire h)
  · refine .ite (.store h) ?_
    split
    · exact .store h
    · exact .store (.poolError h)
    · exact .poolError h
  · exact .store h

theorem State.canonical.mergeEcc {a n : Nat} (h : s.canonical) : (s.mergeEcc a n).2.canonical := by
  unfold State.mergeEcc
  split
  · exact .ite₂ h (.keep h)
  · exact h

theorem State.canonical.fetch {r : CmdRef} {a n : Nat} {ecc : Ecc} (h : s.canonical) :
    (s.fetch r a n ecc).2.canonical := by
  unfold State.fetch
  dsimp only
  split
  · split
    · exact .sramFire h
    · exact .tileSramError (.errLine (.sramFire h))
    · exact .tileUe (.errLine (.sramFire h))
  · refine .ite₂ h ?_
    split
    · exact h
    · exact .poolError (.errLine h)
    · exact .poolError (.errLine h)
  · exact .ite₂ (.chargeLines h) (.chargeLines h)
  · exact .ite₂ (.ite₂ (.linkUe (.keep h)) (.iqmUe (.keep h))) h
  · exact .ite₂ h (.keep h)
  · exact h

/-! ### The rings -/

theorem State.canonical.ringError {set : Nat} (h : s.canonical) : (s.ringError set).canonical :=
  .raise (.setFld h)

theorem State.canonical.ringIndex {set ring off v : Nat} (h : s.canonical) : (s.ringIndex set ring off v).canonical :=
  .ite (.ringError h) (.setReg h)

theorem execSqTailDoorbell_keepsCanonical {init : Init} {set : Fin 4} {value : Word32} (h : s.canonical) :
    KeepsCanonical (execSqTailDoorbell init set value s) :=
  .next (.live h (.ite h (.ringIndex h)))

theorem State.canonical.ringEnable {set v : Nat} (h : s.canonical) : (s.ringEnable set v).canonical :=
  .ite (.ringError (.ite (.setFld h) h)) (.whenNot (.ite (.setFld h) h) fun ht => .ite (.ringError (.setFld ht))
    (.keep (.setFld (.foldl (.setFld ht) fun _ _ hu => .setReg hu))))

theorem execRingEnable_keepsCanonical {init : Init} {set : Fin 4} {value : Word32} (h : s.canonical) :
    KeepsCanonical (execRingEnable init set value s) :=
  .next (.live h (.ite h (.ringEnable h)))

theorem execRingDisable_keepsCanonical {init : Init} {set : Fin 4} {value : Word32} (h : s.canonical) :
    KeepsCanonical (execRingDisable init set value s) :=
  .next (.live h (.ite h (.ite (.drainSet (.setFld (.ite (.setFld h) h))) (.setFld (.ite (.setFld h) h)))))

theorem execCompletionEntryWrite_keepsCanonical {set : Fin 4} (h : s.canonical) :
    KeepsCanonical (execCompletionEntryWrite set s) := by
  unfold execCompletionEntryWrite
  refine .next (.live h ?_)
  split
  · exact h
  · exact .ite h (.drainSet (.ringPut (.keep h)))

theorem State.canonical.sqTake {set : Nat} (h : s.canonical) : (s.sqTake set).canonical :=
  .keep (.setReg h)

theorem State.canonical.sqAnswer {set : Nat} {w : List Nat} {st : Nat} (h : s.canonical) :
    (s.sqAnswer set w st).canonical :=
  .cqPut h

theorem State.canonical.sqRun {set : Nat} {isOp : List Nat → Bool} {fails : List Nat → List Nat}
    {act : List Nat → State → State} (h : s.canonical) (hact : ∀ x t, State.canonical t → (act x t).canonical) :
    (s.sqRun set isOp fails act).canonical :=
  .ite h (.ite (.sqAnswer (.sqTake h)) (hact _ _ (.sqTake h)))

theorem State.canonical.ctxAlloc {c : Nat} {img : List Nat} {tokens : Nat} (h : s.canonical) :
    (s.ctxAlloc c img tokens).canonical :=
  .setCtx (.tableAcquire h)

theorem execCtxAlloc_keepsCanonical {set : Fin 4} (h : s.canonical) : KeepsCanonical (execCtxAlloc set s) :=
  .next (.live h (.sqRun h (fun _ _ ht => .sqAnswer (.ctxAlloc ht))))

theorem execCtxFree_keepsCanonical {set : Fin 4} (h : s.canonical) : KeepsCanonical (execCtxFree set s) :=
  .next (.live h (.sqRun h (fun _ _ ht => .sqAnswer (.ctxStore (.keep (.tableRelease ht))))))

theorem State.canonical.sqBlock {set op : Nat} {b : Bool} (h : s.canonical) : (s.sqBlock set op b).canonical :=
  .sqRun h (fun _ _ ht => .sqAnswer (.setCtx ht))

theorem execCtxBlock_keepsCanonical {set : Fin 4} (h : s.canonical) : KeepsCanonical (execCtxBlock set s) :=
  .next (.live h (.sqBlock h))

theorem execCtxUnblock_keepsCanonical {set : Fin 4} (h : s.canonical) : KeepsCanonical (execCtxUnblock set s) :=
  .next (.live h (.sqBlock h))

theorem State.canonical.kvRetired {root layers c : Nat} (h : s.canonical) : (s.kvRetired root layers c).canonical :=
  .raise (.tableRelease h)

theorem execCtxWrite_keepsCanonical {set : Fin 4} (h : s.canonical) : KeepsCanonical (execCtxWrite set s) :=
  .next (.live h (.sqRun h (fun _ _ ht => .sqAnswer (.when (.setCtx (.ite (.tableAcquire ht) ht))
    fun hu => .kvRetired hu))))

theorem execCtxRead_keepsCanonical {set : Fin 4} (h : s.canonical) : KeepsCanonical (execCtxRead set s) :=
  .next (.live h (.sqRun h (fun _ _ ht => .sqAnswer (.store ht))))

theorem State.canonical.preemptCheck (h : s.canonical) : (s.preemptCheck).canonical := by
  unfold State.preemptCheck
  split
  · exact .ite (.preempt h) h
  · exact h

theorem execJob_keepsCanonical {set : Fin 4} (h : s.canonical) : KeepsCanonical (execJob set s) :=
  .next (.live h (.sqRun h (fun _ _ ht => .preemptCheck (.keep ht))))

theorem execJobCancel_keepsCanonical {set : Fin 4} (h : s.canonical) : KeepsCanonical (execJobCancel set s) := by
  unfold execJobCancel
  refine .next (.live h (.sqRun h (fun _ _ ht => ?_)))
  split
  · exact .sqAnswer (.endJob ht)
  · exact ht

theorem execContextReadiness_keepsCanonical {ctx : Fin 4096} (h : s.canonical) :
    KeepsCanonical (execContextReadiness ctx s) :=
  .next (.live h (.ite h (.setCtx h)))

theorem execSwapInComplete_keepsCanonical {ctx : Fin 4096} (h : s.canonical) :
    KeepsCanonical (execSwapInComplete ctx s) :=
  .next (.live h (.ite h (.swapIn (.keep h))))

/-! ### What every meaning of the module fabric shares -/

theorem State.canonical.updCol {f : Col → Col} (h : s.canonical) : (s.updCol f).canonical := .keep h

theorem State.canonical.setColPort {p : Nat} {x : ColPort} (h : s.canonical) : (s.setColPort p x).canonical :=
  .updCol h

theorem State.canonical.effFabric (h : s.canonical) : (s.effFabric).canonical := by
  unfold State.effFabric
  exact .setModeFld h

theorem State.canonical.setColState {p v : Nat} (h : s.canonical) : (s.setColState p v).canonical :=
  .effFabric (.setFld h)

theorem State.canonical.colTrain {p : Nat} (h : s.canonical) : (s.colTrain p).canonical :=
  .setColPort (.setColState h)

theorem State.canonical.setColMember {v : Nat} (h : s.canonical) : (s.setColMember v).canonical :=
  .setFld h

theorem State.canonical.seqTake {f : ColFrame} (h : s.canonical) : (s.seqTake f).canonical :=
  .updCol h

theorem State.canonical.authFail (h : s.canonical) : (s.authFail).canonical := .updCol (.count32 h)

theorem State.canonical.colTake {p : Nat} {bs : List Byte} {type : Nat} {any : Bool} (h : s.canonical) :
    (s.colTake p bs type any).1.canonical := by
  unfold State.colTake
  refine .ite₁ (.updCol h) (.ite₁ (.count32 (.updCol h)) (.ite₁ (.updCol h) (.ite₁ (.ite₁ (.updCol h) (.ite
    (.updCol h) (.authFail (.updCol h)))) ?_)))
  split
  · exact .ite (.updCol h) (.authFail (.updCol h))
  · dsimp only
    split
    · exact .authFail (.updCol h)
    · exact .ite₁ (.authFail (.updCol h)) (.updCol (.seqTake (.updCol h)))

theorem State.canonical.mgmtTake {p : Nat} {bs : List Byte} {sub : Nat} {any : Bool} {f : State → ColFrame → State}
    (h : s.canonical) (hf : ∀ t x, t.canonical → (f t x).canonical) : (s.mgmtTake p bs sub any f).canonical := by
  unfold State.mgmtTake
  refine .ite h ?_
  split
  · next e => exact hf _ _ (.fst e (.colTake h))
  · next e => exact .fst e (.colTake h)

theorem State.canonical.colSend {p dst : Nat} {o : ColOut} (h : s.canonical) : (s.colSend p dst o).canonical :=
  .ite h (.updCol h)

theorem State.canonical.colTo {dst : Nat} {o : ColOut} (h : s.canonical) : (s.colTo dst o).canonical := by
  unfold State.colTo
  split
  · exact .colSend h
  · exact .count32 h

theorem State.canonical.colAll {o : ColOut} (h : s.canonical) : (s.colAll o).canonical :=
  .foldl h fun _ _ ht => .colSend ht

theorem State.canonical.remoteFrames {wr : Bool} {a n : Nat} {bs : List Byte} {cls task : Nat} (h : s.canonical) :
    (s.remoteFrames wr a n bs cls task).canonical := by
  unfold State.remoteFrames
  split
  · exact h
  · exact .foldl h fun _ _ ht => .colTo ht

theorem State.canonical.remoteSend {r : Option CmdRef} {slot a n : Nat} {wr : Bool} {bs : List Byte}
    (h : s.canonical) :
    (s.remoteSend r slot a n wr bs).canonical :=
  .whenNot (.remoteIssue h) fun ht => .remoteFrames ht

theorem State.canonical.toManagers {o : ColOut} (h : s.canonical) : (s.toManagers o).canonical :=
  .foldl h fun _ _ ht => .colTo ht

theorem State.canonical.remoteEnd {q : RemoteReq} {status : Nat} (h : s.canonical) :
    (s.remoteEnd q status).canonical :=
  .ite (.send (.setSlot (.updCol h))) (.ite (.foldl (.updCol h) fun _ _ ht => .faultCmd ht) (.updCol h))

theorem State.canonical.remoteGone {a : Nat} (h : s.canonical) : (s.remoteGone a).canonical :=
  .foldl h fun _ _ ht => .remoteEnd ht

theorem State.canonical.memberGone {a : Nat} (h : s.canonical) : (s.memberGone a).canonical :=
  .raise (.foldl (.updCol (.remoteGone h)) fun _ _ ht => .faultCmd ht)

theorem State.canonical.sendColl {x : CollOut} (h : s.canonical) : (s.sendColl x).canonical :=
  .colTo h

theorem State.canonical.mgrFollows (h : s.canonical) : (s.mgrFollows).canonical := .setFld h

theorem State.canonical.routeCommit {epoch : Nat} {table : Nat → Nat} {managers : List (Nat × Nat)} {key : Option Nat}
    (h : s.canonical) : (s.routeCommit epoch table managers key).canonical := by
  unfold State.routeCommit
  refine .foldl (.mgrFollows (.updCol ?_)) fun _ _ ht => .memberGone ht
  split
  · exact .whenNot (.setReg (.foldl h fun _ _ ht => .setReg ht)) fun ht => .updCol ht
  · exact .setReg (.foldl h fun _ _ ht => .setReg ht)

theorem State.canonical.newKey (h : s.canonical) : (s.newKey).2.canonical := .updCol (.keep h)

theorem State.canonical.sendKey {idx : Nat} (h : s.canonical) : (s.sendKey idx).canonical := by
  unfold State.sendKey
  split
  · exact .foldl h fun _ _ ht => .colTo ht
  · exact h

theorem State.canonical.leadRoutes (h : s.canonical) : (s.leadRoutes).2.canonical :=
  .foldl₂ h fun _ _ ht => .keep ht

theorem State.canonical.publishRoutes {out : List Nat} {key : Option Nat} (h : s.canonical) :
    (s.publishRoutes out key).canonical := by
  unfold State.publishRoutes
  exact .routeCommit (.foldl (.foldl (.leadRoutes h) fun _ _ ht => .colTo ht) fun _ _ ht => .colTo ht)

theorem State.canonical.colLeave (h : s.canonical) : (s.colLeave).canonical :=
  .updCol (.whenNot (.setFld (.setFld h)) fun ht => .setColMember ht)

theorem State.canonical.askAdmit {p : Nat} (h : s.canonical) : (s.askAdmit p).canonical :=
  .colSend h

theorem State.canonical.wasExpelled (h : s.canonical) : (s.wasExpelled).canonical :=
  .raise (.updCol (.colLeave h))

theorem State.canonical.probe {who : Nat} (h : s.canonical) : (s.probe who).canonical :=
  .ite h (.colTo (.updCol h))

theorem State.canonical.suspectPeer {p cause : Nat} (h : s.canonical) : (s.suspectPeer p cause).canonical :=
  .ite (.probe (.toManagers h)) h

theorem State.canonical.colDown {p : Nat} (h : s.canonical) : (s.colDown p).canonical :=
  .colTrain (.setFld (.suspectPeer h))

/-! ### The memory instructions, copies and the acknowledgement of their requests -/

theorem State.canonical.memIssue {a1 : SlotId} {xs vs : List Nat} {wr : Bool} {ea : ThreadSlot → Nat} {n al : Nat}
    {mk : ThreadSlot → ReqKind × List Byte} (h : s.canonical) : (s.memIssue a1 xs vs wr ea n al mk).canonical :=
  .issue h (fun _ _ => .ite h (.ite (.accessFault h) (.ite h (.remoteSend (.setSlot h)))))

theorem execLd_keepsCanonical {a0 : SlotId} {rt base : Fin 32} {sz : Fin 4} {imm : BitVec 12} (h : s.canonical) :
    KeepsCanonical (execLd a0 rt base sz imm s) :=
  .next (.live h (.memIssue h))

theorem execLdu_keepsCanonical {a0 : SlotId} {rt base : Fin 32} {sz : Fin 4} {imm : BitVec 12} (h : s.canonical) :
    KeepsCanonical (execLdu a0 rt base sz imm s) :=
  .next (.live h (.memIssue h))

theorem execSt_keepsCanonical {a0 : SlotId} {rt base : Fin 32} {sz : Fin 4} {imm : BitVec 12} (h : s.canonical) :
    KeepsCanonical (execSt a0 rt base sz imm s) :=
  .next (.live h (.memIssue h))

theorem execVld_keepsCanonical {a0 : SlotId} {vt : Fin 8} {base : Fin 32} {imm : BitVec 12} (h : s.canonical) :
    KeepsCanonical (execVld a0 vt base imm s) :=
  .next (.live h (.memIssue h))

theorem execVst_keepsCanonical {a0 : SlotId} {vt : Fin 8} {base : Fin 32} {imm : BitVec 12} (h : s.canonical) :
    KeepsCanonical (execVst a0 vt base imm s) :=
  .next (.live h (.memIssue h))

theorem execCopy_keepsCanonical {a0 : SlotId} {rd rs1 rs2 : Fin 32} {c : Fin 64} (h : s.canonical) :
    KeepsCanonical (execCopy a0 rd rs1 rs2 c s) :=
  .next (.live h (.issue h (fun _ _ => .ite h (.ite (.accessFault h) (.ite h (.remoteSend (.remoteSend
    (.setSlot h))))))))

theorem State.canonical.measureLoad {a1 : SlotId} {cls : Nat} {q : MemReq} (h : s.canonical) :
    (s.measureLoad a1 cls q).canonical := by
  unfold State.measureLoad
  split
  · exact .ite (.measureC7 h) h
  · exact h

theorem execMemoryRequestAck_keepsCanonical {t : SlotId} {i : Fin 16} {ecc : Ecc} (h : s.canonical) :
    KeepsCanonical (execMemoryRequestAck t i ecc s) := by
  unfold execMemoryRequestAck
  refine .next (.live h ?_)
  dsimp only
  split
  · exact h
  refine .ite h ?_
  split
  · exact h
  · exact .ite (.sramStore (.chargeLines (.setSlot h))) (.accessFault h)
  refine .ite (.accessFault h) ?_
  split
  · next e => exact .measureLoad (.setSlot (.snd e (.fetch h)))
  · next e => exact .threadFault (.snd e (.fetch h))
  · next e => exact .setSlot (.snd e (.fetch h))

/-! ### Synchronisation and control -/

theorem State.canonical.waitsSee {d l a3 k v : Nat} (h : s.canonical) : (s.waitsSee d l a3 k v).canonical :=
  .foldl h fun _ _ ht => .setSlot ht

theorem State.canonical.postApply {addr kind v : Nat} (h : s.canonical) : (s.postApply addr kind v).canonical := by
  unfold State.postApply
  split
  · exact .ite (.waitsSee (.setReg h)) h
  · exact h

theorem State.canonical.postBy {a1 : SlotId} {th : ThreadSlot} {addr kind v : Nat} (h : s.canonical) :
    (s.postBy a1 th addr kind v).canonical := by
  unfold State.postBy
  split
  · exact h
  · exact .ite (.keep h) (.updCmd h)

theorem execPost_keepsCanonical {a0 : SlotId} {rs1 rs2 : Fin 32} {kind : Fin 4} {rel : Bool} (h : s.canonical) :
    KeepsCanonical (execPost a0 rs1 rs2 kind rel s) :=
  .next (.live h (.issue h (fun _ _ => .ite h (.ite (.accessFault h) (.postBy (.setSlot h))))))

theorem execPostArrive_keepsCanonical {i : Nat} (h : s.canonical) : KeepsCanonical (execPostArrive i s) := by
  unfold execPostArrive
  refine .next (.live h ?_)
  split
  · exact h
  · exact .postApply (.keep h)

theorem execWait_keepsCanonical {a0 : SlotId} {rd rs1 rs2 : Fin 32} {c : Fin 64} {acq : Bool} (h : s.canonical) :
    KeepsCanonical (execWait a0 rd rs1 rs2 c acq s) :=
  .next (.live h (.issue h (fun _ _ => .setSlot h)))

theorem State.canonical.waitEnd {a1 : SlotId} {i : Nat} {arrived : Bool} {result : Word} (h : s.canonical) :
    (s.waitEnd a1 i arrived result).canonical := by
  unfold State.waitEnd
  dsimp only
  split
  · exact h
  · exact .ite h (.setSlot h)

theorem execWaitArrival_keepsCanonical {a0 : SlotId} {i : Nat} (h : s.canonical) :
    KeepsCanonical (execWaitArrival a0 i s) :=
  .next (.live h (.waitEnd h))

theorem execWaitTimeout_keepsCanonical {a0 : SlotId} {i : Nat} (h : s.canonical) :
    KeepsCanonical (execWaitTimeout a0 i s) :=
  .next (.live h (.waitEnd h))

theorem State.canonical.fence {a1 : SlotId} {release : Bool} (h : s.canonical) : (s.fence a1 release).canonical :=
  .issue h (fun _ _ => .ite h (.setSlot h))

theorem execFenceRelease_keepsCanonical {a0 : SlotId} (h : s.canonical) : KeepsCanonical (execFenceRelease a0 s) :=
  .next (.live h (.fence h))

theorem execFenceAcquire_keepsCanonical {a0 : SlotId} (h : s.canonical) : KeepsCanonical (execFenceAcquire a0 s) :=
  .next (.live h (.fence h))

theorem execFenceFull_keepsCanonical {a0 : SlotId} (h : s.canonical) : KeepsCanonical (execFenceFull a0 s) :=
  .next (.live h (.fence h))

theorem execCopyComplete_keepsCanonical {t : SlotId} {i : Fin 16} {ecc : Ecc} (h : s.canonical) :
    KeepsCanonical (execCopyComplete t i ecc s) := by
  unfold execCopyComplete
  refine .next (.live h ?_)
  dsimp only
  split
  · refine .ite h (.ite (.postBy (.setSlot h)) (.ite (.accessFault h) ?_))
    split
    · next e => exact .postBy (.setSlot (.store (.chargeLines (.measureLoad (.keep (.snd e (.fetch h)))))))
    · next e => exact .threadFault (.snd e (.fetch h))
    · next e => exact .setSlot (.snd e (.fetch h))
  · exact h

theorem execTdld_keepsCanonical {a0 : SlotId} {dreg : Fin 4} {idx : Fin 64} (h : s.canonical) :
    KeepsCanonical (execTdld a0 dreg idx s) :=
  .next (.live h (.issue h (fun _ _ => .ite (.threadFault h) (.setSlot h))))

theorem State.canonical.readCopy {d : Nat} (h : s.canonical) : (s.readCopy d).2.canonical :=
  .keep (.keep h)

theorem execRdid_keepsCanonical {a0 : SlotId} {rd sel : Fin 32} (h : s.canonical) :
    KeepsCanonical (execRdid a0 rd sel s) := by
  unfold execRdid
  refine .next (.live h (.issue h (fun _ _ => ?_)))
  dsimp only
  split
  · exact .setSlot h
  · exact .setSlot h
  · exact .setSlot h
  · exact .setSlot h
  · exact .setSlot h
  · exact .setSlot h
  · exact .setSlot (.readCopy h)
  · exact .setSlot h
  · exact .setSlot h
  · exact .setSlot h
  · exact .setSlot h
  · exact .threadFault h

theorem State.canonical.lta {a1 : SlotId} {rd rs1 : Nat} {f : Share → Nat} (h : s.canonical) :
    (s.lta a1 rd rs1 f).canonical := by
  unfold State.lta
  refine .issue h (fun _ _ => ?_)
  split
  · exact .setSlot h
  · exact .threadFault h

theorem execLtaSram_keepsCanonical {a0 : SlotId} {rd rs1 : Fin 32} (h : s.canonical) :
    KeepsCanonical (execLtaSram a0 rd rs1 s) :=
  .next (.live h (.lta h))

theorem execLtaTil_keepsCanonical {a0 : SlotId} {rd rs1 : Fin 32} (h : s.canonical) :
    KeepsCanonical (execLtaTil a0 rd rs1 s) :=
  .next (.live h (.lta h))

theorem execExit_keepsCanonical {a0 : SlotId} (h : s.canonical) : KeepsCanonical (execExit a0 s) :=
  .next (.live h (.issue h (fun _ _ => .setSlot h)))

theorem execReservedInstruction_keepsCanonical {a0 : SlotId} {w : Word32} (h : s.canonical) :
    KeepsCanonical (execReservedInstruction a0 w s) :=
  .next (.live h (.issue h (fun _ _ => .ite (.threadFault h) h)))

theorem State.canonical.busyBit {d l a3 k : Nat} {b : Bool} (h : s.canonical) : (s.busyBit d l a3 k b).canonical :=
  .setFld h

theorem execThreadSlotFree_keepsCanonical {a0 : SlotId} (h : s.canonical) :
    KeepsCanonical (execThreadSlotFree a0 s) := by
  unfold execThreadSlotFree
  refine .next (.live h (.ite h (.ite h ?_)))
  dsimp only
  split
  · exact .busyBit (.setSlot h)
  · exact .whenNot (.busyBit (.setSlot h)) fun ht => .send (.updCmd ht)

theorem State.canonical.ownCounters {d l a3 mask : Nat} (h : s.canonical) : (s.ownCounters d l a3 mask).canonical :=
  .foldl (.setReg h) fun _ _ ht => .ite (.setReg ht) ht

theorem execTileShareStart_keepsCanonical {list : Fin 3} {idx : BitVec 16} {ltile : Fin 1024} (h : s.canonical) :
    KeepsCanonical (execTileShareStart list idx ltile s) := by
  unfold execTileShareStart
  refine .next (.live h ?_)
  dsimp only
  split
  · exact h
  · split
    · exact h
    · exact .ite h (.foldl (.updCmd h) fun _ _ ht => .busyBit (.setSlot ht))

/-! ### The start, resumption and time limit of jobs, the completion FIFO, and the golden test in its slot -/

theorem State.canonical.goldenBegin {j : Job} {b : Nat} {w : List Nat} (h : s.canonical) :
    (s.goldenBegin j b w).canonical :=
  .ite (.updJob (.keep h)) (.foldl (.updJob (.keep h)) fun _ _ ht => .ownCounters ht)

theorem State.canonical.goldenForce (h : s.canonical) : (s.goldenForce).canonical :=
  .kill (.raise (.keep h))

theorem State.canonical.goldenTestedMark {b : Nat} {failed : Bool} (h : s.canonical) :
    (s.goldenTestedMark b failed).canonical := by
  unfold State.goldenTestedMark
  extract_lets t sched u v
  have ht : t.canonical := by
    unfold t
    split
    · exact .updJob h
    · exact h
  have hu : u.canonical := .keep ht
  have hv : v.canonical := by
    unfold v
    refine .ite ?_ hu
    split
    · exact .raiseEv hu
    · exact hu
  exact .ite (.keep (.setFld (.setFld hv))) hv

theorem execGoldenReserve_keepsCanonical {l : LeaId} (h : s.canonical) : KeepsCanonical (execGoldenReserve l s) := by
  unfold execGoldenReserve
  refine .next (.live h ?_)
  dsimp only
  split
  · exact h
  · exact .ite h (.goldenBegin (.keep h))

theorem State.canonical.goldenEnd {l : LeaId} {status : Nat} (h : s.canonical) :
    (s.goldenEnd l status).canonical := by
  unfold State.goldenEnd
  dsimp only
  split
  · exact .ite (.send (.when (.updCmd (.updCmd h)) fun ht => .raiseFor ht)) (.send (.when (.updCmd (.updCmd h))
      fun ht => .raiseFor ht))
  · exact .jobCheck (.ite (.goldenTestedMark (.updCmd h)) (.updCmd h))

theorem execGoldenRunEnd_keepsCanonical {die : Fin 4} {lea : Fin 16} {diag : Bool} (h : s.canonical) :
    KeepsCanonical (execGoldenRunEnd die lea diag s) := by
  unfold execGoldenRunEnd
  refine .next (.live h ?_)
  dsimp only
  split
  · exact h
  · exact .ite h (.ite (.goldenEnd h) (.ite (.goldenEnd (.dropOwned (.runOver h))) h))

theorem execGoldenSlotTimeout_keepsCanonical {l : LeaId} (h : s.canonical) :
    KeepsCanonical (execGoldenSlotTimeout l s) := by
  unfold execGoldenSlotTimeout
  refine .next (.live h ?_)
  dsimp only
  split
  · exact h
  · exact .ite h (.ite (.kill h) (.kill (.goldenTestedMark h)))

theorem execJobStart_keepsCanonical (h : s.canonical) : KeepsCanonical (execJobStart s) := by
  unfold execJobStart
  refine .next (.live h ?_)
  split
  · exact h
  · exact .ite h (.ite (.endJob h) (.jobCheck (.when (.keep (.updJob h)) fun ht => .goldenForce ht)))

theorem execJobResume_keepsCanonical (h : s.canonical) : KeepsCanonical (execJobResume s) := by
  unfold execJobResume
  refine .next (.live h ?_)
  split
  · exact h
  · exact .ite h (.jobCheck (.skips (.keep (.updJob h))))

theorem State.canonical.timerRecord {r : FifoRec} (h : s.canonical) : (s.timerRecord r).canonical :=
  .ite h (.keep h)

theorem execJobTimeout_keepsCanonical {serial : Nat} (h : s.canonical) :
    KeepsCanonical (execJobTimeout serial s) := by
  unfold execJobTimeout
  refine .next (.live h ?_)
  split
  · exact h
  · exact .ite h (.timerRecord h)

theorem execCommandTimeout_keepsCanonical {list : Fin 2} {idx : BitVec 16} (h : s.canonical) :
    KeepsCanonical (execCommandTimeout list idx s) := by
  unfold execCommandTimeout
  refine .next (.live h ?_)
  dsimp only
  split
  · exact h
  · exact .ite h (.timerRecord h)

theorem State.canonical.attribute {r : CmdRef} {die lea ctx status : Nat} (h : s.canonical) :
    (s.attribute r die lea ctx status).canonical := by
  unfold State.attribute
  split
  · exact .ite (.kill (.updCmd (.ite (.count32 h) h))) (.kill (.tearDown (.updCmd (.ite (.count32 h) h))))
  · exact h

theorem execCompletionFifoRecord_keepsCanonical (h : s.canonical) : KeepsCanonical (execCompletionFifoRecord s) := by
  unfold execCompletionFifoRecord
  refine .next (.live h ?_)
  split
  · exact h
  · refine .ite h ?_
    dsimp only
    split
    · exact .ite (.updCmd (.keep h)) (.keep h)
    · exact .ite (.updCmd (.keep h)) (.keep h)
    · exact .ite (.faultCmd (.keep h)) (.keep h)
    · exact .ite (.attribute (.keep h)) (.keep h)
    · exact .jobLimit (.keep h)

/-! ### The commands of the Col ports and of the data frames of the fabric -/

theorem State.canonical.sendHello {p : Nat} (h : s.canonical) : (s.sendHello p).canonical :=
  .colSend h

theorem execColLockAchieved_keepsCanonical {p : Fin 4} (h : s.canonical) : KeepsCanonical (execColLockAchieved p s) :=
  .next (.live h (.ite h (.sendHello (.setColPort (.updCol (.setColState h))))))

theorem execColTrainingTimeout_keepsCanonical {p : Fin 4} (h : s.canonical) :
    KeepsCanonical (execColTrainingTimeout p s) :=
  .next (.live h (.ite (.colDown h) h))

theorem execColLossOfLock_keepsCanonical {p : Fin 4} {unc : Nat} (h : s.canonical) :
    KeepsCanonical (execColLossOfLock p unc s) :=
  .next (.live h (.ite (.colDown (.count h)) h))

theorem execColLaneFail_keepsCanonical {p : Fin 4} {lane : Fin 5} (h : s.canonical) :
    KeepsCanonical (execColLaneFail p lane s) :=
  .next (.live h (.ite h (.ite (.setColState (.setFld (.suspectPeer h))) (.colDown (.frecNote (.replaceReq (.raise
    (.setFld (.setFld (.setColPort h))))))))))

theorem execBypassClose_keepsCanonical {axis : Fin 2} (h : s.canonical) : KeepsCanonical (execBypassClose axis s) :=
  .next (.live h (.ite h (.foldl (.updCol h) fun _ _ ht => .ite ht (.setColState (.setFld ht)))))

theorem execBypassOpen_keepsCanonical {axis : Fin 2} (h : s.canonical) : KeepsCanonical (execBypassOpen axis s) :=
  .next (.live h (.ite h (.foldl (.updCol h) fun _ _ ht => .ite (.colTrain ht) ht)))

theorem State.canonical.standDown {p : Nat} (h : s.canonical) : (s.standDown p).canonical :=
  .askAdmit (.colLeave (.ite (.toManagers h) h))

theorem execColHello_keepsCanonical {p : Fin 4} {frame : List Byte} {uid fabric : Word} {name : Fin 4}
    {address : Option (BitVec 12)} {lead : Option Word} (h : s.canonical) :
    KeepsCanonical (execColHello p frame uid fabric name address lead s) := by
  unfold execColHello
  refine .next (.live h ?_)
  split
  · next e => exact .fst e (.colTake h)
  next t f e =>
  have ht : t.canonical := .fst e (.colTake h)
  refine .ite (.raise (.setColState (.setFld ht))) ?_
  extract_lets u
  have hu : u.canonical := by
    cases address
    · exact .setFld ht
    · exact .setFld (.setFld ht)
  refine .ite hu ?_
  split
  · exact hu
  · exact .ite (.standDown hu) (.when (.updCol hu) fun hv => .askAdmit hv)

theorem execColHeartbeat_keepsCanonical {p : Fin 4} {frame : List Byte} {fec unc : Nat} (h : s.canonical) :
    KeepsCanonical (execColHeartbeat p frame fec unc s) := by
  unfold execColHeartbeat
  refine .next (.live h ?_)
  split
  · next e => exact .fst e (.colTake h)
  next t f e =>
  have ht : t.canonical := .fst e (.colTake h)
  exact .when (.updCol (.setColPort (.count (.count ht)))) fun hu => .colDown hu

theorem execColHeartbeatSend_keepsCanonical (h : s.canonical) : KeepsCanonical (execColHeartbeatSend s) :=
  .next (.live h (.ite h (.colAll (.updCol h))))

theorem execColKey_keepsCanonical {p : Fin 4} {frame : List Byte} {idx : Fin 4} {wrapped : List Byte} {ecies : Bool}
    (h : s.canonical) : KeepsCanonical (execColKey p frame idx wrapped ecies s) := by
  unfold execColKey
  refine .next (.live h ?_)
  split
  · next e => exact .fst e (.colTake h)
  next t f e =>
  have ht : t.canonical := .fst e (.colTake h)
  refine .ite ?_ ?_
  · split
    · exact .colSend (.updCol ht)
    · exact ht
  · dsimp only
    split
    · exact ht
    · exact .updCol ht

theorem execKeyErase_keepsCanonical {key : Fin 4} (h : s.canonical) : KeepsCanonical (execKeyErase key s) := by
  unfold execKeyErase
  refine .next (.live h ?_)
  split
  · exact .ite (.updCol h) h
  · exact h

theorem State.canonical.colAnswer {f : ColFrame} {type status : Nat} {data : List Byte} (h : s.canonical) :
    (s.colAnswer f type status data).canonical :=
  .colTo h

theorem execColRd_keepsCanonical {p : Fin 4} {frame : List Byte} (h : s.canonical) :
    KeepsCanonical (execColRd p frame s) := by
  unfold execColRd
  refine .next (.live h ?_)
  split
  · next e => exact .fst e (.colTake h)
  next t f e =>
  have ht : t.canonical := .fst e (.colTake h)
  exact .colAnswer (.ite (.chargeAs ht) ht)

theorem execColWr_keepsCanonical {p : Fin 4} {frame : List Byte} (h : s.canonical) :
    KeepsCanonical (execColWr p frame s) := by
  unfold execColWr
  refine .next (.live h ?_)
  split
  · next e => exact .fst e (.colTake h)
  next t f e =>
  have ht : t.canonical := .fst e (.colTake h)
  exact .colAnswer (.ite (.store (.chargeAs ht)) (.ite (.storeRefused ht) ht))

theorem State.canonical.remoteLines {q : RemoteReq} {n : Nat} (h : s.canonical) : (s.remoteLines q n).canonical :=
  .ite (.remoteEnd h) (.updCol h)

theorem execColRdrsp_keepsCanonical {p : Fin 4} {frame : List Byte} (h : s.canonical) :
    KeepsCanonical (execColRdrsp p frame s) := by
  unfold execColRdrsp
  refine .next (.live h ?_)
  split
  · next e => exact .fst e (.colTake h)
  next t f e =>
  have ht : t.canonical := .fst e (.colTake h)
  split
  · exact ht
  · exact .ite (.remoteEnd ht) (.remoteLines (.updCol ht))

theorem execColWrack_keepsCanonical {p : Fin 4} {frame : List Byte} (h : s.canonical) :
    KeepsCanonical (execColWrack p frame s) := by
  unfold execColWrack
  refine .next (.live h ?_)
  split
  · next e => exact .fst e (.colTake h)
  next t f e =>
  have ht : t.canonical := .fst e (.colTake h)
  refine .ite (.updCol ht) ?_
  split
  · exact ht
  · exact .ite (.remoteEnd ht) (.remoteLines ht)

theorem execRemoteTimeout_keepsCanonical {tag : BitVec 10} (h : s.canonical) :
    KeepsCanonical (execRemoteTimeout tag s) := by
  unfold execRemoteTimeout
  refine .next (.live h ?_)
  split
  · exact .ite (.remoteEnd h) h
  · exact h

theorem State.canonical.toWatchers {f : ColFrame} {tags : List Nat} (h : s.canonical) :
    (s.toWatchers f tags).canonical :=
  .foldl h fun _ _ ht => .colTo ht

theorem execColColl_keepsCanonical {p : Fin 4} {frame : List Byte} {group serial : Word32} {member : Fin 256}
    (h : s.canonical) : KeepsCanonical (execColColl p frame group serial member s) := by
  unfold execColColl
  refine .next (.live h ?_)
  split
  · next e => exact .fst e (.colTake h)
  next t f e =>
  have ht : t.canonical := .fst e (.colTake h)
  exact .ite (.colAnswer (.toWatchers ht)) (.updCol (.toWatchers ht))

theorem execCollRetry_keepsCanonical (h : s.canonical) : KeepsCanonical (execCollRetry s) := by
  unfold execCollRetry
  refine .next (.live h ?_)
  split
  · exact h
  · exact .ite h (.foldl (.updCol h) fun _ _ ht => .sendColl ht)

theorem execFrameForward_keepsCanonical {p : Fin 4} {frame : List Byte} (h : s.canonical) :
    KeepsCanonical (execFrameForward p frame s) := by
  unfold execFrameForward
  refine .next (.live h (.ite (.updCol h) (.ite (.count32 (.updCol h)) (.ite (.updCol h) ?_))))
  split
  · exact .count32 (.updCol h)
  · exact .ite (.count32 (.updCol h)) (.updCol (.updCol h))

theorem execColCntClrErr_keepsCanonical {init : Init} (h : s.canonical) : KeepsCanonical (execColCntClrErr init s) :=
  .next (.live h (.ite (.foldl h fun _ _ ht => .setReg ht) h))

/-! ### Sensor ingress -/

theorem State.canonical.setWriter {q : Nat} {w : Writer} (h : s.canonical) : (s.setWriter q w).canonical :=
  .setQueue h

theorem State.canonical.countHalf {a : Nat} {high : Bool} {n : Nat} (h : s.canonical) :
    (s.countHalf a high n).canonical :=
  .ite (.count h) (.count h)

theorem State.canonical.itemLost {q : Nat} (h : s.canonical) : (s.itemLost q).canonical :=
  .ite (.raise (.setWriter (.count32 h))) (.count32 h)

theorem State.canonical.freeCell {c : Nat} {t : State} (h : s.canonical) (e : s.freeCell = some
    (c, t)) : t.canonical := by
  unfold State.freeCell at e
  split at e
  · cases e; exact .keep h
  · split at e <;> cases e
    exact .keep h

theorem State.canonical.takeFree {q c : Nat} {t : State} (h : s.canonical) (e : s.takeFree q = some
    (c, t)) : t.canonical := by
  unfold State.takeFree at e
  obtain ⟨x, hx, e⟩ := Option.map_eq_some_iff.1 e
  cases e
  exact .setFld (.setFld (.freeCell h hx))

theorem State.canonical.overwrite {q : Nat} {cs : List Nat} {t : State} (h : s.canonical)
    (e : s.overwrite q = some (cs, t)) : t.canonical := by
  unfold State.overwrite at e
  dsimp only at e
  split at e
  · split at e <;> cases e
    · exact .queueShow (.itemLost (.setQueue h))
    · exact .queueShow (.overwriteRecord (.raise (.count32 (.itemLost (.setQueue h)))))
  · split at e <;> cases e
    exact .queueShow (.itemLost (.setQueue h))

theorem State.canonical.takeCell {q c : Nat} {t : State} (h : s.canonical) (e : s.takeCell q = some
    (c, t)) : t.canonical := by
  unfold State.takeCell at e
  dsimp only at e
  split at e
  · next r e1 =>
    cases e
    split at e1
    · exact .takeFree h e1
    · cases e1
  · split at e
    · next e1 => cases e; exact .freeCells (.overwrite h e1)
    · cases e

theorem State.canonical.takeCells {q n : Nat} {cs : List Nat} (h : s.canonical) :
    (s.takeCells q n cs).2.2.canonical := by
  induction n generalizing s cs with
  | zero => exact h
  | succ n ih =>
    unfold State.takeCells
    split
    · next e => exact ih (.takeCell h e)
    · exact h

theorem State.canonical.itemPut {q : Nat} {bs : List Byte} (h : s.canonical) : (s.itemPut q bs).canonical := by
  unfold State.itemPut
  split
  · exact h
  · exact .ite h (.ite (.setWriter (.foldl (.takeCells h) fun _ _ ht => .putBytes ht)) (.itemLost (.setWriter
      (.freeCells (.takeCells h)))))

theorem State.canonical.completeItem {q w0 word1 arrival src : Nat} (h : s.canonical) :
    (s.completeItem q w0 word1 arrival src).canonical := by
  unfold State.completeItem
  split
  · exact h
  · exact .ite (.setWriter h) (.ite (.freeCells (.setWriter h)) (.queueShow (.setReg (.setQueue (.setWriter h)))))

theorem State.canonical.closeStripe {q : Nat} {eof trunc stale : Bool} (h : s.canonical) :
    (s.closeStripe q eof trunc stale).canonical := by
  unfold State.closeStripe
  split
  · exact h
  · exact .completeItem (.ite h (.when (.ite (.countHalf h) h) fun ht => .countHalf ht))

theorem State.canonical.lineErr {q : Nat} (h : s.canonical) : (s.lineErr q).canonical :=
  .setWriter h

theorem State.canonical.portErr {port : Nat} (h : s.canonical) : (s.portErr port).canonical :=
  .foldl h fun _ _ ht => .lineErr ht

theorem State.canonical.frameEnds {q : Nat} {compare : Bool} (h : s.canonical) :
    (s.frameEnds q compare).2.canonical :=
  .ite₂ (.setWriter (.setFld h)) (.ite₂ (.setWriter (.setFld h)) (.when (.when (.setFld (.setReg (.setWriter
    (.setFld h)))) fun ht => .countHalf ht) fun ht => .raise ht))

theorem State.canonical.frameStart {q num : Nat} (h : s.canonical) : (s.frameStart q num).canonical :=
  .setWriter h

theorem State.canonical.frameClose {q : Nat} {trunc : Bool} (h : s.canonical) : (s.frameClose q trunc).canonical :=
  .ite h (.setWriter (.closeStripe (.ite₂ h (.frameEnds h))))

theorem State.canonical.fifoShow {a free : Nat} (h : s.canonical) : (s.fifoShow a free).canonical :=
  .setFld (.setFld h)

theorem State.canonical.csiHeader {port : Nat} {hdr : Ecc} (h : s.canonical) :
    (s.csiHeader port hdr).2.canonical := by
  unfold State.csiHeader
  dsimp only
  split
  · exact h
  · exact .countHalf h
  · exact .portErr (.countHalf h)

theorem State.canonical.storeLine {q : Nat} {line : List Byte} {err : Bool} (h : s.canonical) :
    (s.storeLine q line err).canonical :=
  .itemPut (.setWriter (.ite (.closeStripe h) h))

theorem execCsiLongPacket_keepsCanonical {port : Fin 16} {vc : Fin 4} {dt : BitVec 6} {payload : List Byte}
    {hdr : Ecc} {crcOk overflow : Bool} {fifo : CsiFifo} (h : s.canonical) :
    KeepsCanonical (execCsiLongPacket port vc dt payload hdr crcOk overflow fifo s) := by
  unfold execCsiLongPacket
  refine .next (.live h (.ite h (.whenNot (.csiHeader (.fifoShow h)) fun ht => ?_)))
  dsimp only
  split
  · exact .when (.ite ht (.count32 ht)) fun hu => .countHalf hu
  · exact .ite (.lineErr (.countHalf (.ite ht (.count32 ht)))) (.ite (.countHalf (.ite ht (.count32 ht))) (.whenNot
      (.ite ht (.count32 ht)) fun hu => .ite (.linkUe hu) (.storeLine hu)))

theorem execCsiFrameStart_keepsCanonical {port : Fin 16} {vc : Fin 4} {num : BitVec 16} {hdr : Ecc}
    (h : s.canonical) :
    KeepsCanonical (execCsiFrameStart port vc num hdr s) := by
  unfold execCsiFrameStart
  refine .next (.live h (.ite h (.ite (.csiHeader h) ?_)))
  split
  · exact .csiHeader h
  · exact .frameStart (.frameClose (.csiHeader h))

theorem execCsiFrameEnd_keepsCanonical {port : Fin 16} {vc : Fin 4} {hdr : Ecc} (h : s.canonical) :
    KeepsCanonical (execCsiFrameEnd port vc hdr s) := by
  unfold execCsiFrameEnd
  refine .next (.live h (.ite h (.ite (.csiHeader h) ?_)))
  split
  · exact .csiHeader h
  · exact .frameClose (.csiHeader h)

theorem execCsiShortPacketIgnored_keepsCanonical {port : Fin 16} {hdr : Ecc} (h : s.canonical) :
    KeepsCanonical (execCsiShortPacketIgnored port hdr s) :=
  .next (.live h (.ite (.csiHeader h) h))

theorem execNoFrameTimeout_keepsCanonical {q : Fin 256} (h : s.canonical) : KeepsCanonical (execNoFrameTimeout q s) :=
  .next (.live h (.ite h (.raise (.countHalf (.setWriter h)))))

theorem State.canonical.e2eEvent {q what : Nat} (h : s.canonical) : (s.e2eEvent q what).canonical :=
  .ite (.raise (.setWriter h)) (.setWriter h)

theorem State.canonical.frameCounter {q c : Nat} (h : s.canonical) : (s.frameCounter q c).2.2.canonical :=
  .when (.when (.setFld (.setWriter h)) fun ht => .countHalf ht) fun ht => .countHalf ht

theorem State.canonical.e2eFrame {mac : Nat} {p : List Byte} {at_ : Nat} (h : s.canonical) :
    (s.e2eFrame mac p at_).canonical := by
  unfold State.e2eFrame
  dsimp only
  split
  · exact .ite (.count32 h) h
  · exact .ite (.e2eEvent (.countHalf h)) (.whenNot (.whenNot (.when (.when (.frameCounter h)
      fun ht => .countHalf ht) fun ht => .e2eEvent ht) fun ht => .setWriter ht) fun ht => .completeItem (.itemPut
        (.setWriter ht)))

theorem execEthFrame_keepsCanonical {mac : Fin 4} {frame : List Byte} {overflow : Bool} {fifo : Fin 257}
    {lasted : Nat} (h : s.canonical) : KeepsCanonical (execEthFrame mac frame overflow fifo lasted s) :=
  .next (.live h (.ite h (.ite (.countHalf (.fifoShow h)) (.ite (.fifoShow h) (.ite (.count32 (.fifoShow h)) (.ite
    (.countHalf (.count32 (.fifoShow h))) (.whenNot (.count32 (.fifoShow h)) fun ht => .ite (.ite ht (.count32 ht))
      (.ite ht (.ite (.e2eFrame ht) (.count32 ht))))))))))

theorem execEthPcsLockChange_keepsCanonical {mac : Fin 4} {lock fec : Bool} (h : s.canonical) :
    KeepsCanonical (execEthPcsLockChange mac lock fec s) :=
  .next (.live h (.setFld h))

theorem execQueueOverwrittenRecord_keepsCanonical (h : s.canonical) :
    KeepsCanonical (execQueueOverwrittenRecord s) := by
  unfold execQueueOverwrittenRecord
  refine .next (.live h ?_)
  split
  · exact h
  · refine .ite h ?_
    dsimp only
    split
    · exact .ite (.faultCmd (.keep h)) (.keep h)
    · exact .keep h

theorem execIqmQueueConfigWrite_keepsCanonical {init : Init} {q : Fin 256} {reg : Fin 5} {value : Word32}
    (h : s.canonical) : KeepsCanonical (execIqmQueueConfigWrite init q reg value s) := by
  unfold execIqmQueueConfigWrite
  refine .next (.live h (.ite h ?_))
  split
  · exact .flushQueue (.setReg h)
  · exact h

theorem execIqmCntClrPort_keepsCanonical {init : Init} (h : s.canonical) :
    KeepsCanonical (execIqmCntClrPort init s) :=
  .next (.live h (.ite h (.setReg (.setReg (.foldl (.foldl h fun _ _ ht => .setFld (.foldl ht
    fun _ _ hu => .setReg hu)) fun _ _ ht => .setFld (.foldl ht fun _ _ hu => .setReg hu))))))

theorem execIqmCntClrQueue_keepsCanonical {init : Init} (h : s.canonical) :
    KeepsCanonical (execIqmCntClrQueue init s) :=
  .next (.live h (.ite h (.foldl h fun _ _ ht => .foldl ht fun _ _ hu => .setReg hu)))

theorem State.canonical.apertureHeader {q : Nat} {w : List Nat} (h : s.canonical) :
    (s.apertureHeader q w).canonical :=
  .whenNot (.ite (.countHalf h) h) fun ht => .setWriter (.ite (.frameStart ht) ht)

theorem State.canonical.apertureDone {q : Nat} {w : List Nat} (h : s.canonical) : (s.apertureDone q w).canonical :=
  .ite (.completeItem (.when (.when (.ite₂ (.frameEnds (.setWriter h)) (.setWriter h)) fun ht => .countHalf ht)
    fun ht => .countHalf ht)) (.completeItem (.whenNot (.when (.frameCounter h) fun ht => .e2eEvent ht)
      fun ht => .setWriter ht))

theorem State.canonical.apertureData {q : Nat} {a : ApItem} {line : List Byte} (h : s.canonical) :
    (s.apertureData q a line).canonical :=
  .ite (.setWriter h) (.when (.itemPut (.setWriter h)) fun ht => .apertureDone ht)

theorem State.canonical.apertureWrite {init q off : Nat} {line : List Byte} (h : s.canonical) :
    (s.apertureWrite init q off line).canonical := by
  unfold State.apertureWrite
  refine .ite h ?_
  split
  · exact .apertureHeader h
  · exact .apertureData h

theorem execApertureWrite_keepsCanonical {init : Init} {q : Fin 256} {off : BitVec 12} {line : List Byte}
    (h : s.canonical) : KeepsCanonical (execApertureWrite init q off line s) :=
  .next (.live h (.apertureWrite h))

/-! ### The commands of the fabric management channel -/

theorem execColHeartbeatMiss_keepsCanonical {p : Fin 4} (h : s.canonical) :
    KeepsCanonical (execColHeartbeatMiss p s) :=
  .next (.live h (.ite (.suspectPeer (.setColPort (.updCol (.count32 h)))) h))

theorem execMgmtProbe_keepsCanonical {p : Fin 4} {frame : List Byte} (h : s.canonical) :
    KeepsCanonical (execMgmtProbe p frame s) :=
  .next (.live h (.mgmtTake h (fun _ _ ht => .ite (.colTo ht) ht)))

theorem execMgmtProbeRsp_keepsCanonical {p : Fin 4} {frame : List Byte} (h : s.canonical) :
    KeepsCanonical (execMgmtProbeRsp p frame s) :=
  .next (.live h (.mgmtTake h (fun _ _ ht => .ite ht (.ite (.publishRoutes (.updCol ht)) (.updCol ht)))))

theorem execMgmtSuspect_keepsCanonical {p : Fin 4} {frame : List Byte} {who : BitVec 12} {_cause : Fin 2}
    (h : s.canonical) : KeepsCanonical (execMgmtSuspect p frame who _cause s) :=
  .next (.live h (.mgmtTake h (fun _ _ ht => .probe ht)))

theorem State.canonical.expel {who : Nat} (h : s.canonical) : (s.expel who).canonical := by
  unfold State.expel
  refine .foldl (.publishRoutes (.sendKey (.newKey (.updCol (.colTo h))))) fun _ _ ht => .ite ?_ ht
  split
  · exact .colTo (.colTo (.updCol ht))
  · exact ht

theorem State.canonical.vote {who by_ : Nat} (h : s.canonical) : (s.vote who by_).canonical :=
  .ite h (.ite (.expel (.updCol h)) (.updCol h))

theorem execMgmtVote_keepsCanonical {p : Fin 4} {frame : List Byte} {who : BitVec 12} (h : s.canonical) :
    KeepsCanonical (execMgmtVote p frame who s) :=
  .next (.live h (.mgmtTake h (fun _ _ ht => .ite (.vote ht) ht)))

theorem execProbeTimeout_keepsCanonical {who : BitVec 12} (h : s.canonical) :
    KeepsCanonical (execProbeTimeout who s) := by
  unfold execProbeTimeout
  refine .next (.live h ?_)
  dsimp only
  split
  · exact h
  · exact .ite h (.ite (.when (.updCol (.updCol h)) fun ht => .publishRoutes ht) (.ite (.raise (.updCol
      (.updCol h))) (.vote (.toManagers (.updCol (.updCol h))))))

theorem execMgmtExpel_keepsCanonical {p : Fin 4} {frame : List Byte} (h : s.canonical) :
    KeepsCanonical (execMgmtExpel p frame s) :=
  .next (.live h (.mgmtTake h (fun _ _ ht => .wasExpelled ht)))

theorem execAuthFailExpulsion_keepsCanonical (h : s.canonical) : KeepsCanonical (execAuthFailExpulsion s) := by
  unfold execAuthFailExpulsion
  refine .next (.live h ?_)
  split
  · exact .ite (.wasExpelled h) h
  · exact h

theorem execMgmtRoute_keepsCanonical {p : Fin 4} {frame : List Byte} {epoch : Word32} {first : BitVec 12}
    {entries : List (BitVec 16)} {managers : List (BitVec 12 × Word)} (h : s.canonical) :
    KeepsCanonical (execMgmtRoute p frame epoch first entries managers s) :=
  .next (.live h (.mgmtTake h (fun _ _ ht => .updCol ht)))

theorem execMgmtRouteCommit_keepsCanonical {p : Fin 4} {frame : List Byte} {epoch : Word32} {key : Fin 4}
    (h : s.canonical) : KeepsCanonical (execMgmtRouteCommit p frame epoch key s) :=
  .next (.live h (.mgmtTake h (fun _ _ ht => .ite ht (.routeCommit ht))))

theorem State.canonical.toJoiner {p : Nat} {via : Option Nat} {o : ColOut} (h : s.canonical) :
    (s.toJoiner p via o).canonical := by
  unfold State.toJoiner
  split
  · exact .colTo h
  · exact .colSend h

theorem State.canonical.giveRole {a : Nat} (h : s.canonical) : (s.giveRole a).canonical := by
  unfold State.giveRole
  refine .ite h ?_
  split
  · exact .colTo (.updCol h)
  · exact .colTo (.colTo (.updCol h))

theorem State.canonical.admitJoiner {p : Nat} {via : Option Nat} {r : AdmitReq} (h : s.canonical) :
    (s.admitJoiner p via r).canonical :=
  .ite (.toJoiner h) (.giveRole (.raise (.publishRoutes (.updCol (.toJoiner (.toJoiner (.sendKey (.newKey h))))))))

theorem execMgmtAdmitReq_keepsCanonical {p : Fin 4} {frame : List Byte} {req : AdmitReq} (h : s.canonical) :
    KeepsCanonical (execMgmtAdmitReq p frame req s) := by
  unfold execMgmtAdmitReq
  refine .next (.live h (.mgmtTake h (fun _ _ ht => .ite ht (.ite (.admitJoiner ht) ?_))))
  split
  · exact .colTo (.updCol ht)
  · exact ht

theorem execMgmtAdmit_keepsCanonical {p : Fin 4} {frame : List Byte} {uid : Word} {address : BitVec 12}
    (h : s.canonical) : KeepsCanonical (execMgmtAdmit p frame uid address s) := by
  unfold execMgmtAdmit
  refine .next (.live h (.mgmtTake h (fun _ _ ht => .ite ?_ (.ite ht (.ite (.updCol ht) (.raise (.updCol (.whenNot
    (.setFld (.setFld ht)) fun hu => .setColMember hu))))))))
  split
  · exact .colSend (.ite ht (.updCol ht))
  · exact ht

theorem execAdmitRetry_keepsCanonical (h : s.canonical) : KeepsCanonical (execAdmitRetry s) := by
  unfold execAdmitRetry
  refine .next (.live h ?_)
  split
  · exact .ite h (.askAdmit (.updCol h))
  · exact h

theorem execMgmtRole_keepsCanonical {p : Fin 4} {frame : List Byte} {grant : RoleGrant} (h : s.canonical) :
    KeepsCanonical (execMgmtRole p frame grant s) := by
  unfold execMgmtRole
  refine .next (.live h (.mgmtTake h (fun _ _ ht => .ite ht ?_)))
  split
  · exact .when (.setColMember ht) fun hu => .raise hu
  · exact .setFld (.setFld (.setColMember ht))
  · exact .updCol ht
  · exact .updCol ht

theorem execMgmtResign_keepsCanonical {p : Fin 4} {frame : List Byte} (h : s.canonical) :
    KeepsCanonical (execMgmtResign p frame s) :=
  .next (.live h (.mgmtTake h (fun _ _ ht => .ite ht (.when (.mgrFollows (.updCol ht)) fun hu => .publishRoutes hu))))

theorem execMgmtCandidate_keepsCanonical {p : Fin 4} {frame : List Byte} {uid : Word} (h : s.canonical) :
    KeepsCanonical (execMgmtCandidate p frame uid s) :=
  .next (.live h (.mgmtTake h (fun _ _ ht => .ite ht (.foldl (.updCol ht) fun _ _ hu => .colSend hu))))

theorem execCandidateWait_keepsCanonical (h : s.canonical) : KeepsCanonical (execCandidateWait s) :=
  .next (.live h (.ite h (.colAll (.updCol h))))

theorem execFormationElect_keepsCanonical (h : s.canonical) : KeepsCanonical (execFormationElect s) := by
  unfold execFormationElect
  refine .next (.live h ?_)
  split
  · exact h
  · exact .ite h (.ite (.updCol h) (.publishRoutes (.newKey (.updCol (.whenNot (.setFld (.setFld h))
      fun ht => .setColMember ht)))))

theorem State.canonical.ringDeliver (h : s.canonical) : (s.ringDeliver).canonical := by
  unfold State.ringDeliver
  split
  · exact h
  · exact .ite h (.ite (.ite (.updCol h) (.setReg (.colTo (.updCol h)))) (.setReg (.colTo (.ite (.updCol h)
      (.setReg (.colTo (.updCol h)))))))

theorem State.canonical.ringReceive {f : ColFrame} (h : s.canonical) : (s.ringReceive f).canonical :=
  .ite (.storeRefused (.toWatchers h)) (.whenNot (.toWatchers h) fun ht => .ite (.store ht) (.ringIndex (.store ht)))

theorem execMgmtRing_keepsCanonical {m : RingMsg} (h : s.canonical) : KeepsCanonical (execMgmtRing m s) := by
  unfold execMgmtRing
  refine .next (.live h ?_)
  split
  · exact .ringDeliver h
  · exact .mgmtTake h (fun _ _ ht => .ite (.ringReceive ht) ht)

theorem execMgmtAperture_keepsCanonical {p : Fin 4} {frame : List Byte} (h : s.canonical) :
    KeepsCanonical (execMgmtAperture p frame s) := by
  unfold execMgmtAperture
  refine .next (.live h (.mgmtTake h (fun _ _ ht => .foldl (.toWatchers ht) fun _ _ hu => ?_)))
  dsimp only
  split
  · exact .apertureWrite hu
  · exact hu

/-! ### Operating modes and settings -/

theorem State.canonical.effHost (h : s.canonical) : (s.effHost).canonical :=
  .when (.setModeFld (.ite (.keep h) h)) fun ht => .raise ht

theorem State.canonical.pciaReset (h : s.canonical) : (s.pciaReset).canonical := .keep (.setFld h)

theorem State.canonical.pciaDown (h : s.canonical) : (s.pciaDown).canonical :=
  .ite h (.raise (.effHost (.pciaReset (.setFld h))))

theorem State.canonical.setMode {m : Nat} (h : s.canonical) : (s.setMode m).canonical :=
  .raise (.when (.setModeFld (.setModeFld (.setModeFld (.setModeFld h)))) fun ht => .foldl ht
    fun _ _ hu => .flushQueue hu)

theorem State.canonical.modeRefused {code arg0 arg1 : Nat} (h : s.canonical) :
    (s.modeRefused code arg0 arg1).canonical :=
  .raise (.setModeFld h)

theorem State.canonical.modeRequest {init value : Nat} (h : s.canonical) : (s.modeRequest init value).canonical :=
  .ite h (.ite (.modeRefused h) (.ite (.keep (.setFld (.setFld h))) (.setFld h)))

theorem execModeRequest_keepsCanonical {init : Init} {value : Word32} (h : s.canonical) :
    KeepsCanonical (execModeRequest init value s) :=
  .next (.live h (.modeRequest h))

theorem State.canonical.modeAccept {a1 : Nat} (h : s.canonical) : (s.modeAccept a1).canonical :=
  .when (.when (.keep (.setModeFld (.setModeFld (.setModeFld h)))) fun ht => .toManagers (.updCol ht))
    fun ht => .preempt ht

theorem execModeRequestDecide_keepsCanonical (h : s.canonical) : KeepsCanonical (execModeRequestDecide s) :=
  .next (.live h (.ite h (.ite (.modeRefused (.setFld h)) (.modeAccept (.setFld h)))))

theorem execModeChangeApply_keepsCanonical (h : s.canonical) : KeepsCanonical (execModeChangeApply s) :=
  .next (.live h (.ite h (.setMode h)))

theorem execModeChangePreempt_keepsCanonical (h : s.canonical) : KeepsCanonical (execModeChangePreempt s) :=
  .next (.live h (.ite h (.ite (.preempt h) h)))

theorem execHostMissingTimeout_keepsCanonical (h : s.canonical) : KeepsCanonical (execHostMissingTimeout s) :=
  .next (.live h (.ite (.raise (.effHost (.keep h))) h))

/-! ### The configuration block -/

theorem State.canonical.cfgWrite {a v : Nat} (h : s.canonical) : (s.cfgWrite a v).canonical := by
  unfold State.cfgWrite
  split
  · exact h
  · exact .ite h (.ite (.ite (.ringEnable h) (.setReg h)) (.setReg h))

theorem State.canonical.cfgInvalid {idx : Nat} (h : s.canonical) : (s.cfgInvalid idx).canonical :=
  .raise h

theorem State.canonical.cfgApply {r : CfgRecord} (h : s.canonical) : (s.cfgApply r).1.canonical := by
  unfold State.cfgApply
  refine .ite₁ (.cfgInvalid h) ?_
  dsimp only
  split
  · exact .setFld h
  · exact .foldl h fun _ _ ht => .cfgWrite ht
  · split
    · exact .keep h
    · exact h
  · exact .keep h

theorem State.canonical.crossCheck {p : State × Bool} {ok : State → Bool} {fix : State → State} (h : p.1.canonical)
    (hfix : ∀ t, State.canonical t → (fix t).canonical) : (State.crossCheck p ok fix).1.canonical :=
  .ite₁ h (.cfgInvalid (hfix _ h))

theorem State.canonical.crossChecks {p : State × Bool} (h : p.1.canonical) : (State.crossChecks p).1.canonical := by
  unfold State.crossChecks
  exact .crossCheck (.crossCheck (.crossCheck (.crossCheck (.crossCheck (.crossCheck (.crossCheck (.crossCheck
    (.crossCheck (.crossCheck (.crossCheck (.crossCheck h (fun _ ht => ht)) (fun _ ht => .setFld ht))
      (fun _ ht => ht)) (fun _ ht => .foldl ht fun _ _ hu => .foldl hu fun _ _ hv => .setReg hv))
        (fun _ ht => ht)) (fun _ ht => ht)) (fun _ ht => ht)) (fun _ ht => ht)) (fun _ ht => .foldl ht
          fun _ _ hu => .setFld hu)) (fun _ ht => ht)) (fun _ ht => .setReg ht)) (fun _ ht => ht)

theorem State.canonical.kvInit (h : s.canonical) : (s.kvInit).canonical :=
  .ite h (.setReg (.store (.clearMem h)))

theorem State.canonical.applyConfig {block : List Byte} {debug : Bool} (h : s.canonical) :
    (s.applyConfig block debug).canonical := by
  dsimp only [State.applyConfig]
  exact .setMode (.effHost (.whenNot (.whenNot (.keep (.setFld (.kvInit (.when (.whenNot (.crossChecks (.ite₁
    (.foldl₁ h fun _ _ ht => .cfgApply ht) (.cfgInvalid h))) fun ht => .setFld ht) fun ht => .setFld ht))))
      fun ht => .foldl (.setColMember (.updCol ht)) fun _ _ hu => .ite (.colTrain hu) hu) fun ht => .pciaDown ht))

/-! ### The CHECKPOINT command -/

theorem State.canonical.ckWrite {r : CmdRef} {w : List Nat} {off : Nat} {bs : List Byte} (h : s.canonical) :
    (s.ckWrite r w off bs).canonical :=
  .ite h (.store (.remoteSend h))

theorem State.canonical.ckStart {r : CmdRef} {w : List Nat} (h : s.canonical) : (s.ckStart r w).canonical :=
  .ite (.ckWrite h) h

theorem State.canonical.ckPart {c : Cmd} (h : s.canonical) : (s.ckPart c).1.canonical := by
  dsimp only [State.ckPart]
  exact .ite₁ (.ite₁ h (.updCmd (.updCmd (.ckWrite (.foldl (.chargeLines h) fun _ _ ht => .chargeLines ht)))))
    (.ite₁ h (.ite₁ (.foldl₁ (.foldl (.chargeLines h) fun _ _ ht => .chargeLines ht) fun _ _ ht => .store ht)
      (.updCmd (.foldl₁ (.foldl (.chargeLines h) fun _ _ ht => .chargeLines ht) fun _ _ ht => .store ht))))

theorem State.canonical.ckCommit {j : Job} {c : Cmd} (h : s.canonical) : (s.ckCommit j c).canonical :=
  .ite (.ckWrite h) (.foldl h fun _ _ ht => .ite (.ctxAlloc ht) ht)

/-! ### The Glen engines at work -/

theorem State.canonical.writeRow {d : TDesc} {at_ : Nat × Nat} {ys : List Flagged} (h : s.canonical) :
    (s.writeRow d at_ ys).canonical :=
  .foldl h fun _ _ ht => .store ht

theorem State.canonical.putRow {c : Cmd} {d : TDesc} {at_ : Nat × Nat} {xs : List Num} (h : s.canonical) :
    (s.putRow c d at_ xs).1.canonical :=
  .writeRow h

theorem State.canonical.itemCharge {c : Cmd} {b : Glen} {a3 x : Nat} (h : s.canonical) :
    (s.itemCharge c b a3 x).canonical :=
  .whenNot (.foldl h fun _ _ ht => .chargeLines ht) fun ht => .foldl ht fun _ _ hu => .foldl hu
    fun _ _ hv => .chargeLines (.chargeLines hv)

theorem State.canonical.itemForward {c : Cmd} {b : Glen} {ml : List (Nat × Nat × Nat)} {a4 x : Nat}
    (h : s.canonical) :
    (s.itemForward c b ml a4 x).1.canonical :=
  .foldl₁ h fun _ _ ht => .ite₁ (.putRow (.putRow ht)) (.putRow ht)

theorem State.canonical.itemBackward {c : Cmd} {b : Glen} {ml : List (Nat × Nat × Nat)} {a4 x : Nat}
    (h : s.canonical) :
    (s.itemBackward c b ml a4 x).1.canonical :=
  .foldl₁ (.foldl₁ h fun _ _ ht => .putRow ht) fun _ _ ht => .putRow (.putRow ht)

theorem State.canonical.glenPad {c : Cmd} {b : Glen} (h : s.canonical) : (s.glenPad c b).1.canonical :=
  .foldl (.foldl₁ h fun _ _ ht => .ite₁ (.putRow (.putRow ht)) (.putRow ht)) fun _ _ ht => .foldl ht
    fun _ _ hu => .foldl hu fun _ _ hv => .writeRow hv

theorem State.canonical.glenRun {c : Cmd} {b : Glen} {who : Who} {ml : List (Nat × Nat × Nat)} {l : List (Nat × Nat)}
    (h : s.canonical) : (s.glenRun c b who ml l).1.canonical := by
  induction l generalizing s with
  | nil => exact h
  | cons i l ih =>
    unfold State.glenRun
    split
    · exact ih (.itemCharge (.ite₁ (.itemBackward h) (.itemForward h)))
    · exact h

theorem State.canonical.glnBusy {d l : Nat} {r : Option CmdRef} (h : s.canonical) : (s.glnBusy d l r).canonical := by
  unfold State.glnBusy
  dsimp only
  split
  · exact .setFld (.setFld (.setFld h))
  · exact .setFld (.setFld (.setFld h))

theorem State.canonical.glnFire {d l target : Nat} {evaluates : Bool} (h : s.canonical) :
    (s.glnFire d l target evaluates).canonical :=
  .ite (.setFld (.setReg h)) h

theorem State.canonical.glenPart {c : Cmd} {d l : Nat} (h : s.canonical) : (s.glenPart c d l).1.canonical :=
  .updCmd (.ite₁ (.glenPad (.glnFire (.glnFire (.glnFire (.count (.glenRun h)))))) (.glnFire (.glnFire (.glnFire
    (.count (.glenRun h))))))

theorem State.canonical.glenCow {c : Cmd} (h : s.canonical) : (s.glenCow c).canonical :=
  .ite h (.foldl h fun _ _ ht => .ite ht (.foldl ht fun _ _ hu => .ite (.updCmd (.count32 (.store (.chargeLines
    (.chargeLines (.framePop hu)))))) hu))

theorem State.canonical.zeroRows {a hd n : Nat} (h : s.canonical) : (s.zeroRows a hd n).canonical :=
  .foldl (.store h) fun _ _ ht => .foldl ht fun _ _ hu => .store hu

theorem State.canonical.chargeRow {r : CmdRef} {f hd row : Nat} (h : s.canonical) :
    (s.chargeRow r f hd row).canonical :=
  .foldl h fun _ _ ht => .chargeLines (.chargeLines ht)

theorem State.canonical.glenAppend {c : Cmd} {b : Glen} {x root te a6 : Nat} (h : s.canonical) :
    (s.glenAppend c b x root te a6).canonical := by
  unfold State.glenAppend
  refine .foldl ?_ fun _ _ ht => .foldl (.chargeRow (.ite ht (.updCmd (.store (.chargeLines (.frameAcquire
    (.zeroRows (.zeroRows (.framePop ht))))))))) fun _ _ hu => .store (.store hu)
  split
  · exact .store (.frameRelease (.frameAcquire (.chargeLines h)))
  · exact h

theorem State.canonical.glenCommit {c : Cmd} (h : s.canonical) : (s.glenCommit c).canonical :=
  .whenNot (.foldl h fun _ _ ht => .count (.count ht)) fun ht => .whenNot (.foldl ht fun _ _ hu => .modsUp
    (.foldl hu fun _ _ hv => .glenAppend hv)) fun hu => .foldl (.foldl hu fun _ _ hv => .updCmd
      (.prefixEntry hv)) fun _ _ hv => .setCtx hv

theorem State.canonical.engineSuspect {d unit : Nat} (h : s.canonical) : (s.engineSuspect d unit).canonical :=
  .frecNote (.replaceReq h)

theorem State.canonical.glenMismatch {r : CmdRef} {d l check : Nat} (h : s.canonical) :
    (s.glenMismatch r d l check).canonical :=
  .rerunOnce (.when (.raiseFor (.setReg (.setReg (.setReg (.setFld (.count h)))))) fun ht => .engineSuspect (.raise
    (.setFld ht)))

theorem State.canonical.glenRamUe {r : CmdRef} {d l : Nat} (h : s.canonical) : (s.glenRamUe r d l).canonical :=
  .rerunOnce (.raiseFor h)

theorem State.canonical.glnArm {init : Nat} {l : LeaId} {target : Nat} (h : s.canonical) :
    (s.glnArm init l target).canonical :=
  .ite h (.setLea (.setReg h))

theorem execGlnInjectScore_keepsCanonical {init : Init} {l : LeaId} (h : s.canonical) :
    KeepsCanonical (execGlnInjectScore init l s) :=
  .next (.live h (.glnArm h))

theorem execGlnInjectValue_keepsCanonical {init : Init} {l : LeaId} (h : s.canonical) :
    KeepsCanonical (execGlnInjectValue init l s) :=
  .next (.live h (.glnArm h))

theorem execGlnInjectRowState_keepsCanonical {init : Init} {l : LeaId} (h : s.canonical) :
    KeepsCanonical (execGlnInjectRowState init l s) :=
  .next (.live h (.glnArm h))

theorem execGlnInjectTimeout_keepsCanonical {l : LeaId} (h : s.canonical) :
    KeepsCanonical (execGlnInjectTimeout l s) :=
  .next (.live h (.ite (.setFld (.setReg h)) h))

theorem execGlnCntClrEcc_keepsCanonical {init : Init} {l : LeaId} (h : s.canonical) :
    KeepsCanonical (execGlnCntClrEcc init l s) :=
  .next (.live h (.ite (.setReg h) h))

theorem execGlnCntClrSkip_keepsCanonical {init : Init} {l : LeaId} (h : s.canonical) :
    KeepsCanonical (execGlnCntClrSkip init l s) :=
  .next (.live h (.ite (.setReg h) h))

theorem execGlnCntClrUse_keepsCanonical {init : Init} {l : LeaId} (h : s.canonical) :
    KeepsCanonical (execGlnCntClrUse init l s) :=
  .next (.live h (.ite (.foldl h fun _ _ ht => .setReg ht) h))

/-! ### The collective units -/

theorem State.canonical.collStart {c : Cmd} (h : s.canonical) : (s.collStart c).canonical :=
  .ite h (.keep (.foldl (.updCol (.addFlags h)) fun _ _ ht => .sendColl ht))

theorem State.canonical.collForget {c : Cmd} (h : s.canonical) : (s.collForget c).canonical :=
  .ite h (.updCol h)

theorem State.canonical.collPart {c : Cmd} {d : Nat} {x : State × PartEnd} (h : s.canonical)
    (e : s.collPart c d = some x) : x.1.canonical := by
  unfold State.collPart at e
  dsimp only at e
  split at e
  · obtain rfl := Option.some.inj e
    exact h
  · split at e
    · exact nomatch e
    · obtain rfl := Option.some.inj e
      dsimp only
      exact .foldl (.foldl h fun _ _ ht => .chargeLines ht) fun _ _ ht => .keep (.chargeLines (.addFlags (.store ht)))

/-! ### The CROP command -/

theorem State.canonical.cropHold {c : Cmd} {l : Nat} {ts : List (Nat × Nat × Nat)} (h : s.canonical) :
    (s.cropHold c l ts).canonical := by
  induction ts generalizing s l with
  | nil => exact h
  | cons t ts ih =>
    refine ih ?_
    split
    · exact .setFld (.setSlot h)
    · exact h

theorem State.canonical.cropFree {r : CmdRef} {d l : Nat} (h : s.canonical) : (s.cropFree r d l).canonical :=
  .foldl h fun _ _ ht => .ite (.setFld (.setSlot ht)) ht

theorem State.canonical.chargeSpans {r : CmdRef} {l : List (Bool × Nat × Nat)} (h : s.canonical) :
    (s.chargeSpans r l).canonical :=
  .foldl h fun _ _ ht => .chargeLines ht

theorem State.canonical.cropRows {c : Cmd} {b : Crop} {x : Box} {i key : Nat} (h : s.canonical) :
    (s.cropRows c b x i key).canonical :=
  .foldl h fun _ _ ht => .ite (.writeRow ht) (.addFlags (.setSlot (.writeRow ht)))

theorem State.canonical.cropBox {c : Cmd} {b : Crop} {who : Who} {key i : Nat} (h : s.canonical) :
    (s.cropBox c b who key i).1.canonical := by
  unfold State.cropBox
  dsimp only
  split
  · exact h
  · dsimp only
    exact .updCmd (.chargeSpans (.cropRows h))

theorem State.canonical.zbCount {r : CmdRef} {n : Nat} (h : s.canonical) : (s.zbCount r n).canonical :=
  .updCmd h

theorem State.canonical.zbPack {c : Cmd} {b : Crop} {who : Who} {q : Nat} (h : s.canonical) :
    (s.zbPack c b who q).1.canonical :=
  .ite₁ h (.zbCount (.chargeSpans (.store (.store h))))

theorem State.canonical.zbUnpack {c : Cmd} {b : Crop} {who : Who} {q : Nat} (h : s.canonical) :
    (s.zbUnpack c b who q).1.canonical := by
  unfold State.zbUnpack
  refine .ite₁ h (.ite₁ (.chargeLines h) (.ite₁ (.chargeLines h) ?_))
  split
  · exact .chargeLines h
  · exact .zbCount (.chargeSpans (.foldl (.chargeLines h) fun _ _ ht => .store ht))

theorem State.canonical.cropRun {f : State → Nat → State × Nat} {l : List Nat} (h : s.canonical)
    (hf : ∀ t x, t.canonical → (f t x).1.canonical) : (s.cropRun f l).1.canonical := by
  induction l generalizing s with
  | nil => exact h
  | cons w l ih =>
    unfold State.cropRun
    split
    · next e => exact ih (.fst e (hf _ _ h))
    · next e => exact .fst e (hf _ _ h)

theorem State.canonical.cropPart {c : Cmd} {d l : Nat} (h : s.canonical) : (s.cropPart c d l).1.canonical := by
  dsimp only [State.cropPart]
  refine .cropFree ?_
  split
  · exact .cropRun h (fun _ _ ht => .cropBox ht)
  · exact .cropRun h (fun _ _ ht => .zbPack ht)
  · exact .cropRun h (fun _ _ ht => .zbUnpack ht)

/-! ### The Prairie planner -/

theorem State.canonical.setPraEpoch {d map e : Nat} {valid : Bool} (h : s.canonical) :
    (s.setPraEpoch d map e valid).canonical :=
  .keep (.setReg h)

theorem State.canonical.praUncurrent {d map : Nat} (h : s.canonical) : (s.praUncurrent d map).canonical :=
  .keep h

theorem State.canonical.praCurrent {d map base len : Nat} (h : s.canonical) :
    (s.praCurrent d map base len).canonical :=
  .keep (.praUncurrent h)

theorem State.canonical.praRecord {r : CmdRef} {d map : Nat} (h : s.canonical) : (s.praRecord r d map).canonical :=
  .keep h

theorem State.canonical.praInval {d map : Nat} (h : s.canonical) : (s.praInval d map).canonical :=
  .raise (.praUncurrent (.setPraEpoch h))

theorem State.canonical.wavefront {w : List Nat} {g : Grid} (h : s.canonical) : (s.wavefront w g).canonical :=
  .store (.ite (.foldl h fun _ _ ht => .store ht) h)

/-! ### The Prairie engines at work -/

theorem State.canonical.praBusy {d : Nat} {r : Option CmdRef} (h : s.canonical) : (s.praBusy d r).canonical := by
  unfold State.praBusy
  dsimp only
  split
  · exact .setFld (.setFld (.setFld h))
  · exact .setFld (.setFld (.setFld h))

theorem State.canonical.praFire {d target : Nat} (h : s.canonical) : (s.praFire d target).canonical :=
  .ite (.setFld (.setReg h)) h

theorem State.canonical.praWavePart {c : Cmd} {d : Nat} (h : s.canonical) : (s.praWavePart c d).1.canonical :=
  .ite₁ h (.updCmd (.praFire (.praFire (.wavefront (.when (.chargeLines (.chargeLines (.chargeMaps h)))
    fun ht => .chargeLines ht)))))

theorem execPrairieBatch_keepsCanonical {list : Fin 2} {idx : BitVec 16} {die : Fin 4} (h : s.canonical) :
    KeepsCanonical (execPrairieBatch list idx die s) := by
  unfold execPrairieBatch
  refine .next (.live h ?_)
  extract_lets r d t
  have ht : t.canonical := .praRecord (.praRecord h)
  split
  · exact h
  extract_lets w todo useG useV valid off u env lead runs at_ st v x y z
  have hu : u.canonical := .ite (.raiseFor ht) ht
  have hv : v.canonical := .ite (.chargeMaps hu) hu
  have hx : x.canonical := .foldl hv fun _ _ hu => .chargeLines hu
  have hz : z.canonical := .foldl (.foldl hx fun _ _ hu => .chargeLines hu) fun _ _ hu => .store hu
  exact .ite h (.ite (.kill hx) (.ite (.send hx) (.updCmd hz)))

theorem execPrairieRanking_keepsCanonical {list : Fin 2} {idx : BitVec 16} (h : s.canonical) :
    KeepsCanonical (execPrairieRanking list idx s) := by
  unfold execPrairieRanking
  refine .next (.live h ?_)
  dsimp only
  split
  · exact h
  · exact .ite h (.when (.praFire (.updCmd (.foldl h fun _ _ ht => .store (.chargeLines ht)))) fun ht => .raiseFor
      (.count32 ht))

theorem State.canonical.praPart {c : Cmd} {d : Nat} {x : State × PartEnd} (h : s.canonical)
    (e : s.praPart c d = some x) : x.1.canonical := by
  unfold State.praPart at e
  split at e
  · cases e; exact .praWavePart h
  · dsimp only at e
    split at e <;> cases e
    exact .praFire (.praFire h)

theorem State.canonical.praValidate {c : Cmd} (h : s.canonical) : (s.praValidate c).1.canonical := by
  unfold State.praValidate
  refine .ite₁ h ?_
  dsimp only
  split
  · exact .count32 h
  · exact .ite (.raiseFor (.updCmd h)) (.updCmd h)

theorem State.canonical.praHandoffOut {j : Job} {c : Cmd} (h : s.canonical) : (s.praHandoffOut j c).canonical := by
  unfold State.praHandoffOut
  refine .ite h ?_
  dsimp only
  split
  · exact h
  · exact .keep (.updJob (.ite (.count32 (.setReg h)) (.setReg h)))

theorem State.canonical.praPublishMap {d map : Nat} {w : List Nat} (h : s.canonical) :
    (s.praPublishMap d map w).canonical :=
  .ite (.praCurrent (.setReg (.setReg (.setReg (.setPraEpoch h))))) (.praCurrent (.setReg (.setReg (.setReg
    (.setReg (.setPraEpoch h))))))

theorem State.canonical.praPublish {c : Cmd} (h : s.canonical) : (s.praPublish c).canonical :=
  .updCmd (.foldl h fun _ _ ht => .whenNot (.ite ht (.praPublishMap ht)) fun hu => .praPublishMap hu)

theorem execPrairieMapRelease_keepsCanonical {base : Addr} (h : s.canonical) :
    KeepsCanonical (execPrairieMapRelease base s) := by
  unfold execPrairieMapRelease
  refine .next (.live h ?_)
  split
  · exact h
  · exact .raise (.keep h)

theorem execPraInvalGrid_keepsCanonical {init : Init} {die : Fin 4} (h : s.canonical) :
    KeepsCanonical (execPraInvalGrid init die s) :=
  .next (.live h (.ite (.praInval h) h))

theorem execPraInvalVox_keepsCanonical {init : Init} {die : Fin 4} (h : s.canonical) :
    KeepsCanonical (execPraInvalVox init die s) :=
  .next (.live h (.ite (.praInval h) h))

theorem State.canonical.praMismatch {r : CmdRef} {d check : Nat} (h : s.canonical) :
    (s.praMismatch r d check).canonical :=
  .rerunOnce (.when (.raiseFor (.setReg (.setReg (.setReg (.setFld (.count h)))))) fun ht => .engineSuspect (.raise
    (.setFld ht)))

theorem State.canonical.praRamUe {r : CmdRef} {d : Nat} (h : s.canonical) : (s.praRamUe r d).canonical :=
  .rerunOnce (.raiseFor h)

theorem State.canonical.praArm {init d target : Nat} (h : s.canonical) : (s.praArm init d target).canonical :=
  .ite h (.keep (.setReg h))

theorem execPraInjectWavefront_keepsCanonical {init : Init} {die : Fin 4} (h : s.canonical) :
    KeepsCanonical (execPraInjectWavefront init die s) :=
  .next (.live h (.praArm h))

theorem execPraInjectDisc_keepsCanonical {init : Init} {die : Fin 4} (h : s.canonical) :
    KeepsCanonical (execPraInjectDisc init die s) :=
  .next (.live h (.praArm h))

theorem execPraInjectBuffer_keepsCanonical {init : Init} {die : Fin 4} (h : s.canonical) :
    KeepsCanonical (execPraInjectBuffer init die s) :=
  .next (.live h (.praArm h))

theorem execPraInjectTimeout_keepsCanonical {die : Fin 4} (h : s.canonical) :
    KeepsCanonical (execPraInjectTimeout die s) :=
  .next (.live h (.ite (.setFld (.setReg h)) h))

theorem execPraCntClrEcc_keepsCanonical {init : Init} {die : Fin 4} (h : s.canonical) :
    KeepsCanonical (execPraCntClrEcc init die s) :=
  .next (.live h (.ite (.setReg h) h))

theorem execPraCntClrUse_keepsCanonical {init : Init} {die : Fin 4} (h : s.canonical) :
    KeepsCanonical (execPraCntClrUse init die s) :=
  .next (.live h (.ite (.foldl h fun _ _ ht => .setReg ht) h))

/-! ### The start of commands, kind by kind, the end of an engine's part, and the commit point -/

theorem State.canonical.engage {e : StartEnv} {c : Cmd} (h : s.canonical) : (s.engage e c).canonical := by
  unfold State.engage
  split
  · exact .foldl h fun _ _ ht => .glnBusy ht
  · exact .when (.foldl h fun _ _ ht => .praBusy ht) fun ht => .praRecord ht
  · exact .collStart h
  · exact .ckStart h
  · exact .foldl h fun _ _ ht => .goldenBegin ht
  · exact .cropHold h
  · exact h

theorem State.canonical.refuse {j : Job} {e : StartEnv} {st : Nat} (h : s.canonical) : (s.refuse j e st).canonical :=
  .jobCheck (.skips (.failCmd (.updJob h)))

theorem State.canonical.begin {j : Job} {e0 : StartEnv} (h : s.canonical) : (s.begin j e0).canonical := by
  unfold State.begin
  split
  · exact h
  next t e =>
  have ht : t.canonical := .demands h e
  extract_lets e c r sched u v w x y z z'
  have hw : w.canonical := .foldl (.updJob (.keep ht)) fun _ _ hu => .setCtx hu
  have hx : x.canonical := .ite hw (.foldl hw fun _ _ hu => .ownCounters hu)
  have hz : z'.canonical := .engage (.setFld (.foldl hx fun _ _ hu => .takeMark hu))
  refine .ite (.refuse ht) (.ite (.kvLow ht) ?_)
  split
  · exact .attribute hz
  · exact hz

theorem State.canonical.start {list : Fin 2} {idx : BitVec 16} {kind : Nat} {op : Option Nat} (h : s.canonical) :
    (s.start list idx kind op).canonical := by
  unfold State.start
  dsimp only
  split
  · exact h
  · refine .ite h ?_
    split
    · exact .ite h (.refuse h)
    · exact .ite h (.begin h)

theorem execThreads_keepsCanonical {list : Fin 2} {idx : BitVec 16} (h : s.canonical) :
    KeepsCanonical (execThreads list idx s) :=
  .next (.live h (.start h))

theorem execGlenForward_keepsCanonical {list : Fin 2} {idx : BitVec 16} (h : s.canonical) :
    KeepsCanonical (execGlenForward list idx s) :=
  .next (.live h (.start h))

theorem execGlenBackward_keepsCanonical {list : Fin 2} {idx : BitVec 16} (h : s.canonical) :
    KeepsCanonical (execGlenBackward list idx s) :=
  .next (.live h (.start h))

theorem execGlenCombine_keepsCanonical {list : Fin 2} {idx : BitVec 16} (h : s.canonical) :
    KeepsCanonical (execGlenCombine list idx s) :=
  .next (.live h (.start h))

theorem execPrairiePublish_keepsCanonical {list : Fin 2} {idx : BitVec 16} (h : s.canonical) :
    KeepsCanonical (execPrairiePublish list idx s) :=
  .next (.live h (.start h))

theorem execPrairieWavefront_keepsCanonical {list : Fin 2} {idx : BitVec 16} (h : s.canonical) :
    KeepsCanonical (execPrairieWavefront list idx s) :=
  .next (.live h (.start h))

theorem execPrairieCheck_keepsCanonical {list : Fin 2} {idx : BitVec 16} (h : s.canonical) :
    KeepsCanonical (execPrairieCheck list idx s) :=
  .next (.live h (.start h))

theorem execCollectiveReshard_keepsCanonical {list : Fin 2} {idx : BitVec 16} (h : s.canonical) :
    KeepsCanonical (execCollectiveReshard list idx s) :=
  .next (.live h (.start h))

theorem execCollectiveAllReduce_keepsCanonical {list : Fin 2} {idx : BitVec 16} (h : s.canonical) :
    KeepsCanonical (execCollectiveAllReduce list idx s) :=
  .next (.live h (.start h))

theorem execCollectiveAllGather_keepsCanonical {list : Fin 2} {idx : BitVec 16} (h : s.canonical) :
    KeepsCanonical (execCollectiveAllGather list idx s) :=
  .next (.live h (.start h))

theorem execCollectiveReduceScatter_keepsCanonical {list : Fin 2} {idx : BitVec 16} (h : s.canonical) :
    KeepsCanonical (execCollectiveReduceScatter list idx s) :=
  .next (.live h (.start h))

theorem execCheckpointSnapshot_keepsCanonical {list : Fin 2} {idx : BitVec 16} (h : s.canonical) :
    KeepsCanonical (execCheckpointSnapshot list idx s) :=
  .next (.live h (.start h))

theorem execCheckpointRestore_keepsCanonical {list : Fin 2} {idx : BitVec 16} (h : s.canonical) :
    KeepsCanonical (execCheckpointRestore list idx s) :=
  .next (.live h (.start h))

theorem execGolden_keepsCanonical {list : Fin 2} {idx : BitVec 16} (h : s.canonical) :
    KeepsCanonical (execGolden list idx s) :=
  .next (.live h (.start h))

theorem execCropResize_keepsCanonical {list : Fin 2} {idx : BitVec 16} (h : s.canonical) :
    KeepsCanonical (execCropResize list idx s) :=
  .next (.live h (.start h))

theorem execZb64Pack_keepsCanonical {list : Fin 2} {idx : BitVec 16} (h : s.canonical) :
    KeepsCanonical (execZb64Pack list idx s) :=
  .next (.live h (.start h))

theorem execZb64Unpack_keepsCanonical {list : Fin 2} {idx : BitVec 16} (h : s.canonical) :
    KeepsCanonical (execZb64Unpack list idx s) :=
  .next (.live h (.start h))

theorem execAutonomousSwap_keepsCanonical (h : s.canonical) : KeepsCanonical (execAutonomousSwap s) := by
  unfold execAutonomousSwap
  refine .next (.live h ?_)
  dsimp only
  split
  · exact h
  · refine .ite h (.ite (.keep h) (.ite ?_ h))
    split
    · exact .keep (.evict h)
    · exact h

theorem State.canonical.enginePart {c : Cmd} {d l : Nat} {x : State × PartEnd} (h : s.canonical)
    (e : s.enginePart c d l = some x) : x.1.canonical := by
  unfold State.enginePart at e
  split at e
  · obtain rfl := Option.some.inj e
    exact .glenPart h
  · exact .praPart h e
  · exact .collPart h e
  · obtain rfl := Option.some.inj e
    exact .ckPart h
  · obtain rfl := Option.some.inj e
    exact .cropPart h
  · cases e

theorem State.canonical.engineIdle {c : Cmd} {d l : Nat} (h : s.canonical) : (s.engineIdle c d l).canonical := by
  unfold State.engineIdle
  split
  · exact .glnBusy h
  · exact .praBusy h
  · exact h

theorem State.canonical.engineAbandons {c : Cmd} {d l : Nat} (h : s.canonical) :
    (s.engineAbandons c d l).canonical := by
  unfold State.engineAbandons
  split
  · exact .setFld h
  · exact .setFld h
  · exact h

theorem State.canonical.engineDone {c : Cmd} {x : EnginePart} {e : PartEnd} (h : s.canonical) :
    (s.engineDone c x e).canonical :=
  .ite (.kill h) (.ite (.send (.updCmd (.engineIdle h))) (.timerRecord (.updCmd (.engineIdle h))))

theorem execEngineCompletion_keepsCanonical {list : Fin 2} {idx : BitVec 16} {die : Fin 4} {lea : Fin 16} {err :
    EngineErr}
    (h : s.canonical) : KeepsCanonical (execEngineCompletion list idx die lea err s) := by
  unfold execEngineCompletion
  refine .next (.live h ?_)
  extract_lets r
  split
  · exact h
  split
  · exact h
  next c _ _ x _ =>
  extract_lets finish
  have hfin {t : State} (ht : t.canonical) : (finish t).canonical := by
    unfold finish
    split
    · next e => exact .engineDone (.enginePart ht e)
    · exact ht
  refine .ite h ?_
  split
  · exact .glenRamUe h
  · exact .glenMismatch h
  · exact hfin (.count32 h)
  · exact .praRamUe h
  · exact .praMismatch h
  · exact hfin (.count32 h)
  · exact hfin h

theorem State.canonical.lostEffects {j : Job} {c : Cmd} (h : s.canonical) : (s.lostEffects j c).canonical :=
  .foldl h fun _ _ ht => .ite (.raiseCmd ht) ht

theorem State.canonical.applyEffects {j : Job} {c : Cmd} (h : s.canonical) : (s.applyEffects j c).canonical :=
  .when (.foldl (.ite (.glenCommit h) h) fun _ _ ht => .takeRelease ht) fun ht => .ite (.praPublish ht)
    (.praHandoffOut ht)

theorem State.canonical.commitEnd {j : Job} {r : CmdRef} (h : s.canonical) : (s.commitEnd j r).canonical := by
  unfold State.commitEnd
  split
  · exact h
  · refine .ite (.updCmd h) (.ite (.updCmd (.ite (.updCmd (.ckCommit h)) h)) (.killsDone (.jobCheck (.skips (.cqPut
      (.updCmd (.dropOwned (.dropReserve (.runOver (.lostEffects (.foldl (.when (.ite (.updCmd (.ckCommit h)) h)
        fun ht => .collForget ht) fun _ _ ht => ?_)))))))))))
    split
    · exact .postApply ht
    · exact ht

theorem State.canonical.commit {j : Job} {c : Cmd} (h : s.canonical) : (s.commit j c).canonical := by
  dsimp only [State.commit]
  exact .ite (.jobCheck (.skips (.failCmd h))) (.ite (.jobCheck (.skips (.failCmd (.praValidate (.ite
    (.glenCow h) h))))) (.ite (.jobCheck (.skips (.failCmd (.praValidate (.ite (.glenCow h) h))))) (.commitEnd
      (.applyEffects (.updCmd (.praValidate (.ite (.glenCow h) h)))))))

theorem execCommitPoint_keepsCanonical {list : Fin 2} {idx : BitVec 16} (h : s.canonical) :
    KeepsCanonical (execCommitPoint list idx s) := by
  unfold execCommitPoint
  refine .next (.live h ?_)
  dsimp only
  split
  · exact .ite h (.ite h (.ite (.ite h (.commitEnd h)) (.ite (.commit h) h)))
  · exact h

/-! ### Kills on their way round the dies, records on their way to the completion FIFO, and a die that leaves the
package or returns to it -/

theorem State.canonical.freeSlots {die : Nat} {f : ThreadSlot → Bool} (h : s.canonical) :
    (s.freeSlots die f).canonical :=
  .foldl h fun _ _ ht => .setFld (.setSlot ht)

theorem State.canonical.eachPart {die : Nat} {rs : List CmdRef} {f : State → Cmd → Nat → Nat → State}
    (h : s.canonical) (hf : ∀ t x y z, State.canonical t → (f t x y z).canonical) :
    (s.eachPart die rs f).canonical := by
  unfold State.eachPart
  refine .foldl h fun _ _ ht => ?_
  split
  · exact .foldl ht fun _ _ hu => hf _ _ _ _ hu
  · exact ht

theorem State.canonical.dropWork {die : Nat} {rs : List CmdRef} (h : s.canonical) : (s.dropWork die rs).canonical :=
  .eachPart (.keep (.freeSlots h)) (fun _ _ _ _ ht => .engineAbandons ht)

theorem execKill_keepsCanonical {die : Fin 4} (h : s.canonical) : KeepsCanonical (execKill die s) :=
  .next (.live h (.keep (.dropWork h)))

theorem execDrained_keepsCanonical {die : Fin 4} (h : s.canonical) : KeepsCanonical (execDrained die s) :=
  .next (.live h (.ite h (.killsDone (.keep (.eachPart h (fun _ _ _ _ ht => .engineIdle ht))))))

theorem execRecord_keepsCanonical {die : Fin 4} (h : s.canonical) : KeepsCanonical (execRecord die s) := by
  unfold execRecord
  refine .next (.live h ?_)
  split
  · exact h
  · exact .ite h (.keep h)

theorem State.canonical.forgetDie {d : Nat} (h : s.canonical) : (s.forgetDie d).canonical :=
  .keep (.freeSlots h)

theorem State.canonical.sendFences {d : Nat} (h : s.canonical) : (s.sendFences d).canonical :=
  .foldl h fun _ _ ht => .ite ht (.sideSend ht)

theorem State.canonical.meadowGone {d : Nat} (h : s.canonical) : (s.meadowGone d).canonical :=
  .killsDone (.kill (.sendFences (.keep (.forgetDie (.raise (.setFld (.setFld h)))))))

theorem State.canonical.heathGone {a1 : Nat} (h : s.canonical) : (s.heathGone a1).canonical :=
  .keep (.foldl (.raise (.setFld h)) fun _ _ ht => .raiseEv ht)

theorem execDieMarkAbsent_keepsCanonical {die : Fin 7} (h : s.canonical) : KeepsCanonical (execDieMarkAbsent die s) :=
  .next (.live h (.ite h (.ite (.meadowGone h) (.heathGone h))))

theorem State.canonical.linkRejoin {d p : Nat} (h : s.canonical) : (s.linkRejoin d p).canonical := by
  unfold State.linkRejoin
  dsimp only
  split
  · exact .when (.ite (.pump (.setLink h)) h) fun ht => .pump (.setLink ht)
  · exact h

theorem State.canonical.sendRejoins {d : Nat} (h : s.canonical) : (s.sendRejoins d).canonical := by
  unfold State.sendRejoins
  refine .foldl (.ite (.pump (.setLink h)) h) fun _ _ ht => ?_
  split
  · exact .ite ht (.sideSend ht)
  · exact ht

theorem execDieRejoin_keepsCanonical {die : Fin 4} (h : s.canonical) : KeepsCanonical (execDieRejoin die s) :=
  .next (.live h (.ite h (.ite (.sendRejoins h) (.raise (.setFld (.setFld (.foldl h fun _ _ ht => .praUncurrent
    (.setPraEpoch ht))))))))

/-! ### The start of the module and the firmware processors -/

theorem State.canonical.updBoot {f : Boot → Boot} (h : s.canonical) : (s.updBoot f).canonical :=
  .keep h

theorem State.canonical.setProc {c : Nat} {p : Proc} (h : s.canonical) : (s.setProc c p).canonical :=
  .keep h

theorem State.canonical.procStart {c slot a3 : Nat} (h : s.canonical) : (s.procStart c slot a3).canonical :=
  .setProc h

theorem execRomBoot_keepsCanonical {bad : List (Fin 2 × Fin 8 × Fin 2)} (h : s.canonical) :
    KeepsCanonical (execRomBoot bad s) := by
  unfold execRomBoot
  refine .next (.live h (.ite h ?_))
  dsimp only
  split
  · exact .updBoot (.setReg (.romBoot h))
  · exact .extend (.extend (.procStart (.updBoot (.setFld (.setFld (.setFld (.setReg (.setReg (.romBoot h)))))))))

theorem State.canonical.meadowPresent {d : Nat} (h : s.canonical) : (s.meadowPresent d).canonical :=
  .ite (.setFld (.setFld (.foldl h fun _ _ ht => .linkRejoin ht))) h

theorem State.canonical.absentAtStart (h : s.canonical) : (s.absentAtStart).canonical :=
  .when (.ite (.replaceReq h) h) fun ht => .replaceReq ht

theorem State.canonical.drawSip (h : s.canonical) : (s.drawSip).canonical := .keep (.keep h)

theorem execSecurityCoreStart_keepsCanonical (h : s.canonical) : KeepsCanonical (execSecurityCoreStart s) :=
  .next (.live h (.ite h (.absentAtStart (.drawSip (.applyConfig (.extend (.foldl (.setReg (.foldl (.extend
    (.extend (.setFld (.setFld (.procStart (.procStart (.updBoot h))))))) fun _ _ ht => .raise ht))
      fun _ _ ht => .meadowPresent ht)))))))

theorem execLeaCoreLoad_keepsCanonical {l : LeaId} (h : s.canonical) : KeepsCanonical (execLeaCoreLoad l s) :=
  .next (.live h (.ite h (.whenNot (.procStart (.setLea h)) fun ht => .updBoot (.extend ht))))

theorem execHeathMeasRead_keepsCanonical (h : s.canonical) : KeepsCanonical (execHeathMeasRead s) :=
  .next (.live h (.ite h (.ite h (.updBoot (.extend (.extend h))))))

theorem State.canonical.heathMeasCheck {a1 : Nat} (h : s.canonical) : (s.heathMeasCheck a1).canonical :=
  .ite (.raise (.runtime (.updBoot h))) h

theorem execBootSettle_keepsCanonical (h : s.canonical) : KeepsCanonical (execBootSettle s) :=
  .next (.live h (.ite h (.updBoot (.putRecord h))))

theorem State.canonical.setCore {c v : Nat} (h : s.canonical) : (s.setCore c v).canonical :=
  .ite (.setFld h) (.ite (.setFld h) (.ite (.setFld h) (.setLea h)))

theorem State.canonical.boxEnd {m status a b : Nat} (h : s.canonical) : (s.boxEnd m status a b).canonical :=
  .setFld (.setReg (.ite (.msixSignal h) h))

theorem State.canonical.procDown {c cause : Nat} {reload : Bool} {crashes : List Nat} (h : s.canonical) :
    (s.procDown c cause reload crashes).canonical :=
  .when (.when (.setCore (.setProc h)) fun ht => .keep ht) fun ht => .foldl (.updBoot ht) fun _ _ hu => .ite
    (.boxEnd hu) hu

theorem State.canonical.crash {c cause : Nat} {imem : Bool} (h : s.canonical) : (s.crash c cause imem).canonical :=
  .ite h (.ite (.updBoot (.raise (.setCore (.setProc (.procDown h))))) (.procDown h))

theorem execFwWatchdogExpiry_keepsCanonical {code : BitVec 8} (h : s.canonical) :
    KeepsCanonical (execFwWatchdogExpiry code s) :=
  .next (.live h (.crash h))

theorem execFwUnhandledTrap_keepsCanonical {code : BitVec 8} (h : s.canonical) :
    KeepsCanonical (execFwUnhandledTrap code s) :=
  .next (.live h (.crash h))

theorem execFwMemoryUe_keepsCanonical {code : BitVec 8} {imem : Bool} (h : s.canonical) :
    KeepsCanonical (execFwMemoryUe code imem s) :=
  .next (.live h (.crash h))

theorem State.canonical.drainFifo {n : Nat} (h : s.canonical) : (State.drainFifo n s).canonical := by
  induction n generalizing s with
  | zero => exact h
  | succ n ih =>
    unfold State.drainFifo
    refine .ite h ?_
    obtain ⟨t, e, ht⟩ : KeepsCanonical (execCompletionFifoRecord s) := execCompletionFifoRecord_keepsCanonical h
    rw [e]
    exact ih ht

theorem State.canonical.schReturns (h : s.canonical) : (s.schReturns).canonical :=
  .raise (.foldl (.keep (.drainFifo h)) fun _ _ ht => .eventOut ht)

theorem State.canonical.activated {c : Nat} (h : s.canonical) : (s.activated c).canonical :=
  .ite (.setFld h) (.updBoot (.extend (.setFld h)))

theorem execFwRestartDone_keepsCanonical {code : BitVec 8} (h : s.canonical) :
    KeepsCanonical (execFwRestartDone code s) := by
  unfold execFwRestartDone
  refine .next (.live h ?_)
  extract_lets c p dig t u v w
  have hu : u.canonical := .setReg (.count32 (.setCore (.setProc h)))
  have hw : w.canonical := .raise (.runtime (.ite (.activated hu) hu))
  exact .ite h (.ite (.setFld hw) (.ite (.schReturns hw) (.ite (.raise hw) hw)))

/-! ### The requests of the KV manager -/

theorem State.canonical.kvResult {st : Nat} (h : s.canonical) : (s.kvResult st).canonical :=
  .setFld (.setReg h)

theorem State.canonical.publish {c root : Nat} (h : s.canonical) : (s.publish c root).canonical :=
  .ite (.kvResult (.keep h)) (.kvResult (.setCtx (.whenNot (.tableAcquire (.keep h)) fun ht => .retire ht)))

theorem State.canonical.evictNode {x : Nat} (h : s.canonical) : (s.evictNode x).canonical :=
  .ite (.kvResult h) (.ite (.kvResult h) (.ite (.kvResult h) (.kvResult (.nodeEvict h))))

theorem State.canonical.kvRequest {v : Nat} (h : s.canonical) : (s.kvRequest v).canonical := by
  unfold State.kvRequest
  refine .ite h (.whenNot (.setFld (.setFld h)) fun ht => ?_)
  split
  · exact .ite (.kvResult ht) (.ite (.keep ht) (.publish ht))
  · exact .evictNode ht
  · exact .kvResult ht

theorem execKvPublish_keepsCanonical {init : Init} {value : Word32} (h : s.canonical) :
    KeepsCanonical (execKvPublish init value s) :=
  .next (.live h (.ite (.kvRequest h) h))

theorem execKvEvict_keepsCanonical {init : Init} {value : Word32} (h : s.canonical) :
    KeepsCanonical (execKvEvict init value s) :=
  .next (.live h (.ite (.kvRequest h) h))

theorem execKvPublishResume_keepsCanonical (h : s.canonical) : KeepsCanonical (execKvPublishResume s) := by
  unfold execKvPublishResume
  refine .next (.live h ?_)
  split
  · exact .ite h (.publish h)
  · exact h

theorem execKvRetireRelease_keepsCanonical {root : Addr} (h : s.canonical) :
    KeepsCanonical (execKvRetireRelease root s) := by
  unfold execKvRetireRelease
  refine .next (.live h ?_)
  split
  · exact h
  · exact .kvRetired (.keep h)

theorem execKvQuarantineRelease_keepsCanonical {frame : Nat} (h : s.canonical) :
    KeepsCanonical (execKvQuarantineRelease frame s) := by
  unfold execKvQuarantineRelease
  refine .next (.live h ?_)
  split
  · exact h
  · exact .framePush (.setFld (.keep h))

/-! ### The commands of the DRAM controllers -/

theorem State.canonical.serveLine {d a o : Nat} {act : Bool} {err : List (Fin 72 × Byte)} {cmdErr : Bool}
    (h : s.canonical) : (s.serveLine d a o act err cmdErr).canonical :=
  .ite h (.whenNot (.ite (.activate h) h) fun ht => .dramDecode ht)

theorem execDramRead_keepsCanonical {req : DramReq} {act : Bool} {err : List (Fin 72 × Byte)} {cmdErr : Bool}
    (h : s.canonical) : KeepsCanonical (execDramRead req act err cmdErr s) := by
  unfold execDramRead
  refine .next (.live h ?_)
  split
  · exact h
  · refine .ite ?_ (.ite h ?_)
    · split
      · exact h
      · exact .ite h (.when (.serveLine (.charge (.tagBack h))) fun ht => .measureC7 ht)
    · split
      · exact h
      · exact .setDram h

theorem execDramWrite_keepsCanonical {who : DramUser} {addr : Addr} {mask : BitVec 64} {data : List Byte}
    (h : s.canonical) : KeepsCanonical (execDramWrite who addr mask data s) := by
  unfold execDramWrite
  refine .next (.live h ?_)
  split
  · exact h
  · exact .ite h (.ite h (.ite h (.when (.foldl (.charge (.setDram h)) fun _ _ ht => .putBytes ht)
      fun ht => .keep ht)))

theorem State.canonical.performWrite {d a : Nat} {q : QWrite} {act : Bool} {err : List Nat} {cmdErr : Bool}
    (h : s.canonical) : (s.performWrite d a q act err cmdErr).canonical :=
  .whenNot (.setDram (.ite (.activate h) h)) fun ht => .dramDecode ht

theorem execDramReadModifyWrite_keepsCanonical {addr : Addr} {act : Bool} {err : List (Fin 72 × Byte)} {cmdErr : Bool}
    (h : s.canonical) : KeepsCanonical (execDramReadModifyWrite addr act err cmdErr s) := by
  unfold execDramReadModifyWrite
  refine .next (.live h ?_)
  split
  · exact h
  · exact .ite h (.performWrite h)

theorem execDramWriteDrain_keepsCanonical {die : Fin 4} {pc : Fin 32} {acts : List (Fin 16 × Fin 4096)}
    (h : s.canonical) : KeepsCanonical (execDramWriteDrain die pc acts s) :=
  .next (.live h (.ite h (.foldl h fun _ _ ht => .performWrite ht)))

theorem execDramRefreshDue_keepsCanonical {die : Fin 4} {pc : Fin 32} (h : s.canonical) :
    KeepsCanonical (execDramRefreshDue die pc s) :=
  .next (.live h (.ite h (.setDram (.ite (.setFld (.setReg h)) h))))

theorem State.canonical.dramTemps {d : Nat} {ts : List ℤ} (h : s.canonical) : (s.dramTemps d ts).canonical := by
  unfold State.dramTemps
  refine .foldl (.setDram (.setReg h)) fun _ _ ht => .ite (.raise ?_) ht
  split
  · exact ht
  · exact .keep ht

theorem execDramPatrolScrub_keepsCanonical {at_ : DramLayer} {off : BitVec 34} {err : List
    (Fin 72 × Byte)} {cmdErr : Bool}
    (h : s.canonical) : KeepsCanonical (execDramPatrolScrub at_ off err cmdErr s) := by
  unfold execDramPatrolScrub
  obtain ⟨dramAddr, hd⟩ : ∃ f, f = State.dramAddr := ⟨_, rfl⟩
  rw [← hd]
  refine .next (.live h (.ite h ?_))
  split
  · dsimp only
    split
    · exact .activate h
    · exact .ite (.activate h) (.dramDecode (.activate h))
  · exact .ite h (.spareDecode (.activate h))

theorem State.canonical.migrateDone {d : Nat} {m : Migration} (h : s.canonical) : (s.migrateDone d m).canonical :=
  .foldl (.replaceReq (.raise (.noteLayers (.setFld (.setFld (.setFld (.setDram h)))))))
    fun _ _ ht => .noSpareLayer ht

theorem execMigrationUnit_keepsCanonical {die : Fin 4} {pc : Fin 32} {errs : List (Fin 16 × List
    (Fin 72 × Byte) × Bool)}
    (h : s.canonical) : KeepsCanonical (execMigrationUnit die pc errs s) := by
  unfold execMigrationUnit
  obtain ⟨dramAddr, hd⟩ : ∃ f, f = State.dramAddr := ⟨_, rfl⟩
  rw [← hd]
  refine .next (.live h ?_)
  split
  · exact h
  extract_lets u t v w m' x y
  have hw : w.canonical := .foldl (.activate (.activate h)) fun z col hz => by
    dsimp only
    split
    · exact hz
    · split
      · exact .ite (.dramPoisonLine (.keep (.ite hz (.dramDecode hz)))) (.ite hz (.dramDecode hz))
      · exact .ite (.dramPoisonLine (.keep hz)) hz
  exact .ite h (.ite (.migrateDone (.setReg (.setDram hw))) (.setReg (.setDram hw)))

theorem execEyeMonitorUpdate_keepsCanonical {die : Fin 4} {pc : Fin 32} {group : Fin 5} {width drift : Byte}
    (h : s.canonical) : KeepsCanonical (execEyeMonitorUpdate die pc group width drift s) :=
  .next (.live h (.ite h (.when (.setFld (.setFld (.setDram h))) fun ht => .raise ht)))

theorem execDramTrainingDone_keepsCanonical {die : Fin 4} {pass : Bool} {fails : List (Fin 32 × BitVec 36)}
    {eyes : List (Fin 32 × Fin 5 × Byte × Byte)} (h : s.canonical) :
    KeepsCanonical (execDramTrainingDone die pass fails eyes s) := by
  unfold execDramTrainingDone
  refine .next (.live h ?_)
  extract_lets r t u bad v
  have ht : t.canonical := .foldl h fun _ _ hx => .setReg hx
  have hu : u.canonical := .foldl ht fun _ _ hx => .ite (.setReg hx) (.replaceReq (.setFld hx))
  have hv : v.canonical := .setFld hu
  exact .ite h (.ite (.setFld hu) (.ite (.setFld hv) hv))

theorem State.canonical.flushWrite {d : Nat} {q : QWrite} (h : s.canonical) : (s.flushWrite d q).canonical :=
  .performWrite (.keep h)

theorem State.canonical.selfRefresh {d : Nat} (h : s.canonical) : (s.selfRefresh d).canonical :=
  .ite (.setFld (.foldl h fun _ _ ht => .flushWrite ht)) h

theorem execSelfRefreshEntry_keepsCanonical {die : Fin 4} (h : s.canonical) :
    KeepsCanonical (execSelfRefreshEntry die s) :=
  .next (.live h (.selfRefresh h))

theorem execDmcRetire_keepsCanonical {init : Init} {die : Fin 4} {value : Word32} (h : s.canonical) :
    KeepsCanonical (execDmcRetire init die value s) :=
  .next (.live h (.ite (.ite (.retireLayer (.setFld (.setFld h))) (.setFld h)) h))

theorem execDmcRhThreshWrite_keepsCanonical {init : Init} {die : Fin 4} {value : Word32} (h : s.canonical) :
    KeepsCanonical (execDmcRhThreshWrite init die value s) :=
  .next (.live h (.ite (.setFld h) h))

theorem execDmcCntClrErr_keepsCanonical {init : Init} {die : Fin 4} (h : s.canonical) :
    KeepsCanonical (execDmcCntClrErr init die s) :=
  .next (.live h (.ite (.setReg (.setReg (.setReg h))) h))

/-! ### The commands of leas and tiles -/

theorem execLeaSwap_keepsCanonical {init : Init} {l : LeaId} {value : Word32} (h : s.canonical) :
    KeepsCanonical (execLeaSwap init l value s) :=
  .next (.live h (.ite h (.ite (.ite (.swapRefused h) h) (.ite (.swapRequest h) (.setFld h)))))

theorem execSwapMap_keepsCanonical {l : LeaId} (h : s.canonical) : KeepsCanonical (execSwapMap l s) := by
  unfold execSwapMap
  refine .next (.live h ?_)
  dsimp only
  split
  · exact h
  · exact .ite h (.failedNext (.moveTile (.setLea h)))

theorem State.canonical.beginTest {d l a3 : Nat} (h : s.canonical) : (s.beginTest d l a3).canonical :=
  .setLea (.setTileSt (.setFreeState h))

theorem State.canonical.waitingSwapOut {d l : Nat} (h : s.canonical) : (s.waitingSwapOut d l).canonical := by
  unfold State.waitingSwapOut
  split
  · exact .swapOut h
  · exact h

theorem execTileClearDone_keepsCanonical {a0 : TileId} (h : s.canonical) : KeepsCanonical (execTileClearDone a0 s) :=
  .next (.live h (.ite h (.ite (.failedNext (.waitingSwapOut (.setFld (.setTileSt (.setFreeState (.zeroTile h))))))
    (.ite (.failedNext (.setFld (.setTileSt (.setFreeState (.zeroTile h))))) (.when (.setFld (.setTileSt
      (.setFreeState (.zeroTile h)))) fun ht => .beginTest ht)))))

theorem execMismatchReport_keepsCanonical {a0 : SlotId} {check : Check} (h : s.canonical) :
    KeepsCanonical (execMismatchReport a0 check s) :=
  .next (.live h (.ite h (.mismatch h)))

theorem State.canonical.arm {init : Nat} {a2 : TileId} {target : Nat} (h : s.canonical) :
    (s.arm init a2 target).canonical :=
  .ite h (.setTile (.setReg h))

theorem execTilInjectResidue_keepsCanonical {init : Init} {a1 : TileId} (h : s.canonical) :
    KeepsCanonical (execTilInjectResidue init a1 s) :=
  .next (.live h (.arm h))

theorem execTilInjectChecksum_keepsCanonical {init : Init} {a1 : TileId} (h : s.canonical) :
    KeepsCanonical (execTilInjectChecksum init a1 s) :=
  .next (.live h (.arm h))

theorem execTilInjectVector_keepsCanonical {init : Init} {a1 : TileId} (h : s.canonical) :
    KeepsCanonical (execTilInjectVector init a1 s) :=
  .next (.live h (.arm h))

theorem execTilInjectSramSingle_keepsCanonical {init : Init} {a1 : TileId} (h : s.canonical) :
    KeepsCanonical (execTilInjectSramSingle init a1 s) :=
  .next (.live h (.arm h))

theorem execTilInjectSramDouble_keepsCanonical {init : Init} {a1 : TileId} (h : s.canonical) :
    KeepsCanonical (execTilInjectSramDouble init a1 s) :=
  .next (.live h (.arm h))

theorem execTilInjectTimeout_keepsCanonical {a0 : TileId} (h : s.canonical) :
    KeepsCanonical (execTilInjectTimeout a0 s) :=
  .next (.live h (.ite (.setFld (.setReg h)) h))

theorem execTilCntClrEcc_keepsCanonical {init : Init} {a1 : TileId} (h : s.canonical) :
    KeepsCanonical (execTilCntClrEcc init a1 s) :=
  .next (.live h (.ite (.setReg (.setReg h)) h))

theorem execTilCntClrSkip_keepsCanonical {init : Init} {a1 : TileId} (h : s.canonical) :
    KeepsCanonical (execTilCntClrSkip init a1 s) :=
  .next (.live h (.ite (.setReg h) h))

theorem execSramCeWriteback_keepsCanonical {addr : Addr} (h : s.canonical) :
    KeepsCanonical (execSramCeWriteback addr s) :=
  .next (.live h (.keep h))

theorem State.canonical.scrubbed {a : Nat} (h : s.canonical) : (s.scrubbed a).canonical :=
  .ite (.reportRow (.keep h)) (.keep h)

theorem execSramScrubRead_keepsCanonical {addr : Addr} {ecc : Ecc} (h : s.canonical) :
    KeepsCanonical (execSramScrubRead addr ecc s) := by
  dsimp only [execSramScrubRead]
  refine .next (.live h ?_)
  split
  · split
    · exact .sramFire h
    · exact .scrubbed (.tileError (.sramFire h))
    · exact .tileSramError (.sramFire h)
  · refine .ite h ?_
    split
    · exact h
    · exact .scrubbed (.count32 h)
    · exact .poolError h
  · exact h

theorem execRotationStep_keepsCanonical {l : LeaId} (h : s.canonical) : KeepsCanonical (execRotationStep l s) := by
  unfold execRotationStep
  refine .next (.live h (.ite h (.ite ?_ ?_)))
  · split
    · exact .beginTest (.setLea h)
    · exact .setLea (.setLea h)
    · exact .setLea h
  · split
    · exact .setLea h
    · exact .ite (.count32 (.ite (.setLea h) (.swapRefused (.setLea h)))) (.ite (.count32 (.swapRequest
        (.setLea h))) (.setLea (.swapRequest (.setLea h))))

theorem execTileSelfTestDone_keepsCanonical {a0 : TileId} {pass : Bool} (h : s.canonical) :
    KeepsCanonical (execTileSelfTestDone a0 pass s) :=
  .next (.live h (.ite h (.ite (.count32 (.setTileSt (.setFreeState (.setTile (.setLea h))))) (.failedNext
    (.retireTile (.raise (.count32 (.setLea h))))))))

theorem State.canonical.showRows {d l : Nat} (h : s.canonical) : (s.showRows d l).canonical :=
  .setReg h

theorem execRowRepair_keepsCanonical {mac row : Nat} {bist : Bool} (h : s.canonical) :
    KeepsCanonical (execRowRepair mac row bist s) :=
  .next (.live h (.ite h (.ite (.when (.frecNote (.raise (.keep (.keep h)))) fun ht => .showRows ht) (.ite
    (.setTile (.raise (.keep h))) (.replaceReq (.raise (.keep h)))))))

theorem execLeaRebind_keepsCanonical {l : LeaId} (h : s.canonical) : KeepsCanonical (execLeaRebind l s) := by
  unfold execLeaRebind
  refine .next (.live h ?_)
  dsimp only
  split
  · exact h
  · exact .ite h (.whenNot (.setTileSt (.setLea h)) fun ht => .ite (.raise (.setFld ht)) (.raise (.setFld (.setFld
      (.setFld (.ite ht (.setTileSt (.setFld ht))))))))

/-! ### The time base and the time unit -/

theorem execTimeBaseRealign_keepsCanonical {die : Fin 7} (h : s.canonical) :
    KeepsCanonical (execTimeBaseRealign die s) :=
  .next (.keep h)

theorem State.canonical.setTb {st : Nat} (h : s.canonical) : (s.setTb st).canonical :=
  .whenNot (.ite (.setReg (.setFld h)) h) fun ht => .raise (.setFld ht)

theorem State.canonical.servo (h : s.canonical) : (s.servo).canonical := .setFld (.keep h)

theorem State.canonical.showResid {r : ℤ} (h : s.canonical) : (s.showResid r).canonical :=
  .ite (.setReg h) (.setReg (.keep h))

theorem State.canonical.moveOffset {d : ℤ} (h : s.canonical) : (s.moveOffset d).canonical :=
  .setReg h

theorem State.canonical.syncDone {time : ℤ} {rx : Nat} (h : s.canonical) : (s.syncDone time rx).canonical := by
  unfold State.syncDone
  split
  · exact h
  · dsimp only
    split
    · exact .servo (.setTb (.moveOffset (.keep (.showResid h))))
    · exact .when (.servo (.keep (.showResid h))) fun ht => .setTb ht
    · exact .ite (.servo (.setTb (.moveOffset (.keep (.showResid h))))) (.servo (.moveOffset (.showResid h)))
    · exact .ite (.setTb (.showResid h)) (.servo (.setTb (.moveOffset (.keep (.showResid h)))))

theorem execPtpSync_keepsCanonical {twoStep : Bool} {seq : BitVec 16} {interval : BitVec 8} {origin : Nat}
    {correction : ℤ} (h : s.canonical) : KeepsCanonical (execPtpSync twoStep seq interval origin correction s) := by
  unfold execPtpSync
  refine .next (.live h ?_)
  split
  · exact h
  · exact .ite h (.ite (.keep h) (.syncDone (.keep h)))

theorem execPtpFollowUp_keepsCanonical {seq : BitVec 16} {origin : Nat} {correction : ℤ} (h : s.canonical) :
    KeepsCanonical (execPtpFollowUp seq origin correction s) := by
  unfold execPtpFollowUp
  refine .next (.live h ?_)
  split
  · exact .ite (.syncDone (.keep h)) h
  · exact h

theorem execPtpPdelayReq_keepsCanonical {seq : BitVec 16} (h : s.canonical) :
    KeepsCanonical (execPtpPdelayReq seq s) :=
  .next (.live h (.ite (.keep h) h))

theorem execPtpPdelayReqSend_keepsCanonical (h : s.canonical) : KeepsCanonical (execPtpPdelayReqSend s) :=
  .next (.live h (.ite h (.keep h)))

theorem execPtpPdelayResp_keepsCanonical {seq : BitVec 16} {received sent : Nat} (h : s.canonical) :
    KeepsCanonical (execPtpPdelayResp seq received sent s) := by
  unfold execPtpPdelayResp
  refine .next (.live h ?_)
  split
  · exact .ite h (.keep h)
  · exact h

theorem execPtpAnnounceDiscard_keepsCanonical (h : s.canonical) : KeepsCanonical (execPtpAnnounceDiscard s) :=
  .next h

theorem execPtpSyncTimeout_keepsCanonical (h : s.canonical) : KeepsCanonical (execPtpSyncTimeout s) := by
  unfold execPtpSyncTimeout
  refine .next (.live h (.ite h ?_))
  split
  · exact .setTb h
  · exact .setTb (.keep h)
  · exact h

theorem execHoldoverExpiry_keepsCanonical (h : s.canonical) : KeepsCanonical (execHoldoverExpiry s) :=
  .next (.live h (.ite (.setTb h) h))

/-! ### Resets -/

theorem State.canonical.powerReset {die : Nat} (h : s.canonical) : (s.powerReset die).canonical :=
  .setDiePw h

theorem State.canonical.portsReset {die : Nat} (h : s.canonical) : (s.portsReset die).canonical :=
  .foldl h fun _ _ ht => .setPort ht

theorem State.canonical.portsFreed {die : Nat} (h : s.canonical) : (s.portsFreed die).canonical :=
  .foldl h fun _ _ ht => .ite (.setPort ht) (.when (.setReg (.setPort ht)) fun hu => .startNegotiate hu)

theorem State.canonical.meadowReset {d : Nat} (h : s.canonical) : (s.meadowReset d).canonical :=
  .setDie (.portsReset (.keep (.setDram (.powerReset (.clearRegs h)))))

theorem State.canonical.valeClear (h : s.canonical) : (s.valeClear).canonical :=
  .keep (.setDie (.portsReset (.clearMem (.setFld (.setFld (.setFld (.foldl (.clearRegs h)
    fun _ _ ht => .setColState ht)))))))

theorem State.canonical.holdDrive (h : s.canonical) : (s.holdDrive).canonical :=
  .foldl h fun _ _ ht => .ite (.setHeath ht) ht

theorem State.canonical.moduleReset (h : s.canonical) : (s.moduleReset).canonical := by
  unfold State.moduleReset
  exact .when (.foldl (.keep (.foldl (.clearMem (.foldl (.clearRegs (.foldl (.valeClear (.holdDrive h))
    fun _ _ ht => .meadowReset ht)) fun _ _ ht => .setColState ht)) fun _ _ ht => .setDie ht))
      fun _ _ ht => .portsFreed ht) fun ht => .setFld ht

theorem State.canonical.heathReset {a1 : Nat} {before : Bool} (h : s.canonical) :
    (s.heathReset a1 before).canonical :=
  .powerReset (.setDie (.portsReset (.keep (.setHeath (.clearRegs h)))))

theorem State.canonical.applyMark {d v : Nat} (h : s.canonical) : (s.applyMark d v).canonical :=
  .ite (.setFld h) (.setReg h)

theorem State.canonical.applyRepair {d v : Nat} (h : s.canonical) : (s.applyRepair d v).canonical := by
  unfold State.applyRepair
  refine .ite (.ite h (.setPort h)) ?_
  dsimp only
  split
  · exact .setFld h
  · exact h

theorem State.canonical.applyRetired {d l : Nat} (h : s.canonical) : (s.applyRetired d l).canonical := by
  unfold State.applyRetired
  extract_lets gone n spare t u v w
  have ht : t.canonical := .foldl h fun _ _ ht => .setTileSt ht
  have hu : u.canonical := .foldl₁ ht fun _ _ hx => .ite₁ (.setFld hx) (.ite₁ (.setTileSt (.setFld hx)) (by
    split
    · exact .setTileSt (.setFld hx)
    · exact .setFld hx))
  have hv : v.canonical := .setFld (.setFld (.setFreeState (.setFld hu)))
  have hw : w.canonical := .ite (.setFld hv) hv
  exact .ite h (.ite (.setFld hw) hw)

theorem State.canonical.setSteps {die n : Nat} (h : s.canonical) : (s.setSteps die n).canonical :=
  .ite (.setReg (.setFld (.setDiePw h))) (.setDiePw h)

theorem State.canonical.applyEntry {die : Nat} {e : FrecEntry} (h : s.canonical) :
    (s.applyEntry die e).canonical := by
  unfold State.applyEntry
  refine .ite h (.ite ?_ ?_)
  · split
    · exact .setFld h
    · exact .keep h
    · exact .setFld (.setReg h)
    · exact .applyMark h
    · exact .applyRepair h
    · exact .setSteps h
    · exact .ite (.setFld h) (.setFld h)
    · exact h
  · split
    · exact .applyRepair h
    · exact .setFld (.setFld (.keep h))
    · exact .setSteps h
    · exact .setReg h
    · exact h

theorem execRestore_keepsCanonical {a0 : Fin 2} {die : Fin 5} {index : Fin 8192} (h : s.canonical) :
    KeepsCanonical (execRestore a0 die index s) :=
  .next (.live h (.ite h (.ite (.setDie h) (.ite (.setDie (.setReg (.foldl (.setDie h)
    fun _ _ ht => .applyEntry ht))) (.foldl (.setDie h) fun _ _ ht => .applyEntry ht)))))

theorem execFaultRecordTimeout_keepsCanonical {die : Fin 5} (h : s.canonical) :
    KeepsCanonical (execFaultRecordTimeout die s) :=
  .next (.live h (.ite h (.raise (.setDie h))))

theorem State.canonical.startTests {d : Nat} {badTiles : List (Nat × Nat)} {badEngines : List Nat} (h : s.canonical) :
    (s.startTests d badTiles badEngines).canonical :=
  .setDie (.foldl (.foldl (.foldl h fun _ _ ht => .ite ht (.replaceReq (.frecNote (.raise (.setFld (.raise
    (.count32 ht))))))) fun _ _ ht => .showRows (.applyRetired ht)) fun _ _ ht => .ite ht (.setTile ht))

theorem execMeadowRestoreComplete_keepsCanonical {die : Fin 4} {badTiles : List (Fin 16 × Fin 17)}
    {badEngines : List (Fin 17)} (h : s.canonical) :
    KeepsCanonical (execMeadowRestoreComplete die badTiles badEngines s) := by
  unfold execMeadowRestoreComplete
  refine .next (.live h (.ite h (.foldl (.setDie (.when (.whenNot (.startTests (.ite (.foldl (.clearMem h)
    fun _ _ ht => .applyEntry ht) (.clearMem h))) fun ht => .clearMem ht) fun ht => .setFld ht)) fun _ _ ht => ?_)))
  dsimp only
  split
  · exact .ite (.standby (.ite (.standby ht) ht)) (.ite (.standby ht) ht)
  · exact ht

theorem State.canonical.leaveReset {d : Nat} (h : s.canonical) : (s.leaveReset d).canonical :=
  .foldl (.when (.factoryRepairs (.setDie h)) fun ht => .setFld ht) fun _ _ ht => .ite (.startNegotiate
    (.sideSend ht)) ht

theorem execDieLeavesReset_keepsCanonical {die : Fin 7} (h : s.canonical) :
    KeepsCanonical (execDieLeavesReset die s) :=
  .next (.live h (.ite (.leaveReset h) h))

theorem State.canonical.keepHeld {a1 : Nat} (h : s.canonical) : (s.keepHeld a1).canonical :=
  .foldl h fun _ _ ht => .ite (.setDie (.meadowReset ht)) ht

theorem execHeathResetRelease_keepsCanonical (h : s.canonical) : KeepsCanonical (execHeathResetRelease s) :=
  .next (.foldl h fun _ _ ht => .ite (.keepHeld (.leaveReset ht)) ht)

theorem State.canonical.release (h : s.canonical) : (s.release).canonical := .ite h (.updBoot h)

theorem execSequencerRelease_keepsCanonical (h : s.canonical) : KeepsCanonical (execSequencerRelease s) :=
  .next (.ite (.release h) h)

theorem State.canonical.resetTaken {lowNs : Nat} (h : s.canonical) : (s.resetTaken lowNs).2.canonical :=
  .ite₂ h (.ite₂ h (.keep h))

theorem execResetNAssert_keepsCanonical {lowNs : Nat} (h : s.canonical) : KeepsCanonical (execResetNAssert lowNs s) :=
  .next (.whenNot (.resetTaken h) fun ht => .keep (.ite (.moduleReset ht) ht))

theorem execResetNRelease_keepsCanonical (h : s.canonical) : KeepsCanonical (execResetNRelease s) :=
  .next (.ite h (.ite (.release (.keep h)) (.keep h)))

theorem State.canonical.holdDown {a1 d : Nat} (h : s.canonical) : (s.holdDown a1 d).canonical :=
  .setDie (.meadowReset (.frecNote (.replaceReq (.heathEvent h))))

theorem State.canonical.warmRestart {a1 d : Nat} (h : s.canonical) : (s.warmRestart a1 d).canonical :=
  .ite h (.ite (.holdDown (.setDie (.count32 h))) (.sideSend (.setDie (.count32 h))))

theorem State.canonical.testsEnd (h : s.canonical) : (s.testsEnd).canonical :=
  .foldl h fun _ _ ht => .ite ht (.setLea (.setTileSt (.setFreeState ht)))

theorem State.canonical.freeze {src : Nat} (h : s.canonical) : (s.freeze src).canonical :=
  .ite h (.keep (.foldl (.foldl (.updCol (.setFld (.setFld (.setFld (.testsEnd (.foldl (.holdDrive (.runtime h))
    fun _ _ ht => .selfRefresh ht)))))) fun _ _ ht => .foldl ht fun _ _ hu => .ite (.setLink hu) hu)
      fun _ _ ht => .setDie ht))

theorem State.canonical.valeRestart {a1 : Nat} (h : s.canonical) : (s.valeRestart a1).canonical :=
  .ite h (.ite (.freeze h) (.foldl (.foldl (.valeClear (.foldl (.holdDrive (.count32 h)) fun _ _ ht => .ite
    (.selfRefresh ht) ht)) fun _ _ ht => .meadowReset ht) fun _ _ ht => .setDie ht))

theorem State.canonical.meadowLeaves {d : Nat} (h : s.canonical) : (s.meadowLeaves d).canonical :=
  .setDie (.meadowReset (.selfRefresh h))

theorem execResetReq_keepsCanonical {p : PortId} {cold : Bool} (h : s.canonical) :
    KeepsCanonical (execResetReq p cold s) :=
  .next (.live h (.whenNot (.ite h (.sideTake h)) fun ht => .ite (.count32 ht) (.ite ht (.ite (.meadowLeaves ht)
    (.ite (.foldl (.moduleReset ht) fun _ _ hu => .setDie hu) ht)))))

theorem execResetNotifyTimeout_keepsCanonical {die : Fin 4} (h : s.canonical) :
    KeepsCanonical (execResetNotifyTimeout die s) := by
  unfold execResetNotifyTimeout
  refine .next ?_
  split
  · exact .ite h (.setDie (.meadowReset h))
  · exact h

theorem execResetWireRelease_keepsCanonical {die : Fin 5} (h : s.canonical) :
    KeepsCanonical (execResetWireRelease die s) :=
  .next (.ite h (.ite (.whenNot (.foldl h fun _ _ ht => .ite ht (.setDie ht)) fun ht => .release ht) (.ite h
    (.setDie h))))

theorem execHelloWaitTimeout_keepsCanonical {die : Fin 4} (h : s.canonical) :
    KeepsCanonical (execHelloWaitTimeout die s) := by
  unfold execHelloWaitTimeout
  refine .next ?_
  dsimp only
  split
  · exact .ite (.warmRestart h) h
  · exact h

/-! ### Writes of registers -/

theorem State.canonical.nextOf {o : Host.Outcome State Fault Refusal} (h : KeepsCanonical o) :
    (nextOf o s).canonical := by
  obtain ⟨t, rfl, ht⟩ := h
  exact ht

theorem State.canonical.regPlain {a v : Nat} (h : s.canonical) : (s.regPlain a v).canonical := by
  unfold State.regPlain
  split
  · exact .ite (.setReg h) h
  · exact h

theorem State.canonical.boxWrite {m v : Nat} (h : s.canonical) : (s.boxWrite m v).canonical :=
  .ite (.setFld h) (.ite (.boxEnd (.setFld h)) (.ite (.boxEnd (.setFld h)) (.ite (.boxEnd (.setFld h)) (.setFld
    (.setFld h)))))

theorem State.canonical.freezeReq {v : Nat} (h : s.canonical) : (s.freezeReq v).canonical := by
  unfold State.freezeReq
  refine .ite h ?_
  dsimp only
  split
  · exact .freeze (.setFld h)
  · exact .setFld h

theorem State.canonical.injectWrite {a v width last : Nat} {arm : Nat → State → State} (h : s.canonical)
    (harm : ∀ x t, State.canonical t → (arm x t).canonical) : (s.injectWrite a v width last arm).canonical :=
  .ite (.setFld h) (.ite (harm _ _ h) (.setReg (.setReg h)))

theorem State.canonical.fdlWrite {init die a o v : Nat} (h : s.canonical) : (s.fdlWrite init die a o v).canonical :=
  .ite (.ite (.nextOf (execFdlCntClrErr_keepsCanonical h)) h) (.ite (.ite (.setFld h) (.ite (.ite (.setReg (.setFld
    (.setFld h))) (.setFld h)) (.fdlTest h))) h)

theorem State.canonical.flrWrite {init die a o v : Nat} (h : s.canonical) : (s.flrWrite init die a o v).canonical :=
  .ite (.when (.ite (.nextOf (execFlrCntClrLat_keepsCanonical h)) h)
    fun ht => .nextOf (execFlrCntClrOver_keepsCanonical ht)) (.ite (.nextOf (execFlrIqmUrgWrite_keepsCanonical h))
      (.ite (.nextOf (execFlrBudgetWrite_keepsCanonical h)) (.regPlain h)))

theorem State.canonical.iqmWrite {init a o v : Nat} (h : s.canonical) : (s.iqmWrite init a o v).canonical :=
  .ite (.when (.ite (.nextOf (execIqmCntClrPort_keepsCanonical h)) h)
    fun ht => .nextOf (execIqmCntClrQueue_keepsCanonical ht)) (.ite (.ite (.regPlain h) (.setTb (.regPlain h)))
      (.ite (.regPlain h) (.ite (.nextOf (execIqmQueueConfigWrite_keepsCanonical h)) (.regPlain h))))

theorem State.canonical.schWrite {init a o v : Nat} (h : s.canonical) : (s.schWrite init a o v).canonical :=
  .ite (.ite (.ite (.ringEnable h) (.nextOf (execRingDisable_keepsCanonical h))) (.ite (.ringIndex h) (.ite
    (.ringIndex h) (.ite (.ringIndex h) (.ite h (.regPlain h)))))) (.ite (.kvRequest h) (.ite h (.regPlain h)))

theorem State.canonical.regEffect {init : Nat} {b : Block} {a o v : Nat} (h : s.canonical) :
    (s.regEffect init b a o v).canonical := by
  unfold State.regEffect
  dsimp only
  split
  · exact .ite (.modeRequest h) (.ite (.freezeReq h) (.regPlain h))
  · exact .schWrite h
  · exact .ite h (.ite h (.ite (.boxWrite h) (.regPlain h)))
  · exact .ite (.nextOf (execLeaSwap_keepsCanonical h)) h
  · exact .ite (.when (.ite (.nextOf (execTilCntClrEcc_keepsCanonical h)) h)
      fun ht => .nextOf (execTilCntClrSkip_keepsCanonical ht)) (.ite (.injectWrite h (fun _ _ ht => .arm ht)) h)
  · exact .ite (.when (.when (.ite (.nextOf (execGlnCntClrEcc_keepsCanonical h)) h)
      fun ht => .nextOf (execGlnCntClrSkip_keepsCanonical ht))
        fun ht => .nextOf (execGlnCntClrUse_keepsCanonical ht)) (.ite (.injectWrite h (fun _ _ ht => .glnArm ht)) h)
  · exact .ite (.when (.ite (.praInval h) h) fun ht => .praInval ht) (.ite (.when (.ite
      (.nextOf (execPraCntClrEcc_keepsCanonical h)) h) fun ht => .nextOf (execPraCntClrUse_keepsCanonical ht))
        (.ite (.injectWrite h (fun _ _ ht => .praArm ht)) h))
  · exact .ite (.nextOf (execDmcRhThreshWrite_keepsCanonical h)) (.ite (.nextOf (execDmcRetire_keepsCanonical h))
      (.ite (.ite (.nextOf (execDmcCntClrErr_keepsCanonical h)) h) (.regPlain h)))
  · exact .fdlWrite h
  · exact .fdlWrite h
  · exact .fdlWrite h
  · exact .flrWrite h
  · exact .flrWrite h
  · exact .iqmWrite h
  · exact .ite (.ite (.nextOf (execColCntClrErr_keepsCanonical h)) h) h
  · exact .regPlain h
  · exact h
  · exact h
  · exact h

theorem State.canonical.regWrite {init : Nat} {b : Block} {a : Nat} {bs : List Byte} (h : s.canonical) :
    (s.regWrite init b a bs).2.canonical :=
  .ite₂ h (.ite₂ h (.foldl h fun _ _ ht => .ite (.regEffect ht) ht))

theorem State.canonical.write {who : Who} {a : Nat} {bs : List Byte} (h : s.canonical) :
    (s.write who a bs).2.canonical := by
  unfold State.write
  split
  · exact .ite₂ (.regWrite h) h
  · exact .ite₂ (.apertureWrite h) h
  · exact .ite₂ (.store h) (.ite (.storeRefused h) h)

theorem execRegisterWrite_keepsCanonical {init : Init} {addr : Addr} {value : Word} (h : s.canonical) :
    KeepsCanonical (execRegisterWrite init addr value s) := by
  unfold execRegisterWrite
  refine .next (.live h ?_)
  dsimp only
  split
  · exact .ite (.write h) h
  · exact h

theorem execValFreezeReq_keepsCanonical {init : Init} {value : Word32} (h : s.canonical) :
    KeepsCanonical (execValFreezeReq init value s) :=
  .next (.live h (.ite (.freezeReq h) h))

/-! ### Freeze, thaw and the debug port -/

theorem execFreezeNFall_keepsCanonical {lowNs : Option Nat} (h : s.canonical) :
    KeepsCanonical (execFreezeNFall lowNs s) := by
  unfold execFreezeNFall
  refine .next ?_
  split
  · exact .freeze (.setFld h)
  · exact .ite (.freeze (.setFld h)) (.ite (.setFld h) (.when (.keep (.setFld h)) fun ht => .freeze ht))

theorem execTapScanShift_keepsCanonical {op : ScanOp} (h : s.canonical) : KeepsCanonical (execTapScanShift op s) := by
  unfold execTapScanShift
  refine .next (.ite h ?_)
  split
  · exact .keep h
  · exact .keep h

theorem State.canonical.shiftTimes (h : s.canonical) : (s.shiftTimes).canonical :=
  .foldl (.foldl h fun _ _ ht => .setDie (.setDiePw (.foldl ht fun _ _ hu => .setPort hu))) fun _ _ ht => .setHeath ht

theorem State.canonical.retrainAll (h : s.canonical) : (s.retrainAll).canonical :=
  .foldl h fun _ _ ht => .foldl ht fun _ _ hu => .ite hu (.ite (.retrain (.setLink (.retrain hu))) (.retrain hu))

theorem State.canonical.wakeStacks (h : s.canonical) : (s.wakeStacks).canonical :=
  .foldl h fun _ _ ht => .ite (.setFld ht) ht

theorem State.canonical.bypassPorts (h : s.canonical) : (s.bypassPorts).canonical :=
  .foldl h fun _ _ ht => .ite (.setColState (.setFld ht)) ht

theorem State.canonical.ptpAcquire (h : s.canonical) : (s.ptpAcquire).canonical :=
  .ite (.setTb (.keep h)) h

theorem execThaw_keepsCanonical (h : s.canonical) : KeepsCanonical (execThaw s) :=
  .next (.ite h (.raise (.foldl (.runtime (.setFld (.ptpAcquire (.pciaDown (.bypassPorts (.retrainAll (.wakeStacks
    (.keep (.shiftTimes h))))))))) fun _ _ ht => .heathMeasCheck ht)))

theorem execDebugRegisterAccess_keepsCanonical {wr : Bool} {addr : Addr} {value : Word32} (h : s.canonical) :
    KeepsCanonical (execDebugRegisterAccess wr addr value s) := by
  unfold execDebugRegisterAccess
  refine .next (.live h (.ite h (.ite (.keep (.setFld h)) ?_)))
  split
  · exact .ite (.keep (.write h)) (.keep h)
  · exact .keep h

/-! ### The commands of the safety islands -/

theorem State.canonical.readValMode {a1 : Nat} (h : s.canonical) : (s.readValMode a1).canonical :=
  .setFld (.setHeath h)

theorem State.canonical.withholding {a1 : Nat} (h : s.canonical) : (s.withholding a1).canonical :=
  .setWithheld (.setHeath h)

theorem State.canonical.slotRole {a1 : Nat} (h : s.canonical) : (s.slotRole a1).canonical :=
  .ite (.setRole (.setHeath h)) (.ite h (.setRole h))

theorem State.canonical.showStatus {a1 src : Nat} (h : s.canonical) : (s.showStatus a1 src).canonical :=
  .setFld (.setFld (.setFld (.setFld h)))

theorem State.canonical.loneValeRestart {a1 : Nat} (h : s.canonical) : (s.loneValeRestart a1).canonical := by
  unfold State.loneValeRestart
  refine .ite h ?_
  split
  · exact .ite (.valeRestart h) h
  · exact .ite (.valeRestart h) h

theorem execHeathSlot_keepsCanonical {a0 : Fin 2} (h : s.canonical) : KeepsCanonical (execHeathSlot a0 s) :=
  .next (.ite h (.loneValeRestart (.heathFlush (.crossSend (.setHeath (.showStatus (.setReg (.withholding
    (.readValMode (.slotRole h))))))))))

theorem execCrossFrameMidslot_keepsCanonical {a0 : Fin 2} (h : s.canonical) :
    KeepsCanonical (execCrossFrameMidslot a0 s) :=
  .next (.ite h (.crossSend (.setHeath h)))

theorem State.canonical.setFrame {a1 : Nat} {f : FrameDec} (h : s.canonical) : (s.setFrame a1 f).canonical :=
  .setHeath h

theorem State.canonical.dropFrame {a1 job : Nat} (h : s.canonical) : (s.dropFrame a1 job).canonical :=
  .setHeath h

theorem State.canonical.shiftWindow {a1 b t0 : Nat} (h : s.canonical) : (s.shiftWindow a1 b t0).canonical :=
  .setHeath (.setFld h)

theorem State.canonical.frameAccept {a1 : Nat} {f : FrameDec} {r : TrajRec} (h : s.canonical) :
    (s.frameAccept a1 f r).canonical := by
  unfold State.frameAccept
  exact .crossSend (.setWithheld (.setHeath (.shiftWindow (.setReg (.count32 (.dropFrame h))))))

theorem State.canonical.frameNone {a1 job : Nat} (h : s.canonical) : (s.frameNone a1 job).canonical :=
  .count32 (.dropFrame h)

theorem State.canonical.escalate {a1 : Nat} {suspect : Option Nat} (h : s.canonical) :
    (s.escalate a1 suspect).canonical := by
  unfold State.escalate
  refine .setHeath (.setFld ?_)
  split
  · exact .when (.heathEvent h) fun ht => .warmRestart ht
  · exact h

theorem State.canonical.frameDisagree {a1 : Nat} {f : FrameDec} {cause : Nat} {named : Option Nat} (h : s.canonical) :
    (s.frameDisagree a1 f cause named).canonical :=
  .when (.heathEvent (.setWithheld (.setHeath (.shiftWindow (.setFld (.count (.dropFrame h)))))))
    fun ht => .escalate ht

theorem State.canonical.tryClose {a1 job : Nat} (h : s.canonical) : (s.tryClose a1 job).canonical := by
  unfold State.tryClose
  split
  · exact h
  · split
    · exact h
    · refine .ite (.frameDisagree h) ?_
      split
      · refine .ite (.frameDisagree h) ?_
        split
        · exact .frameAccept h
        · exact h
      · refine .ite h ?_
        split
        · exact .frameAccept h
        · exact h

theorem State.canonical.crossTake {a1 path : Nat} {f : CrossFrame} (h : s.canonical) :
    (s.crossTake a1 path f).canonical := by
  unfold State.crossTake
  refine .ite (.valeRestart ?_) ?_
  · split
    · split
      · exact .tryClose (.setFrame (.setFld (.setFld (.setHeath h))))
      · exact .setFld (.setFld (.setHeath h))
    · exact .setFld (.setFld (.setHeath h))
  · split
    · split
      · exact .tryClose (.setFrame (.setFld (.setFld (.setHeath h))))
      · exact .setFld (.setFld (.setHeath h))
    · exact .setFld (.setFld (.setHeath h))

theorem execCrossFrame_keepsCanonical {a0 : Fin 2} {viaPath bad : Bool} (h : s.canonical) :
    KeepsCanonical (execCrossFrame a0 viaPath bad s) := by
  unfold execCrossFrame
  refine .next ?_
  dsimp only
  split
  · exact h
  · exact .ite (.setHeath h) (.crossTake (.setHeath h))

theorem execXframe_keepsCanonical {a0 : Fin 2} (h : s.canonical) : KeepsCanonical (execXframe a0 s) := by
  unfold execXframe
  refine .next (.live h ?_)
  dsimp only
  split
  · exact h
  · exact .ite (.setHeath (.setHeath h)) (.setHeath h)

theorem execPartnerSilent_keepsCanonical {a0 : Fin 2} (h : s.canonical) : KeepsCanonical (execPartnerSilent a0 s) :=
  .next (.ite h (.foldl (.when (.heathEvent (.setFld (.setFld (.setHeath h)))) fun ht => .heathEvent (.count32
    (.setRole ht))) fun _ _ ht => .tryClose ht))

theorem execHeathSilentReplace_keepsCanonical {a0 : Fin 2} (h : s.canonical) :
    KeepsCanonical (execHeathSilentReplace a0 s) := by
  unfold execHeathSilentReplace
  refine .next ?_
  split
  · exact .ite (.replaceReq h) h
  · exact h

theorem execVehicleStateFrame_keepsCanonical {a0 : Fin 2} {data : List Byte} (h : s.canonical) :
    KeepsCanonical (execVehicleStateFrame a0 data s) := by
  unfold execVehicleStateFrame
  refine .next (.ite h ?_)
  dsimp only
  split
  · exact .ite (.setHeath h) (.setHeath h)
  · exact .setHeath h

theorem State.canonical.takeRecord {a1 : Nat} {r : TrajRec} (h : s.canonical) : (s.takeRecord a1 r).canonical := by
  unfold State.takeRecord
  refine .ite (.setHeath h) ?_
  split
  · exact .ite (.setFrame (.setHeath h)) h
  · exact .setHeath h

theorem execTrajectoryRecord_keepsCanonical {a0 : Fin 2} {err : List (Fin 576 × Byte)} (h : s.canonical) :
    KeepsCanonical (execTrajectoryRecord a0 err s) := by
  unfold execTrajectoryRecord
  refine .next (.live h ?_)
  split
  · exact h
  · exact .ite h (.ite (.keep h) (.ite (.frameAccept (.keep h)) (.ite (.takeRecord (.keep h)) (.frameDisagree
      (.keep h)))))

theorem execPairTimeout_keepsCanonical {a0 : Fin 2} {job : BitVec 16} (h : s.canonical) :
    KeepsCanonical (execPairTimeout a0 job s) := by
  unfold execPairTimeout
  refine .next ?_
  split
  · exact .ite h (.ite (.setFrame (.setHeath h)) (.frameNone h))
  · exact h

theorem execHeathVerdict_keepsCanonical {a0 : Fin 2} {job : BitVec 16} (h : s.canonical) :
    KeepsCanonical (execHeathVerdict a0 job s) := by
  unfold execHeathVerdict
  refine .next ?_
  split
  · exact h
  · refine .ite h ?_
    dsimp only
    split
    · exact h
    · exact .tryClose (.crossSend (.setHeath (.setFrame (.foldl (.ite (.count32 h) h) fun _ _ ht => .chargeAs ht))))

theorem execVerdictTimeout_keepsCanonical {a0 : Fin 2} {job : BitVec 16} (h : s.canonical) :
    KeepsCanonical (execVerdictTimeout a0 job s) := by
  unfold execVerdictTimeout
  refine .next ?_
  split
  · exact .ite (.frameNone h) h
  · exact h

theorem execAcceptStale_keepsCanonical {a0 : Fin 2} (h : s.canonical) : KeepsCanonical (execAcceptStale a0 s) := by
  unfold execAcceptStale
  refine .next ?_
  dsimp only
  split
  · exact .ite (.ite (.setHeath h) (.heathEvent (.setHeath h))) h
  · exact h

theorem State.canonical.loseGrids (h : s.canonical) : (s.loseGrids).canonical :=
  .foldl h fun _ _ ht => .ite (.praInval ht) ht

theorem State.canonical.reactTo {a1 : Nat} {e : Ev} (h : s.canonical) : (s.reactTo a1 e).canonical :=
  .ite (.frameDisagree h) (.ite (.when (.ite h (.loseGrids h)) fun ht => .setWithheld (.setHeath ht)) h)

theorem execFaultReport_keepsCanonical {a0 : Fin 2} {die : Fin 5} {bad : Bool} (h : s.canonical) :
    KeepsCanonical (execFaultReport a0 die bad s) := by
  unfold execFaultReport
  refine .next (.live h ?_)
  dsimp only
  split
  · exact h
  · exact .ite h (.ite (.count32 (.setCollector h)) (.reactTo (.setHeath (.setCollector h))))

theorem execCollectorHeartbeat_keepsCanonical {die : Fin 5} (h : s.canonical) :
    KeepsCanonical (execCollectorHeartbeat die s) :=
  .next (.live h (.ite h (.report (.setCollector h))))

theorem execDieHung_keepsCanonical {a0 : Fin 2} {die : Fin 5} (h : s.canonical) :
    KeepsCanonical (execDieHung a0 die s) :=
  .next (.ite h (.ite (.ite (.warmRestart h) h) (.ite h (.ite (.valeRestart (.setHeath h)) (.setHeath h)))))

theorem execFaultRecordWrite_keepsCanonical {a0 : Fin 2} (h : s.canonical) :
    KeepsCanonical (execFaultRecordWrite a0 s) := by
  unfold execFaultRecordWrite
  refine .next ?_
  dsimp only
  split
  · exact h
  · exact .ite h (.setFrec h)

theorem State.canonical.checkerFail {a1 a : Nat} (h : s.canonical) : (s.checkerFail a1 a).canonical :=
  .replaceReq (.count32 (.heathEvent h))

theorem State.canonical.failFirewall {a1 d key : Nat} (h : s.canonical) : (s.failFirewall a1 d key).canonical :=
  .ite (.setHeath h) (.ite (.holdDown (.setHeath h)) (.warmRestart (.setHeath h)))

theorem State.canonical.injectNext {a1 a : Nat} {fail arm : State → State} (h : s.canonical)
    (hfail : ∀ t, State.canonical t → (fail t).canonical) (harm : ∀ t, State.canonical t → (arm t).canonical) :
    (s.injectNext a1 a fail arm).canonical :=
  harm _ (.ite (hfail _ (.checkerFail h)) h)

theorem execCheckerSelfTest_keepsCanonical {a0 : Fin 2} {test : SelfTest} (h : s.canonical) :
    KeepsCanonical (execCheckerSelfTest a0 test s) := by
  unfold execCheckerSelfTest
  refine .next (.live h ?_)
  extract_lets d x who known t y u
  have ht : t.canonical := .setHeath h
  have hu : u.canonical := .ite (.setHeath ht) ht
  refine .ite h ?_
  split
  · exact .injectNext hu (fun _ hv => .failTile hv) (fun _ hv => .arm hv)
  · exact .injectNext hu (fun _ hv => .warmRestart hv) (fun _ hv => .glnArm hv)
  · exact .injectNext hu (fun _ hv => .warmRestart hv) (fun _ hv => .praArm hv)
  · split
    · exact .ite (.failFirewall (.checkerFail hu)) hu
    · exact hu
  · exact .ite (.failFirewall (.checkerFail hu)) hu

theorem execHeathFailSilent_keepsCanonical {a0 : Fin 2} (h : s.canonical) :
    KeepsCanonical (execHeathFailSilent a0 s) :=
  .next (.ite (.heathReset h) h)

theorem State.canonical.matchParams {a1 : Nat} (h : s.canonical) : (s.matchParams a1).canonical :=
  .ite (.ite (.setFld (.setFld h)) (.setFld h)) (.heathEvent (.ite (.setFld (.setFld h)) (.setFld h)))

theorem State.canonical.copyPartner {a1 : Nat} (h : s.canonical) : (s.copyPartner a1).canonical :=
  .ite h (.setFld (.setHeath h))

theorem execHeathBoot_keepsCanonical {a0 : Fin 2} {params : HeathParams} (h : s.canonical) :
    KeepsCanonical (execHeathBoot a0 params s) := by
  unfold execHeathBoot
  refine .next (.ite h ?_)
  dsimp only
  split
  · exact .setReg (.romBoot h)
  · exact .heathMeasCheck (.copyPartner (.matchParams (.foldl (.setHeath (.setReg256 (.setReg (.setReg
      (.romBoot h))))) fun _ _ ht => .ite (.setSteps ht) ht)))

/-! ### The host ports -/

theorem State.canonical.updHost {f : HostPorts → HostPorts} (h : s.canonical) : (s.updHost f).canonical :=
  .keep h

theorem execPerstAChange_keepsCanonical {low : Bool} (h : s.canonical) : KeepsCanonical (execPerstAChange low s) :=
  .next (.ite (.setFld h) (.pciaReset (.pciaDown (.setFld h))))

theorem execPcieLinkChange_keepsCanonical {portB up : Bool} {speed : Fin 8} {width : Fin 16} (h : s.canonical) :
    KeepsCanonical (execPcieLinkChange portB up speed width s) :=
  .next (.live h (.ite (.ite (.whenNot (.setFld (.setFld h)) fun ht => .raise ht) (.ite (.raise (.setReg h)) h))
    (.ite (.whenNot (.effHost (.setFld h)) fun ht => .raise ht) (.ite (.pciaDown h) h))))

theorem State.canonical.pciWrite {d v : Nat} (h : s.canonical) : (s.pciWrite d v).canonical := by
  unfold State.pciWrite
  dsimp only
  split
  · exact .setFld (.setFld (.updHost h))
  · exact .updHost (.updHost h)
  · exact .updHost (.updHost h)
  · exact .updHost h
  · exact .updHost (.updHost h)
  · exact .ite (.updHost h) (.ite (.ite (.setFld (.updHost h)) (.ite (.setFld (.updHost h)) (.updHost h))) (.ite
      (.updHost (.updHost h)) (.ite (.updHost (.updHost h)) (.updHost h))))

theorem execPcieConfigRequest_keepsCanonical {wr : Bool} {dword : Fin 1024} {be : BitVec 4} {value : Word32}
    (h : s.canonical) : KeepsCanonical (execPcieConfigRequest wr dword be value s) :=
  .next (.live h (.ite h (.ite (.updHost (.pciWrite h)) (.updHost h))))

theorem State.canonical.msixPut {a : Nat} {b : Byte} (h : s.canonical) : (s.msixPut a b).canonical := by
  unfold State.msixPut
  exact .ite (.updHost h) h

theorem State.canonical.pciaRefuse {st : Nat} (h : s.canonical) : (s.pciaRefuse st).canonical :=
  .ite (.count32 h) h

theorem State.canonical.aerReport {completion : Nat} (h : s.canonical) : (s.aerReport completion).canonical :=
  .ite h (.updHost h)

theorem execPcieInboundRead_keepsCanonical {addr : Word} {len : BitVec 13} (h : s.canonical) :
    KeepsCanonical (execPcieInboundRead addr len s) := by
  unfold execPcieInboundRead
  refine .next (.live h (.ite h (.ite (.updHost h) ?_)))
  split
  · exact .updHost h
  · exact .ite (.updHost h) (.updHost (.pciaRefuse (.ite (.chargeAs h) h)))

theorem execPcieInboundWrite_keepsCanonical {addr : Word} {data : List Byte} (h : s.canonical) :
    KeepsCanonical (execPcieInboundWrite addr data s) := by
  unfold execPcieInboundWrite
  refine .next (.live h (.ite h (.ite (.aerReport h) ?_)))
  split
  · exact .aerReport h
  · exact .ite (.foldl h fun _ _ ht => .msixPut ht) (.ite (.chargeAs (.write h)) (.aerReport (.pciaRefuse
      (.write h))))

theorem execMsixMessage_keepsCanonical {v : Fin 4} (h : s.canonical) : KeepsCanonical (execMsixMessage v s) :=
  .next (.live h (.ite h (.ite (.updHost h) (.ite h (.updHost h)))))

theorem execPcieCompletionTimeout_keepsCanonical {status : Word32} (h : s.canonical) :
    KeepsCanonical (execPcieCompletionTimeout status s) :=
  .next (.live h (.raise (.foldl h fun _ _ ht => .faultCmd ht)))

theorem execPortBInboundRequest_keepsCanonical (h : s.canonical) : KeepsCanonical (execPortBInboundRequest s) :=
  .next (.live h (.ite (.updHost h) h))

theorem execSgmiiLinkChange_keepsCanonical {a0 : Fin 2} {up gigabit full : Bool} (h : s.canonical) :
    KeepsCanonical (execSgmiiLinkChange a0 up gigabit full s) :=
  .next (.updHost h)

/-! ### The requests and responses of the die links -/

theorem State.canonical.dropMsg {die q : Nat} {m : Msg} (h : s.canonical) : (s.dropMsg die q m).canonical :=
  .setPort h

theorem State.canonical.returnCredits {die q : Nat} (h : s.canonical) : (s.returnCredits die q).canonical :=
  .ite (.bareFlit h) h

theorem State.canonical.sendMsg {die q from_ : Nat} {m : Msg} (h : s.canonical) :
    (s.sendMsg die q from_ m).canonical :=
  .ite (.queueMsg h) h

theorem State.canonical.turnBack {die q dest : Nat} {m : Msg} (h : s.canonical) :
    (s.turnBack die q dest m).canonical := by
  unfold State.turnBack
  dsimp only
  split
  · exact .when (.answerAbsent h) fun ht => .kill ht
  · exact .answerAbsent h

theorem State.canonical.passOn {die q dest : Nat} {m : Msg} (h : s.canonical) :
    (s.passOn die q dest m).canonical := by
  unfold State.passOn
  split
  · exact .turnBack h
  · exact .foldl h fun _ _ ht => .ite (.queueMsg ht) (.setPort (.queueMsg ht))

theorem State.canonical.chargeDram {die a : Nat} {m : Msg} {part : Bool} (h : s.canonical) :
    (s.chargeDram die a m part).canonical := by
  unfold State.chargeDram
  split
  · exact .charge h
  · exact h

theorem State.canonical.request {p : PortId} {type : Nat} {f : State → Msg → State} (h : s.canonical)
    (hf : ∀ t x, State.canonical t → (f t x).canonical) : (s.request p type f).canonical := by
  unfold State.request
  refine .ite h ?_
  split
  · exact h
  · exact .ite (.returnCredits (.passOn (.dropMsg h))) (.ite h (.returnCredits (hf _ _ (.dropMsg h))))

theorem State.canonical.serveRead {die q : Nat} {m : Msg} {a : Nat} (h : s.canonical) :
    (s.serveRead die q m a).canonical :=
  .sendMsg (.chargeDram h)

theorem execRd_keepsCanonical {p : PortId} (h : s.canonical) : KeepsCanonical (execRd p s) :=
  .next (.live h (.request h (fun _ _ ht => .serveRead ht)))

theorem execRd2_keepsCanonical {p : PortId} (h : s.canonical) : KeepsCanonical (execRd2 p s) :=
  .next (.live h (.request h (fun _ _ ht => .serveRead (.serveRead ht))))

theorem State.canonical.serveWrite {die q : Nat} {m : Msg} {mask : Nat} {data : List Byte} (h : s.canonical) :
    (s.serveWrite die q m mask data).canonical :=
  .sendMsg (.when (.chargeDram h) fun ht => .foldl ht fun _ _ hu => .write hu)

theorem execWr_keepsCanonical {p : PortId} (h : s.canonical) : KeepsCanonical (execWr p s) :=
  .next (.live h (.request h (fun _ _ ht => .serveWrite ht)))

theorem execWrp_keepsCanonical {p : PortId} (h : s.canonical) : KeepsCanonical (execWrp p s) :=
  .next (.live h (.request h (fun _ _ ht => .serveWrite ht)))

theorem execZwr_keepsCanonical {p : PortId} (h : s.canonical) : KeepsCanonical (execZwr p s) :=
  .next (.live h (.request h (fun _ _ ht => .serveWrite ht)))

theorem execFdlPost_keepsCanonical {p : PortId} (h : s.canonical) : KeepsCanonical (execFdlPost p s) :=
  .next (.live h (.request h (fun _ _ ht => .ite ht (.postApply ht))))

theorem State.canonical.respond {p : PortId} {type : Nat} (h : s.canonical) : (s.respond p type).canonical := by
  unfold State.respond
  refine .ite h ?_
  split
  · exact h
  · refine .returnCredits ?_
    split
    · exact .dropMsg h
    · exact .sendMsg (.setPort (.dropMsg h))

theorem execRdrsp_keepsCanonical {p : PortId} (h : s.canonical) : KeepsCanonical (execRdrsp p s) :=
  .next (.live h (.respond h))

theorem execWrack_keepsCanonical {p : PortId} (h : s.canonical) : KeepsCanonical (execWrack p s) :=
  .next (.live h (.respond h))

/-! ### Power, cooling and the die power controllers -/

theorem State.canonical.updPower {f : Power → Power} (h : s.canonical) : (s.updPower f).canonical :=
  .keep h

theorem State.canonical.setBypass {closed : Bool} (h : s.canonical) : (s.setBypass closed).canonical :=
  .updCol h

theorem execMainInputInRange_keepsCanonical (h : s.canonical) : KeepsCanonical (execMainInputInRange s) :=
  .next (.ite h (.setFld (.updPower h)))

theorem State.canonical.mainLost (h : s.canonical) : (s.mainLost).canonical :=
  .ite h (.whenNot (.setFld (.updPower (.setFld (.moduleReset h)))) fun ht => .setBypass ht)

theorem execMainInputOutOfRange_keepsCanonical (h : s.canonical) : KeepsCanonical (execMainInputOutOfRange s) :=
  .next (.mainLost h)

theorem execAuxInputInRange_keepsCanonical (h : s.canonical) : KeepsCanonical (execAuxInputInRange s) :=
  .next (.ite h (.setBypass (.setFld (.updPower h))))

theorem State.canonical.auxLost (h : s.canonical) : (s.auxLost).canonical :=
  .ite h (.setBypass (.setFld (.updPower (.foldl (.heathReset (.heathReset (.ite (.moduleReset h) h)))
    fun _ _ ht => .setDie ht))))

theorem execAuxInputOutOfRange_keepsCanonical (h : s.canonical) : KeepsCanonical (execAuxInputOutOfRange s) :=
  .next (.auxLost h)

theorem execInputOvervoltage_keepsCanonical {aux : Bool} (h : s.canonical) :
    KeepsCanonical (execInputOvervoltage aux s) :=
  .next (.updPower (.ite (.auxLost h) (.mainLost h)))

theorem State.canonical.reportOver (h : s.canonical) : (s.reportOver).canonical :=
  .ite h (.foldl (.updPower h) fun _ _ ht => .ite (.raise ht) ht)

theorem execPowerMeasure_keepsCanonical {mainV mainI auxV auxI : BitVec 16} (h : s.canonical) :
    KeepsCanonical (execPowerMeasure mainV mainI auxV auxI s) :=
  .next (.live h (.ite h (.reportOver (.when (.setFld (.setReg (.updPower (.setReg (.setReg h))))) fun ht => .raise
    (.count32 ht)))))

theorem execPwrBudgetCycle_keepsCanonical (h : s.canonical) : KeepsCanonical (execPwrBudgetCycle s) :=
  .next (.live h (.ite h (.foldl (.keep (.updPower h)) fun _ _ ht => .updPower (.ite₂ (.keep (.keep ht))
    (.keep ht)))))

theorem execPwrReport_keepsCanonical {p : PortId} (h : s.canonical) : KeepsCanonical (execPwrReport p s) :=
  .next (.live h (.ite h (.ite (.count32 h) (.ite h (.updPower h)))))

theorem State.canonical.choosePoint {d : Nat} (h : s.canonical) : (s.choosePoint d).canonical :=
  .setReg (.setFld (.setReg (.setDiePw h)))

theorem State.canonical.evaluate {d : Nat} (h : s.canonical) : (s.evaluate d).canonical :=
  .choosePoint (.setReg (.setDiePw h))

theorem execOppEvaluate_keepsCanonical {die : Fin 4} {mw : BitVec 20} (h : s.canonical) :
    KeepsCanonical (execOppEvaluate die mw s) :=
  .next (.live h (.ite h (.evaluate (.setDiePw h))))

theorem execPwrBudget_keepsCanonical {p : PortId} (h : s.canonical) : KeepsCanonical (execPwrBudget p s) := by
  unfold execPwrBudget
  refine .next (.live h (.ite h (.ite (.count32 h) ?_)))
  split
  · exact h
  · exact .when (.setDiePw (.setReg (.updPower h))) fun ht => .evaluate ht

theorem State.canonical.meadowTrip {d : Nat} (h : s.canonical) : (s.meadowTrip d).canonical :=
  .setDiePw (.meadowLeaves (.count32 (.raise h)))

theorem State.canonical.thermal {d : Nat} {a2 : ℤ} (h : s.canonical) : (s.thermal d a2).canonical :=
  .whenNot (.ite (.ite (.raise (.setDiePw h)) (.heathEvent (.setDiePw h))) (.setDiePw h)) fun ht => .ite
    (.meadowTrip ht) (.ite (.setDiePw (.valeClear (.holdDrive (.raise ht)))) (.setDiePw (.heathReset
      (.heathEvent ht))))

theorem State.canonical.cooled {d : Nat} (h : s.canonical) : (s.cooled d).canonical := by
  unfold State.cooled
  refine .ite (.setDiePw h) ?_
  split
  · exact .valeRestart (.setDiePw h)
  · exact .setDiePw h

theorem execThermalRead_keepsCanonical {die : Fin 7} {temps : List Byte} (h : s.canonical) :
    KeepsCanonical (execThermalRead die temps s) :=
  .next (.ite h (.ite (.when (.ite (.setReg (.setDiePw h)) (.setDiePw h)) fun ht => .cooled ht) (.thermal (.ite
    (.setReg (.setDiePw h)) (.setDiePw h)))))

theorem execDramTempRead_keepsCanonical {die : Fin 4} {temps : List Byte} (h : s.canonical) :
    KeepsCanonical (execDramTempRead die temps s) :=
  .next (.live h (.ite h (.when (.setDiePw (.dramTemps h)) fun ht => .meadowTrip ht)))

theorem execCoolantRead_keepsCanonical {inlet outlet : Byte} (h : s.canonical) :
    KeepsCanonical (execCoolantRead inlet outlet s) :=
  .next (.live h (.ite h (.when (.updPower (.setReg h)) fun ht => .raise ht)))

theorem execAgeingMeasure_keepsCanonical {die : Fin 7} {slacks : List (BitVec 16)} (h : s.canonical) :
    KeepsCanonical (execAgeingMeasure die slacks s) :=
  .next (.ite h (.setDiePw h))

theorem State.canonical.ageLimit {d : Nat} (h : s.canonical) : (s.ageLimit d).canonical :=
  .when (.ite (.frecNote (.ite (.raise h) (.heathEvent h))) (.replaceReq (.ite (.raise h) (.heathEvent h))))
    fun ht => .setFld ht

theorem execAgeingHourEval_keepsCanonical {die : Fin 7} (h : s.canonical) :
    KeepsCanonical (execAgeingHourEval die s) :=
  .next (.ite h (.whenNot (.ite (.setReg (.setDiePw h)) (.setDiePw h)) fun ht => .ite (.ageLimit ht) (.ite ht
    (.frecNote (.ite (.raise (.setSteps (.setDiePw ht))) (.heathEvent (.setSteps (.setDiePw ht))))))))

/-! ### The scalar instructions and the branches and jumps -/

theorem execAdd_keepsCanonical {a0 : SlotId} {rd rs1 rs2 : Fin 32} (h : s.canonical) :
    KeepsCanonical (execAdd a0 rd rs1 rs2 s) :=
  .next (.live h (.alu h))

theorem execSub_keepsCanonical {a0 : SlotId} {rd rs1 rs2 : Fin 32} (h : s.canonical) :
    KeepsCanonical (execSub a0 rd rs1 rs2 s) :=
  .next (.live h (.alu h))

theorem execAndRr_keepsCanonical {a0 : SlotId} {rd rs1 rs2 : Fin 32} (h : s.canonical) :
    KeepsCanonical (execAndRr a0 rd rs1 rs2 s) :=
  .next (.live h (.alu h))

theorem execOrRr_keepsCanonical {a0 : SlotId} {rd rs1 rs2 : Fin 32} (h : s.canonical) :
    KeepsCanonical (execOrRr a0 rd rs1 rs2 s) :=
  .next (.live h (.alu h))

theorem execXorRr_keepsCanonical {a0 : SlotId} {rd rs1 rs2 : Fin 32} (h : s.canonical) :
    KeepsCanonical (execXorRr a0 rd rs1 rs2 s) :=
  .next (.live h (.alu h))

theorem execSll_keepsCanonical {a0 : SlotId} {rd rs1 rs2 : Fin 32} (h : s.canonical) :
    KeepsCanonical (execSll a0 rd rs1 rs2 s) :=
  .next (.live h (.alu h))

theorem execSrl_keepsCanonical {a0 : SlotId} {rd rs1 rs2 : Fin 32} (h : s.canonical) :
    KeepsCanonical (execSrl a0 rd rs1 rs2 s) :=
  .next (.live h (.alu h))

theorem execSra_keepsCanonical {a0 : SlotId} {rd rs1 rs2 : Fin 32} (h : s.canonical) :
    KeepsCanonical (execSra a0 rd rs1 rs2 s) :=
  .next (.live h (.alu h))

theorem execSlt_keepsCanonical {a0 : SlotId} {rd rs1 rs2 : Fin 32} (h : s.canonical) :
    KeepsCanonical (execSlt a0 rd rs1 rs2 s) :=
  .next (.live h (.alu h))

theorem execSltu_keepsCanonical {a0 : SlotId} {rd rs1 rs2 : Fin 32} (h : s.canonical) :
    KeepsCanonical (execSltu a0 rd rs1 rs2 s) :=
  .next (.live h (.alu h))

theorem execMul_keepsCanonical {a0 : SlotId} {rd rs1 rs2 : Fin 32} (h : s.canonical) :
    KeepsCanonical (execMul a0 rd rs1 rs2 s) :=
  .next (.live h (.alu h))

theorem execMulhu_keepsCanonical {a0 : SlotId} {rd rs1 rs2 : Fin 32} (h : s.canonical) :
    KeepsCanonical (execMulhu a0 rd rs1 rs2 s) :=
  .next (.live h (.alu h))

theorem execMinRr_keepsCanonical {a0 : SlotId} {rd rs1 rs2 : Fin 32} (h : s.canonical) :
    KeepsCanonical (execMinRr a0 rd rs1 rs2 s) :=
  .next (.live h (.alu h))

theorem execMaxRr_keepsCanonical {a0 : SlotId} {rd rs1 rs2 : Fin 32} (h : s.canonical) :
    KeepsCanonical (execMaxRr a0 rd rs1 rs2 s) :=
  .next (.live h (.alu h))

theorem execMinu_keepsCanonical {a0 : SlotId} {rd rs1 rs2 : Fin 32} (h : s.canonical) :
    KeepsCanonical (execMinu a0 rd rs1 rs2 s) :=
  .next (.live h (.alu h))

theorem execMaxu_keepsCanonical {a0 : SlotId} {rd rs1 rs2 : Fin 32} (h : s.canonical) :
    KeepsCanonical (execMaxu a0 rd rs1 rs2 s) :=
  .next (.live h (.alu h))

theorem execAddi_keepsCanonical {a0 : SlotId} {rd rs1 : Fin 32} {imm : BitVec 15} (h : s.canonical) :
    KeepsCanonical (execAddi a0 rd rs1 imm s) :=
  .next (.live h (.alu h))

theorem execAndi_keepsCanonical {a0 : SlotId} {rd rs1 : Fin 32} {imm : BitVec 15} (h : s.canonical) :
    KeepsCanonical (execAndi a0 rd rs1 imm s) :=
  .next (.live h (.alu h))

theorem execOri_keepsCanonical {a0 : SlotId} {rd rs1 : Fin 32} {imm : BitVec 15} (h : s.canonical) :
    KeepsCanonical (execOri a0 rd rs1 imm s) :=
  .next (.live h (.alu h))

theorem execXori_keepsCanonical {a0 : SlotId} {rd rs1 : Fin 32} {imm : BitVec 15} (h : s.canonical) :
    KeepsCanonical (execXori a0 rd rs1 imm s) :=
  .next (.live h (.alu h))

theorem execSlti_keepsCanonical {a0 : SlotId} {rd rs1 : Fin 32} {imm : BitVec 15} (h : s.canonical) :
    KeepsCanonical (execSlti a0 rd rs1 imm s) :=
  .next (.live h (.alu h))

theorem execShori_keepsCanonical {a0 : SlotId} {rd rs1 : Fin 32} {imm : BitVec 15} (h : s.canonical) :
    KeepsCanonical (execShori a0 rd rs1 imm s) :=
  .next (.live h (.alu h))

theorem execSlli_keepsCanonical {a0 : SlotId} {rd rs1 : Fin 32} {sh : BitVec 6} (h : s.canonical) :
    KeepsCanonical (execSlli a0 rd rs1 sh s) :=
  .next (.live h (.alu h))

theorem execSrli_keepsCanonical {a0 : SlotId} {rd rs1 : Fin 32} {sh : BitVec 6} (h : s.canonical) :
    KeepsCanonical (execSrli a0 rd rs1 sh s) :=
  .next (.live h (.alu h))

theorem execSrai_keepsCanonical {a0 : SlotId} {rd rs1 : Fin 32} {sh : BitVec 6} (h : s.canonical) :
    KeepsCanonical (execSrai a0 rd rs1 sh s) :=
  .next (.live h (.alu h))

theorem State.canonical.branch {a1 : SlotId} {rs1 rs2 : Fin 32} {imm : BitVec 14} {c : Word → Word → Bool}
    (h : s.canonical) : (s.branch a1 rs1 rs2 imm c).canonical :=
  .issue h (fun _ _ => .setSlot h)

theorem execBeq_keepsCanonical {a0 : SlotId} {rs1 rs2 : Fin 32} {imm : BitVec 14} (h : s.canonical) :
    KeepsCanonical (execBeq a0 rs1 rs2 imm s) :=
  .next (.live h (.branch h))

theorem execBne_keepsCanonical {a0 : SlotId} {rs1 rs2 : Fin 32} {imm : BitVec 14} (h : s.canonical) :
    KeepsCanonical (execBne a0 rs1 rs2 imm s) :=
  .next (.live h (.branch h))

theorem execBlt_keepsCanonical {a0 : SlotId} {rs1 rs2 : Fin 32} {imm : BitVec 14} (h : s.canonical) :
    KeepsCanonical (execBlt a0 rs1 rs2 imm s) :=
  .next (.live h (.branch h))

theorem execBge_keepsCanonical {a0 : SlotId} {rs1 rs2 : Fin 32} {imm : BitVec 14} (h : s.canonical) :
    KeepsCanonical (execBge a0 rs1 rs2 imm s) :=
  .next (.live h (.branch h))

theorem execBltu_keepsCanonical {a0 : SlotId} {rs1 rs2 : Fin 32} {imm : BitVec 14} (h : s.canonical) :
    KeepsCanonical (execBltu a0 rs1 rs2 imm s) :=
  .next (.live h (.branch h))

theorem execBgeu_keepsCanonical {a0 : SlotId} {rs1 rs2 : Fin 32} {imm : BitVec 14} (h : s.canonical) :
    KeepsCanonical (execBgeu a0 rs1 rs2 imm s) :=
  .next (.live h (.branch h))

theorem execJal_keepsCanonical {a0 : SlotId} {rd : Fin 32} {imm : BitVec 19} (h : s.canonical) :
    KeepsCanonical (execJal a0 rd imm s) :=
  .next (.live h (.issue h (fun _ _ => .setSlot h)))

theorem execJalr_keepsCanonical {a0 : SlotId} {rd rs1 : Fin 32} {imm : BitVec 14} (h : s.canonical) :
    KeepsCanonical (execJalr a0 rd rs1 imm s) :=
  .next (.live h (.issue h (fun _ _ => .ite (.threadFault h) (.setSlot h))))

/-! ### Service requests -/

theorem State.canonical.served {m status a b : Nat} (h : s.canonical) : (s.served m status a b).canonical :=
  .updBoot (.boxEnd h)

theorem State.canonical.stageInto {x : Slot} {root : ImageRoot} {heath readback : Bool} {image : List Byte} {who :
    Nat} (h : s.canonical) : (s.stageInto x root heath readback image who).2.canonical := by
  unfold State.stageInto
  have ht : (((s.putRecord x 4 0).flashErase x.dev x.base x.size).flashWrite x.dev x.base image).canonical :=
    .flashWrite (.flashErase (.putRecord h))
  refine .ite₂ ht ?_
  split
  · exact ht
  · dsimp only
    exact .raise (.putRecord ht)

theorem execStage_keepsCanonical {m : Fin 2} {readback : Bool} (h : s.canonical) :
    KeepsCanonical (execStage m readback s) :=
  .next (.live h (.ite h (.ite (.served h) (.served (.stageInto h)))))

theorem State.canonical.heathStage {m a2 : Nat} {readback : Bool} (h : s.canonical) :
    (s.heathStage m a2 readback).2.canonical :=
  .ite₂ h (.stageInto h)

theorem execHeathStage_keepsCanonical {m : Fin 2} {readbackA readbackB : Bool} (h : s.canonical) :
    KeepsCanonical (execHeathStage m readbackA readbackB s) :=
  .next (.live h (.ite h (.served (.heathStage (.heathStage h)))))

theorem execActivate_keepsCanonical {m : Fin 2} (h : s.canonical) : KeepsCanonical (execActivate m s) := by
  unfold execActivate
  refine .next (.live h (.ite h (.ite (.served h) (.ite (.updBoot h) ?_))))
  split
  · exact .setProc (.procDown (.updBoot h))
  · exact .served (.raise (.updBoot h))

theorem execHeathActivate_keepsCanonical {m : Fin 2} (h : s.canonical) : KeepsCanonical (execHeathActivate m s) := by
  unfold execHeathActivate
  refine .next (.live h (.ite h ?_))
  dsimp only
  split
  · exact .ite (.updBoot (.heathReset h)) (.updBoot h)
  · exact .ite h (.ite (.updBoot (.heathReset h)) (.updBoot h))
  · exact .ite h (.served (.ite (.raise h) h))

theorem State.canonical.arbVale (h : s.canonical) : (s.arbVale).2.canonical :=
  .ite₂ h (.ite₂ h (.raise (.setReg (.keep h))))

theorem State.canonical.arbHeath {a1 : Nat} (h : s.canonical) : (s.arbHeath a1).2.canonical :=
  .ite₂ h (.ite₂ h (.ite₂ h (.raise (.keep h))))

theorem execArbCommit_keepsCanonical {m : Fin 2} (h : s.canonical) : KeepsCanonical (execArbCommit m s) :=
  .next (.live h (.ite h (.ite (.served h) (.served (.arbHeath (.arbHeath (.arbVale h)))))))

theorem execFlashRead_keepsCanonical {m : Fin 2} (h : s.canonical) : KeepsCanonical (execFlashRead m s) :=
  .next (.live h (.ite h (.ite (.served h) (.served (.store h)))))

theorem execLogRead_keepsCanonical {m : Fin 2} (h : s.canonical) : KeepsCanonical (execLogRead m s) :=
  .next (.live h (.ite h (.ite (.served h) (.served (.store h)))))

theorem execRevoke_keepsCanonical {m : Fin 2} (h : s.canonical) : KeepsCanonical (execRevoke m s) :=
  .next (.live h (.ite h (.ite (.served h) (.served (.setFld h)))))

/-! ### The comparison of a shadow with its target -/

theorem State.canonical.shadowEnds {x : ShadowRec} (h : s.canonical) : (s.shadowEnds x).canonical :=
  .colTo (.updCol h)

theorem State.canonical.shadowJudge {x : ShadowRec} {agree : Bool} (h : s.canonical) :
    (s.shadowJudge x agree).canonical :=
  .ite (.raise (.colTo (.shadowEnds (.updCol (.colTo (.updCol h)))))) (.when (.colTo (.updCol h)) fun ht => .raise
    (.shadowEnds ht))

theorem State.canonical.shadowCompare {x : ShadowRec} {job : Nat} (h : s.canonical) :
    (s.shadowCompare x job).canonical := by
  unfold State.shadowCompare
  split
  · exact .shadowJudge (.ite (.updCol h) (.updCol (.updCol h)))
  · exact h

theorem State.canonical.takeCompare {r : CompareRec} (h : s.canonical) : (s.takeCompare r).canonical :=
  .ite h (.foldl (.updCol h) fun _ _ ht => .shadowCompare ht)

theorem State.canonical.shadowOutcome {agree : Bool} (h : s.canonical) : (s.shadowOutcome agree).canonical :=
  .ite h (.ite (.setFld h) (.when (.setFld (.setFld h)) fun ht => .raise (.setColMember ht)))

theorem State.canonical.sendCompare {job : Nat} (h : s.canonical) : (s.sendCompare job).canonical := by
  unfold State.sendCompare
  split
  · exact .ite h (.colTo (.updCol h))
  · exact h

theorem execMgmtCompare_keepsCanonical {p : Fin 4} {frame : List Byte} {c : CompareMsg} (h : s.canonical) :
    KeepsCanonical (execMgmtCompare p frame c s) := by
  unfold execMgmtCompare
  refine .next (.live h ?_)
  split
  · exact .ite (.sendCompare h) (.mgmtTake h (fun _ _ ht => .ite ht (.takeCompare ht)))
  · exact .mgmtTake h (fun _ _ ht => .ite (.shadowOutcome ht) ht)

/-! ### Attestation -/

theorem State.canonical.setSpdm {port : Nat} {x : Spdm} (h : s.canonical) : (s.setSpdm port x).canonical :=
  .updBoot h

theorem State.canonical.spdmSign {context : String} {transcript : List Byte} (h : s.canonical) :
    (s.spdmSign context transcript).2.canonical :=
  .keep h

theorem State.canonical.nonce (h : s.canonical) : (s.nonce).2.canonical := .keep h

theorem spdmStep_canonical {code : Nat} {f : SpdmStep} {x : Spdm} {req : List Byte} (h : s.canonical)
    (e : spdmStep code = some f) : (f s x req).1.canonical := by
  unfold spdmStep at e
  split at e <;> cases e
  · exact h
  · unfold spdmCapabilities
    split <;> exact h
  · unfold spdmAlgorithms
    split
    · exact h
    · split <;> exact h
  · unfold spdmDigests
    split <;> exact h
  · unfold spdmCertificate
    dsimp only
    split
    · exact h
    · split <;> exact h
  · unfold spdmChallenge
    dsimp only
    split
    · exact h
    · split
      · exact h
      · dsimp only
        exact .spdmSign (.nonce h)
  · unfold spdmMeasurements
    dsimp only
    split
    · exact h
    · split
      · exact h
      · split
        · dsimp only
          exact .spdmSign (.nonce h)
        · exact .nonce h

theorem State.canonical.spdmServe {port : Nat} {req : List Byte} (h : s.canonical) :
    (s.spdmServe port req).canonical := by
  unfold State.spdmServe
  refine .ite h (.ite (.setSpdm h) (.ite (.setSpdm h) ?_))
  split
  · exact .setSpdm h
  · next e => exact .setSpdm (spdmStep_canonical h e)

theorem State.canonical.spdmRow {port : Fin 2} {req : List Byte} {code : Nat} (h : s.canonical) :
    (s.spdmRow port req code).canonical :=
  .ite (.spdmServe h) h

theorem execGetVersion_keepsCanonical {port : Fin 2} {req : List Byte} (h : s.canonical) :
    KeepsCanonical (execGetVersion port req s) :=
  .next (.live h (.spdmRow h))

theorem execGetCapabilities_keepsCanonical {port : Fin 2} {req : List Byte} (h : s.canonical) :
    KeepsCanonical (execGetCapabilities port req s) :=
  .next (.live h (.spdmRow h))

theorem execNegotiateAlgorithms_keepsCanonical {port : Fin 2} {req : List Byte} (h : s.canonical) :
    KeepsCanonical (execNegotiateAlgorithms port req s) :=
  .next (.live h (.spdmRow h))

theorem execGetDigests_keepsCanonical {port : Fin 2} {req : List Byte} (h : s.canonical) :
    KeepsCanonical (execGetDigests port req s) :=
  .next (.live h (.spdmRow h))

theorem execGetCertificate_keepsCanonical {port : Fin 2} {req : List Byte} (h : s.canonical) :
    KeepsCanonical (execGetCertificate port req s) :=
  .next (.live h (.spdmRow h))

theorem execChallenge_keepsCanonical {port : Fin 2} {req : List Byte} (h : s.canonical) :
    KeepsCanonical (execChallenge port req s) :=
  .next (.live h (.spdmRow h))

theorem execGetMeasurements_keepsCanonical {port : Fin 2} {req : List Byte} (h : s.canonical) :
    KeepsCanonical (execGetMeasurements port req s) :=
  .next (.live h (.spdmRow h))

theorem execDoeDiscovery_keepsCanonical {index : Byte} (h : s.canonical) :
    KeepsCanonical (execDoeDiscovery index s) :=
  .next (.live h (.updBoot h))

theorem execMgmtSpdm_keepsCanonical {p : Fin 4} {frame : List Byte} (h : s.canonical) :
    KeepsCanonical (execMgmtSpdm p frame s) :=
  .next (.live h (.mgmtTake h (fun _ _ ht => .ite ht (.colSend (.spdmServe ht)))))

/-! ### The tensor instructions and the step of the cells -/

theorem State.canonical.mmaIssue {sp : Bool} {a2 : SlotId} {da db set : Nat} {acc : Bool} {rs1 rs2 : Nat}
    (h : s.canonical) : (s.mmaIssue sp a2 da db set acc rs1 rs2).canonical := by
  unfold State.mmaIssue
  refine .issue h (fun _ _ => ?_)
  split
  · exact .ite h (.ite (.threadFault h) (.setSlot h))
  · exact .threadFault h

theorem execMma_keepsCanonical {a0 : SlotId} {da db : Fin 4} {set : Fin 2} {acc : Bool} {rs1 rs2 : Fin 32}
    (h : s.canonical) : KeepsCanonical (execMma a0 da db set acc rs1 rs2 s) :=
  .next (.live h (.mmaIssue h))

theorem execMmas_keepsCanonical {a0 : SlotId} {da db : Fin 4} {set : Fin 2} {acc : Bool} {rs1 rs2 : Fin 32}
    (h : s.canonical) : KeepsCanonical (execMmas a0 da db set acc rs1 rs2 s) :=
  .next (.live h (.mmaIssue h))

theorem execDrain_keepsCanonical {a0 : SlotId} {da : Fin 4} {set : Fin 2} {rs1 : Fin 32} (h : s.canonical) :
    KeepsCanonical (execDrain a0 da set rs1 s) := by
  dsimp only [execDrain]
  refine .next (.live h (.issue h (fun _ _ => ?_)))
  split
  · exact .threadFault h
  · exact .ite h (.ite (.threadFault h) (.ite h (.ite (.accessFault h) (.whenNot (.countSkips (.addFlags (.foldl
      (.setSlot (.keep h)) fun _ _ ht => .sramStore (.mergeEcc ht)))) fun ht => .injectFire ht))))

theorem execTensorStep_keepsCanonical {a0 : TileId} {ecc : Ecc} (h : s.canonical) :
    KeepsCanonical (execTensorStep a0 ecc s) := by
  unfold execTensorStep
  refine .next (.live h ?_)
  split
  · exact h
  · dsimp only
    split
    · exact .ite (.tileUe (.setSlot (.ite₂ (.sramFire (.setTile (.keep h))) (.errLine (.sramFire (.setTile
        (.keep h))))))) (.addFlags (.setSlot (.when (.ite₂ (.sramFire (.setTile (.keep h))) (.errLine (.sramFire
          (.setTile (.keep h))))) fun ht => .tileSramError ht)))
    · exact .setSlot (.setTile (.keep h))

/-! ### The vector instructions -/

theorem State.canonical.vecChecked {a1 : SlotId} {f : Fmt} (h : s.canonical) : (s.vecChecked a1 f).canonical :=
  .injectFire h

theorem State.canonical.vecDone {a1 : SlotId} {th : ThreadSlot} {vd : Nat} {f : Fmt} {r : BitVec 2048 × BitVec 8}
    (h : s.canonical) : (s.vecDone a1 th vd f r).canonical :=
  .vecChecked (.addFlags (.setSlot h))

theorem State.canonical.vecOp {a1 : SlotId} {vd : Nat} {vs : List Nat} {fmt : Nat} {ok : List Fmt}
    {f : ThreadSlot → Fmt → ArithCtl → BitVec 2048 × BitVec 8} (h : s.canonical) :
    (s.vecOp a1 vd vs fmt ok f).canonical := by
  unfold State.vecOp
  refine .issue h (fun _ _ => ?_)
  split
  · exact .ite (.vecDone h) (.threadFault h)
  · exact .threadFault h

theorem execVadd_keepsCanonical {a0 : SlotId} {vd va vb : Fin 8} {fmt : Fin 16} (h : s.canonical) :
    KeepsCanonical (execVadd a0 vd va vb fmt s) :=
  .next (.live h (.vecOp h))

theorem execVsub_keepsCanonical {a0 : SlotId} {vd va vb : Fin 8} {fmt : Fin 16} (h : s.canonical) :
    KeepsCanonical (execVsub a0 vd va vb fmt s) :=
  .next (.live h (.vecOp h))

theorem execVmul_keepsCanonical {a0 : SlotId} {vd va vb : Fin 8} {fmt : Fin 16} (h : s.canonical) :
    KeepsCanonical (execVmul a0 vd va vb fmt s) :=
  .next (.live h (.vecOp h))

theorem execVfma_keepsCanonical {a0 : SlotId} {vd va vb vc : Fin 8} {fmt : Fin 16} (h : s.canonical) :
    KeepsCanonical (execVfma a0 vd va vb vc fmt s) :=
  .next (.live h (.vecOp h))

theorem execVmin_keepsCanonical {a0 : SlotId} {vd va vb : Fin 8} {fmt : Fin 16} (h : s.canonical) :
    KeepsCanonical (execVmin a0 vd va vb fmt s) :=
  .next (.live h (.vecOp h))

theorem execVmax_keepsCanonical {a0 : SlotId} {vd va vb : Fin 8} {fmt : Fin 16} (h : s.canonical) :
    KeepsCanonical (execVmax a0 vd va vb fmt s) :=
  .next (.live h (.vecOp h))

theorem execVcmplt_keepsCanonical {a0 : SlotId} {vd va vb : Fin 8} {fmt : Fin 16} (h : s.canonical) :
    KeepsCanonical (execVcmplt a0 vd va vb fmt s) :=
  .next (.live h (.vecOp h))

theorem execVcmpeq_keepsCanonical {a0 : SlotId} {vd va vb : Fin 8} {fmt : Fin 16} (h : s.canonical) :
    KeepsCanonical (execVcmpeq a0 vd va vb fmt s) :=
  .next (.live h (.vecOp h))

theorem execVcvt_keepsCanonical {a0 : SlotId} {vd va vc : Fin 8} {fmt fmt2 : Fin 16} {half : Bool} (h : s.canonical) :
    KeepsCanonical (execVcvt a0 vd va vc fmt fmt2 half s) := by
  unfold execVcvt
  refine .next (.live h (.issue h (fun _ _ => ?_)))
  split
  · exact .vecDone (.ite₂ (.keep h) h)
  · exact .threadFault h

theorem State.canonical.vecSpecialOp {a1 : SlotId} {vd va : Fin 8} {fmt : Nat}
    {op : Fmt → FloatFmt → ArithCtl → Nat → Flagged} (h : s.canonical) : (s.vecSpecialOp a1 vd va fmt op).canonical :=
  .vecOp h

theorem execVexp_keepsCanonical {a0 : SlotId} {vd va : Fin 8} {fmt : Fin 16} (h : s.canonical) :
    KeepsCanonical (execVexp a0 vd va fmt s) :=
  .next (.live h (.vecSpecialOp h))

theorem execVexp2_keepsCanonical {a0 : SlotId} {vd va : Fin 8} {fmt : Fin 16} (h : s.canonical) :
    KeepsCanonical (execVexp2 a0 vd va fmt s) :=
  .next (.live h (.vecSpecialOp h))

theorem execVrsqrt_keepsCanonical {a0 : SlotId} {vd va : Fin 8} {fmt : Fin 16} (h : s.canonical) :
    KeepsCanonical (execVrsqrt a0 vd va fmt s) :=
  .next (.live h (.vecSpecialOp h))

theorem execVbfly4_keepsCanonical {a0 : SlotId} {vd va vb : Fin 8} {fmt : Fin 16} (h : s.canonical) :
    KeepsCanonical (execVbfly4 a0 vd va vb fmt s) := by
  dsimp only [execVbfly4]
  refine .next (.live h (.issue h (fun _ _ => ?_)))
  split
  · exact .vecDone h
  · exact .vecDone h
  · exact .threadFault h

theorem State.canonical.vecPoolOp {a1 : SlotId} {vd va vb vc : Fin 8} {fmt mode : Nat} (h : s.canonical) :
    (s.vecPoolOp a1 vd va vb vc fmt mode).canonical := by
  unfold State.vecPoolOp
  refine .issue h (fun _ _ => ?_)
  split
  · exact .ite (.ite (.threadFault h) (.ite h (.injectFire (.addFlags (.setSlot h))))) (.threadFault h)
  · exact .threadFault h

theorem execVpoolMax_keepsCanonical {a0 : SlotId} {vd va vb vc : Fin 8} {fmt : Fin 16} (h : s.canonical) :
    KeepsCanonical (execVpoolMax a0 vd va vb vc fmt s) :=
  .next (.live h (.vecPoolOp h))

theorem execVpoolAvg_keepsCanonical {a0 : SlotId} {vd va vb vc : Fin 8} {fmt : Fin 16} (h : s.canonical) :
    KeepsCanonical (execVpoolAvg a0 vd va vb vc fmt s) :=
  .next (.live h (.vecPoolOp h))

theorem execVpoolSelect_keepsCanonical {a0 : SlotId} {vd va vb vc : Fin 8} {fmt : Fin 16} (h : s.canonical) :
    KeepsCanonical (execVpoolSelect a0 vd va vb vc fmt s) :=
  .next (.live h (.vecPoolOp h))

theorem execVredsum_keepsCanonical {a0 : SlotId} {vd va : Fin 8} {fmt : Fin 16} (h : s.canonical) :
    KeepsCanonical (execVredsum a0 vd va fmt s) :=
  .next (.live h (.vecOp h))

theorem execVredmax_keepsCanonical {a0 : SlotId} {vd va : Fin 8} {fmt : Fin 16} (h : s.canonical) :
    KeepsCanonical (execVredmax a0 vd va fmt s) :=
  .next (.live h (.vecOp h))

theorem execVbcast_keepsCanonical {a0 : SlotId} {vd : Fin 8} {rs : Fin 32} {fmt : Fin 16} (h : s.canonical) :
    KeepsCanonical (execVbcast a0 vd rs fmt s) := by
  unfold execVbcast
  refine .next (.live h (.issue h (fun _ _ => ?_)))
  split
  · exact .ite (.vecDone h) (.threadFault h)
  · exact .threadFault h

theorem execVext_keepsCanonical {a0 : SlotId} {rd : Fin 32} {va : Fin 8} {fmt : Fin 16} (h : s.canonical) :
    KeepsCanonical (execVext a0 rd va fmt s) := by
  unfold execVext
  refine .next (.live h (.issue h (fun _ _ => ?_)))
  split
  · exact .ite (.vecChecked (.addFlags (.setSlot h))) (.threadFault h)
  · exact .threadFault h

/-! ### The step of the module -/

theorem State.canonical.idle (h : s.canonical) : (s.idle).canonical := .ite (.keep h) (.keep h)

/-! ## Every command -/

theorem exec_keepsCanonical (i : Instr) (h : s.canonical) : KeepsCanonical (exec i s) := by
  unfold exec
  cases i with
  | modeRequest => exact execModeRequest_keepsCanonical h
  | modeRequestDecide => exact execModeRequestDecide_keepsCanonical h
  | modeChangeApply => exact execModeChangeApply_keepsCanonical h
  | modeChangePreempt => exact execModeChangePreempt_keepsCanonical h
  | hostMissingTimeout => exact execHostMissingTimeout_keepsCanonical h
  | add => exact execAdd_keepsCanonical h
  | sub => exact execSub_keepsCanonical h
  | andRr => exact execAndRr_keepsCanonical h
  | orRr => exact execOrRr_keepsCanonical h
  | xorRr => exact execXorRr_keepsCanonical h
  | sll => exact execSll_keepsCanonical h
  | srl => exact execSrl_keepsCanonical h
  | sra => exact execSra_keepsCanonical h
  | slt => exact execSlt_keepsCanonical h
  | sltu => exact execSltu_keepsCanonical h
  | mul => exact execMul_keepsCanonical h
  | mulhu => exact execMulhu_keepsCanonical h
  | minRr => exact execMinRr_keepsCanonical h
  | maxRr => exact execMaxRr_keepsCanonical h
  | minu => exact execMinu_keepsCanonical h
  | maxu => exact execMaxu_keepsCanonical h
  | addi => exact execAddi_keepsCanonical h
  | andi => exact execAndi_keepsCanonical h
  | ori => exact execOri_keepsCanonical h
  | xori => exact execXori_keepsCanonical h
  | slli => exact execSlli_keepsCanonical h
  | srli => exact execSrli_keepsCanonical h
  | srai => exact execSrai_keepsCanonical h
  | slti => exact execSlti_keepsCanonical h
  | shori => exact execShori_keepsCanonical h
  | ld => exact execLd_keepsCanonical h
  | ldu => exact execLdu_keepsCanonical h
  | st => exact execSt_keepsCanonical h
  | vld => exact execVld_keepsCanonical h
  | vst => exact execVst_keepsCanonical h
  | memoryRequestAck => exact execMemoryRequestAck_keepsCanonical h
  | sramCeWriteback => exact execSramCeWriteback_keepsCanonical h
  | sramScrubRead => exact execSramScrubRead_keepsCanonical h
  | mma => exact execMma_keepsCanonical h
  | mmas => exact execMmas_keepsCanonical h
  | drain => exact execDrain_keepsCanonical h
  | tensorStep => exact execTensorStep_keepsCanonical h
  | vadd => exact execVadd_keepsCanonical h
  | vsub => exact execVsub_keepsCanonical h
  | vmul => exact execVmul_keepsCanonical h
  | vfma => exact execVfma_keepsCanonical h
  | vmin => exact execVmin_keepsCanonical h
  | vmax => exact execVmax_keepsCanonical h
  | vcmplt => exact execVcmplt_keepsCanonical h
  | vcmpeq => exact execVcmpeq_keepsCanonical h
  | vcvt => exact execVcvt_keepsCanonical h
  | vexp => exact execVexp_keepsCanonical h
  | vexp2 => exact execVexp2_keepsCanonical h
  | vrsqrt => exact execVrsqrt_keepsCanonical h
  | vbfly4 => exact execVbfly4_keepsCanonical h
  | vpoolMax => exact execVpoolMax_keepsCanonical h
  | vpoolAvg => exact execVpoolAvg_keepsCanonical h
  | vpoolSelect => exact execVpoolSelect_keepsCanonical h
  | vredsum => exact execVredsum_keepsCanonical h
  | vredmax => exact execVredmax_keepsCanonical h
  | vbcast => exact execVbcast_keepsCanonical h
  | vext => exact execVext_keepsCanonical h
  | beq => exact execBeq_keepsCanonical h
  | bne => exact execBne_keepsCanonical h
  | blt => exact execBlt_keepsCanonical h
  | bge => exact execBge_keepsCanonical h
  | bltu => exact execBltu_keepsCanonical h
  | bgeu => exact execBgeu_keepsCanonical h
  | jal => exact execJal_keepsCanonical h
  | jalr => exact execJalr_keepsCanonical h
  | post => exact execPost_keepsCanonical h
  | postArrive => exact execPostArrive_keepsCanonical h
  | wait => exact execWait_keepsCanonical h
  | waitArrival => exact execWaitArrival_keepsCanonical h
  | waitTimeout => exact execWaitTimeout_keepsCanonical h
  | fenceRelease => exact execFenceRelease_keepsCanonical h
  | fenceAcquire => exact execFenceAcquire_keepsCanonical h
  | fenceFull => exact execFenceFull_keepsCanonical h
  | copy => exact execCopy_keepsCanonical h
  | copyComplete => exact execCopyComplete_keepsCanonical h
  | tdld => exact execTdld_keepsCanonical h
  | rdid => exact execRdid_keepsCanonical h
  | ltaSram => exact execLtaSram_keepsCanonical h
  | ltaTil => exact execLtaTil_keepsCanonical h
  | exit => exact execExit_keepsCanonical h
  | reservedInstruction => exact execReservedInstruction_keepsCanonical h
  | threadSlotFree => exact execThreadSlotFree_keepsCanonical h
  | tileShareStart => exact execTileShareStart_keepsCanonical h
  | leaSwap => exact execLeaSwap_keepsCanonical h
  | swapMap => exact execSwapMap_keepsCanonical h
  | tileClearDone => exact execTileClearDone_keepsCanonical h
  | mismatchReport => exact execMismatchReport_keepsCanonical h
  | tilInjectResidue => exact execTilInjectResidue_keepsCanonical h
  | tilInjectChecksum => exact execTilInjectChecksum_keepsCanonical h
  | tilInjectVector => exact execTilInjectVector_keepsCanonical h
  | tilInjectSramSingle => exact execTilInjectSramSingle_keepsCanonical h
  | tilInjectSramDouble => exact execTilInjectSramDouble_keepsCanonical h
  | tilInjectTimeout => exact execTilInjectTimeout_keepsCanonical h
  | tilCntClrEcc => exact execTilCntClrEcc_keepsCanonical h
  | tilCntClrSkip => exact execTilCntClrSkip_keepsCanonical h
  | job => exact execJob_keepsCanonical h
  | ctxAlloc => exact execCtxAlloc_keepsCanonical h
  | ctxFree => exact execCtxFree_keepsCanonical h
  | ctxBlock => exact execCtxBlock_keepsCanonical h
  | ctxUnblock => exact execCtxUnblock_keepsCanonical h
  | ctxWrite => exact execCtxWrite_keepsCanonical h
  | ctxRead => exact execCtxRead_keepsCanonical h
  | jobCancel => exact execJobCancel_keepsCanonical h
  | jobStart => exact execJobStart_keepsCanonical h
  | jobResume => exact execJobResume_keepsCanonical h
  | jobTimeout => exact execJobTimeout_keepsCanonical h
  | threads => exact execThreads_keepsCanonical h
  | glenForward => exact execGlenForward_keepsCanonical h
  | glenBackward => exact execGlenBackward_keepsCanonical h
  | glenCombine => exact execGlenCombine_keepsCanonical h
  | prairiePublish => exact execPrairiePublish_keepsCanonical h
  | prairieWavefront => exact execPrairieWavefront_keepsCanonical h
  | prairieCheck => exact execPrairieCheck_keepsCanonical h
  | prairieBatch => exact execPrairieBatch_keepsCanonical h
  | prairieRanking => exact execPrairieRanking_keepsCanonical h
  | collectiveReshard => exact execCollectiveReshard_keepsCanonical h
  | collectiveAllReduce => exact execCollectiveAllReduce_keepsCanonical h
  | collectiveAllGather => exact execCollectiveAllGather_keepsCanonical h
  | collectiveReduceScatter => exact execCollectiveReduceScatter_keepsCanonical h
  | checkpointSnapshot => exact execCheckpointSnapshot_keepsCanonical h
  | checkpointRestore => exact execCheckpointRestore_keepsCanonical h
  | golden => exact execGolden_keepsCanonical h
  | cropResize => exact execCropResize_keepsCanonical h
  | zb64Pack => exact execZb64Pack_keepsCanonical h
  | zb64Unpack => exact execZb64Unpack_keepsCanonical h
  | completionFifoRecord => exact execCompletionFifoRecord_keepsCanonical h
  | commandTimeout => exact execCommandTimeout_keepsCanonical h
  | commitPoint => exact execCommitPoint_keepsCanonical h
  | completionEntryWrite => exact execCompletionEntryWrite_keepsCanonical h
  | contextReadiness => exact execContextReadiness_keepsCanonical h
  | swapInComplete => exact execSwapInComplete_keepsCanonical h
  | autonomousSwap => exact execAutonomousSwap_keepsCanonical h
  | goldenReserve => exact execGoldenReserve_keepsCanonical h
  | goldenRunEnd => exact execGoldenRunEnd_keepsCanonical h
  | goldenSlotTimeout => exact execGoldenSlotTimeout_keepsCanonical h
  | sqTailDoorbell => exact execSqTailDoorbell_keepsCanonical h
  | ringEnable => exact execRingEnable_keepsCanonical h
  | ringDisable => exact execRingDisable_keepsCanonical h
  | kvPublish => exact execKvPublish_keepsCanonical h
  | kvPublishResume => exact execKvPublishResume_keepsCanonical h
  | kvEvict => exact execKvEvict_keepsCanonical h
  | kvRetireRelease => exact execKvRetireRelease_keepsCanonical h
  | kvQuarantineRelease => exact execKvQuarantineRelease_keepsCanonical h
  | prairieMapRelease => exact execPrairieMapRelease_keepsCanonical h
  | praInvalGrid => exact execPraInvalGrid_keepsCanonical h
  | praInvalVox => exact execPraInvalVox_keepsCanonical h
  | glnInjectScore => exact execGlnInjectScore_keepsCanonical h
  | glnInjectValue => exact execGlnInjectValue_keepsCanonical h
  | glnInjectRowState => exact execGlnInjectRowState_keepsCanonical h
  | glnInjectTimeout => exact execGlnInjectTimeout_keepsCanonical h
  | glnCntClrEcc => exact execGlnCntClrEcc_keepsCanonical h
  | glnCntClrSkip => exact execGlnCntClrSkip_keepsCanonical h
  | glnCntClrUse => exact execGlnCntClrUse_keepsCanonical h
  | praInjectWavefront => exact execPraInjectWavefront_keepsCanonical h
  | praInjectDisc => exact execPraInjectDisc_keepsCanonical h
  | praInjectBuffer => exact execPraInjectBuffer_keepsCanonical h
  | praInjectTimeout => exact execPraInjectTimeout_keepsCanonical h
  | praCntClrEcc => exact execPraCntClrEcc_keepsCanonical h
  | praCntClrUse => exact execPraCntClrUse_keepsCanonical h
  | dramRead => exact execDramRead_keepsCanonical h
  | dramWrite => exact execDramWrite_keepsCanonical h
  | dramReadModifyWrite => exact execDramReadModifyWrite_keepsCanonical h
  | dramWriteDrain => exact execDramWriteDrain_keepsCanonical h
  | dramRefreshDue => exact execDramRefreshDue_keepsCanonical h
  | dramTempRead => exact execDramTempRead_keepsCanonical h
  | dramPatrolScrub => exact execDramPatrolScrub_keepsCanonical h
  | migrationUnit => exact execMigrationUnit_keepsCanonical h
  | eyeMonitorUpdate => exact execEyeMonitorUpdate_keepsCanonical h
  | dramTrainingDone => exact execDramTrainingDone_keepsCanonical h
  | selfRefreshEntry => exact execSelfRefreshEntry_keepsCanonical h
  | dmcRetire => exact execDmcRetire_keepsCanonical h
  | dmcRhThreshWrite => exact execDmcRhThreshWrite_keepsCanonical h
  | dmcCntClrErr => exact execDmcCntClrErr_keepsCanonical h
  | flitData => exact execFlitData_keepsCanonical h
  | flitIdle => exact execFlitIdle_keepsCanonical h
  | flitNak => exact execFlitNak_keepsCanonical h
  | replayTimeout => exact execReplayTimeout_keepsCanonical h
  | retrainEnd => exact execRetrainEnd_keepsCanonical h
  | rd => exact execRd_keepsCanonical h
  | wr => exact execWr_keepsCanonical h
  | wrp => exact execWrp_keepsCanonical h
  | rdrsp => exact execRdrsp_keepsCanonical h
  | wrack => exact execWrack_keepsCanonical h
  | fdlPost => exact execFdlPost_keepsCanonical h
  | zwr => exact execZwr_keepsCanonical h
  | rd2 => exact execRd2_keepsCanonical h
  | kill => exact execKill_keepsCanonical h
  | drained => exact execDrained_keepsCanonical h
  | record => exact execRecord_keepsCanonical h
  | faultReport => exact execFaultReport_keepsCanonical h
  | ctrlRetrain => exact execCtrlRetrain_keepsCanonical h
  | ctrlResetNotify => exact execCtrlResetNotify_keepsCanonical h
  | xframe => exact execXframe_keepsCanonical h
  | restore => exact execRestore_keepsCanonical h
  | linkRxTimeout => exact execLinkRxTimeout_keepsCanonical h
  | dieMarkAbsent => exact execDieMarkAbsent_keepsCanonical h
  | dieRejoin => exact execDieRejoin_keepsCanonical h
  | cap => exact execCap_keepsCanonical h
  | capAck => exact execCapAck_keepsCanonical h
  | hello => exact execHello_keepsCanonical h
  | resetReq => exact execResetReq_keepsCanonical h
  | pwrBudget => exact execPwrBudget_keepsCanonical h
  | pwrReport => exact execPwrReport_keepsCanonical h
  | rejoin => exact execRejoin_keepsCanonical h
  | fence => exact execFence_keepsCanonical h
  | linkTrainDone => exact execLinkTrainDone_keepsCanonical h
  | fdlTestP1 => exact execFdlTestP1_keepsCanonical h
  | fdlTestP2 => exact execFdlTestP2_keepsCanonical h
  | fdlTestP3 => exact execFdlTestP3_keepsCanonical h
  | fdlCntClrErr => exact execFdlCntClrErr_keepsCanonical h
  | flrWindowStart => exact execFlrWindowStart_keepsCanonical h
  | urgencyRise => exact execUrgencyRise_keepsCanonical h
  | urgencyFall => exact execUrgencyFall_keepsCanonical h
  | flrBudgetWrite => exact execFlrBudgetWrite_keepsCanonical h
  | flrIqmUrgWrite => exact execFlrIqmUrgWrite_keepsCanonical h
  | flrCntClrLat => exact execFlrCntClrLat_keepsCanonical h
  | flrCntClrOver => exact execFlrCntClrOver_keepsCanonical h
  | csiLongPacket => exact execCsiLongPacket_keepsCanonical h
  | csiFrameStart => exact execCsiFrameStart_keepsCanonical h
  | csiFrameEnd => exact execCsiFrameEnd_keepsCanonical h
  | csiShortPacketIgnored => exact execCsiShortPacketIgnored_keepsCanonical h
  | noFrameTimeout => exact execNoFrameTimeout_keepsCanonical h
  | ethFrame => exact execEthFrame_keepsCanonical h
  | queueOverwrittenRecord => exact execQueueOverwrittenRecord_keepsCanonical h
  | apertureWrite => exact execApertureWrite_keepsCanonical h
  | iqmQueueConfigWrite => exact execIqmQueueConfigWrite_keepsCanonical h
  | iqmCntClrPort => exact execIqmCntClrPort_keepsCanonical h
  | iqmCntClrQueue => exact execIqmCntClrQueue_keepsCanonical h
  | timeBaseRealign => exact execTimeBaseRealign_keepsCanonical h
  | ptpSync => exact execPtpSync_keepsCanonical h
  | ptpFollowUp => exact execPtpFollowUp_keepsCanonical h
  | ptpPdelayReq => exact execPtpPdelayReq_keepsCanonical h
  | ptpPdelayResp => exact execPtpPdelayResp_keepsCanonical h
  | ptpPdelayReqSend => exact execPtpPdelayReqSend_keepsCanonical h
  | ptpAnnounceDiscard => exact execPtpAnnounceDiscard_keepsCanonical h
  | ptpSyncTimeout => exact execPtpSyncTimeout_keepsCanonical h
  | holdoverExpiry => exact execHoldoverExpiry_keepsCanonical h
  | heathSlot => exact execHeathSlot_keepsCanonical h
  | crossFrameMidslot => exact execCrossFrameMidslot_keepsCanonical h
  | crossFrame => exact execCrossFrame_keepsCanonical h
  | partnerSilent => exact execPartnerSilent_keepsCanonical h
  | vehicleStateFrame => exact execVehicleStateFrame_keepsCanonical h
  | trajectoryRecord => exact execTrajectoryRecord_keepsCanonical h
  | pairTimeout => exact execPairTimeout_keepsCanonical h
  | heathVerdict => exact execHeathVerdict_keepsCanonical h
  | verdictTimeout => exact execVerdictTimeout_keepsCanonical h
  | acceptStale => exact execAcceptStale_keepsCanonical h
  | checkerSelfTest => exact execCheckerSelfTest_keepsCanonical h
  | heathFailSilent => exact execHeathFailSilent_keepsCanonical h
  | heathBoot => exact execHeathBoot_keepsCanonical h
  | helloWaitTimeout => exact execHelloWaitTimeout_keepsCanonical h
  | resetNotifyTimeout => exact execResetNotifyTimeout_keepsCanonical h
  | resetWireRelease => exact execResetWireRelease_keepsCanonical h
  | collectorHeartbeat => exact execCollectorHeartbeat_keepsCanonical h
  | dieHung => exact execDieHung_keepsCanonical h
  | rotationStep => exact execRotationStep_keepsCanonical h
  | tileSelfTestDone => exact execTileSelfTestDone_keepsCanonical h
  | rowRepair => exact execRowRepair_keepsCanonical h
  | leaRebind => exact execLeaRebind_keepsCanonical h
  | faultRecordWrite => exact execFaultRecordWrite_keepsCanonical h
  | faultRecordTimeout => exact execFaultRecordTimeout_keepsCanonical h
  | ageingMeasure => exact execAgeingMeasure_keepsCanonical h
  | ageingHourEval => exact execAgeingHourEval_keepsCanonical h
  | freezeNFall => exact execFreezeNFall_keepsCanonical h
  | valFreezeReq => exact execValFreezeReq_keepsCanonical h
  | thaw => exact execThaw_keepsCanonical h
  | debugRegisterAccess => exact execDebugRegisterAccess_keepsCanonical h
  | mainInputInRange => exact execMainInputInRange_keepsCanonical h
  | mainInputOutOfRange => exact execMainInputOutOfRange_keepsCanonical h
  | auxInputInRange => exact execAuxInputInRange_keepsCanonical h
  | auxInputOutOfRange => exact execAuxInputOutOfRange_keepsCanonical h
  | inputOvervoltage => exact execInputOvervoltage_keepsCanonical h
  | heathResetRelease => exact execHeathResetRelease_keepsCanonical h
  | sequencerRelease => exact execSequencerRelease_keepsCanonical h
  | resetNAssert => exact execResetNAssert_keepsCanonical h
  | resetNRelease => exact execResetNRelease_keepsCanonical h
  | romBoot => exact execRomBoot_keepsCanonical h
  | securityCoreStart => exact execSecurityCoreStart_keepsCanonical h
  | leaCoreLoad => exact execLeaCoreLoad_keepsCanonical h
  | heathMeasRead => exact execHeathMeasRead_keepsCanonical h
  | bootSettle => exact execBootSettle_keepsCanonical h
  | fwWatchdogExpiry => exact execFwWatchdogExpiry_keepsCanonical h
  | fwUnhandledTrap => exact execFwUnhandledTrap_keepsCanonical h
  | fwMemoryUe => exact execFwMemoryUe_keepsCanonical h
  | fwRestartDone => exact execFwRestartDone_keepsCanonical h
  | getVersion => exact execGetVersion_keepsCanonical h
  | getCapabilities => exact execGetCapabilities_keepsCanonical h
  | negotiateAlgorithms => exact execNegotiateAlgorithms_keepsCanonical h
  | getDigests => exact execGetDigests_keepsCanonical h
  | getCertificate => exact execGetCertificate_keepsCanonical h
  | challenge => exact execChallenge_keepsCanonical h
  | getMeasurements => exact execGetMeasurements_keepsCanonical h
  | doeDiscovery => exact execDoeDiscovery_keepsCanonical h
  | stage => exact execStage_keepsCanonical h
  | activate => exact execActivate_keepsCanonical h
  | arbCommit => exact execArbCommit_keepsCanonical h
  | heathStage => exact execHeathStage_keepsCanonical h
  | heathActivate => exact execHeathActivate_keepsCanonical h
  | flashRead => exact execFlashRead_keepsCanonical h
  | logRead => exact execLogRead_keepsCanonical h
  | revoke => exact execRevoke_keepsCanonical h
  | colLockAchieved => exact execColLockAchieved_keepsCanonical h
  | colTrainingTimeout => exact execColTrainingTimeout_keepsCanonical h
  | colLossOfLock => exact execColLossOfLock_keepsCanonical h
  | colLaneFail => exact execColLaneFail_keepsCanonical h
  | bypassClose => exact execBypassClose_keepsCanonical h
  | bypassOpen => exact execBypassOpen_keepsCanonical h
  | colRd => exact execColRd_keepsCanonical h
  | colRdrsp => exact execColRdrsp_keepsCanonical h
  | colWr => exact execColWr_keepsCanonical h
  | colWrack => exact execColWrack_keepsCanonical h
  | colColl => exact execColColl_keepsCanonical h
  | colHello => exact execColHello_keepsCanonical h
  | colHeartbeat => exact execColHeartbeat_keepsCanonical h
  | colKey => exact execColKey_keepsCanonical h
  | frameForward => exact execFrameForward_keepsCanonical h
  | mgmtProbe => exact execMgmtProbe_keepsCanonical h
  | mgmtProbeRsp => exact execMgmtProbeRsp_keepsCanonical h
  | mgmtSuspect => exact execMgmtSuspect_keepsCanonical h
  | mgmtVote => exact execMgmtVote_keepsCanonical h
  | mgmtExpel => exact execMgmtExpel_keepsCanonical h
  | mgmtRoute => exact execMgmtRoute_keepsCanonical h
  | mgmtRouteCommit => exact execMgmtRouteCommit_keepsCanonical h
  | mgmtAdmitReq => exact execMgmtAdmitReq_keepsCanonical h
  | mgmtAdmit => exact execMgmtAdmit_keepsCanonical h
  | mgmtSpdm => exact execMgmtSpdm_keepsCanonical h
  | mgmtRing => exact execMgmtRing_keepsCanonical h
  | mgmtAperture => exact execMgmtAperture_keepsCanonical h
  | mgmtRole => exact execMgmtRole_keepsCanonical h
  | mgmtCompare => exact execMgmtCompare_keepsCanonical h
  | mgmtResign => exact execMgmtResign_keepsCanonical h
  | mgmtCandidate => exact execMgmtCandidate_keepsCanonical h
  | candidateWait => exact execCandidateWait_keepsCanonical h
  | formationElect => exact execFormationElect_keepsCanonical h
  | admitRetry => exact execAdmitRetry_keepsCanonical h
  | colHeartbeatSend => exact execColHeartbeatSend_keepsCanonical h
  | colHeartbeatMiss => exact execColHeartbeatMiss_keepsCanonical h
  | probeTimeout => exact execProbeTimeout_keepsCanonical h
  | authFailExpulsion => exact execAuthFailExpulsion_keepsCanonical h
  | keyErase => exact execKeyErase_keepsCanonical h
  | remoteTimeout => exact execRemoteTimeout_keepsCanonical h
  | collRetry => exact execCollRetry_keepsCanonical h
  | colCntClrErr => exact execColCntClrErr_keepsCanonical h
  | pwrBudgetCycle => exact execPwrBudgetCycle_keepsCanonical h
  | powerMeasure => exact execPowerMeasure_keepsCanonical h
  | oppEvaluate => exact execOppEvaluate_keepsCanonical h
  | thermalRead => exact execThermalRead_keepsCanonical h
  | coolantRead => exact execCoolantRead_keepsCanonical h
  | pcieInboundRead => exact execPcieInboundRead_keepsCanonical h
  | pcieInboundWrite => exact execPcieInboundWrite_keepsCanonical h
  | msixMessage => exact execMsixMessage_keepsCanonical h
  | perstAChange => exact execPerstAChange_keepsCanonical h
  | pcieLinkChange => exact execPcieLinkChange_keepsCanonical h
  | pcieCompletionTimeout => exact execPcieCompletionTimeout_keepsCanonical h
  | registerWrite => exact execRegisterWrite_keepsCanonical h
  | engineCompletion => exact execEngineCompletion_keepsCanonical h
  | pcieConfigRequest => exact execPcieConfigRequest_keepsCanonical h
  | portBInboundRequest => exact execPortBInboundRequest_keepsCanonical h
  | ethPcsLockChange => exact execEthPcsLockChange_keepsCanonical h
  | sgmiiLinkChange => exact execSgmiiLinkChange_keepsCanonical h
  | trainingPatternDetect => exact execTrainingPatternDetect_keepsCanonical h
  | dieLeavesReset => exact execDieLeavesReset_keepsCanonical h
  | meadowRestoreComplete => exact execMeadowRestoreComplete_keepsCanonical h
  | heathSilentReplace => exact execHeathSilentReplace_keepsCanonical h
  | tapScanShift => exact execTapScanShift_keepsCanonical h

/-- Settles O58: a step is a command's meaning or the passing of a nanosecond, and each keeps the canonical form. -/
theorem stepKeepsCanonical : Obligations.StepKeepsCanonical := by
  intro s t h e
  unfold step at e
  split at e
  · cases e
    exact .idle h
  next c rest _ =>
    obtain ⟨u, hu, hc⟩ := exec_keepsCanonical (s := { s with pending := rest }) c (.keep h)
    cases hu.symm.trans e
    exact hc

end Sys2Proof.Machine
end

section

/-! PROOFS of the family "scope": O51. A counter-clear command sets the registers of a list to 0. A write of a register
that has no behaviour of its own comes down to `State.regPlain`, and one in a block of read-only registers to nothing. -/

namespace Sys2Proof.Machine

theorem State.live_of_running {s : State} (hf : s.frozen = false) (t : State) : s.live t = t := by
  simp [State.live, hf]

/-! ## Registers set to zero -/

/-- The registers at the addresses `l` set to 0, one after the other. -/
def State.zeroRegs (s : State) (l : List Nat) : State := l.foldl (fun s a => s.setReg a 0) s

theorem State.zeroRegs_append (s : State) (l m : List Nat) : s.zeroRegs (l ++ m) = (s.zeroRegs l).zeroRegs m :=
  List.foldl_append

theorem State.zeroRegs_map (s : State) {α : Type} (f : α → Nat) (l : List α) :
    s.zeroRegs (l.map f) = l.foldl (fun s x => s.setReg (f x) 0) s := List.foldl_map

theorem State.zeroRegs_flatMap (s : State) {α : Type} (f : α → List Nat) (l : List α) :
    s.zeroRegs (l.flatMap f) = l.foldl (fun s x => s.zeroRegs (f x)) s := List.foldl_flatMap

theorem State.reg_zeroRegs (s : State) (l : List Nat) (a : Nat) :
    (s.zeroRegs l).reg a = if a ∈ l then 0 else s.reg a := by
  induction l generalizing s with
  | nil => simp [State.zeroRegs]
  | cons b l ih =>
    have hcons : s.zeroRegs (b :: l) = (s.setReg b 0).zeroRegs l := rfl
    by_cases hab : a = b
    · subst hab; simp [hcons, ih]
    · simp [hcons, ih, hab, State.reg_setReg_ne]

theorem State.zeroRegs_regsOnly (s : State) (l : List Nat) : s.regsOnly (s.zeroRegs l) := by
  induction l generalizing s with
  | nil => rfl
  | cons b l ih => exact (s.regsOnly_setReg b 0).trans (ih _)

theorem clears_of_exec {s : State} {i : Instr} {l : List Nat} (e : exec i s = .next (s.zeroRegs l)) : Clears s i l :=
  ⟨_, e, ⟨s.zeroRegs_regsOnly l, fun a ha => by rw [State.reg_zeroRegs, if_neg ha]⟩,
    fun a ha => by rw [State.reg_zeroRegs, if_pos ha]⟩

/-! ## The counter-clear commands -/

section
variable {s : State} {init : Init} (hf : s.frozen = false)
include hf

theorem tilCntClrEcc_clears {t : TileId} (h : mayClearTile init.toNat t = true) :
    Clears s (.tilCntClrEcc init t) [aTil t.die t.lea t.tile 0x08, aTil t.die t.lea t.tile 0x0C] :=
  clears_of_exec (show execTilCntClrEcc init t s = _ by simp only [execTilCntClrEcc, State.live_of_running hf, h]; rfl)

theorem tilCntClrSkip_clears {t : TileId} (h : mayClearTile init.toNat t = true) :
    Clears s (.tilCntClrSkip init t) [aTil t.die t.lea t.tile 0x1C] :=
  clears_of_exec (show execTilCntClrSkip init t s = _ by simp only [execTilCntClrSkip, State.live_of_running hf, h]; rfl)

theorem glnCntClrEcc_clears {l : LeaId} (h : glnClrOk init.toNat l = true) :
    Clears s (.glnCntClrEcc init l) [aGln l.die l.lea 0x14] :=
  clears_of_exec (show execGlnCntClrEcc init l s = _ by simp only [execGlnCntClrEcc, State.live_of_running hf, h]; rfl)

theorem glnCntClrSkip_clears {l : LeaId} (h : glnClrOk init.toNat l = true) :
    Clears s (.glnCntClrSkip init l) [aGln l.die l.lea 0x10] :=
  clears_of_exec (show execGlnCntClrSkip init l s = _ by simp only [execGlnCntClrSkip, State.live_of_running hf, h]; rfl)

theorem glnCntClrUse_clears {l : LeaId} (h : glnClrOk init.toNat l = true) :
    Clears s (.glnCntClrUse init l) [aGln l.die l.lea 0x04, aGln l.die l.lea 0x08, aGln l.die l.lea 0x18] :=
  clears_of_exec (show execGlnCntClrUse init l s = _ by simp only [execGlnCntClrUse, State.live_of_running hf, h]; rfl)

theorem praCntClrEcc_clears {d : Fin 4} (h : praClrOk init.toNat d = true) :
    Clears s (.praCntClrEcc init d) [aPra d 0x54] :=
  clears_of_exec (show execPraCntClrEcc init d s = _ by simp only [execPraCntClrEcc, State.live_of_running hf, h]; rfl)

theorem praCntClrUse_clears {d : Fin 4} (h : praClrOk init.toNat d = true) :
    Clears s (.praCntClrUse init d) [aPra d 0x48, aPra d 0x4C, aPra d 0x50] :=
  clears_of_exec (show execPraCntClrUse init d s = _ by simp only [execPraCntClrUse, State.live_of_running hf, h]; rfl)

theorem dmcCntClrErr_clears {d : Fin 4} (h : (isLeaCoreOf init.toNat d || isHeath init.toNat) = true) :
    Clears s (.dmcCntClrErr init d) [aDmc d 0x20, aDmc d 0x24, aDmc d 0x28] :=
  clears_of_exec (show execDmcCntClrErr init d s = _ by simp only [execDmcCntClrErr, State.live_of_running hf, h]; rfl)

theorem fdlCntClrErr_clears {p : PortId} (h : (portOk p && fdlClrOk init.toNat p.die) = true) :
    Clears s (.fdlCntClrErr init p) [aFdl p.die p.port 0x30, aFdl p.die p.port 0x34, aFdl p.die p.port 0x3C] :=
  clears_of_exec (show execFdlCntClrErr init p s = _ by simp [execFdlCntClrErr, hf, h, State.zeroRegs])

theorem flrCntClrLat_clears {v : Fin 5} (h : clrWriter init.toNat = true) :
    Clears s (.flrCntClrLat init v) [aFlr v 0x10, aFlr v 0x14] :=
  clears_of_exec (show execFlrCntClrLat init v s = _ by simp only [execFlrCntClrLat, State.live_of_running hf, h]; rfl)

theorem flrCntClrOver_clears {v : Fin 5} (h : clrWriter init.toNat = true) :
    Clears s (.flrCntClrOver init v) (((List.range 4).map fun j => aFlr v (0x60 + 8 * j))
      ++ ((List.range 5).filter (pointExists v)).flatMap fun q => (List.range 8).map fun c => aPoint v q (0x40 + 4 * c)) :=
  clears_of_exec (show execFlrCntClrOver init v s = _ by
    simp only [execFlrCntClrOver, State.live_of_running hf, h, State.zeroRegs_append, State.zeroRegs_flatMap,
      State.zeroRegs_map]
    rfl)

theorem iqmCntClrQueue_clears (h : iqmClears init.toNat = true) :
    Clears s (.iqmCntClrQueue init) ((List.range 256).flatMap fun q => [0x1C, 0x20, 0x28, 0x2C].map (aQueue q)) :=
  clears_of_exec (show execIqmCntClrQueue init s = _ by
    simp only [execIqmCntClrQueue, State.live_of_running hf, h, State.zeroRegs_flatMap, State.zeroRegs_map]
    rfl)

theorem colCntClrErr_clears (h : init.toNat = initSec ∨ isHeath init.toNat = true) :
    Clears s (.colCntClrErr init) ([aCol 0x38, aCol 0x3C]
      ++ (List.range 4).flatMap fun n => [aColPort n 0x04, aColPort n 0x08, aColPort n 0x0C]) :=
  clears_of_exec (show execColCntClrErr init s = _ by
    simp only [execColCntClrErr, State.live_of_running hf, if_pos h]
    rfl)

end

/-! ### IQM_CNT_CLR.PORT, which also refreshes the high-water marks of the FIFOs -/

/-- The counters `cs` of a port cleared, and its FIFO's high-water mark set to the level, in the register at `q`. -/
def State.clearPort (s : State) (cs : List Nat) (q : Nat) : State :=
  (s.zeroRegs cs).setFld q 24 16 ((s.zeroRegs cs).fld q 8 0)

theorem State.clearPort_regsOnly (s : State) (cs : List Nat) (q : Nat) : s.regsOnly (s.clearPort cs q) :=
  (s.zeroRegs_regsOnly cs).trans (State.regsOnly_setFld _ _ _ _ _)

theorem State.reg_clearPort (s : State) (cs : List Nat) {q a : Nat} (h : a ≠ q) :
    (s.clearPort cs q).reg a = if a ∈ cs then 0 else s.reg a := by
  rw [State.clearPort, State.setFld, State.reg_setReg_ne _ _ h, State.reg_zeroRegs]

/-- The ports of a list, each with its counters and its FIFO's register, cleared one after the other. -/
def State.clearPorts (s : State) (ps : List (List Nat × Nat)) : State :=
  ps.foldl (fun s p => s.clearPort p.1 p.2) s

theorem State.clearPorts_regsOnly (s : State) (ps : List (List Nat × Nat)) : s.regsOnly (s.clearPorts ps) := by
  induction ps generalizing s with
  | nil => rfl
  | cons p ps ih => exact (s.clearPort_regsOnly _ _).trans (ih _)

theorem State.reg_clearPorts (s : State) (ps : List (List Nat × Nat)) {a : Nat} (h : ∀ p ∈ ps, a ≠ p.2) :
    (s.clearPorts ps).reg a = if a ∈ ps.flatMap (·.1) then 0 else s.reg a := by
  induction ps generalizing s with
  | nil => rfl
  | cons p ps ih =>
    have hcons : s.clearPorts (p :: ps) = (s.clearPort p.1 p.2).clearPorts ps := rfl
    rw [hcons, ih _ fun q hq => h q (.tail _ hq), s.reg_clearPort p.1 (h p (.head _))]
    by_cases hin : a ∈ p.1 <;>
      simp only [List.flatMap_cons, List.mem_append, hin, true_or, false_or, if_true, if_false, ite_self]

theorem State.clearPorts_append (s : State) (l m : List (List Nat × Nat)) :
    s.clearPorts (l ++ m) = (s.clearPorts l).clearPorts m := List.foldl_append

theorem State.clearPorts_map (s : State) {α : Type} (f : α → List Nat × Nat) (l : List α) :
    s.clearPorts (l.map f) = l.foldl (fun s x => s.clearPort (f x).1 (f x).2) s := List.foldl_map

/-- The camera ports and the MACs: the counters that IQM_CNT_CLR.PORT clears and the FIFO's register (R415, R416). -/
def iqmPortRegs : List (List Nat × Nat) :=
  ((List.range 16).map fun p =>
      ([4, 8, 0x0C].map fun o => aIqm (0x1000 + 0x20 * p + o), aIqm (0x1000 + 0x20 * p + 0x10))) ++
    (List.range 4).map fun m =>
      ([8, 0x0C, 0x10, 0x14].map fun o => aIqm (0x1400 + 0x40 * m + o), aIqm (0x1400 + 0x40 * m + 0x18))

theorem exec_iqmCntClrPort {s : State} {init : Init} (hf : s.frozen = false) (h : iqmClears init.toNat = true) :
    exec (.iqmCntClrPort init) s = .next ((s.clearPorts iqmPortRegs).zeroRegs [aIqm 0x08, aIqm 0x0C]) := by
  change execIqmCntClrPort init s = _
  simp only [execIqmCntClrPort, State.live_of_running hf, h, iqmPortRegs, State.clearPorts_append,
    State.clearPorts_map, State.clearPort, State.zeroRegs_map]
  rfl

/-- An IQM register that is no port's FIFO register keeps its value, or is cleared where it is a counter. -/
theorem State.reg_iqmPortsCleared (s : State) {x : Nat} (hcsi : x % 0x20 ≠ 0x10 ∨ 0x1200 ≤ x)
    (hmac : x % 0x40 ≠ 0x18 ∨ x < 0x1400 ∨ 0x1500 ≤ x) :
    ((s.clearPorts iqmPortRegs).zeroRegs [aIqm 0x08, aIqm 0x0C]).reg (aIqm x)
      = if aIqm x ∈ [aIqm 0x08, aIqm 0x0C] ∨ aIqm x ∈ iqmPortRegs.flatMap (·.1) then 0 else s.reg (aIqm x) := by
  have hfifo : ∀ p ∈ iqmPortRegs, aIqm x ≠ p.2 := by
    intro p hp
    simp only [iqmPortRegs, List.mem_append, List.mem_map, List.mem_range] at hp
    obtain ⟨k, hk, rfl⟩ | ⟨k, hk, rfl⟩ := hp <;> simp only [aIqm] <;> omega
  rw [State.reg_zeroRegs, s.reg_clearPorts _ hfifo, ite_or]

theorem iqmCntClrPort_leads {s : State} {init : Init} (hf : s.frozen = false) (h : iqmClears init.toNat = true) :
    Leads (.iqmCntClrPort init) s fun s' => s'.reg (aIqm 0x08) = 0 ∧ s'.reg (aIqm 0x0C) = 0
      ∧ (∀ n < 16, ∀ o ∈ [0x04, 0x08, 0x0C], s'.reg (aIqm (0x1000 + 0x20 * n + o)) = 0)
      ∧ (∀ n < 4, ∀ o ∈ [0x08, 0x0C, 0x10, 0x14], s'.reg (aIqm (0x1400 + 0x40 * n + o)) = 0)
      ∧ (∀ q, ∀ o < 0x40, s'.reg (aQueue q o) = s.reg (aQueue q o)) ∧ s' = { s with regs := s'.regs } := by
  refine ⟨_, exec_iqmCntClrPort hf h, by simp [State.reg_zeroRegs], by simp [State.reg_zeroRegs], ?_, ?_, ?_,
    (s.clearPorts_regsOnly _).trans (State.zeroRegs_regsOnly _ _)⟩
  · intro n hn o ho
    have ho' : o = 4 ∨ o = 8 ∨ o = 12 := by simpa using ho
    rw [s.reg_iqmPortsCleared (by omega) (by omega), if_pos]
    refine .inr (List.mem_flatMap.2 ⟨_, List.mem_append_left _ (List.mem_map.2 ⟨n, List.mem_range.2 hn, rfl⟩), ?_⟩)
    exact List.mem_map.2 ⟨o, ho, rfl⟩
  · intro n hn o ho
    have ho' : o = 8 ∨ o = 12 ∨ o = 16 ∨ o = 20 := by simpa using ho
    rw [s.reg_iqmPortsCleared (by omega) (by omega), if_pos]
    refine .inr (List.mem_flatMap.2 ⟨_, List.mem_append_right _ (List.mem_map.2 ⟨n, List.mem_range.2 hn, rfl⟩), ?_⟩)
    exact List.mem_map.2 ⟨o, ho, rfl⟩
  · intro q o ho
    have hx : ¬ (aQueue q o ∈ [aIqm 0x08, aIqm 0x0C] ∨ aQueue q o ∈ iqmPortRegs.flatMap (·.1)) := by
      simp only [iqmPortRegs, List.mem_flatMap, List.mem_append, List.mem_map, List.mem_range, List.mem_cons, aQueue,
        aIqm]
      rintro (h | ⟨p, ⟨k, hk, rfl⟩ | ⟨k, hk, rfl⟩, h⟩)
      · simp at h; omega
      · simp at h; omega
      · simp at h; omega
    exact (s.reg_iqmPortsCleared (by omega) (by omega)).trans (if_neg hx)

/-! ### Who may write the clear fields -/

theorem praClrOk_iff {init : Nat} (d : Nat) :
    praClrOk init d = true ↔ isHeath init = true ∨ ∃ j < 16, init = initLeaCore d j := by
  have hcore : (init / 256 = d ∧ 0x20 ≤ init % 256 ∧ init % 256 < 0x30) ↔ ∃ j < 16, init = initLeaCore d j := by
    constructor
    · rintro ⟨h1, h2, h3⟩
      exact ⟨init % 256 - 0x20, by omega, by unfold initLeaCore; omega⟩
    · rintro ⟨j, hj, rfl⟩
      unfold initLeaCore
      omega
  simp [praClrOk, ← hcore, and_assoc]

theorem counterClears : CounterClears := by
  intro s init t l d p v hf a heath sec
  refine ⟨fun h => ?_, fun h => ?_, fun h => ?_, fun h => ?_⟩
  · have hw : mayClearTile init.toNat t = true := by simpa [mayClearTile, or_comm] using h
    exact ⟨tilCntClrEcc_clears hf hw, tilCntClrSkip_clears hf hw⟩
  · have hw : glnClrOk init.toNat l = true := by simpa [glnClrOk] using h
    exact ⟨glnCntClrEcc_clears hf hw, glnCntClrSkip_clears hf hw, glnCntClrUse_clears hf hw⟩
  · have hw := (praClrOk_iff d).2 h
    have hd : (isLeaCoreOf init.toNat d || isHeath init.toNat) = true := (Bool.or_comm _ _).trans hw
    exact ⟨praCntClrEcc_clears hf hw, praCntClrUse_clears hf hw, dmcCntClrErr_clears hf hd⟩
  · have hw : clrWriter init.toNat = true := by simpa [clrWriter, or_comm] using h
    refine ⟨fun hp hd => ?_, flrCntClrLat_clears hf hw, flrCntClrOver_clears hf hw, iqmCntClrQueue_clears hf hw,
      iqmCntClrPort_leads hf hw, colCntClrErr_clears hf h.symm⟩
    have hfdl : fdlClrOk init.toNat p.die = true := by rw [fdlClrOk, if_pos hd]; exact hw
    exact fdlCntClrErr_clears hf (by rw [portOk, hp, hfdl]; rfl)

/-! ## A write of one whole register -/

/-- `r` is a register of block `b` at `a`, of which a write stores the low `n` bits and does nothing else. -/
structure PlainReg (b : Block) (a n : Nat) (r : RegDef) : Prop where
  place : placeOf a = some (.block b, blockBase b, 0x10000)
  reg : regAt a = some (r, a)
  inBlock : inside a r.bytes (blockBase b) 0x10000 = true
  bytes : 0 < r.bytes ∧ r.width = 8 * r.bytes ∧ r.bytes ≤ 8
  stored : 0 < n ∧ n ≤ r.width ∧ r.rw = 2 ^ n - 1 ∧ r.w1c = 0 ∧ r.rw1s = 0

/-- The test for `PlainReg` at a given address. -/
def isPlainReg (b : Block) (a n : Nat) : Bool :=
  decide (placeOf a = some (.block b, blockBase b, 0x10000)) &&
    match regAt a with
    | some (r, c) => decide (c = a) && inside a r.bytes (blockBase b) 0x10000
        && decide (0 < r.bytes ∧ r.width = 8 * r.bytes ∧ r.bytes ≤ 8)
        && decide (0 < n ∧ n ≤ r.width ∧ r.rw = 2 ^ n - 1 ∧ r.w1c = 0 ∧ r.rw1s = 0)
    | none => false

theorem PlainReg.of_isPlainReg {b : Block} {a n : Nat} (h : isPlainReg b a n = true) : ∃ r, PlainReg b a n r := by
  unfold isPlainReg at h
  split at h
  next r c hr =>
    simp only [Bool.and_eq_true, decide_eq_true_eq] at h
    obtain ⟨hp, ⟨⟨rfl, hi⟩, hb⟩, hs⟩ := h
    exact ⟨r, hp, hr, hi, hb, hs⟩
  · simp at h

theorem isPlainReg_box :
    ∀ m : Fin 2, ∀ e ∈ [(0x08, 48), (0x10, 32), (0x18, 27)], isPlainReg .sec (aBox m e.1) e.2 = true := by
  decide

theorem isPlainReg_ring : ∀ set : Fin 4, ∀ k < 3, isPlainReg .sch (aRing set (8 * k)) 48 = true := by
  decide

theorem isPlainReg_ceThresh : ∀ d : Fin 4, isPlainReg (.dmc d) (aDmc d 0x1C) 16 = true := by
  decide

/-- Storing the low `n` bits and nothing else leaves what was written in them. -/
theorem RegDef.written_mod {r : RegDef} {n : Nat} (hn : n ≤ r.width) (hrw : r.rw = 2 ^ n - 1) (hc : r.w1c = 0)
    (hs : r.rw1s = 0) (old w : Nat) : r.written old w % 2 ^ n = w % 2 ^ n := by
  have hpos := Nat.two_pow_pos n
  have hpow := Nat.pow_le_pow_right (n := 2) (by omega) hn
  have hlt : 2 ^ n - 1 < 2 ^ r.width := by omega
  have hmask : 2 ^ r.width - 1 - (2 ^ n - 1) = 2 ^ n * (2 ^ (r.width - n) - 1) := by
    rw [Nat.mul_sub, ← Nat.pow_add, Nat.add_sub_cancel' hn]
    omega
  simp only [RegDef.written, hrw, hc, hs, Nat.and_zero, Nat.or_zero, Nat.mod_eq_of_lt hlt, hmask,
    Nat.and_two_pow_sub_one_eq_mod, Nat.or_mod_two_pow, Nat.and_mod_two_pow, Nat.mul_mod_right, Nat.mod_mod, Nat.zero_or]

namespace PlainReg
variable {s : State} {b : Block} {a n : Nat} {r : RegDef} (h : PlainReg b a n r)
include h

theorem regSpan_eq : regSpan a = (a, r.bytes) := by
  simp [regSpan, h.reg]

theorem base_le : blockBase b ≤ a := by
  have := h.inBlock
  simp [inside] at this
  exact this.1

theorem regDefined_eq : regDefined b (a - blockBase b) = true := by
  simp [regDefined, Nat.add_sub_cancel' h.base_le, h.reg]

/-- A write of all bytes of a register keeps none of its bits (R10). -/
theorem regValue_eq (s : State) {bs : List Byte} (hb : bs.length = r.bytes) : s.regValue a bs = leNat bs := by
  obtain ⟨-, hw, -⟩ := h.bytes
  obtain ⟨-, hn, hrw, -, -⟩ := h.stored
  have hkeep : s.reg a &&& r.rw < 2 ^ (8 * bs.length) := by
    have := Nat.pow_le_pow_right (n := 2) (by omega) (hb ▸ hw ▸ hn)
    have := Nat.two_pow_pos n
    exact lt_of_le_of_lt Nat.and_le_right (by omega)
  simp [State.regValue, h.regSpan_eq, h.reg, Nat.and_two_pow_sub_one_eq_mod, Nat.mod_eq_of_lt hkeep]

theorem regParts_eq {bs : List Byte} (hb : bs.length = r.bytes) : regParts (bs.length + 1) a bs = [(a, bs)] := by
  have hpos := h.bytes.1
  have hne : bs ≠ [] := by
    rintro rfl
    simp at hb
    omega
  have hk : a + bs.length - a = bs.length := by omega
  cases bs with
  | nil => exact absurd rfl hne
  | cons x bs => simp [regParts, h.regSpan_eq, ← hb, List.take_of_length_le, List.drop_of_length_le]

/-- R10 to R12: a write of the whole register is refused, finds its die absent, or does what the register's writes do. -/
theorem regWrite_eq (s : State) (init : Nat) {bs : List Byte} (hb : bs.length = r.bytes) :
    s.regWrite init b a bs = if !s.regMay init b (a - blockBase b) then (4, s) else if !s.targetUp a then (8, s)
      else (0, s.regEffect init b a (a - blockBase b) (leNat bs)) := by
  simp [State.regWrite, h.regParts_eq hb, h.regSpan_eq, h.regDefined_eq, h.regValue_eq s hb]

/-- R10: a register without behaviour of its own takes its bits, and nothing else changes. -/
theorem regPlain_takes (s : State) (v : Nat) :
    (s.regPlain a v).fld a (n - 1) 0 = v % 2 ^ n ∧ s.onlyRegs (s.regPlain a v) [a] := by
  obtain ⟨-, hw, hb⟩ := h.bytes
  obtain ⟨hpos, hn, hrw, hc, hs⟩ := h.stored
  have heq : s.regPlain a v = s.setReg a (r.written (s.reg a) v) := by simp [State.regPlain, h.reg]
  have hdvd : 2 ^ n ∣ 2 ^ 64 := Nat.pow_dvd_pow 2 (by omega)
  rw [heq]
  refine ⟨?_, rfl, fun x hx => State.reg_setReg_ne _ _ (by simpa using hx)⟩
  rw [State.fld, bits_eq, State.reg_setReg_same, Nat.sub_add_cancel hpos, Nat.pow_zero, Nat.div_one, Nat.sub_zero,
    Nat.mod_mod_of_dvd _ hdvd, RegDef.written_mod hn hrw hc hs]

end PlainReg

/-- R10: a command that writes a register, whose address lies in a block. -/
theorem exec_registerWrite {s : State} {init : Init} {addr : Addr} {value : Word} {b : Block} {base len : Nat}
    (hf : s.frozen = false) (hp : placeOf addr.toNat = some (.block b, base, len)) :
    exec (.registerWrite init addr value) s = .next (if addr.toNat = (regSpan addr.toNat).1 then
      (s.write (whoIs init.toNat) addr.toNat (leBytes (regSpan addr.toNat).2 value.toNat)).2 else s) := by
  change execRegisterWrite init addr value s = _
  simp only [execRegisterWrite, State.live_of_running hf, hp]

/-- R10, R12: a write of a register that has no behaviour of its own but where `regEffect` says so. -/
theorem exec_registerWrite_plain {s : State} {init : Init} {addr : Addr} {value : Word} {b : Block} {n : Nat}
    {r : RegDef} (hf : s.frozen = false) (h : PlainReg b addr.toNat n r) :
    exec (.registerWrite init addr value) s = .next
      (if s.regMay init.toNat b (addr.toNat - blockBase b) && s.targetUp addr.toNat then
        s.regEffect init.toNat b addr.toNat (addr.toNat - blockBase b) (value.toNat % 2 ^ r.width) else s) := by
  have hl : (leBytes r.bytes value.toNat).length = r.bytes := leBytes_length _ _
  have hv : leNat (leBytes r.bytes value.toNat) = value.toNat % 2 ^ r.width := by
    rw [leNat_leBytes, h.bytes.2.1, Nat.pow_mul]
  rw [exec_registerWrite hf h.place, h.regSpan_eq, if_pos rfl]
  simp only [State.write, h.place, hl, h.inBlock, if_true, h.regWrite_eq s _ hl, hv, whoIs]
  cases s.regMay init.toNat b (addr.toNat - blockBase b) <;> cases s.targetUp addr.toNat <;> simp

/-- The write is stored: the register at `addr` takes the low `n` bits of the value, and nothing else changes. -/
def Stores (s : State) (init : Init) (addr : Addr) (value : Word) (n : Nat) : Prop :=
  Leads (.registerWrite init addr value) s fun s' =>
    s'.fld addr.toNat (n - 1) 0 = value.toNat % 2 ^ n ∧ s.onlyRegs s' [addr.toNat]

section
variable {s : State} {init : Init} {addr : Addr} {value : Word} {b : Block} {n : Nat}

theorem stores_of_plain (hf : s.frozen = false) (hp : isPlainReg b addr.toNat n = true)
    (hmay : s.regMay init.toNat b (addr.toNat - blockBase b) = true) (hup : s.targetUp addr.toNat = true)
    (heff : ∀ v, s.regEffect init.toNat b addr.toNat (addr.toNat - blockBase b) v = s.regPlain addr.toNat v) :
    Stores s init addr value n := by
  obtain ⟨r, h⟩ := PlainReg.of_isPlainReg hp
  obtain ⟨hval, honly⟩ := h.regPlain_takes s (value.toNat % 2 ^ r.width)
  refine ⟨_, by rw [exec_registerWrite_plain hf h, hmay, hup, heff]; rfl, ?_, honly⟩
  rw [hval, Nat.mod_mod_of_dvd _ (Nat.pow_dvd_pow 2 h.stored.2.1)]

theorem discards_of_plain (hf : s.frozen = false) (hp : isPlainReg b addr.toNat n = true)
    (h : s.regMay init.toNat b (addr.toNat - blockBase b) = false ∨ s.targetUp addr.toNat = false
      ∨ ∀ v, s.regEffect init.toNat b addr.toNat (addr.toNat - blockBase b) v = s) :
    exec (.registerWrite init addr value) s = .next s := by
  obtain ⟨r, hr⟩ := PlainReg.of_isPlainReg hp
  rw [exec_registerWrite_plain hf hr]
  obtain h | h | h := h <;> simp [h]

end

/-! ## The registers of R10 that have no behaviour of their own -/

theorem State.targetUp_sec {s : State} {a base len : Nat} (h : placeOf a = some (.block .sec, base, len)) :
    s.targetUp a = true := by
  simp [State.targetUp, h, Block.meadow]

theorem State.targetUp_sch {s : State} {a base len : Nat} (h : placeOf a = some (.block .sch, base, len)) :
    s.targetUp a = true := by
  simp [State.targetUp, h, Block.meadow]

theorem State.targetUp_dmc {s : State} {a d base len : Nat} (h : placeOf a = some (.block (.dmc d), base, len)) :
    s.targetUp a = s.meadowUp d := by
  simp [State.targetUp, h, Block.meadow]

theorem aBox_sub_base (m o : Nat) : aBox m o - blockBase .sec = 0x200 + 0x20 * m + o :=
  Nat.add_sub_cancel_left (valeBase + 0x20000) _

theorem aRing_sub_base (set o : Nat) : aRing set o - blockBase .sch = 0x100 + set * 0x100 + o :=
  Nat.add_sub_cancel_left (valeBase + 0x10000) _

theorem aDmc_sub_base (d o : Nat) : aDmc d o - blockBase (.dmc d) = o :=
  Nat.add_sub_cancel_left (meadowBase d + 0x20000) _

theorem State.regMay_box (s : State) (init : Nat) {m o : Nat} (hm : m < 2) (ho : o < 0x20) :
    s.regMay init .sec (0x200 + 0x20 * m + o) = decide (init = boxOwner m) := by
  have hk : (0x200 + 0x20 * m + o - 0x200) / 0x20 = m := by omega
  simp only [State.regMay, hk]
  rw [if_pos (by omega)]

theorem State.regMay_ring (s : State) (init : Nat) {set o : Nat} (hs : set < 4) (ho : o < 0x100) :
    s.regMay init .sch (0x100 + set * 0x100 + o) = decide (init = ringOwner set) := by
  have hk : (0x100 + set * 0x100 + o - 0x100) / 0x100 = set := by omega
  simp only [State.regMay, hk]
  rw [if_pos (by omega)]

/-- R502: an operand register of a mailbox at which no request is at work. -/
theorem State.regEffect_boxOperand {s : State} {m : Nat} (hm : m < 2) (hgo : bit (s.reg (aBox m 0)) 31 = false)
    (init a : Nat) {o : Nat} (ho : 0 < o) (ho' : o < 0x20) (v : Nat) :
    s.regEffect init .sec a (0x200 + 0x20 * m + o) v = s.regPlain a v := by
  have hk : (0x200 + 0x20 * m + o - 0x200) / 0x20 = m := by omega
  simp only [State.regEffect, hk, hgo]
  rw [if_neg (by omega), if_neg (by simp), if_neg (by omega)]

/-- R219: the base of a ring, which stands while its set is enabled. -/
theorem State.regEffect_ringBase (s : State) (init a : Nat) {set o : Nat} (hs : set < 4) (ho : o < 0x18) (v : Nat) :
    s.regEffect init .sch a (0x100 + set * 0x100 + o) v = if s.ringEn set then s else s.regPlain a v := by
  have hk : (0x100 + set * 0x100 + o - 0x100) / 0x100 = set := by omega
  have hr : (0x100 + set * 0x100 + o) % 0x100 = o := by omega
  simp only [State.regEffect, State.schWrite, hk, hr, ho]
  rw [if_pos (by omega), if_neg (by omega), if_neg (by omega), if_neg (by omega), if_neg (by omega)]
  simp

theorem boxOperandWrites (s : State) (init : Init) (addr : Addr) (value : Word) (m : Fin 2) (hf : s.frozen = false) :
    ∀ e ∈ [(0x08, 48), (0x10, 32), (0x18, 27)], addr.toNat = aBox m e.1 →
      (init.toNat = boxOwner m → bit (s.reg (aBox m 0)) 31 = false → Stores s init addr value e.2)
      ∧ (init.toNat ≠ boxOwner m → exec (.registerWrite init addr value) s = .next s) := by
  intro e he ha
  have hp : isPlainReg .sec addr.toNat e.2 = true := ha ▸ isPlainReg_box m e he
  have ho : 0 < e.1 ∧ e.1 < 0x20 := by
    have : e = (0x08, 48) ∨ e = (0x10, 32) ∨ e = (0x18, 27) := by simpa using he
    obtain rfl | rfl | rfl := this <;> simp
  have hoff : addr.toNat - blockBase .sec = 0x200 + 0x20 * m + e.1 := by rw [ha, aBox_sub_base]
  have hmay : s.regMay init.toNat .sec (addr.toNat - blockBase .sec) = decide (init.toNat = boxOwner m) := by
    rw [hoff, s.regMay_box _ m.isLt ho.2]
  obtain ⟨r, hr⟩ := PlainReg.of_isPlainReg hp
  refine ⟨fun hi hgo => stores_of_plain hf hp (by simpa [hmay] using hi) (State.targetUp_sec hr.place) fun v => ?_,
    fun hi => discards_of_plain hf hp (.inl (by simpa [hmay] using hi))⟩
  rw [hoff, State.regEffect_boxOperand m.isLt hgo _ _ ho.1 ho.2]

theorem ringBaseWrites (s : State) (init : Init) (addr : Addr) (value : Word) (set : Fin 4) (hf : s.frozen = false) :
    ∀ k < 3, addr.toNat = aRing set (8 * k) →
      (init.toNat = ringOwner set → s.ringEn set = false → Stores s init addr value 48)
      ∧ ((init.toNat ≠ ringOwner set ∨ s.ringEn set = true) → exec (.registerWrite init addr value) s = .next s) := by
  intro k hk ha
  have hp : isPlainReg .sch addr.toNat 48 = true := ha ▸ isPlainReg_ring set k hk
  have hoff : addr.toNat - blockBase .sch = 0x100 + set * 0x100 + 8 * k := by rw [ha, aRing_sub_base]
  have hmay : s.regMay init.toNat .sch (addr.toNat - blockBase .sch) = decide (init.toNat = ringOwner set) := by
    rw [hoff, s.regMay_ring _ set.isLt (by omega)]
  have heff := fun v => s.regEffect_ringBase init.toNat addr.toNat set.isLt (show 8 * k < 0x18 by omega) v
  obtain ⟨r, hr⟩ := PlainReg.of_isPlainReg hp
  refine ⟨fun hi he => stores_of_plain hf hp (by simpa [hmay] using hi) (State.targetUp_sch hr.place) fun v => ?_,
    fun h => discards_of_plain hf hp ?_⟩
  · rw [hoff, heff, he]
    rfl
  · obtain hi | he := h
    · exact .inl (by simpa [hmay] using hi)
    · exact .inr (.inr fun v => by rw [hoff, heff, he]; rfl)

theorem ceThreshWrites (s : State) (init : Init) (addr : Addr) (value : Word) (d : Fin 4) (hf : s.frozen = false)
    (ha : addr.toNat = aDmc d 0x1C) :
    (init.toNat = initSec → s.meadowUp d = true → Stores s init addr value 16)
    ∧ ((init.toNat ≠ initSec ∨ s.meadowUp d = false) → exec (.registerWrite init addr value) s = .next s) := by
  have hp : isPlainReg (.dmc d) addr.toNat 16 = true := ha ▸ isPlainReg_ceThresh d
  have hoff : addr.toNat - blockBase (.dmc d) = 0x1C := by rw [ha, aDmc_sub_base]
  have hmay : s.regMay init.toNat (.dmc d) (addr.toNat - blockBase (.dmc d)) = decide (init.toNat = initSec) := by
    rw [hoff]
    rfl
  obtain ⟨r, hr⟩ := PlainReg.of_isPlainReg hp
  have hup := State.targetUp_dmc (s := s) hr.place
  refine ⟨fun hi hm => stores_of_plain hf hp (by simpa [hmay] using hi) (hup.trans hm) fun v => ?_,
    fun h => discards_of_plain hf hp ?_⟩
  · rw [hoff]
    rfl
  · obtain hi | hm := h
    · exact .inl (by simpa [hmay] using hi)
    · exact .inr (.inl (hup.trans hm))

/-! ## The blocks of read-only registers -/

/-- A write in a block whose writes do nothing. -/
theorem registerWrite_discarded {s : State} {init : Init} {addr : Addr} {value : Word} {b : Block} {base len : Nat}
    (hf : s.frozen = false) (hp : placeOf addr.toNat = some (.block b, base, len))
    (heff : ∀ (t : State) init a o v, t.regEffect init b a o v = t) :
    exec (.registerWrite init addr value) s = .next s := by
  rw [exec_registerWrite hf hp]
  have hnone : ∀ l : List (Nat × List Byte), l.foldl (fun t _ => t) s = s := List.foldl_fixed
  simp only [State.write, hp, State.regWrite, heff, ite_self, hnone]
  congr 1
  split_ifs <;> rfl

theorem placeOf_of_blockAt {a : Nat} {b : Block} (hlo : 0x002000000000 ≤ a) (hhi : a < 0x002070000000)
    (happ : a < 0x002004000000 ∨ 0x002010000000 ≤ a) (hb : blockAt a = some b) :
    placeOf a = some (.block b, blockBase b, 0x10000) := by
  unfold placeOf
  rw [if_neg (by omega), if_neg (by omega), if_neg (by omega), if_neg (by omega), if_neg (by omega), if_neg (by omega),
    if_pos hhi, hb]

theorem blockAt_pwr {o : Nat} (ho : o < 0x10000) : blockAt (aPwr o) = some .pwr := by
  have hge : ¬ aPwr o < valeBase := by unfold aPwr; omega
  have hdie : (aPwr o - valeBase) / 0x10000000 = 0 := by unfold aPwr; omega
  have hk : (aPwr o - valeBase) % 0x10000000 / 0x10000 = 3 := by unfold aPwr; omega
  unfold blockAt
  rw [if_neg hge]
  simp [hdie, hk]

/-- The blocks of a Meadow whose registers all are read-only, by their number in the Meadow. -/
theorem blockAt_meadow {a d o k : Nat} {b : Block} (hd : d < 4) (ho : o < 0x10000)
    (ha : a = meadowBase d + (k * 0x10000 + o)) (hb : (k = 0 ∧ b = .mdw d) ∨ (k = 6 ∧ b = .pwrDie d)) :
    blockAt a = some b := by
  have hge : ¬ a < valeBase := by unfold meadowBase at ha; unfold valeBase; omega
  have hdie : (a - valeBase) / 0x10000000 = d + 1 := by unfold meadowBase at ha; unfold valeBase; omega
  have hoff : (a - valeBase) % 0x10000000 = k * 0x10000 + o := by unfold meadowBase at ha; unfold valeBase; omega
  have hk : (k * 0x10000 + o) / 0x10000 = k := by omega
  have hlow : k * 0x10000 + o < 0x01000000 := by omega
  unfold blockAt
  rw [if_neg hge]
  simp only [hdie, hoff, hk, hlow]
  rw [if_neg (by omega), if_pos (by omega)]
  obtain ⟨rfl, rfl⟩ | ⟨rfl, rfl⟩ := hb <;> rfl

theorem placeOf_pwr {o : Nat} (ho : o < 0x10000) : placeOf (aPwr o) = some (.block .pwr, blockBase .pwr, 0x10000) :=
  placeOf_of_blockAt (by unfold aPwr valeBase; omega) (by unfold aPwr valeBase; omega) (by unfold aPwr valeBase; omega)
    (blockAt_pwr ho)

theorem placeOf_mdw {d o : Nat} (hd : d < 4) (ho : o < 0x10000) :
    placeOf (aMdw d o) = some (.block (.mdw d), blockBase (.mdw d), 0x10000) :=
  placeOf_of_blockAt (by unfold aMdw meadowBase; omega) (by unfold aMdw meadowBase; omega)
    (by unfold aMdw meadowBase; omega) (blockAt_meadow (k := 0) hd ho (by unfold aMdw; omega) (.inl ⟨rfl, rfl⟩))

theorem placeOf_pwrDie {d o : Nat} (hd : d < 4) (ho : o < 0x10000) :
    placeOf (aPwrDie d o) = some (.block (.pwrDie d), blockBase (.pwrDie d), 0x10000) :=
  placeOf_of_blockAt (by unfold aPwrDie meadowBase; omega) (by unfold aPwrDie meadowBase; omega)
    (by unfold aPwrDie meadowBase; omega) (blockAt_meadow (k := 6) hd ho (by unfold aPwrDie; omega) (.inr ⟨rfl, rfl⟩))

theorem registerWrites : RegisterWrites := by
  intro s init addr value m set d o a v stored discarded hf
  refine ⟨boxOperandWrites s init addr value m hf, ringBaseWrites s init addr value set hf,
    ceThreshWrites s init addr value d hf, fun ho ha => ?_⟩
  obtain ha | ha | ha := ha
  · exact registerWrite_discarded hf (ha ▸ placeOf_pwr ho) fun _ _ _ _ _ => rfl
  · exact registerWrite_discarded hf (ha ▸ placeOf_mdw d.isLt ho) fun _ _ _ _ _ => rfl
  · exact registerWrite_discarded hf (ha ▸ placeOf_pwrDie d.isLt ho) fun _ _ _ _ _ => rfl

/-- Settles O51: the counter-clear commands by the registers each sets to 0, the writes by what their block does. -/
theorem registerWritesAndClears : Obligations.RegisterWritesAndClears := ⟨counterClears, registerWrites⟩

end Sys2Proof.Machine
end

section

/-! PROOFS of the family "architecture": O2 and O32. The value of a register at reset is what the table of its block says at
its offset (`State.reset_reg`), so that a register that stands in many blocks is looked up once. -/

namespace Sys2Proof.Machine

/-! ## Reset values by block and offset (R12) -/

/-- The reset value that a register table gives the register which starts at block offset `o`; 0 where none does. -/
def tableReset (t : List RegDef) (o : Nat) : Nat :=
  match regFind t o with
  | some (r, b) => if o = b then r.reset + (if r.stride = 0 then 0 else (o - r.off) / r.stride) * r.resetStep else 0
  | none => 0

theorem blockBase_mod (b : Block) : blockBase b % 0x10000 = 0 := by
  unfold blockBase leaBase meadowBase heathBase valeBase
  split <;> omega

/-- A register resets to what the table of its block says at its offset. -/
theorem regReset_eq_tableReset {b : Block} {o : Nat} (ho : o < 0x10000) (hb : blockAt (blockBase b + o) = some b) :
    regReset (blockBase b + o) = BitVec.ofNat 64 (tableReset (regTable b) o) := by
  have hbase : blockBase b + o - (blockBase b + o) % 0x10000 = blockBase b := by
    have := blockBase_mod b
    omega
  unfold regReset regAt tableReset
  rw [hb]
  simp only [Nat.add_sub_cancel_left]
  cases regFind (regTable b) o with
  | none => rfl
  | some f =>
    obtain ⟨r, p⟩ := f
    by_cases hp : o = p
    · subst hp
      simp only [if_true, hbase, Nat.add_sub_cancel_left]
    · simp [hp]

theorem State.reset_reg {b : Block} {o : Nat} (ho : o < 0x10000) (hb : blockAt (blockBase b + o) = some b) :
    State.reset.reg (blockBase b + o) = tableReset (regTable b) o % 2 ^ 64 := by
  change (regReset _).toNat = _
  rw [regReset_eq_tableReset ho hb, BitVec.toNat_ofNat]

/-! ## The blocks of a lea (R106) -/

/-- Block `k` of a lea: its own registers, its Glen engine's, and those of its tiles. -/
theorem blockAt_inLea {a d l k o : Nat} (hd : d < 4) (hl : l < 16) (hk : k < 19) (ho : o < 0x10000)
    (ha : a = leaBase d l + k * 0x10000 + o) :
    blockAt a = if k = 0 then some (.lea d l) else if k = 1 then some (.gln d l) else some (.til d l (k - 2)) := by
  have hsub : a - valeBase = (d + 1) * 0x10000000 + (0x01000000 + l * 0x00200000 + (k * 0x10000 + o)) := by
    unfold leaBase meadowBase at ha
    unfold valeBase
    omega
  have hge : ¬ a < valeBase := by omega
  have hdie : (a - valeBase) / 0x10000000 = d + 1 := by omega
  have hoff : (a - valeBase) % 0x10000000 = 0x01000000 + l * 0x00200000 + (k * 0x10000 + o) := by omega
  have hlea : (0x01000000 + l * 0x00200000 + (k * 0x10000 + o) - 0x01000000) / 0x00200000 = l := by omega
  have hblk : (0x01000000 + l * 0x00200000 + (k * 0x10000 + o) - 0x01000000) % 0x00200000 / 0x10000 = k := by omega
  unfold blockAt
  simp only [hdie, hoff, hlea, hblk]
  rw [if_neg hge, if_neg (by omega), if_pos (by omega), if_neg (by omega), if_neg (by omega), if_pos (show k ≤ 18 by omega)]
  rfl

theorem blockAt_lea {d l o : Nat} (hd : d < 4) (hl : l < 16) (ho : o < 0x10000) :
    blockAt (blockBase (.lea d l) + o) = some (.lea d l) := by
  rw [blockAt_inLea (k := 0) hd hl (by omega) ho (by rw [Nat.zero_mul, Nat.add_zero]; rfl), if_pos rfl]

theorem blockAt_til {d l t o : Nat} (hd : d < 4) (hl : l < 16) (ht : t < 17) (ho : o < 0x10000) :
    blockAt (blockBase (.til d l t) + o) = some (.til d l t) := by
  have ha : blockBase (.til d l t) + o = leaBase d l + (t + 2) * 0x10000 + o := by
    change leaBase d l + 0x20000 + t * 0x10000 + o = _
    omega
  rw [blockAt_inLea (k := t + 2) hd hl (by omega) ho ha, if_neg (by omega), if_neg (by omega), Nat.add_sub_cancel]

/-! ## The registers at reset -/

theorem State.reset_reg_mdw {d o : Nat} (hd : d < 4) (ho : o < 0x10000) :
    State.reset.reg (aMdw d o) = tableReset (regsMdw d) o % 2 ^ 64 :=
  State.reset_reg (b := .mdw d) ho (blockAt_meadow (k := 0) hd ho (by rw [Nat.zero_mul, Nat.zero_add]; rfl) (.inl ⟨rfl, rfl⟩))

theorem State.reset_reg_lea {d l o : Nat} (hd : d < 4) (hl : l < 16) (ho : o < 0x10000) :
    State.reset.reg (aLea d l o) = tableReset regsLea o % 2 ^ 64 :=
  State.reset_reg ho (blockAt_lea hd hl ho)

theorem State.reset_reg_til {d l t o : Nat} (hd : d < 4) (hl : l < 16) (ht : t < 17) (ho : o < 0x10000) :
    State.reset.reg (aTil d l t o) = tableReset (regsTil t) o % 2 ^ 64 :=
  State.reset_reg ho (blockAt_til hd hl ht ho)

theorem tableReset_mdwId : ∀ d < 4, tableReset (regsMdw d) 0 = 0x4D1102C1 + d * 0x1000 := by decide

theorem tableReset_leaMap : ∀ n < 16, tableReset regsLea (0x40 + 4 * n) = n := by decide

theorem resetRegisters : ResetRegisters := by
  refine ⟨by decide, by decide, by decide, fun d hd => ?_, fun d hd l hl => ⟨?_, fun n hn => ?_⟩, fun d hd l hl => ?_,
    by decide, by decide⟩
  · rw [State.reset_reg_mdw hd (by omega), tableReset_mdwId d hd]
    omega
  · rw [State.reset_reg_lea hd hl (by omega)]
    rfl
  · rw [State.reset_reg_lea hd hl (by omega), tableReset_leaMap n hn]
    omega
  · rw [State.fld, State.reset_reg_til hd hl (by omega) (by omega)]
    rfl

/-! ## The rest of the state at reset -/

/-- R533: the module holds no address on the fabric, so that no address is one of its own remote window. -/
theorem State.reset_real (a : Nat) : State.reset.real a = a := by
  have hown : State.reset.ownAddr = none := by decide
  simp [State.real, State.ownWindow, hown]

theorem State.reset_byte {a : Nat} (ha : a < 0x400000000000) : State.reset.byte a = 0 := by
  simp only [State.byte, State.reset_real]
  rw [if_neg (by omega)]
  rfl

theorem resetIsCanonical : ResetIsCanonical :=
  ⟨⟨rfl, rfl⟩, rfl, rfl, rfl, rfl, fun _ ha => State.reset_byte ha, rfl⟩

/-- Settles O2: the registers by the tables of their blocks, the rest of the state as `State.reset` writes it out. -/
theorem resetState : Obligations.ResetState := ⟨resetRegisters, resetIsCanonical⟩

/-! ## Two jobs of one number, against the preemption for a mode request -/

/-- A job with serial number 0. -/
def twinJob (phase : JobPhase) (cmds : List Cmd) : Job := ⟨[], 0, 0, phase, true, 0, cmds, 0, 0, 0, [], []⟩

/-- A command whose work has ended: it is at its commit point (R166). -/
def dueCmd : Cmd := { cmdFresh ⟨0, 0⟩ with phase := .running }

/-- The scheduler core holds two jobs of serial number 0 in the phases `p` and `q`, the first with a command at its commit point. -/
def twinSched (p q : JobPhase) (kills : List KillRec) : Sched :=
  { schedFresh with jobs := [twinJob p [dueCmd], twinJob q []], kills := kills }

/-- 50 ms after a mode request was accepted, a job runs without commands, and one that has the same serial number waits. -/
def twinJobs : State :=
  { (State.reset.setReg (aVal 0x10) 8).setReg (aSch 0) 1 with now := 50000000, sched := twinSched .queued .running [] }

/-- The preemption marks both jobs, for both have the number of the running one, and then waits for the command of the first. -/
theorem exec_modeChangePreempt_twinJobs :
    exec .modeChangePreempt twinJobs
      = .next { twinJobs with sched := twinSched .suspending .suspending [⟨[], [], [], 1, false, .suspend⟩] } := by
  rfl

/-- Refutes O32: nothing in it says that jobs have unlike serial numbers (`JobsNumbered`), and where two share one, the first
may hold up the preemption of the second, which is then suspending and not yet suspended. -/
theorem not_modeRequests : ¬ Obligations.ModeRequests := by
  intro h
  obtain ⟨-, -, -, -, -, -, -, hpreempt, -, -⟩ := h twinJobs 0 0 (twinJob .running []) rfl
  obtain ⟨t, ht, k, hk, -, hsusp⟩ := hpreempt (by decide) (by decide) (by decide) (by decide) rfl (by decide) rfl (by decide)
  rw [exec_modeChangePreempt_twinJobs] at ht
  cases ht
  have hphases : ∀ k ∈ (twinSched .suspending .suspending [⟨[], [], [], 1, false, .suspend⟩]).jobs, k.phase = .suspending := by
    decide
  exact absurd (hsusp.symm.trans (hphases k hk)) (by decide)

/-! ## The preemption where jobs are numbered as the model numbers them (`JobsNumbered`) -/

/-- Where no two jobs share a number, the current job is the one that an update by its number changes. -/
theorem State.curJob_suspending {s : State} {j : Job} (hn : (s.sched.jobs.map (·.serial)).Nodup) (hj : s.curJob = some j) :
    (s.updJob j.serial fun j => { j with phase := .suspending }).curJob = some { j with phase := .suspending } := by
  have hmem : j ∈ s.sched.jobs := List.mem_of_find?_eq_some hj
  have hsame : ∀ x ∈ s.sched.jobs, x.serial = j.serial → x = j := fun x hx h => List.inj_on_of_nodup_map hn hx hmem h
  have hcur := List.find?_some hj
  have hcongr : s.sched.jobs.find? ((fun j : Job => decide (j.phase = .running) || decide (j.phase = .suspending)) ∘
      fun x => if x.serial = j.serial then { x with phase := .suspending } else x) = some j := by
    rw [← hj]
    refine List.find?_congr fun x hx => ?_
    by_cases h : x.serial = j.serial
    · rw [hsame x hx h]
      simpa using hcur
    · simp [h]
  simp only [State.curJob, State.updJob, List.find?_map, hcongr, Option.map_some, if_true]

theorem State.eventOnly.jobs {s t : State} (h : s.eventOnly t) : t.sched.jobs = s.sched.jobs :=
  congrArg (·.sched.jobs) h.1

/-- R176: a current job whose ring set exists is suspended. -/
theorem State.suspendJob_suspends {s : State} {j : Job} (hj : s.curJob = some j) (hr : j.ringSet < 4) :
    ∃ k ∈ s.suspendJob.sched.jobs, k.serial = j.serial ∧ k.phase = .suspended := by
  have hjobs := (s.raiseEv_only ⟨4, 0, 0x1F, j.id, 0, 0xFFFF, "JOB_PREEMPTED", 0, 0, 0, some j.ringSet⟩
    fun _ h => Option.some_inj.1 h ▸ hr).jobs
  have hmem : j ∈ (s.raiseJob j "JOB_PREEMPTED" 0 0).sched.jobs := hjobs ▸ List.mem_of_find?_eq_some hj
  simp only [State.suspendJob, hj]
  exact ⟨_, List.mem_map_of_mem hmem, by simp⟩

/-- R41: the one clause that `twinJobs` refutes holds where every job has a number of its own. -/
theorem exec_modeChangePreempt_suspends {s : State} {j : Job} (hn : JobsNumbered s) (hf : s.frozen = false)
    (hrun : s.schRunning = true) (hpend : bit (s.reg (aVal 0x10)) 3 = true) (hlate : s.sched.modeAccepted + 50000000 ≤ s.now)
    (hj : s.curJob = some j) (hphase : j.phase = .running) (hidle : s.inFlight = []) (hkills : s.sched.kills = [])
    (hcommit : s.commitsWait = false) :
    Leads .modeChangePreempt s fun s' => ∃ k ∈ s'.sched.jobs, k.serial = j.serial ∧ k.phase = .suspended := by
  have hcur := s.curJob_suspending hn.1 hj
  have hover : (s.updJob j.serial fun j => { j with phase := .suspending }).commitsWait = false := by
    simpa [State.commitsWait, hcur, hj] using hcommit
  have hpre : s.preempt = (s.updJob j.serial fun j => { j with phase := .suspending }).suspendJob := by
    simp [State.preempt, State.kill, hidle, hkills, hj, State.killOver, hover, State.killDone]
  refine ⟨s.preempt, ?_, ?_⟩
  · change execModeChangePreempt s = _
    simp [execModeChangePreempt, State.live_of_running hf, hrun, hpend, Nat.not_lt.2 hlate, hj, hphase]
  · rw [hpre]
    exact State.suspendJob_suspends (j := { j with phase := .suspending }) hcur (hn.2 j (List.mem_of_find?_eq_some hj)).2

end Sys2Proof.Machine
end

section

/-! PROOFS of the family "tensor tiles": O13. Every vector instruction of a format it takes ends in `State.vecDone`. -/

namespace Sys2Proof.Machine

/-- R114, R129, R130: a vector operation that a ready slot issues in a format it takes gives vd its lanes and its flags. -/
theorem vdReceives_vecOp {s : State} {t : SlotId} {th : ThreadSlot} {c : Cmd} {vd : Fin 8} {vs : List Nat} {fmt : Fin 16}
    {f : Fmt} {ok : List Fmt} {i : Instr} {op : ThreadSlot → Fmt → ArithCtl → BitVec 2048 × BitVec 8}
    (hfmt : fmtOf fmt = some f) (hr : s.ready t th c [] vs) (hok : f ∈ ok)
    (hexec : exec i s = .next (s.live (s.vecOp t vd vs fmt ok op))) {r : BitVec 2048 × BitVec 8} (hres : op th f c.arith = r) :
    VdReceives s t th c vd i r := by
  subst hres
  obtain ⟨hrun, -, hcmd, -⟩ := id hr
  have hop : s.vecOp t vd vs fmt ok op = s.vecDone t th vd f (op th f c.arith) := by
    simp [State.vecOp, State.issue_of_ready hr, hfmt, hok]
  exact ⟨_, by rw [hexec, State.live_of_running hrun, hop], State.vecDone_spec vd f _ hcmd⟩

/-- R88, R89, R129: a special function of every lane. -/
theorem vdReceives_special {s : State} {t : SlotId} {th : ThreadSlot} {c : Cmd} {vd va : Fin 8} {fmt : Fin 16} {f : Fmt}
    {ff : FloatFmt} {i : Instr} {op : Fmt → FloatFmt → ArithCtl → Nat → Flagged} (hfmt : fmtOf fmt = some f)
    (hr : s.ready t th c [] [va]) (hff : f.float? = some ff) (hok : f ∈ fmtsSpecial)
    (hexec : exec i s = .next (s.live (s.vecSpecialOp t vd va fmt op))) :
    VdReceives s t th c vd i (vecSpecial f ff c.arith (th.vget va) op) := by
  refine vdReceives_vecOp hfmt hr hok hexec ?_
  simp only [hff]

/-- Settles O13: each instruction is its operation of `State.vecOp`. -/
theorem vectorResults : Obligations.VectorResults := by
  intro s t th c vd va vb vc fmt f hfmt a b d A
  refine ⟨fun hr hok => ?_, fun hr hok => vdReceives_vecOp hfmt hr hok rfl rfl, fun hr ff hff hok => ?_,
    fun hr hok => vdReceives_vecOp hfmt hr hok rfl rfl, fun hr hok => vdReceives_vecOp hfmt hr hok rfl rfl⟩
  · refine ⟨?_, ?_, ?_, ?_, ?_, ?_, ?_⟩ <;> exact vdReceives_vecOp hfmt hr hok rfl rfl
  · refine ⟨?_, ?_, ?_⟩ <;> exact vdReceives_special hfmt hr hff hok rfl

end Sys2Proof.Machine
end

section

/-! PROOFS of the family "tensor tiles": O18. A share's threads start by one run over its slots; `startThreads_spec` says what it
leaves in each. -/

namespace Sys2Proof.Machine

theorem slotKey_inj {d l t j k : Nat} : slotKey d l t j = slotKey d l t k ↔ j = k := by
  simp [slotKey]

/-- Replacing a command of the current job sends no record. -/
theorem State.updCmd_outbox (s : State) (r : CmdRef) (f : Cmd → Cmd) : (s.updCmd r f).sched.outbox = s.sched.outbox := by
  unfold State.updCmd
  split <;> rfl

/-- A state with the same registers has the same fields. -/
theorem State.fld_congr {x y : State} (h : x.regs = y.regs) (a hi lo : Nat) : x.fld a hi lo = y.fld a hi lo := by
  simp only [State.fld, State.reg, h]

/-- R109: setting a busy bit leaves the slots alone. -/
@[simp] theorem State.slot_busyBit (s : State) (d l t k : Nat) (b : Bool) : (s.busyBit d l t k b).slot = s.slot :=
  State.slot_congr (State.setFld_slots ..)

/-- R109: setting a busy bit leaves the scheduler core's data alone. -/
@[simp] theorem State.sched_busyBit (s : State) (d l t k : Nat) (b : Bool) : (s.busyBit d l t k b).sched = s.sched :=
  State.setFld_sched ..

/-- R109: the busy bit of a slot reads as it was set. -/
theorem State.fld_busyBit_same (s : State) (d l t : Nat) {k : Nat} (hk : k < 8) (b : Bool) :
    (s.busyBit d l t k b).fld (aTil d l t 0) (8 + k) (8 + k) = b2n b := by
  rw [State.busyBit, State.fld_setFld_same _ _ le_rfl (by omega)]
  cases b <;> simp [b2n]

/-- R109: setting the busy bit of a slot leaves that of every other slot of its tile alone. -/
theorem State.fld_busyBit_ne (s : State) (d l t : Nat) {j k : Nat} (hk : k < 8) (h : j ≠ k) (b : Bool) :
    (s.busyBit d l t k b).fld (aTil d l t 0) (8 + j) (8 + j) = s.fld (aTil d l t 0) (8 + j) (8 + j) :=
  s.fld_setFld_apart _ le_rfl (by omega) (by omega)

/-! ## The start of a share's threads -/

/-- R113: thread `k` of a share started in slot `k` of its tile. -/
def State.startThread (c : Cmd) (h : Share) (cycle : Nat) (s : State) (k : Nat) : State :=
  (s.setSlot (slotKey h.die h.lea h.tile k) (threadFresh c h k k cycle)).busyBit h.die h.lea h.tile k true

theorem State.startThreads_spec (c : Cmd) (h : Share) (cycle : Nat) (s : State) {n : Nat} (hn : n ≤ 8) :
    let s' := (List.range n).foldl (State.startThread c h cycle) s
    ∀ j < n, s'.slot (slotKey h.die h.lea h.tile j) = threadFresh c h j j cycle
      ∧ s'.fld (aTil h.die h.lea h.tile 0) (8 + j) (8 + j) = 1 := by
  induction n with
  | zero => intro s' j hj; omega
  | succ n ih =>
    intro s' j hj
    simp only [s', List.range_succ, List.foldl_append, List.foldl_cons, List.foldl_nil]
    generalize hu : (List.range n).foldl (State.startThread c h cycle) s = u
    rw [State.startThread, State.slot_busyBit]
    by_cases hjn : j = n
    · subst hjn
      exact ⟨State.slot_setSlot_same .., State.fld_busyBit_same _ _ _ _ (by omega) true⟩
    · obtain ⟨hslot, hbit⟩ := hu ▸ ih (by omega) j (by omega)
      rw [State.slot_setSlot_ne _ _ (slotKey_inj.not.2 hjn), State.fld_busyBit_ne _ _ _ _ (by omega) hjn]
      exact ⟨hslot, hbit⟩

/-- R113: the registers of a thread at its start. -/
theorem threadFresh_registers (c : Cmd) (h : Share) (slot k cycle : Nat) :
    (threadFresh c h slot k cycle).xget 1 = BitVec.ofNat 64 (bits (word c.words 11) 47 0)
      ∧ (∀ r, r ≠ 1 → (threadFresh c h slot k cycle).xget r = 0) ∧ ∀ r, (threadFresh c h slot k cycle).vget r = 0 := by
  refine ⟨?_, fun r hr => ?_, fun r => rfl⟩
  · simp [ThreadSlot.xget, threadFresh]
  · simp only [ThreadSlot.xget, threadFresh, readAt_writeAt_ne _ _ _ hr]
    split <;> rfl

/-- R97, R113, R161: with all eight slots of its tile free, a waiting share starts its threads in the lowest of them. -/
theorem exec_tileShareStart {s : State} {c : Cmd} {list : Fin 3} {idx : BitVec 16} {ltile : Fin 1024} {h : Share}
    (hf : s.frozen = false) (hcmd : s.cmd ⟨list, idx.toNat⟩ = some c) (hrun : c.phase = .running)
    (hfind : c.shares.find? (fun h => decide (h.ltile = ltile.val) && decide (h.state = 0)) = some h)
    (hup : s.meadowUp h.die = true) (hvale : s.valeGone h.die = false) (hcore : (s.lea (leaKey h.die h.lea)).coreUp = true)
    (hres : ∀ x ∈ s.sched.reservations, x.1 ≠ leaKey h.die h.lea)
    (hfree : ∀ k < 8, (s.slot (slotKey h.die h.lea h.tile k)).busy = false) (htpt : c.tpt ≤ 8) :
    ∃ u : State, exec (.tileShareStart list idx ltile) s
      = .next ((List.range c.tpt).foldl (State.startThread c h (s.tileCycle h.die)) u) := by
  have hslots : (List.range 8).filter (fun k => !(s.slot (slotKey h.die h.lea h.tile k)).busy) = List.range 8 :=
    List.filter_eq_self.2 fun k hk => by simp [hfree k (List.mem_range.1 hk)]
  have hnot : (s.sched.reservations.any fun x => decide (x.1 = leaKey h.die h.lea)) = false := by
    simpa using hres
  have htake : (List.range 8).take c.tpt = List.range c.tpt := by rw [List.take_range, Nat.min_eq_left htpt]
  have hguard : (decide (c.phase ≠ .running) || !s.meadowUp h.die || s.valeGone h.die || !(s.lea (leaKey h.die h.lea)).coreUp
      || (decide (list ≠ 2) && s.sched.reservations.any fun x => decide (x.1 = leaKey h.die h.lea))
      || decide (8 < c.tpt)) = false := by
    simp [hrun, hup, hvale, hcore, hnot, htpt]
  show ∃ u, execTileShareStart list idx ltile s = _
  simp only [execTileShareStart, State.live_of_running hf, hcmd, hfind, hslots, List.length_range, hguard, htake]
  exact ⟨_, congrArg _ (List.foldl_ext _ _ _ fun u k hk => by simp [State.startThread, List.mem_range.1 hk])⟩

/-! ## The end of a share's last thread -/

/-- R116: the command once its running share of a logical tile has ended there. -/
def Cmd.endShare (ltile : Nat) (c : Cmd) : Cmd :=
  { c with shares := c.shares.map fun h => if h.ltile = ltile ∧ h.state = 1 then { h with state := 2 } else h }

/-- R116: what the end of a share changes: its command, and the records on their way to the scheduler core. -/
theorem State.endShare_spec {s : State} {r : CmdRef} {c : Cmd} (ltile : Nat) (x : FifoRec) (h : s.cmd r = some c) :
    let s' := (s.updCmd r (Cmd.endShare ltile)).send x
    s'.slots = s.slots ∧ s'.regs = s.regs ∧ s'.sched.outbox = s.sched.outbox ++ [x] ∧ s'.cmd r = some (c.endShare ltile) := by
  have hupd := s.updCmd_only r (Cmd.endShare ltile)
  have hcmd : (s.updCmd r (Cmd.endShare ltile)).cmd r = some (c.endShare ltile) := State.cmd_updCmd _ (fun _ => rfl) h
  exact ⟨hupd.slots, hupd.regs, by rw [← s.updCmd_outbox r (Cmd.endShare ltile)]; rfl, hcmd⟩

/-- R116, R210: the slot of an exited thread with nothing left to do, the last one busy on its tile, frees, and its share ends. -/
theorem exec_threadSlotFree {s : State} {t : SlotId} {th : ThreadSlot} {c : Cmd} (hf : s.frozen = false)
    (hslot : s.slot (tkey t) = th) (hbusy : th.busy = true) (hexited : th.exited = true) (hfault : th.faulted = false)
    (hreqs : th.reqs = []) (hsteps : th.steps = []) (hposts : ∀ p ∈ s.posts, p.slot ≠ tkey t) (hroom : s.recordsFull = false)
    (hcmd : s.cmd th.cmd = some c) (hrun : c.phase = .running)
    (hlast : ∀ k < 8, slotKey t.die t.lea t.tile k ≠ tkey t → (s.slot (slotKey t.die t.lea t.tile k)).busy = false) :
    exec (.threadSlotFree t) s = .next ((((s.setSlot (tkey t) slotFree).busyBit t.die t.lea t.tile t.slot false).updCmd th.cmd
      (Cmd.endShare th.ltile)).send (.shareEnd t.die th.cmd c.serial th.ltile)) := by
  have hothers : ((List.range 8).any fun k => decide (k ≠ t.slot) && (s.slot (slotKey t.die t.lea t.tile k)).busy
      && decide ((s.slot (slotKey t.die t.lea t.tile k)).cmd = th.cmd)
      && decide ((s.slot (slotKey t.die t.lea t.tile k)).ltile = th.ltile)) = false := by
    simp only [List.any_eq_false, List.mem_range]
    intro k hk
    by_cases hkt : k = t.slot
    · simp [hkt]
    · simp [hlast k hk (slotKey_inj.not.2 hkt)]
  have hguard : (!th.busy || !th.exited || th.faulted || !th.released || s.posts.any fun p => decide (p.slot = tkey t)) = false := by
    simpa [hbusy, hexited, hfault, ThreadSlot.released, hreqs, hsteps] using hposts
  have hcmd' : ((s.setSlot (tkey t) slotFree).busyBit t.die t.lea t.tile t.slot false).cmd th.cmd = some c := by
    rw [State.cmd_congr (State.sched_busyBit ..)]
    exact hcmd
  show execThreadSlotFree t s = _
  simp only [execThreadSlotFree, State.live_of_running hf, hslot, hothers, hguard, hroom, hcmd', hrun]
  rfl

/-- Settles O18: the end by `exec_threadSlotFree`, the start by `exec_tileShareStart` and `State.startThreads_spec`. -/
theorem tileSharesStartAndEnd : Obligations.TileSharesStartAndEnd := by
  intro s t th c
  refine ⟨fun hf hslot hbusy hexited hfault hreqs hsteps hposts hroom hcmd hrun hlast => ?_,
    fun list idx ltile h entry hf hcmd hrun href hfind hd hl ht hup hvale hcore hres hfree htpt hslot hentry => ?_⟩
  · refine ⟨_, exec_threadSlotFree hf hslot hbusy hexited hfault hreqs hsteps hposts hroom hcmd hrun hlast, ?_⟩
    generalize hu : (s.setSlot (tkey t) slotFree).busyBit t.die t.lea t.tile t.slot false = u
    have hslot' : u.slot (tkey t) = slotFree := by simp [← hu]
    have hbit : u.fld (aTil t.die t.lea t.tile 0) (8 + t.slot) (8 + t.slot) = 0 := by
      rw [← hu, State.fld_busyBit_same _ _ _ _ t.slot.isLt]; rfl
    have hcmd' : u.cmd th.cmd = some c := by rw [← hu, State.cmd_congr (State.sched_busyBit ..)]; exact hcmd
    have hout : u.sched.outbox = s.sched.outbox := by rw [← hu, State.sched_busyBit]; rfl
    obtain ⟨eslots, eregs, eout, ecmd⟩ := State.endShare_spec th.ltile (.shareEnd t.die th.cmd c.serial th.ltile) hcmd'
    exact ⟨(congrFun (State.slot_congr eslots) _).trans hslot', (State.fld_congr eregs ..).trans hbit, hout ▸ eout, ecmd⟩
  · obtain ⟨u, hexec⟩ := exec_tileShareStart hf hcmd hrun hfind hup hvale hcore hres hfree htpt
    obtain ⟨hthread, hbit⟩ := State.startThreads_spec c h (s.tileCycle h.die) u htpt t.slot hslot
    obtain ⟨hx1, hx, hv⟩ := threadFresh_registers c h t.slot t.slot (s.tileCycle t.die)
    have hlt : h.ltile = ltile.val := by
      have := List.find?_some hfind
      simp only [Bool.and_eq_true, decide_eq_true_eq] at this
      exact this.1
    rw [hd, hl, ht] at hthread hbit
    refine ⟨_, hexec, ?_⟩
    dsimp only
    rw [tkey, hd, hthread]
    exact ⟨rfl, rfl, rfl, hlt, hentry.symm, rfl, rfl, hx1, hx, hv, hbit⟩

end Sys2Proof.Machine
end

section

/-! PROOFS of the family "tensor tiles": O19. A swap is a run of field writes in the registers of one lea; each field of the
result is read off the run by the laws of `State.setFld`. -/

namespace Sys2Proof.Machine

/-! ## Fields, and what events leave alone -/

theorem bit_eq_bits (w i : Nat) : bit w i = decide (bits w i i = 1) := by
  simp [bit, bits_eq, Nat.testBit_eq_decide_div_mod_eq]

theorem State.reg_congr {x y : State} (h : x.regs = y.regs) (a : Nat) : x.reg a = y.reg a := by
  simp only [State.reg, h]

theorem State.bit_reg (s : State) (a i : Nat) : bit (s.reg a) i = decide (s.fld a i i = 1) := bit_eq_bits _ _

theorem State.reg_setFld_ne (s : State) {a b : Nat} (hi lo v : Nat) (h : b ≠ a) : (s.setFld a hi lo v).reg b = s.reg b :=
  s.reg_setReg_ne _ h

theorem State.fld_setReg_ne (s : State) {a b : Nat} (v hi lo : Nat) (h : b ≠ a) : (s.setReg a v).fld b hi lo = s.fld b hi lo := by
  rw [State.fld, s.reg_setReg_ne v h, State.fld]

theorem State.lea_setFld (s : State) (a hi lo v : Nat) : (s.setFld a hi lo v).lea = s.lea := by
  funext k
  simp [State.lea]

/-- R106: the registers of the Meadows lie above those of the Vale. -/
theorem aSch_lt_meadow {o : Nat} (ho : o < 0x10000) : aSch o < meadowBase 0 := by
  simp only [aSch, valeBase, meadowBase]
  omega

theorem meadow_le_lea (d l : Nat) : meadowBase 0 ≤ leaBase d l := by
  simp only [leaBase, meadowBase]
  omega

/-- R206, R211: an event leaves the registers of the Meadows alone. -/
theorem State.eventOnly.reg_meadow {s t : State} (h : s.eventOnly t) {a : Nat} (ha : meadowBase 0 ≤ a) : t.reg a = s.reg a := by
  refine h.2 a (fun e => ?_) fun set hs e => ?_
  · exact absurd (aSch_lt_meadow (o := 0x34) (by decide)) (by omega)
  · exact absurd (aSch_lt_meadow (o := 0x100 + set * 0x100 + 0x30) (by omega)) (by rw [e] at ha; exact Nat.not_lt.2 ha)

theorem State.eventOnly.leas {s t : State} (h : s.eventOnly t) : t.leas = s.leas := congrArg (·.leas) h.1

/-! ## A write of LEA_SWAP (R97, R108) -/

section
variable {s : State} {l : LeaId} {value : Word32} {init : Init} (hf : s.frozen = false)
include hf

theorem exec_leaSwap_other (hi : init.toNat ≠ initLeaCore l.die l.lea) : exec (.leaSwap init l value) s = .next s := by
  show execLeaSwap init l value s = _
  simp only [execLeaSwap, State.live_of_running hf, if_pos hi]

theorem exec_leaSwap_go (hi : init.toNat = initLeaCore l.die l.lea) (hgo : bit value.toNat 31 = true)
    (hidle : s.swapGo l.die l.lea = false) :
    exec (.leaSwap init l value) s = .next (s.swapRequest l.die l.lea (bits value.toNat 3 0)) := by
  show execLeaSwap init l value s = _
  simp [execLeaSwap, State.live_of_running hf, hi, hgo, hidle]

theorem exec_leaSwap_during (hi : init.toNat = initLeaCore l.die l.lea) (hgo : bit value.toNat 31 = true)
    (hbusy : s.swapGo l.die l.lea = true) :
    exec (.leaSwap init l value) s = .next (s.swapRefused l.die l.lea (s.fld (aLea l.die l.lea 0x08) 3 0)) := by
  show execLeaSwap init l value s = _
  simp [execLeaSwap, State.live_of_running hf, hi, hgo, hbusy]

theorem exec_leaSwap_set (hi : init.toNat = initLeaCore l.die l.lea) (hgo : bit value.toNat 31 = false)
    (hidle : s.swapGo l.die l.lea = false) :
    exec (.leaSwap init l value) s = .next (s.setFld (aLea l.die l.lea 0x08) 3 0 (bits value.toNat 3 0)) := by
  show execLeaSwap init l value s = _
  simp [execLeaSwap, State.live_of_running hf, hi, hgo, hidle]

end

/-- R97: a refused swap is reported, and changes nothing but what its event leaves. -/
theorem State.swapRefused_spec (s : State) {d : Nat} (hd : d ≤ 4) (l n : Nat) :
    (s.swapRefused d l n).reported d "LEA_SWAP_REFUSED" 0 0 ∧ s.eventOnly (s.swapRefused d l n) :=
  ⟨s.raise_reported hd .., s.raise_only ..⟩

/-- R108: setting the logical tile of LEA_SWAP leaves GO alone. -/
theorem State.swapGo_setLogical (s : State) (d l n : Nat) : (s.setFld (aLea d l 0x08) 3 0 n).swapGo d l = s.swapGo d l := by
  simp only [State.swapGo, State.bit_reg, s.fld_setFld_apart n (by omega : 0 ≤ 3) (by omega) (.inr (by omega : 3 < 31))]

theorem State.fld_setLogical (s : State) (d l w : Nat) :
    (s.setFld (aLea d l 0x08) 3 0 (bits w 3 0)).fld (aLea d l 0x08) 3 0 = bits w 3 0 := by
  rw [s.fld_setFld_same _ (by omega) (by omega), Nat.mod_eq_of_lt (bits_lt _ _ _)]

theorem State.freeState_setLogical (s : State) (d l n : Nat) :
    (s.setFld (aLea d l 0x08) 3 0 n).freeState d l = s.freeState d l :=
  s.fld_setFld_ne _ _ _ _ _ (by simp [aLea])

/-- R97: a request with the free tile READY begins the swap. -/
theorem State.swapRequest_ready {s : State} {d l n : Nat} (h : s.freeState d l = 0) :
    s.swapRequest d l n = ((s.setFld (aLea d l 0x08) 3 0 n).setFld (aLea d l 0x08) 31 31 1).setLea (leaKey d l)
      { s.lea (leaKey d l) with swapping := some n } := by
  simp only [State.swapRequest, State.freeState_setLogical, h, ne_eq, not_true_eq_false, if_false, State.lea_setFld]

/-- R97, R108: the state in which a swap of logical tile `w` has begun. -/
theorem State.swapBegun_spec {s t : State} {d l w : Nat} {x : LeaState}
    (ht : ((s.setFld (aLea d l 0x08) 3 0 (bits w 3 0)).setFld (aLea d l 0x08) 31 31 1).setLea (leaKey d l)
      { x with swapping := some (bits w 3 0) } = t) :
    t.swapGo d l = true ∧ t.fld (aLea d l 0x08) 3 0 = bits w 3 0 ∧ (t.lea (leaKey d l)).swapping = some (bits w 3 0)
      ∧ t.mem = s.mem ∧ ∀ a, a ≠ aLea d l 0x08 → t.reg a = s.reg a := by
  have hlogical := s.fld_setLogical d l w
  have hother := fun a ha => s.reg_setFld_ne (a := aLea d l 0x08) (b := a) 3 0 (bits w 3 0) ha
  have hmem := s.setFld_mem (aLea d l 0x08) 3 0 (bits w 3 0)
  generalize s.setFld (aLea d l 0x08) 3 0 (bits w 3 0) = u at *
  have hregs : t.regs = (u.setFld (aLea d l 0x08) 31 31 1).regs := by rw [← ht, State.setLea_regs]
  refine ⟨?_, ?_, ?_, ?_, fun a ha => ?_⟩
  · rw [State.swapGo, State.bit_reg, State.fld_congr hregs, u.fld_setFld_same _ le_rfl (by omega)]; rfl
  · rw [State.fld_congr hregs, u.fld_setFld_apart _ le_rfl (by omega) (.inl (by omega)), hlogical]
  · rw [← ht, State.lea_setLea_same]
  · rw [← ht, State.setLea_mem, State.setFld_mem, hmem]
  · rw [State.reg_congr hregs, u.reg_setFld_ne _ _ _ ha, hother a ha]

theorem State.swapRequest_notReady {s : State} {d l n : Nat} (h : s.freeState d l ≠ 0) :
    s.swapRequest d l n = (s.setFld (aLea d l 0x08) 3 0 n).swapRefused d l n := by
  rw [State.swapRequest, State.freeState_setLogical, if_pos h]

/-! ## The map of the swap (R97 steps 3 to 5) -/

/-- R97: a logical tile whose old tile is not retired moves by writes of the map, of the two tiles' states and of the free tile. -/
theorem State.moveTile_eq {s : State} {d l n : Nat} (h : s.tileRetired d l (s.mapTile d l n) = false) :
    s.moveTile d l n = (((((((s.setFld (aLea d l (0x40 + 4 * n)) 4 0 (s.freeTile d l)).setFld (aTil d l (s.freeTile d l) 0) 2 0 0).setFld
      (aTil d l (s.freeTile d l) 0) 7 4 n).setFld (aTil d l (s.mapTile d l n) 0) 2 0 2).setFld
      (aTil d l (s.mapTile d l n) 0) 7 4 0).setFld (aLea d l 0) 4 0 (s.mapTile d l n)).setFld (aLea d l 0) 6 5 1) := by
  have hret : ((s.setFld (aLea d l (0x40 + 4 * n)) 4 0 (s.freeTile d l)).setTileSt d l (s.freeTile d l) 0 n).tileRetired d l
      (s.mapTile d l n) = false := by
    rw [← h]
    simp (disch := omega) only [State.tileRetired, State.setTileSt, State.reg_setFld_ne, aLea, aTil]
  rw [State.moveTile, hret]
  rfl

theorem State.moveTile_spec {s : State} {d l n : Nat} (hn : n < 16) (h : s.tileRetired d l (s.mapTile d l n) = false)
    (hne : s.mapTile d l n ≠ s.freeTile d l) :
    let t := s.moveTile d l n
    t.mapTile d l n = s.freeTile d l ∧ t.freeTile d l = s.mapTile d l n ∧ t.freeState d l = 1 ∧ t.tileSt d l (s.freeTile d l) = 0
      ∧ t.fld (aTil d l (s.freeTile d l) 0) 7 4 = n ∧ t.tileSt d l (s.mapTile d l n) = 2
      ∧ (∀ m < 16, m ≠ n → t.mapTile d l m = s.mapTile d l m) ∧ s.regsOnly t := by
  intro t
  have hold : s.mapTile d l n < 2 ^ 5 := bits_lt _ _ _
  have hnew : s.freeTile d l < 2 ^ 5 := bits_lt _ _ _
  have hread : ∀ a hi lo, t.fld a hi lo = _ := fun a hi lo => by simp only [t, State.moveTile_eq h]; rfl
  have hregs : s.regsOnly t := by
    simp only [t, State.moveTile_eq h]
    iterate 6 refine State.regsOnly.trans ?_ (State.regsOnly_setFld ..)
    exact State.regsOnly_setFld ..
  generalize s.mapTile d l n = old at *
  generalize s.freeTile d l = new at *
  simp only [State.mapTile, State.freeTile, State.freeState, State.tileSt, hread]
  simp (disch := omega) only [State.fld_setFld_ne, State.fld_setFld_apart, State.fld_setFld_same, aLea, aTil]
  refine ⟨Nat.mod_eq_of_lt hnew, Nat.mod_eq_of_lt hold, rfl, rfl, Nat.mod_eq_of_lt hn, rfl, fun m hm hmn => ?_, hregs⟩
  simp (disch := omega) only [State.fld_setFld_ne]

/-- R467: where no tile's checker failed nothing more is to be done. -/
theorem State.failedNext_none {s : State} {d l : Nat} (h : ∀ x < 17, (s.tile (tileKey d l x)).failed = false) :
    s.failedNext d l = s := by
  have hfind : ((List.range 17).find? fun t => (s.tile (tileKey d l t)).failed && !s.tileRetired d l t) = none := by
    simp +contextual [h]
  rw [State.failedNext, hfind]

theorem State.tile_congr {x y : State} (h : x.tiles = y.tiles) : x.tile = y.tile := by
  funext k; simp [State.tile, h]

theorem State.lea_congr {x y : State} (h : x.leas = y.leas) : x.lea = y.lea := by
  funext k; simp [State.lea, h]

/-- R97 steps 3 to 5: with its old tile held by no share, the swap's logical tile moves to the free tile. -/
theorem swapMap_leads {s : State} {l : LeaId} {n : Fin 16} (hf : s.frozen = false)
    (hswap : (s.lea (leaKey l.die l.lea)).swapping = some n.val) (hcore : (s.lea (leaKey l.die l.lea)).coreUp = true)
    (hgo : s.swapGo l.die l.lea = true) (hheld : s.tileHeld l.die l.lea (s.mapTile l.die l.lea n) = false)
    (hne : s.mapTile l.die l.lea n ≠ s.freeTile l.die l.lea)
    (hret : s.tileRetired l.die l.lea (s.mapTile l.die l.lea n) = false)
    (hfail : ∀ x < 17, (s.tile (tileKey l.die l.lea x)).failed = false) :
    Leads (.swapMap l) s fun t =>
      t.mapTile l.die l.lea n = s.freeTile l.die l.lea ∧ t.freeTile l.die l.lea = s.mapTile l.die l.lea n
        ∧ t.freeState l.die l.lea = 1 ∧ t.tileSt l.die l.lea (s.freeTile l.die l.lea) = 0
        ∧ t.fld (aTil l.die l.lea (s.freeTile l.die l.lea) 0) 7 4 = n ∧ t.tileSt l.die l.lea (s.mapTile l.die l.lea n) = 2
        ∧ t.mem = s.mem ∧ (t.lea (leaKey l.die l.lea)).swapping = none
        ∧ ∀ m < 16, m ≠ n.val → t.mapTile l.die l.lea m = s.mapTile l.die l.lea m := by
  have hexec : exec (.swapMap l) s = .next (((s.setLea (leaKey l.die l.lea)
      { s.lea (leaKey l.die l.lea) with swapping := none }).moveTile l.die l.lea n).failedNext l.die l.lea) := by
    show execSwapMap l s = _
    simp [execSwapMap, State.live_of_running hf, hswap, hcore, hgo, hheld]
  generalize hx : { s.lea (leaKey l.die l.lea) with swapping := none } = x at hexec
  have hread : ∀ a, (s.setLea (leaKey l.die l.lea) x).reg a = s.reg a := State.reg_congr (State.setLea_regs ..)
  have hlea : ((s.setLea (leaKey l.die l.lea) x).lea (leaKey l.die l.lea)).swapping = none := by
    rw [State.lea_setLea_same, ← hx]
  have hmem := s.setLea_mem (leaKey l.die l.lea) x
  have htile : (s.setLea (leaKey l.die l.lea) x).tile = s.tile := State.tile_congr (s.setLea_tiles ..)
  generalize s.setLea (leaKey l.die l.lea) x = u at *
  have hmap : u.mapTile = s.mapTile := by funext; simp only [State.mapTile, State.fld, hread]
  have hfree : u.freeTile = s.freeTile := by funext; simp only [State.freeTile, State.fld, hread]
  have hretired : u.tileRetired = s.tileRetired := by funext; simp only [State.tileRetired, hread]
  obtain ⟨emap, efree, estate, enew, elog, eold, eother, eregs⟩ :=
    State.moveTile_spec (s := u) n.isLt (by rwa [hretired, hmap]) (by rwa [hmap, hfree])
  simp only [hmap, hfree] at emap efree enew elog eold eother
  rw [State.failedNext_none (by rw [State.tile_congr eregs.tiles, htile]; exact hfail)] at hexec
  exact ⟨_, hexec, emap, efree, estate, enew, elog, eold, eregs.mem.trans hmem,
    (congrArg LeaState.swapping (congrFun (State.lea_congr eregs.leas) _)).trans hlea, eother⟩

/-! ## The clearing of the free tile (R91, R97 step 6) -/

theorem lookup_filter_key {α : Type} (p : Nat → Bool) (m : Sparse α) (k : Nat) :
    lookup (m.filter fun e => p e.1) k = if p k then lookup m k else none := by
  induction m with
  | nil => simp [lookup]
  | cons e m ih =>
    obtain ⟨i, v⟩ := e
    by_cases hi : i = k
    · subst hi
      by_cases hp : p i <;> simp [lookup, hp, ih]
    · by_cases hp : p i <;> simp [lookup, hp, hi, ih]

/-- R91: every byte of a cleared tile reads as 0, and every other byte as it was. -/
theorem State.readAt_zeroTile (s : State) (d l t a : Nat) :
    readAt memDefault (s.zeroTile d l t).mem a
      = if tileBase d l t ≤ a ∧ a < tileBase d l t + 0x40000 then 0 else readAt memDefault s.mem a := by
  simp only [State.zeroTile, readAt]
  rw [lookup_filter_key fun a => !(decide (tileBase d l t ≤ a) && decide (a < tileBase d l t + 0x40000))]
  by_cases h : tileBase d l t ≤ a ∧ a < tileBase d l t + 0x40000
  · simp [h, memDefault]
  · rw [if_neg h, if_pos (by simpa [Classical.or_iff_not_imp_left] using h)]

/-- R97 step 6: the cleared free tile is READY and GO clears; without a swap-out that waits, a failed checker or a test of it, no
more happens. -/
theorem exec_tileClearDone {s : State} {t : TileId} (hf : s.frozen = false) (hfree : s.freeTile t.die t.lea = t.tile)
    (hstate : s.freeState t.die t.lea = 1) (hheld : s.tileHeld t.die t.lea t.tile = false)
    (htiles : ∀ x < 17, (s.tile (tileKey t.die t.lea x)).swapOut = false ∧ (s.tile (tileKey t.die t.lea x)).failed = false)
    (htest : (s.lea (leaKey t.die t.lea)).testing = none) :
    exec (.tileClearDone t) s = .next ((((s.zeroTile t.die t.lea t.tile).setFreeState t.die t.lea 0).setTileSt
      t.die t.lea t.tile 1 0).setFld (aLea t.die t.lea 0x08) 31 31 0) := by
  show execTileClearDone t s = _
  simp only [execTileClearDone, State.live_of_running hf, hfree, hstate, hheld]
  generalize hu : (((s.zeroTile t.die t.lea t.tile).setFreeState t.die t.lea 0).setTileSt t.die t.lea t.tile 1 0).setFld
    (aLea t.die t.lea 0x08) 31 31 0 = u
  have hregs : (s.zeroTile t.die t.lea t.tile).regsOnly u := by
    simp only [← hu, State.setTileSt, State.setFreeState]
    iterate 3 refine State.regsOnly.trans ?_ (State.regsOnly_setFld ..)
    exact State.regsOnly_setFld ..
  have htile : u.tile = s.tile := State.tile_congr hregs.tiles
  have hlea : u.lea = s.lea := State.lea_congr hregs.leas
  have hwait : ((List.range 17).any fun x => (u.tile (tileKey t.die t.lea x)).swapOut) = false := by
    simpa [htile] using fun x hx => (htiles x hx).1
  have hfail : ((List.range 17).any fun x => (u.tile (tileKey t.die t.lea x)).failed && !u.tileRetired t.die t.lea x) = false := by
    simp +contextual [htile, htiles]
  simp [hwait, hfail, hlea, htest]

theorem tileClearDone_leads {s : State} {t : TileId} (hf : s.frozen = false) (hfree : s.freeTile t.die t.lea = t.tile)
    (hstate : s.freeState t.die t.lea = 1) (hheld : s.tileHeld t.die t.lea t.tile = false)
    (htiles : ∀ x < 17, (s.tile (tileKey t.die t.lea x)).swapOut = false ∧ (s.tile (tileKey t.die t.lea x)).failed = false)
    (htest : (s.lea (leaKey t.die t.lea)).testing = none) :
    Leads (.tileClearDone t) s fun u =>
      u.freeState t.die t.lea = 0 ∧ u.freeTile t.die t.lea = t.tile ∧ u.tileSt t.die t.lea t.tile = 1
        ∧ u.swapGo t.die t.lea = false
        ∧ ∀ a, readAt memDefault u.mem a
            = if tileBase t.die t.lea t.tile ≤ a ∧ a < tileBase t.die t.lea t.tile + 0x40000 then 0 else readAt memDefault s.mem a := by
  refine ⟨_, exec_tileClearDone hf hfree hstate hheld htiles htest, ?_⟩
  have hzero := s.readAt_zeroTile t.die t.lea t.tile
  have hkeep : (s.zeroTile t.die t.lea t.tile).freeTile t.die t.lea = t.tile := hfree
  generalize s.zeroTile t.die t.lea t.tile = z at *
  simp only [State.freeTile] at hkeep
  simp only [State.freeState, State.freeTile, State.tileSt, State.swapGo, State.bit_reg, State.setFreeState, State.setTileSt,
    State.setFld_mem]
  simp (disch := omega) only [State.fld_setFld_ne, State.fld_setFld_apart, State.fld_setFld_same, aLea, aTil] at hkeep ⊢
  exact ⟨rfl, hkeep, rfl, rfl, hzero⟩

/-- Settles O19: each clause by the equation of its command and the fields that the state it gives reads. -/
theorem tileSwaps : Obligations.TileSwaps := by
  intro s l init value t n d i k own hf
  have hd : d ≤ 4 := by have := l.die.isLt; omega
  refine ⟨fun hi hgo hidle hready => ?_, fun hi hgo hidle hbusy => ?_, fun hi hgo hbusy => ?_, fun hi hgo hidle => ?_,
    fun hi => exec_leaSwap_other hf hi, fun hswap hcore hgo hheld hne hret hfail => ?_,
    fun hfree hstate hheld htiles htest => ?_⟩
  · refine ⟨_, (exec_leaSwap_go hf hi hgo hidle).trans (by rw [State.swapRequest_ready hready]), ?_⟩
    exact State.swapBegun_spec rfl
  · refine ⟨_, (exec_leaSwap_go hf hi hgo hidle).trans (by rw [State.swapRequest_notReady hbusy]), ?_⟩
    obtain ⟨hrep, hev⟩ := State.swapRefused_spec (s.setFld (aLea d i 0x08) 3 0 (bits value.toNat 3 0)) hd i (bits value.toNat 3 0)
    have hgo' : ((s.setFld (aLea d i 0x08) 3 0 (bits value.toNat 3 0)).swapRefused d i (bits value.toNat 3 0)).swapGo d i
        = (s.setFld (aLea d i 0x08) 3 0 (bits value.toNat 3 0)).swapGo d i :=
      congrArg (bit · 31) (hev.reg_meadow ((meadow_le_lea d i).trans (Nat.le_add_right ..)))
    exact ⟨hrep, hgo'.trans ((s.swapGo_setLogical ..).trans hidle), hev.leas.trans (State.setFld_leas ..)⟩
  · exact ⟨_, exec_leaSwap_during hf hi hgo hbusy, s.swapRefused_spec hd i _⟩
  · exact ⟨_, exec_leaSwap_set hf hi hgo hidle, s.fld_setLogical .., (s.swapGo_setLogical ..).trans hidle,
      s.regsOnly_setFld .., fun a ha => s.reg_setFld_ne _ _ _ (by simpa using ha)⟩
  · exact swapMap_leads hf hswap hcore hgo hheld hne hret hfail
  · exact tileClearDone_leads hf hfree hstate hheld htiles htest

end Sys2Proof.Machine
end

section

/-! PROOFS of the family "tensor tiles": O20.

A reported mismatch is counted first; then the command is killed, the tile may be retired, and the tile is swapped out. `State.logHeld`
says that none of this touches the tile's record of its mismatches: one rule per operation of the model, read from the outside in. -/

namespace Sys2Proof.Machine

/-! ## The record of a tile's mismatches (R109) -/

/-- R109: the offsets of TIL_MISMATCH and of the three times in a tile's block. -/
def mismatchLog : List Nat := [0x18, 0x20, 0x28, 0x30]

/-- The mismatch record of the tile of slot `x` is that of `u`, and every job has one of the four ring sets. -/
def State.logHeld (s : State) (x : SlotId) (u : State) : Prop :=
  (∀ j ∈ s.sched.jobs, j.ringSet < 4) ∧
    ∀ o ∈ mismatchLog, s.reg (aTil x.die x.lea x.tile o) = u.reg (aTil x.die x.lea x.tile o)

/-- `a` is the address of no register of the mismatch record of the tile of slot `x`. -/
def OffLog (x : SlotId) (a : Nat) : Prop := ∀ o ∈ mismatchLog, aTil x.die x.lea x.tile o ≠ a

section
variable (x : SlotId)

theorem OffLog.of_addr {a : Nat} (h : ∀ o, o = 0x18 ∨ o = 0x20 ∨ o = 0x28 ∨ o = 0x30 →
    leaBase x.die x.lea + 0x20000 + x.tile * 0x10000 + o ≠ a) : OffLog x a :=
  fun o ho => h o (by simpa [mismatchLog] using ho)

theorem OffLog.val {o : Nat} (ho : o < 0x10000) : OffLog x (aVal o) :=
  .of_addr x fun p _ => by simp only [leaBase, meadowBase, aVal, valeBase]; omega

theorem OffLog.sch {o : Nat} (ho : o < 0x10000) : OffLog x (aSch o) :=
  .of_addr x fun p _ => by simp only [leaBase, meadowBase, aSch, valeBase]; omega

theorem OffLog.ring {set o : Nat} (hs : set < 4) (ho : o < 0x100) : OffLog x (aRing set o) := .sch x (by omega)

/-- The item counts of the queues, whatever the queue, lie 0x14 above a multiple of 0x40. -/
theorem OffLog.queue (q : Nat) : OffLog x (aQueue q 0x14) :=
  .of_addr x fun p hp => by simp only [leaBase, meadowBase, aQueue, aIqm, valeBase]; omega

theorem OffLog.mdw {o : Nat} (ho : o < 0x10000) : OffLog x (aMdw x.die o) :=
  .of_addr x fun p _ => by simp only [leaBase, aMdw]; omega

theorem OffLog.lea {o : Nat} (ho : o < 0x10000) : OffLog x (aLea x.die x.lea o) :=
  .of_addr x fun p _ => by simp only [aLea]; omega

/-- Of any tile, the registers at multiples of 0x40 in its block. -/
theorem OffLog.til (d l t : Nat) {o : Nat} (ho : o % 0x40 = 0) : OffLog x (aTil d l t o) :=
  .of_addr x fun p hp => by simp only [leaBase, meadowBase, aTil]; omega

end

variable {s t u : State} {x : SlotId}

/-! ## How states are put together -/

theorem State.logHeld.of_eq (h : s.logHeld x u) (hr : t.regs = s.regs) (hj : t.sched.jobs = s.sched.jobs) : t.logHeld x u :=
  ⟨hj ▸ h.1, fun o ho => (State.reg_congr hr _).trans (h.2 o ho)⟩

theorem State.logHeld.ite {c : Prop} [Decidable c] (h : s.logHeld x u) (k : t.logHeld x u) :
    State.logHeld (if c then s else t) x u := by
  split <;> assumption

/-- A step done under a condition only, so that the rule of the state before it is given once. -/
theorem State.logHeld.when {c : Prop} [Decidable c] (h : s.logHeld x u) (k : s.logHeld x u → t.logHeld x u) :
    State.logHeld (if c then t else s) x u := .ite (k h) h

theorem State.logHeld.whenNot {c : Prop} [Decidable c] (h : s.logHeld x u) (k : s.logHeld x u → t.logHeld x u) :
    State.logHeld (if c then s else t) x u := .ite h (k h)

theorem State.logHeld.foldl {β : Type} {f : State → β → State} {l : List β} (h : s.logHeld x u)
    (hf : ∀ t y, State.logHeld t x u → (f t y).logHeld x u) : (l.foldl f s).logHeld x u := by
  induction l generalizing s with
  | nil => exact h
  | cons y l ih => exact ih (hf _ _ h)

/-! ## Registers, memory, events and commands -/

theorem State.logHeld.setReg {a v : Nat} (h : s.logHeld x u) (ha : OffLog x a) : (s.setReg a v).logHeld x u :=
  ⟨h.1, fun o ho => (s.reg_setReg_ne v (ha o ho)).trans (h.2 o ho)⟩

theorem State.logHeld.setFld {a hi lo v : Nat} (h : s.logHeld x u) (ha : OffLog x a) : (s.setFld a hi lo v).logHeld x u :=
  .setReg h ha

theorem State.logHeld.event (h : s.logHeld x u) (e : s.eventOnly t) : t.logHeld x u :=
  ⟨e.jobs ▸ h.1, fun o ho => (e.reg_meadow ((meadow_le_lea x.die x.lea).trans (by simp only [aTil]; omega))).trans (h.2 o ho)⟩

theorem State.logHeld.store {a : Nat} {bs : List Byte} (h : s.logHeld x u) : (s.store a bs).logHeld x u :=
  .event h (s.store_only a bs).eventOnly

theorem State.logHeld.putBytes {a : Nat} {bs : List Byte} (h : s.logHeld x u) : (s.putBytes a bs).logHeld x u :=
  .ite h (.of_eq h rfl rfl)

theorem State.logHeld.spoil {outs : List (Nat × Nat)} (h : s.logHeld x u) : (s.spoil outs).logHeld x u :=
  .foldl h fun _ _ ht => .of_eq (.putBytes ht) rfl rfl

theorem State.logHeld.raise {d l i : Nat} {name : String} {a b : Nat} (h : s.logHeld x u) :
    (s.raise d l i name a b).logHeld x u :=
  .event h (s.raise_only ..)

theorem State.logHeld.raiseCmd {j : Job} {r : CmdRef} {d l i : Nat} {name : String} {a b : Nat} (h : s.logHeld x u)
    (hj : j.ringSet < 4) : (s.raiseCmd j r d l i name a b).logHeld x u :=
  .event h (s.raiseEv_only _ fun _ e => Option.some.inj e ▸ hj)

theorem State.logHeld.raiseJob {j : Job} {name : String} {a b : Nat} (h : s.logHeld x u) (hj : j.ringSet < 4) :
    (s.raiseJob j name a b).logHeld x u :=
  .event h (s.raiseEv_only _ fun _ e => Option.some.inj e ▸ hj)

theorem State.logHeld.curJob {j : Job} (h : s.logHeld x u) (hj : s.curJob = some j) : j.ringSet < 4 :=
  h.1 j (List.mem_of_find?_eq_some hj)

theorem State.logHeld.raiseFor {r : CmdRef} {d l i : Nat} {name : String} {a b : Nat} (h : s.logHeld x u) :
    (s.raiseFor r d l i name a b).logHeld x u := by
  unfold State.raiseFor
  split
  · next j hj => exact .raiseCmd h (h.curJob hj)
  · exact .raise h

theorem State.logHeld.frecNote {type die unit value : Nat} (h : s.logHeld x u) : (s.frecNote type die unit value).logHeld x u :=
  .foldl h fun _ _ ht => .of_eq ht rfl rfl

theorem State.logHeld.replaceReq {b : Nat} (h : s.logHeld x u) : (s.replaceReq b).logHeld x u :=
  .ite h (.frecNote (.raise (.setFld h (.val x (by decide)))))

theorem State.logHeld.updJob {n : Nat} {f : Job → Job} (h : s.logHeld x u) (hf : ∀ j, (f j).ringSet = j.ringSet) :
    (s.updJob n f).logHeld x u := by
  refine ⟨fun j hj => ?_, h.2⟩
  obtain ⟨k, hk, rfl⟩ := List.mem_map.1 hj
  split
  · rw [hf]; exact h.1 k hk
  · exact h.1 k hk

theorem State.logHeld.updCmd {r : CmdRef} {f : Cmd → Cmd} (h : s.logHeld x u) : (s.updCmd r f).logHeld x u := by
  unfold State.updCmd
  split
  · exact .updJob h fun _ => rfl
  · exact h

theorem State.logHeld.ringPut {set ring type : Nat} {ws : List Nat} (h : s.logHeld x u) (hs : set < 4) :
    (s.ringPut set ring type ws).logHeld x u := by
  have htail : OffLog x (aRing set (if ring = 1 then 0x28 else 0x30)) := .ring x hs (by split <;> decide)
  exact .ite (.of_eq (.setReg (.of_eq (.store h) rfl rfl) htail) rfl rfl) (.setReg (.of_eq (.store h) rfl rfl) htail)

/-! ## The ends of commands and jobs -/

theorem State.logHeld.ctxStore {c : Nat} {w : List Nat} (h : s.logHeld x u) : (s.ctxStore c w).logHeld x u :=
  .whenNot (.store (.store h)) fun ht => .raise ht

theorem State.logHeld.tearDown {j : Job} {r : CmdRef} {cause c : Nat} (h : s.logHeld x u) (hj : j.ringSet < 4) :
    (s.tearDown j r cause c).logHeld x u :=
  .ite h (.raiseCmd (.ctxStore (.of_eq h rfl rfl)) hj)

theorem State.logHeld.takeRewind {q : Nat} (h : s.logHeld x u) : (s.takeRewind q).logHeld x u :=
  .setReg (.of_eq h rfl rfl) (.queue x q)

theorem State.logHeld.kvLow (h : s.logHeld x u) : (s.kvLow).logHeld x u := .ite h (.raise (.of_eq h rfl rfl))

theorem State.logHeld.setKvFree {n : Nat} (h : s.logHeld x u) : (s.setKvFree n).logHeld x u := by
  have ht : (s.setFld (aSch 0x80C) 22 0 n).logHeld x u := .setFld h (.sch x (by decide))
  exact .ite (.kvLow ht) (.ite (.of_eq ht rfl rfl) ht)

theorem State.logHeld.framePush {f : Nat} (h : s.logHeld x u) : (s.framePush f).logHeld x u := .setKvFree (.store h)

theorem State.logHeld.cqPut {set type : Nat} {ws : List Nat} {r : Option CmdRef} (h : s.logHeld x u) (hs : set < 4) :
    (s.cqPut set type ws r).logHeld x u :=
  .ite (.of_eq h rfl rfl) (.ringPut h hs)

theorem State.logHeld.dropOwned {c : Cmd} (h : s.logHeld x u) : (s.dropOwned c).logHeld x u :=
  .foldl h fun _ y ht => .setReg ht (.til x y.die y.lea y.tile (by decide))

theorem State.logHeld.dropReserve {c : Cmd} (h : s.logHeld x u) : (s.dropReserve c).logHeld x u :=
  .setFld h (.sch x (by decide))

theorem State.logHeld.abandon {c : Cmd} (h : s.logHeld x u) : (s.abandon c).logHeld x u :=
  .dropOwned (.dropReserve (.foldl (.foldl (.spoil (.of_eq h rfl rfl)) fun _ _ ht => .takeRewind ht)
    fun _ _ ht => .framePush ht))

theorem State.logHeld.goldenOver {c : Cmd} {status : Nat} (h : s.logHeld x u) : (s.goldenOver c status).logHeld x u :=
  .updCmd (.abandon h)

theorem State.logHeld.failCmd {j : Job} {c : Cmd} {status : Nat} {tears : Bool} (h : s.logHeld x u) (hj : j.ringSet < 4) :
    (s.failCmd j c status tears).logHeld x u :=
  .ite (.goldenOver h) (.foldl (.raiseCmd (.cqPut (.updCmd (.abandon h)) hj) hj) fun _ _ ht => .tearDown ht hj)

theorem State.logHeld.killedInfo {c : Cmd} (h : s.logHeld x u) : (s.killedInfo c).2.logHeld x u := by
  unfold State.killedInfo
  split
  · exact .of_eq h rfl rfl
  · exact h

theorem State.logHeld.killedCmd {j : Job} {c : Cmd} (h : s.logHeld x u) (hj : j.ringSet < 4) :
    (s.killedCmd j c).logHeld x u :=
  .ite (.goldenOver h) (.cqPut (.updJob (.updCmd (.abandon (.killedInfo h))) fun _ => rfl) hj)

theorem State.logHeld.skipOne {serial : Nat} {r : CmdRef} (h : s.logHeld x u) : (s.skipOne serial r).logHeld x u := by
  unfold State.skipOne
  split
  · exact h
  · next j hj =>
    have hring : j.ringSet < 4 := h.1 j (List.mem_of_find?_eq_some hj)
    refine .ite h (.ite h ?_)
    dsimp only
    split
    · exact h
    · exact .cqPut (.updJob h fun _ => rfl) hring

theorem State.logHeld.skips (h : s.logHeld x u) : (s.skips).logHeld x u := by
  unfold State.skips
  split
  · exact h
  · exact .ite h (.foldl h fun _ _ ht => .foldl ht fun _ _ hv => .skipOne hv)

theorem State.logHeld.drainSet {set : Nat} (h : s.logHeld x u) (hs : set < 4) : (s.drainSet set).logHeld x u :=
  .ite (.setFld (.setFld h (.ring x hs (by decide))) (.ring x hs (by decide))) h

theorem State.logHeld.goldenDefer {j : Job} (h : s.logHeld x u) : (s.goldenDefer j).logHeld x u :=
  .ite (.setFld h (.sch x (by decide))) h

theorem State.logHeld.noteFrame {j : Job} (h : s.logHeld x u) : (s.noteFrame j).logHeld x u :=
  .ite h (.of_eq h rfl rfl)

theorem State.logHeld.endJob {j : Job} {status : Nat} (h : s.logHeld x u) (hj : j.ringSet < 4) :
    (s.endJob j status).logHeld x u := by
  have hdefer : (if j.started then s.goldenDefer j else s).logHeld x u := .ite (.goldenDefer h) h
  exact .drainSet (.cqPut (.noteFrame ⟨fun k hk => hdefer.1 k (List.mem_filter.1 hk).1, hdefer.2⟩) hj) hj

theorem State.logHeld.jobCheck (h : s.logHeld x u) : (s.jobCheck).logHeld x u := by
  unfold State.jobCheck
  split
  · exact h
  · next j hj => exact .ite (.endJob h (h.curJob hj)) h

/-- R175: the completion of a kill after which the job goes on. -/
theorem State.logHeld.killDone {k : KillRec} (h : s.logHeld x u) (hk : k.after = .go) : (s.killDone k).logHeld x u := by
  unfold State.killDone
  extract_lets t
  have ht : t.logHeld x u := .foldl h fun v _ hv => by
    split
    · next j _ hj _ => exact .ite (.killedCmd hv (hv.curJob hj)) (.failCmd hv (hv.curJob hj))
    · exact hv
  rw [hk]
  exact .jobCheck (.skips ht)

theorem State.logHeld.kill {rs : List CmdRef} {status : Nat} {tears : Bool} (h : s.logHeld x u) :
    (s.kill rs status tears .go).logHeld x u := by
  unfold State.kill
  extract_lets refs cs dies t v k
  have ht : t.logHeld x u := .foldl h fun _ _ hy => .updCmd hy
  have hv : v.logHeld x u := ht
  exact .ite hv (.ite (.killDone hv rfl) (.of_eq hv rfl rfl))

theorem State.logHeld.faultCmd {r : CmdRef} {die lea tile status : Nat} {tears : Bool} (h : s.logHeld x u) :
    (s.faultCmd r die lea tile status tears).logHeld x u :=
  .ite h (.kill (.updCmd h))

theorem State.logHeld.rerunOnce {r : CmdRef} {d l i status : Nat} (h : s.logHeld x u) :
    (s.rerunOnce r d l i status).logHeld x u := by
  unfold State.rerunOnce
  split
  · exact h
  · exact .ite h (.ite (.faultCmd h) (.kill (.updCmd h)))

/-! ## The tiles of the lea -/

theorem State.logHeld.setFreeState {v : Nat} (h : s.logHeld x u) : (s.setFreeState x.die x.lea v).logHeld x u :=
  .setFld h (.lea x (by decide))

theorem State.logHeld.setTileSt {i st n : Nat} (h : s.logHeld x u) : (s.setTileSt x.die x.lea i st n).logHeld x u :=
  .setFld (.setFld h (.til x _ _ _ rfl)) (.til x _ _ _ rfl)

theorem State.logHeld.setTile {k : Nat} {y : TileState} (h : s.logHeld x u) : (s.setTile k y).logHeld x u := .of_eq h rfl rfl

theorem State.logHeld.setLea {k : Nat} {y : LeaState} (h : s.logHeld x u) : (s.setLea k y).logHeld x u := .of_eq h rfl rfl

theorem State.logHeld.swapRefused {n : Nat} (h : s.logHeld x u) : (s.swapRefused x.die x.lea n).logHeld x u := .raise h

theorem State.logHeld.swapRequest {n : Nat} (h : s.logHeld x u) : (s.swapRequest x.die x.lea n).logHeld x u := by
  have ht := h.setFld (a := aLea x.die x.lea 0x08) (hi := 3) (lo := 0) (v := n) (.lea x (by decide))
  exact .ite (.swapRefused ht) (.setLea (.setFld ht (.lea x (by decide))))

theorem State.logHeld.noFreeTile (h : s.logHeld x u) : (s.noFreeTile x.die x.lea).logHeld x u :=
  .replaceReq (.setFld (.setFld (.setFreeState (.setFld h (.lea x (by decide)))) (.mdw x (by decide))) (.lea x (by decide)))

theorem State.logHeld.moveTile {n : Nat} (h : s.logHeld x u) (hn : n < 16) : (s.moveTile x.die x.lea n).logHeld x u := by
  have ht := h.setFld (a := aLea x.die x.lea (0x40 + 4 * n)) (hi := 4) (lo := 0) (v := s.freeTile x.die x.lea) (.lea x (by omega))
  exact .ite (.noFreeTile (.setTileSt (.setTileSt ht)))
    (.setFreeState (.setFld (.setTileSt (.setTileSt ht)) (.lea x (by decide))))

theorem State.logHeld.retireTile {i : Nat} (h : s.logHeld x u) : (s.retireTile x.die x.lea i).logHeld x u :=
  .ite h (.ite (.noFreeTile (.setTileSt (.frecNote (.raise (.setFld h (.lea x (by decide)))))))
    (.when (.frecNote (.raise (.setFld h (.lea x (by decide))))) fun ht => .kill (.setLea ht)))

theorem State.logHeld.swapOut {i : Nat} (h : s.logHeld x u) : (s.swapOut x.die x.lea i).logHeld x u := by
  unfold State.swapOut
  refine .ite (.setTile h) ?_
  dsimp only
  split
  · refine .setLea (.moveTile (.setTile (.setLea ?_)) (bits_lt _ 7 4))
    split
    · exact .ite h (.swapRefused (.setFld h (.lea x (by decide))))
    · exact h
  · exact .setTile h
  · exact .setTile (.setLea (.setTileSt (.setFreeState h)))
  · exact .setTile h

theorem State.logHeld.failedNext (h : s.logHeld x u) : (s.failedNext x.die x.lea).logHeld x u := by
  unfold State.failedNext
  split
  · exact h
  · exact .ite (.retireTile h) (.ite (.swapRequest h) h)

/-! ## The count of a mismatch -/

/-- R104, R109: COUNT goes up by one, the check is recorded, and the times move on. -/
theorem State.countMismatch_spec (s : State) (d l i : Nat) {check : Nat} (hc : check < 8) (h : s.fld (aTil d l i 0x18) 15 0 < 0xFFFF) :
    let t := s.countMismatch d l i check
    t.fld (aTil d l i 0x18) 15 0 = s.fld (aTil d l i 0x18) 15 0 + 1 ∧ t.fld (aTil d l i 0x18) 18 16 = check
      ∧ t.reg (aTil d l i 0x20) = s.now % 2 ^ 64 ∧ t.reg (aTil d l i 0x28) = s.reg (aTil d l i 0x20)
      ∧ t.reg (aTil d l i 0x30) = s.reg (aTil d l i 0x28) := by
  have hcount : satInc (15 + 1 - 0) (s.fld (aTil d l i 0x18) 15 0) 1 = s.fld (aTil d l i 0x18) 15 0 + 1 := by
    simp only [satInc]
    omega
  have hnow : ∀ (v : State) a hi lo n, (v.setFld a hi lo n).now = v.now := State.setFld_now
  simp (disch := omega) only [State.countMismatch, State.count32, State.count, State.fld_setFld_ne, State.fld_setReg_ne,
    State.fld_setFld_apart, State.fld_setFld_same, State.reg_setFld_ne, State.reg_setReg_ne, State.reg_setReg_same,
    hnow, aTil, aMdw, leaBase] at h hcount ⊢
  exact ⟨by omega, by omega, trivial, Nat.mod_eq_of_lt (s.reg_lt _), Nat.mod_eq_of_lt (s.reg_lt _)⟩

theorem State.countMismatch_regsOnly (s : State) (d l i check : Nat) : s.regsOnly (s.countMismatch d l i check) := by
  simp only [State.countMismatch, State.count32]
  refine State.regsOnly.trans ?_ (State.regsOnly_count ..)
  iterate 3 refine State.regsOnly.trans ?_ (State.regsOnly_setReg ..)
  exact (s.regsOnly_count ..).trans (State.regsOnly_setFld ..)

/-- R102, R109: a mismatch in the work of a command in flight, the first on the tile, leaves the record of its count. -/
theorem State.mismatch_logHeld {s : State} {x : SlotId} {r : CmdRef} {c : Cmd} {check : Nat} (hjobs : ∀ j ∈ s.sched.jobs, j.ringSet < 4)
    (hcmd : s.cmd r = some c) (hfl : c.inFlight = true) (hfirst : tileKey x.die x.lea x.tile ∉ c.mismTiles) :
    (s.mismatch r x.die x.lea x.tile check).logHeld x (s.countMismatch x.die x.lea x.tile check) := by
  have hseen : c.mismTiles.contains (tileKey x.die x.lea x.tile) = false := by simpa using hfirst
  have hself : (s.countMismatch x.die x.lea x.tile check).logHeld x (s.countMismatch x.die x.lea x.tile check) :=
    ⟨by rwa [(s.countMismatch_regsOnly ..).sched], fun _ _ => rfl⟩
  simp only [State.mismatch, hcmd, hfl, hseen]
  exact .failedNext (.swapOut (.when (.rerunOnce (.raiseFor (.updCmd hself))) fun ht => .retireTile ht))

/-- R102, R109: the first mismatch of a command on its tile is counted there. -/
theorem mismatchReport_leads {s : State} {t : SlotId} {c : Cmd} {check : Check} (hf : s.frozen = false)
    (hjobs : ∀ j ∈ s.sched.jobs, j.ringSet < 4) (hbusy : (s.slot (tkey t)).busy = true)
    (hcmd : s.cmd (s.slot (tkey t)).cmd = some c) (hfl : c.inFlight = true) (hfirst : tileKey t.die t.lea t.tile ∉ c.mismTiles)
    (hroom : s.fld (aTil t.die t.lea t.tile 0x18) 15 0 < 0xFFFF) :
    Leads (.mismatchReport t check) s fun s' =>
      s'.fld (aTil t.die t.lea t.tile 0x18) 15 0 = s.fld (aTil t.die t.lea t.tile 0x18) 15 0 + 1
        ∧ s'.fld (aTil t.die t.lea t.tile 0x18) 18 16 = checkCode check
        ∧ s'.reg (aTil t.die t.lea t.tile 0x20) = s.now % 2 ^ 64
        ∧ s'.reg (aTil t.die t.lea t.tile 0x28) = s.reg (aTil t.die t.lea t.tile 0x20)
        ∧ s'.reg (aTil t.die t.lea t.tile 0x30) = s.reg (aTil t.die t.lea t.tile 0x28) := by
  have hexec : exec (.mismatchReport t check) s
      = .next (s.mismatch (s.slot (tkey t)).cmd t.die t.lea t.tile (checkCode check)) := by
    show execMismatchReport t check s = _
    simp [execMismatchReport, State.live_of_running hf, hbusy]
  have hcode : checkCode check < 8 := by cases check <;> decide
  obtain ⟨hcount, hlast, h0, h1, h2⟩ := s.countMismatch_spec t.die t.lea t.tile hcode hroom
  have hlog := (State.mismatch_logHeld (check := checkCode check) hjobs hcmd hfl hfirst).2
  generalize s.countMismatch t.die t.lea t.tile (checkCode check) = u at *
  refine ⟨_, hexec, ?_⟩
  generalize s.mismatch (s.slot (tkey t)).cmd t.die t.lea t.tile (checkCode check) = v at *
  simp only [mismatchLog, List.forall_mem_cons, State.fld] at hlog hcount hlast ⊢
  obtain ⟨e0, e1, e2, e3, -⟩ := hlog
  rw [e0, e1, e2, e3]
  exact ⟨hcount, hlast, h0, h1, h2⟩

/-! ## The scrubber and corrected codewords (R94, R96) -/

/-- R94: a corrected codeword is written back, and no other leaves the list. -/
theorem sramCeWriteback_leads {s : State} (addr : Addr) (hf : s.frozen = false) :
    Leads (.sramCeWriteback addr) s fun s' =>
      s' = { s with sramFix := s'.sramFix } ∧ (s.sramFix.Nodup → addr.toNat / 64 * 64 ∉ s'.sramFix)
        ∧ ∀ x, x ≠ addr.toNat / 64 * 64 → (x ∈ s'.sramFix ↔ x ∈ s.sramFix) := by
  refine ⟨{ s with sramFix := s.sramFix.erase (addr.toNat / 64 * 64) }, ?_, rfl, fun hn => hn.not_mem_erase,
    fun x hx => List.mem_erase_of_ne hx⟩
  show execSramCeWriteback addr s = _
  simp only [execSramCeWriteback, State.live_of_running hf]

/-- R28: every address of a tile's SRAM window lies in it. -/
theorem placeOf_tile {d l t o : Nat} (hd : d < 4) (hl : l < 16) (ht : t < 17) (ho : o < 0x40000) :
    placeOf (tileBase d l t + o) = some (.tile d l t, tileBase d l t, 0x40000) := by
  have hdie : (tileBase d l t + o - 0x001000000000) / 0x10000000 = d := by simp only [tileBase, poolBase]; omega
  have hlea : (tileBase d l t + o - 0x001000000000) % 0x10000000 / 0x1000000 = l := by simp only [tileBase, poolBase]; omega
  have hoff : (tileBase d l t + o) % 0x1000000 = 0x800000 + t * 0x40000 + o := by simp only [tileBase, poolBase]; omega
  have hlo : 0x001000800000 ≤ tileBase d l t + o := by simp only [tileBase, poolBase]; omega
  have hhi : tileBase d l t + o < 0x001040000000 := by simp only [tileBase, poolBase]; omega
  have htile : (0x800000 + t * 0x40000 + o - 0x800000) / 0x40000 = t := by
    rw [Nat.add_assoc, Nat.add_sub_cancel_left, Nat.add_comm, Nat.add_mul_div_right _ _ (by decide), Nat.div_eq_of_lt ho, Nat.zero_add]
  have hbase : tileBase d l t + o - (0x800000 + t * 0x40000 + o) + 0x800000 + t * 0x40000 = tileBase d l t := by
    simp only [tileBase, poolBase]; omega
  generalize tileBase d l t + o = a at *
  rw [placeOf, if_neg (by omega), if_pos hhi]
  simp only [hdie, hlea, hoff, htile, hbase]
  rw [if_neg (by omega), if_pos (by omega)]

/-- R105: no injection is armed, so none fires. -/
theorem State.sramFire_unarmed {s : State} {d l t : Nat} (h : bit (s.reg (aTil d l t 0x44)) 31 = false) : s.sramFire d l t = s := by
  simp [State.sramFire, State.injectFire, h]

/-- A 32-bit counter that is not at its highest value goes up by one. -/
theorem State.reg_count32 {s : State} {a : Nat} (h : s.reg a < 2 ^ 32 - 1) : (s.count32 a).reg a = s.reg a + 1 := by
  have hfld : s.fld a 31 0 = s.reg a := by
    rw [State.fld, bits_eq]
    exact (Nat.mod_eq_of_lt (by omega)).trans (Nat.div_one _)
  have hset : ∀ w < 2 ^ 32 - 1, setBits w 31 0 (satInc 32 w 1) % 2 ^ 64 = w + 1 := fun w hw => by
    simp only [setBits_eq, satInc, Nat.min_eq_left (show w + 1 ≤ 2 ^ 32 - 1 from hw)]
    omega
  rw [State.count32, State.count, State.setFld, State.reg_setReg_same, hfld]
  exact hset _ h

/-- R463: a corrected line is noted, and its row may be reported. -/
theorem State.scrubbed_only (s : State) (a : Nat) :
    s.scrubbed a = { s with scrubFix := (s.scrubbed a).scrubFix, repairs := (s.scrubbed a).repairs } := by
  simp only [State.scrubbed, State.reportRow]
  split
  · split
    · split <;> rfl
    · rfl
  · rfl

theorem State.scrubbed_regs (s : State) (a : Nat) : (s.scrubbed a).regs = s.regs := by
  rw [State.scrubbed_only]

theorem State.regsOnly_scrubbed {s u : State} (h : s.regsOnly u) (a : Nat) :
    s.regsOnly { u.scrubbed a with scrubFix := s.scrubFix, repairs := s.repairs } := by
  rw [State.scrubbed_only]
  obtain ⟨r, rfl⟩ : ∃ r, u = { s with regs := r } := ⟨_, h⟩
  rfl

/-- R96: a corrected codeword is counted at the tile, and its line recorded. -/
theorem State.tileError_corrected (s : State) (d l t off : Nat) :
    s.tileError d l t off false = (s.count32 (aTil d l t 0x08)).setReg (aTil d l t 0x10) (off / 64 * 64) := by
  simp only [State.tileError, b2n, Bool.false_eq_true, if_false, Nat.zero_mul, Nat.add_zero]

/-- R96: the scrubber's corrected codeword of a tile is counted there, and its line recorded. -/
theorem sramScrubRead_leads {s : State} {addr : Addr} {d : Fin 4} {l : Fin 16} {i : Fin 17} {o : Fin 0x40000} (hf : s.frozen = false)
    (haddr : addr.toNat = tileBase d l i + o.val) (harm : bit (s.reg (aTil d l i 0x44)) 31 = false)
    (hroom : s.reg (aTil d l i 0x08) < 2 ^ 32 - 1) :
    Leads (.sramScrubRead addr .corrected) s fun s' =>
      s'.reg (aTil d l i 0x08) = s.reg (aTil d l i 0x08) + 1 ∧ s'.reg (aTil d l i 0x10) = o.val / 64 * 64
        ∧ s.onlyRegs { s' with scrubFix := s.scrubFix, repairs := s.repairs } [aTil d l i 0x08, aTil d l i 0x10] := by
  have hexec : exec (.sramScrubRead addr .corrected) s
      = .next (((s.count32 (aTil d l i 0x08)).setReg (aTil d l i 0x10) (o.val / 64 * 64)).scrubbed addr.toNat) := by
    show execSramScrubRead addr .corrected s = _
    simp only [execSramScrubRead, State.live_of_running hf, haddr, placeOf_tile d.isLt l.isLt i.isLt o.isLt,
      State.sramFire_unarmed harm, State.tileError_corrected, Nat.add_sub_cancel_left]
  have hcount := State.reg_count32 hroom
  have hother : ∀ a, a ≠ aTil d l i 0x08 → (s.count32 (aTil d l i 0x08)).reg a = s.reg a := fun a ha => s.reg_setFld_ne _ _ _ ha
  have hregs : s.regsOnly ((s.count32 (aTil d l i 0x08)).setReg (aTil d l i 0x10) (o.val / 64 * 64)) :=
    (s.regsOnly_count ..).trans (State.regsOnly_setReg ..)
  have hne : aTil d l i 0x08 ≠ aTil d l i 0x10 := by simp [aTil]
  have h08 := State.reg_setReg_ne (s.count32 (aTil d l i 0x08)) (o.val / 64 * 64) hne
  have h10 := State.reg_setReg_same (s.count32 (aTil d l i 0x08)) (aTil d l i 0x10) (o.val / 64 * 64)
  have hrest := fun a ha => State.reg_setReg_ne (b := a) (a := aTil d l i 0x10) (s.count32 (aTil d l i 0x08)) (o.val / 64 * 64) ha
  generalize (s.count32 (aTil d l i 0x08)).setReg (aTil d l i 0x10) (o.val / 64 * 64) = u at *
  have hu := State.reg_congr (u.scrubbed_regs addr.toNat)
  refine ⟨_, hexec, (hu _).trans (h08.trans hcount), (hu _).trans (h10.trans (Nat.mod_eq_of_lt (by omega))),
    State.regsOnly_scrubbed hregs _, fun a ha => ?_⟩
  simp only [List.mem_cons, List.not_mem_nil, or_false, not_or] at ha
  exact (hu a).trans ((hrest a ha.2).trans (hother a ha.1))

/-- Both halves of R102, R94 and R96: what a checker, a write-back and the scrubber record. -/
theorem mismatchesAndScrubbing : MismatchesAndScrubbing := by
  intro s t c check addr hf hjobs
  exact ⟨fun hbusy hcmd hfl hfirst hroom => mismatchReport_leads hf hjobs hbusy hcmd hfl hfirst hroom, sramCeWriteback_leads addr hf,
    fun d l i o haddr harm hroom => sramScrubRead_leads hf haddr harm hroom⟩

/-! ## Injections (R105, R247, R316) -/

/-- A write that arms an injection: a Heath's sets ARM and TARGET, and `f` notes the time of arming. -/
theorem armsAt_of_exec {s : State} {init : Init} {i : Instr} {a target : Nat} {armed : State → Nat} (f : State → State)
    (hexec : exec i s = .next (if !isHeath init.toNat then s else f (s.setReg a (target + 2 ^ 31))))
    (hf : ∀ u, armed (f u) = s.now ∧ (f u).regs = u.regs ∧ f u = { u with tiles := (f u).tiles, leas := (f u).leas, prairie := (f u).prairie })
    (ht : target < 8) : ArmsAt s init i a target armed := by
  have hsame := s.reg_setReg_same a (target + 2 ^ 31)
  have hother := fun b hb => State.reg_setReg_ne (b := b) (a := a) s (target + 2 ^ 31) hb
  have hu := s.regsOnly_setReg a (target + 2 ^ 31)
  generalize s.setReg a (target + 2 ^ 31) = u at *
  obtain ⟨harmed, hregs, hrest⟩ := hf u
  generalize f u = w at *
  have hreg := State.reg_congr hregs
  refine ⟨fun h => ⟨w, by simp [hexec, h], ?_, harmed, fun b hb => (hreg b).trans (hother b hb), ?_⟩, fun h => by simp [hexec, h]⟩
  · rw [hreg a, hsame, Nat.mod_eq_of_lt (by omega), Nat.add_comm]
  · rw [hregs, hrest, hu]

theorem tilInject_armsAt {s : State} {init : Init} {t : TileId} {i : Instr} {target : Nat} (ht : target < 8)
    (hexec : exec i s = .next (s.arm init.toNat t target)) :
    ArmsAt s init i (aTil t.die t.lea t.tile 0x44) target fun s => (s.tile (tileIdKey t)).armedAt :=
  armsAt_of_exec (State.setTile · (tileIdKey t) { s.tile (tileIdKey t) with armedAt := s.now }) (by rw [hexec, State.arm])
    (fun u => ⟨by rw [State.tile_setTile_same], rfl, rfl⟩) ht

theorem glnInject_armsAt {s : State} {init : Init} {l : LeaId} {i : Instr} {target : Nat} (ht : target < 8)
    (hexec : exec i s = .next (s.glnArm init.toNat l target)) :
    ArmsAt s init i (aGln l.die l.lea 0x44) target fun s => (s.lea (leaKey l.die l.lea)).glnArmed :=
  armsAt_of_exec (State.setLea · (leaKey l.die l.lea) { s.lea (leaKey l.die l.lea) with glnArmed := s.now })
    (by rw [hexec, State.glnArm]) (fun u => ⟨by rw [State.lea_setLea_same], rfl, rfl⟩) ht

theorem praInject_armsAt {s : State} {init : Init} {d : Fin 4} {i : Instr} {target : Nat} (ht : target < 8)
    (hexec : exec i s = .next (s.praArm init.toNat d target)) :
    ArmsAt s init i (aPra d 0x84) target fun s => readAt (fun _ => 0) s.prairie.armedAt d.val :=
  armsAt_of_exec (fun u => { u with prairie := { s.prairie with armedAt := writeAt (fun _ => 0) s.prairie.armedAt d s.now } })
    (by rw [hexec, State.praArm]) (fun u => ⟨readAt_writeAt_same .., rfl, rfl⟩) ht

/-- Clearing a bit that is set takes its weight off the register. -/
theorem State.reg_clearBit {s : State} {a : Nat} (h : bit (s.reg a) 31 = true) : (s.setFld a 31 31 0).reg a + 2 ^ 31 = s.reg a := by
  have hclear : ∀ w < 2 ^ 64, bit w 31 = true → setBits w 31 31 0 % 2 ^ 64 + 2 ^ 31 = w := fun w hw hbit => by
    rw [bit_eq_bits, bits_eq] at hbit
    simp only [decide_eq_true_eq] at hbit
    simp only [setBits_eq]
    omega
  rw [State.setFld, State.reg_setReg_same]
  exact hclear _ (State.reg_lt ..) h

/-- R105: the end of an injection that nothing detected. -/
theorem armTimesOut_of_exec {s : State} {i : Instr} {a r armed : Nat} (hra : r ≠ a)
    (hexec : exec i s = .next (if bit (s.reg a) 31 && decide (armed + 1000000 < s.now) then (s.setReg r 2).setFld a 31 31 0 else s)) :
    ArmTimesOut s i a r armed := by
  have ha := s.reg_setReg_ne 2 hra.symm
  refine ⟨fun hbit hlate => ⟨(s.setReg r 2).setFld a 31 31 0, ?_, ?_, ?_, ?_, fun b hb => ?_⟩,
    fun hearly => by simp [hexec, Nat.not_lt.2 hearly]⟩
  · simp [hexec, hbit, hlate]
  · rw [State.reg_clearBit (ha ▸ hbit), ha]
  · rw [State.reg_setFld_ne _ _ _ _ hra, State.reg_setReg_same, Nat.mod_eq_of_lt (by decide)]
  · exact (s.regsOnly_setReg ..).trans (State.regsOnly_setFld ..)
  · simp only [List.mem_cons, List.not_mem_nil, or_false, not_or] at hb
    rw [State.reg_setFld_ne _ _ _ _ hb.1, s.reg_setReg_ne _ hb.2]

theorem injectionsArmAndTimeOut : InjectionsArmAndTimeOut := by
  intro s init t l d hf
  have hlive := State.live_of_running hf
  refine ⟨tilInject_armsAt (by decide) ?_, tilInject_armsAt (by decide) ?_, tilInject_armsAt (by decide) ?_,
    tilInject_armsAt (by decide) ?_, tilInject_armsAt (by decide) ?_, glnInject_armsAt (by decide) ?_,
    glnInject_armsAt (by decide) ?_, glnInject_armsAt (by decide) ?_, praInject_armsAt (by decide) ?_,
    praInject_armsAt (by decide) ?_, praInject_armsAt (by decide) ?_, fun _ => armTimesOut_of_exec (by simp [aTil]) ?_,
    fun _ => armTimesOut_of_exec (by simp [aGln]) ?_, fun _ => armTimesOut_of_exec (by simp [aPra]) ?_⟩
  all_goals exact congrArg Host.Outcome.next (hlive _)

/-- Settles O20: the checks count and record what they find, and the injections are armed by the Heaths alone and time out. -/
theorem checksAndInjections : Obligations.ChecksAndInjections := ⟨mismatchesAndScrubbing, injectionsArmAndTimeOut⟩

end Sys2Proof.Machine
end

section

/-! PROOFS of the family "thread model": O4. The words of one format hold their fields at the same places, so there is one lemma
per format: what the decoder reads from a word of it. -/

namespace Sys2Proof

/-! ## Fields of a word -/

theorem fieldAt_eq {k : Nat} [NeZero k] {w lo : Nat} {x : Fin k} (h : w / 2 ^ lo % k = x) : fieldAt k w lo = x :=
  Fin.ext (by rw [fieldAt, Fin.val_ofNat, Nat.shiftRight_eq_div_pow, h])

theorem bitsAt_eq {n w lo : Nat} {x : BitVec n} (h : w / 2 ^ lo % 2 ^ n = x.toNat) : bitsAt n w lo = x :=
  BitVec.eq_of_toNat_eq (by rw [bitsAt, BitVec.toNat_ofNat, Nat.shiftRight_eq_div_pow, h])

theorem testBit_eq {w i : Nat} {b : Bool} (h : w / 2 ^ i % 2 = b.toNat) : w.testBit i = b := by
  rw [Nat.testBit_eq_decide_div_mod_eq, h]
  cases b <;> rfl

/-! ## The formats (R119 to R132) -/

section
variable (pm : Fin 3) (t : SlotId)

/-- R119: a register-register word, with its eight low bits. -/
theorem decodeTile_wordRr {func low : Nat} (hf : func < 64) (hl : low < 256) (rd a b : Fin 32) :
    wordRr func rd a b + low < 2 ^ 32 ∧
      decodeTile pm t (wordRr func rd a b + low) = if low = 0 then decodeRr t func rd a b else none := by
  generalize hw : wordRr func rd a b + low = w
  simp only [wordRr] at hw
  have hfmt : w >>> 29 % 8 = 0 := by rw [Nat.shiftRight_eq_div_pow]; omega
  have hfunc : w >>> 23 % 64 = func := by rw [Nat.shiftRight_eq_div_pow]; omega
  have hlow : w % 2 ^ 8 = low := by omega
  have hrd : fieldAt 32 w 18 = rd := fieldAt_eq (by omega)
  have ha : fieldAt 32 w 13 = a := fieldAt_eq (by omega)
  have hb : fieldAt 32 w 8 = b := fieldAt_eq (by omega)
  exact ⟨by omega, by simp only [decodeTile, hfmt, hfunc, hlow, hrd, ha, hb]⟩

theorem decodeTile_wordRr_of {func : Nat} {rd a b : Fin 32} {i : Instr} (hf : func < 64)
    (hi : decodeRr t func rd a b = some i) :
    wordRr func rd a b < 2 ^ 32 ∧ decodeTile pm t (wordRr func rd a b) = some i := by
  have h := decodeTile_wordRr pm t hf (low := 0) (by decide) rd a b
  rwa [Nat.add_zero, if_pos rfl, hi] at h

/-- R120: an immediate word. -/
theorem decodeTile_wordImm {func imm : Nat} (hf : func < 16) (himm : imm < 2 ^ 15) (rd a : Fin 32) :
    wordImm func rd a imm < 2 ^ 32 ∧
      decodeTile pm t (wordImm func rd a imm) = decodeImm t func rd a (BitVec.ofNat 15 imm) := by
  generalize hw : wordImm func rd a imm = w
  simp only [wordImm] at hw
  have hfmt : w >>> 29 % 8 = 1 := by rw [Nat.shiftRight_eq_div_pow]; omega
  have hfunc : w >>> 25 % 16 = func := by rw [Nat.shiftRight_eq_div_pow]; omega
  have hrd : fieldAt 32 w 20 = rd := fieldAt_eq (by omega)
  have ha : fieldAt 32 w 15 = a := fieldAt_eq (by omega)
  have hbits : bitsAt 15 w 0 = BitVec.ofNat 15 imm := bitsAt_eq (by rw [BitVec.toNat_ofNat]; omega)
  exact ⟨by omega, by simp only [decodeTile, hfmt, hfunc, hrd, ha, hbits]⟩

theorem decodeTile_wordImm_of {func imm : Nat} {rd a : Fin 32} {i : Instr} (hf : func < 16) (himm : imm < 2 ^ 15)
    (hi : decodeImm t func rd a (BitVec.ofNat 15 imm) = some i) :
    wordImm func rd a imm < 2 ^ 32 ∧ decodeTile pm t (wordImm func rd a imm) = some i := by
  rw [← hi]
  exact decodeTile_wordImm pm t hf himm rd a

/-- R120: a shift count is read back from the low 6 bits of the immediate. -/
theorem shiftCount_eq (sh : BitVec 6) :
    (if 64 ≤ (BitVec.ofNat 15 sh.toNat).toNat then none else some (BitVec.ofNat 6 (BitVec.ofNat 15 sh.toNat).toNat)) = some sh := by
  have hsh := sh.isLt
  rw [BitVec.toNat_ofNat, Nat.mod_eq_of_lt (by omega), if_neg (by omega), BitVec.ofNat_toNat, BitVec.setWidth_eq]

/-- R121: a memory word. -/
theorem decodeTile_wordMem {op rt sz : Nat} {base : Fin 32} {imm : BitVec 12} {i : Instr} (ho : op < 16) (hr : rt < 32) (hs : sz < 8)
    (hi : decodeMem t op sz ⟨rt, hr⟩ base imm = some i) :
    wordMem op rt base sz imm < 2 ^ 32 ∧ decodeTile pm t (wordMem op rt base sz imm) = some i := by
  generalize hw : wordMem op rt base sz imm = w
  simp only [wordMem] at hw
  have hfmt : w >>> 29 % 8 = 2 := by rw [Nat.shiftRight_eq_div_pow]; omega
  have hop : w >>> 25 % 16 = op := by rw [Nat.shiftRight_eq_div_pow]; omega
  have hsz : w >>> 12 % 8 = sz := by rw [Nat.shiftRight_eq_div_pow]; omega
  have hrt : fieldAt 32 w 20 = ⟨rt, hr⟩ := fieldAt_eq (by simp only []; omega)
  have hbase : fieldAt 32 w 15 = base := fieldAt_eq (by omega)
  have himm : bitsAt 12 w 0 = imm := bitsAt_eq (by omega)
  exact ⟨by omega, by simp only [decodeTile, hfmt, hop, hsz, hrt, hbase, himm, hi]⟩

/-- R126: a tensor-issue word that `decodeTensor` reads as `i`, whatever stands elsewhere. -/
theorem decodeTile_wordTensor {op : Nat} {da db : Fin 4} {set : Fin 2} {acc : Bool} {a b : Fin 32} {i : Instr} (ho : op < 8)
    (hi : ∀ w, w % 1024 = 0 → w >>> 26 % 8 = op → fieldAt 4 w 24 = da → fieldAt 4 w 22 = db → fieldAt 2 w 21 = set →
      w.testBit 20 = acc → fieldAt 32 w 15 = a → fieldAt 32 w 10 = b → decodeTensor t w = some i) :
    wordTensor op da db set acc a b < 2 ^ 32 ∧ decodeTile pm t (wordTensor op da db set acc a b) = some i := by
  generalize hw : wordTensor op da db set acc a b = w
  simp only [wordTensor] at hw
  have hacc := acc.toNat_lt
  have hfmt : w >>> 29 % 8 = 3 := by rw [Nat.shiftRight_eq_div_pow]; omega
  refine ⟨by omega, ?_⟩
  simp only [decodeTile, hfmt]
  exact hi w (by omega) (by rw [Nat.shiftRight_eq_div_pow]; omega) (fieldAt_eq (by omega)) (fieldAt_eq (by omega))
    (fieldAt_eq (by omega)) (testBit_eq (by omega)) (fieldAt_eq (by omega)) (fieldAt_eq (by omega))

/-- R129: a vector word, whose FMT2 and HALF are 0 but for VCVT. -/
theorem decodeTile_wordVector {op : Nat} {vd va vb vc : Fin 8} {fmt fmt2 : Fin 16} {half : Bool} {i : Instr} (ho : op < 64)
    (hi : ∀ w, w % 4 = 0 → w >>> 23 % 64 = op → fieldAt 8 w 20 = vd → fieldAt 8 w 17 = va → fieldAt 8 w 14 = vb →
      fieldAt 8 w 11 = vc → fieldAt 16 w 7 = fmt → fieldAt 16 w 3 = fmt2 → w.testBit 2 = half → decodeVector pm t w = some i) :
    wordVector op vd va vb vc fmt fmt2 half < 2 ^ 32 ∧
      decodeTile pm t (wordVector op vd va vb vc fmt fmt2 half) = some i := by
  generalize hw : wordVector op vd va vb vc fmt fmt2 half = w
  simp only [wordVector] at hw
  have hhalf := half.toNat_lt
  have hfmt : w >>> 29 % 8 = 4 := by rw [Nat.shiftRight_eq_div_pow]; omega
  refine ⟨by omega, ?_⟩
  simp only [decodeTile, hfmt]
  exact hi w (by omega) (by rw [Nat.shiftRight_eq_div_pow]; omega) (fieldAt_eq (by omega)) (fieldAt_eq (by omega))
    (fieldAt_eq (by omega)) (fieldAt_eq (by omega)) (fieldAt_eq (by omega)) (fieldAt_eq (by omega)) (testBit_eq (by omega))

/-- R129: a vector word with a scalar register. -/
theorem decodeTile_wordVecScalar {op : Nat} {vd va : Fin 8} {rs : Fin 32} {fmt : Fin 16} {i : Instr} (ho : op < 64)
    (hi : ∀ w, w % 4 = 0 → w >>> 23 % 64 = op → fieldAt 8 w 20 = vd → fieldAt 8 w 17 = va → fieldAt 32 w 12 = rs →
      fieldAt 16 w 7 = fmt → fieldAt 16 w 3 = 0 → w.testBit 2 = false → decodeVector pm t w = some i) :
    wordVecScalar op vd va rs fmt < 2 ^ 32 ∧ decodeTile pm t (wordVecScalar op vd va rs fmt) = some i := by
  generalize hw : wordVecScalar op vd va rs fmt = w
  simp only [wordVecScalar] at hw
  have hfmt : w >>> 29 % 8 = 4 := by rw [Nat.shiftRight_eq_div_pow]; omega
  refine ⟨by omega, ?_⟩
  simp only [decodeTile, hfmt]
  exact hi w (by omega) (by rw [Nat.shiftRight_eq_div_pow]; omega) (fieldAt_eq (by omega)) (fieldAt_eq (by omega))
    (fieldAt_eq (by omega)) (fieldAt_eq (by omega)) (fieldAt_eq (by rw [Fin.val_zero]; omega))
    (testBit_eq (by rw [Bool.toNat_false]; omega))

/-- R132: a synchronisation or control word. -/
theorem decodeTile_wordSync {op rest : Nat} {i : Instr} (ho : op < 32) (hr : rest < 2 ^ 24)
    (hi : ∀ w, w >>> 24 % 32 = op → w % 2 ^ 24 = rest → decodeSync t w = some i) :
    wordSync op rest < 2 ^ 32 ∧ decodeTile pm t (wordSync op rest) = some i := by
  generalize hw : wordSync op rest = w
  simp only [wordSync] at hw
  have hfmt : w >>> 29 % 8 = 5 := by rw [Nat.shiftRight_eq_div_pow]; omega
  refine ⟨by omega, ?_⟩
  simp only [decodeTile, hfmt]
  exact hi w (by rw [Nat.shiftRight_eq_div_pow]; omega) (by omega)

/-- R132: such a word with two registers above its 14 low bits. -/
theorem decodeTile_wordSync_regs {op rest low : Nat} {a b : Fin 32} {i : Instr} (ho : op < 32)
    (hrest : rest = a.val * 2 ^ 19 + b.val * 2 ^ 14 + low) (hl : low < 2 ^ 14)
    (hi : ∀ w, w >>> 24 % 32 = op → fieldAt 32 w 19 = a → fieldAt 32 w 14 = b → w % 2 ^ 14 = low → decodeSync t w = some i) :
    wordSync op rest < 2 ^ 32 ∧ decodeTile pm t (wordSync op rest) = some i :=
  decodeTile_wordSync pm t ho (by omega) fun w hop hw =>
    hi w hop (fieldAt_eq (by omega)) (fieldAt_eq (by omega)) (by omega)

/-- R132: a branch word. -/
theorem decodeTile_wordBranch {op : Nat} {a b : Fin 32} {imm : BitVec 14} {i : Instr} (ho : op < 32)
    (hi : ∀ w, w >>> 24 % 32 = op → fieldAt 32 w 19 = a → fieldAt 32 w 14 = b → bitsAt 14 w 0 = imm →
      decodeSync t w = some i) :
    wordBranch op a b imm < 2 ^ 32 ∧ decodeTile pm t (wordBranch op a b imm) = some i :=
  decodeTile_wordSync_regs pm t ho rfl imm.isLt fun w hop ha hb hw => hi w hop ha hb (bitsAt_eq (by omega))

end

/-- Settles O4: by the word's format. -/
theorem tileWordsRoundTrip : Obligations.TileWordsRoundTrip := by
  intro i t w ht hw
  cases i <;> cases ht
  case post a b k rel =>
    obtain ⟨hk, rfl⟩ : k.val < 2 ∧ _ = w := by simpa [encodeTile] using hw
    have hrel := rel.toNat_lt
    refine decodeTile_wordSync_regs _ t (by decide) (Nat.add_assoc ..) (by omega) fun w hop ha hb hw => ?_
    have hkind : fieldAt 4 w 12 = k := fieldAt_eq (by omega)
    have hbit : w.testBit 11 = rel := testBit_eq (by omega)
    have hlow : w % 2 ^ 11 = 0 := by omega
    have hres : w.testBit 13 = false := testBit_eq (by rw [Bool.toNat_false]; omega)
    simp only [decodeSync, hop, ha, hb, hkind, hbit, hlow, hres, and_self, if_true]
  case rdid rd sel =>
    obtain ⟨hsel, rfl⟩ : sel.val ≤ 10 ∧ _ = w := by simpa [encodeTile] using hw
    exact decodeTile_wordSync_regs _ t (by decide) (Nat.add_zero _).symm (by decide) fun w hop hrd hs hw => by
      simp only [decodeSync, hop, hrd, hs, hw, hsel, and_self, if_true]
  all_goals cases hw
  case add | sub | andRr | orRr | xorRr | sll | srl | sra | slt | sltu | mul | mulhu | minRr | maxRr | minu | maxu =>
    exact decodeTile_wordRr_of _ t (by decide) rfl
  case addi | andi | ori | xori | slti | shori =>
    exact decodeTile_wordImm_of _ t (by decide) (BitVec.isLt _) (by rw [BitVec.ofNat_toNat, BitVec.setWidth_eq]; rfl)
  case slli rd a sh | srli rd a sh | srai rd a sh =>
    exact decodeTile_wordImm_of _ t (by decide) (by omega) (by simp only [decodeImm, shiftCount_eq, Option.map_some])
  case ld rt base sz imm | ldu rt base sz imm | st rt base sz imm =>
    exact decodeTile_wordMem _ t (by decide) rt.isLt (by omega) (by simp [decodeMem, sz.isLt])
  case vld vt base imm | vst vt base imm =>
    exact decodeTile_wordMem _ t (by decide) (by omega) (by decide) (by simp [decodeMem, vt.isLt])
  case mma | mmas | drain =>
    exact decodeTile_wordTensor _ t (by decide) fun w h1 h2 h3 h4 h5 h6 h7 h8 => by
      simp [decodeTensor, *]
  case vbcast | vext =>
    exact decodeTile_wordVecScalar _ t (by decide) fun w h1 h2 h3 h4 h5 h6 h7 h8 => by
      simp [decodeVector, *]
  case beq | bne | blt | bge | bltu | bgeu | jalr =>
    exact decodeTile_wordBranch _ t (by decide) fun w hop ha hb himm => by simp [decodeSync, hop, ha, hb, himm]
  case jal rd i =>
    refine decodeTile_wordSync _ t (by decide) (by omega) fun w hop hw => ?_
    have hrd : fieldAt 32 w 19 = rd := fieldAt_eq (by omega)
    have hi : bitsAt 19 w 0 = i := bitsAt_eq (by omega)
    simp only [decodeSync, hop, hrd, hi]
  case wait rd a b c acq =>
    have hacq := acq.toNat_lt
    refine decodeTile_wordSync_regs _ t (low := b * 2 ^ 9 + c * 2 ^ 3 + acq.toNat * 2 ^ 2) (a := rd) (b := a) (by decide)
      (by omega) (by omega) fun w hop hrd ha hw => ?_
    have hb : fieldAt 32 w 9 = b := fieldAt_eq (by omega)
    have hc : fieldAt 64 w 3 = c := fieldAt_eq (by omega)
    have hbit : w.testBit 2 = acq := testBit_eq (by omega)
    have hlow : w % 4 = 0 := by omega
    simp only [decodeSync, hop, hrd, ha, hb, hc, hbit, hlow, if_true]
  case copy rd a b c =>
    refine decodeTile_wordSync_regs _ t (by decide) (Nat.add_assoc ..) (by omega) fun w hop hrd ha hw => ?_
    have hb : fieldAt 32 w 9 = b := fieldAt_eq (by omega)
    have hc : fieldAt 64 w 3 = c := fieldAt_eq (by omega)
    have hlow : w % 8 = 0 := by omega
    simp only [decodeSync, hop, hrd, ha, hb, hc, hlow, if_true]
  case fenceRelease | fenceAcquire | fenceFull =>
    refine decodeTile_wordSync _ t (by decide) (by omega) fun w hop hw => ?_
    have hmode : w >>> 22 % 4 = (w % 2 ^ 24) / 2 ^ 22 := by rw [Nat.shiftRight_eq_div_pow]; omega
    have hlow : ¬ w % 2 ^ 22 ≠ 0 := by omega
    simp only [decodeSync, hop, hmode, hw, hlow, if_false]
    rfl
  case tdld d i =>
    refine decodeTile_wordSync _ t (by decide) (by omega) fun w hop hw => ?_
    have hd : fieldAt 4 w 22 = d := fieldAt_eq (by omega)
    have hi : fieldAt 64 w 16 = i := fieldAt_eq (by omega)
    have hlow : w % 2 ^ 16 = 0 := by omega
    simp only [decodeSync, hop, hd, hi, hlow, if_true]
  case ltaSram rd a =>
    refine decodeTile_wordSync_regs _ t (by decide) (Nat.add_zero _).symm (by decide) fun w hop hrd ha hw => ?_
    have hwhat : w >>> 12 % 4 = 0 := by rw [Nat.shiftRight_eq_div_pow]; omega
    have hlow : ¬ w % 2 ^ 12 ≠ 0 := by omega
    simp only [decodeSync, hop, hrd, ha, hwhat, hlow, if_false]
  case ltaTil rd a =>
    refine decodeTile_wordSync_regs _ t (by decide) rfl (by decide) fun w hop hrd ha hw => ?_
    have hwhat : w >>> 12 % 4 = 1 := by rw [Nat.shiftRight_eq_div_pow]; omega
    have hlow : ¬ w % 2 ^ 12 ≠ 0 := by omega
    simp only [decodeSync, hop, hrd, ha, hwhat, hlow, if_false]
  case exit =>
    refine decodeTile_wordSync _ t (by decide) (by omega) fun w hop hw => ?_
    simp only [decodeSync, hop, hw, if_true]
  all_goals
    exact decodeTile_wordVector _ t (by decide) fun w h1 h2 h3 h4 h5 h6 h7 h8 h9 => by
      simp [decodeVector, poolMode, *]

end Sys2Proof
end

section

/-! PROOFS of the family "thread model": O6, O7, O8 and O9. Every scalar instruction is `State.alu` or `State.branch` of a ready slot. -/

namespace Sys2Proof.Machine

/-! ## The registers of a slot (R112, R114) -/

/-- R114: a vector register that an instruction wrote waits for nothing. -/
theorem ThreadSlot.vBusy_vput (th : ThreadSlot) (r : Nat) (w : BitVec 2048) : (th.vput r w).vBusy r = false := by
  simp only [ThreadSlot.vBusy, ThreadSlot.vput, ThreadSlot.vset, ThreadSlot.vdrop, List.any_map, List.any_eq_false, Function.comp]
  intro q _
  cases hk : q.kind with
  | vload vd => by_cases h : vd = r <;> simp [hk, h]
  | _ => simp [hk]

/-- Settles O6: by the law of each register operation. -/
theorem slotRegisters : Obligations.SlotRegisters := by
  intro th j k w v
  refine ⟨th.xget_zero, th.xset_zero w, fun hk => ?_, fun hj => ?_, ?_, fun hj => ?_, fun hk => ⟨?_, th.xBusy_xput k w⟩, fun hj => ?_,
    ?_, th.vBusy_vput k v, fun hj => ?_⟩
  · simp [ThreadSlot.xget_xset, hk]
  · simp [ThreadSlot.xget_xset, hj]
  · simp [ThreadSlot.vget_vset]
  · simp [ThreadSlot.vget_vset, hj]
  · simp [ThreadSlot.xget_xput, hk]
  · simp [ThreadSlot.xget_xput, hj]
  · simp [ThreadSlot.vget_vput]
  · simp [ThreadSlot.vget_vput, hj]

/-! ## Scalar instructions (R119, R120) -/

section
variable {s : State} {t : SlotId} {th : ThreadSlot} {c : Cmd}

/-- An instruction that leaves the slot of a ready thread as `th'` and touches nothing else. -/
theorem leads_setSlot {xs vs : List Nat} (hr : s.ready t th c xs vs) {i : Instr} {body : ThreadSlot → Cmd → State} {th' : ThreadSlot}
    (hexec : exec i s = .next (s.live (s.issue t xs vs body))) (hbody : body th c = s.setSlot (tkey t) th') :
    Leads i s fun s' => s'.slot (tkey t) = th' ∧ s.onlySlot s' (tkey t) :=
  ⟨_, by rw [hexec, State.live_of_running hr.1, State.issue_of_ready hr, hbody], s.slot_setSlot_same .., s.onlySlot_setSlot ..⟩

/-- R114, R119, R120: an instruction of a ready slot gives rd its value. -/
theorem rdReceives_alu {xs : List Nat} (hr : s.ready t th c xs []) {rd : Fin 32} {i : Instr} {f : ThreadSlot → Word}
    {P : Word → Prop} (hexec : exec i s = .next (s.live (s.alu t rd xs f))) (hP : P (f th)) : RdReceives s t th rd i P :=
  ⟨f th, hP, leads_setSlot hr hexec rfl⟩

end

theorem toNat_bool (p : Prop) [Decidable p] : (if p then (1 : Word) else 0).toNat = if p then 1 else 0 := by
  split <;> rfl

theorem toInt_sshiftRight_div (a : Word) (n : Nat) : (a.sshiftRight n).toInt = a.toInt / 2 ^ n := by
  rw [BitVec.toInt_sshiftRight, Int.shiftRight_eq_div_pow]
  norm_cast

/-- Settles O7: the words by their FUNC, the results by the law of each operation. -/
theorem scalarRegisterResults : Obligations.ScalarRegisterResults := by
  intro s t th c rd rs1 rs2 pm ops
  refine ⟨fun func hf low hl => ?_, fun hr => ?_⟩
  · have hops : decodeRr t func rd rs1 rs2 = ops[func]? := by interval_cases func <;> rfl
    rw [← hops]
    exact (decodeTile_wordRr pm t hf hl rd rs1 rs2).2
  intro a b n
  refine ⟨rdReceives_alu hr rfl ?_, rdReceives_alu hr rfl ?_, rdReceives_alu hr rfl ?_, rdReceives_alu hr rfl ?_,
    rdReceives_alu hr rfl ?_, rdReceives_alu hr rfl ?_, rdReceives_alu hr rfl ?_, rdReceives_alu hr rfl ?_,
    rdReceives_alu hr rfl ?_, rdReceives_alu hr rfl ?_, rdReceives_alu hr rfl ?_, rdReceives_alu hr rfl ?_,
    rdReceives_alu hr rfl ?_, rdReceives_alu hr rfl ?_, rdReceives_alu hr rfl ?_, rdReceives_alu hr rfl ?_⟩
  · exact BitVec.toNat_add a b
  · show ((a - b).toNat + b.toNat) % 2 ^ 64 = a.toNat
    rw [← BitVec.toNat_add, BitVec.sub_add_cancel]
  · exact fun k => BitVec.getLsbD_and
  · exact fun k => BitVec.getLsbD_or
  · exact fun k => BitVec.getLsbD_xor
  · show (a <<< n).toNat = _
    rw [BitVec.toNat_shiftLeft, Nat.shiftLeft_eq]
  · show (a >>> n).toNat = _
    rw [BitVec.toNat_ushiftRight, Nat.shiftRight_eq_div_pow]
  · exact toInt_sshiftRight_div a n
  · exact (toNat_bool _).trans (by simp only [BitVec.slt_iff_toInt_lt]; rfl)
  · exact (toNat_bool _).trans (by simp only [BitVec.ult_iff_toNat_lt]; rfl)
  · exact BitVec.toNat_mul a b
  · show (BitVec.ofNat 64 ((a.toNat * b.toNat) >>> 64)).toNat = _
    have hlt : a.toNat * b.toNat / 2 ^ 64 < 2 ^ 64 :=
      Nat.div_lt_of_lt_mul (Nat.mul_lt_mul'' a.isLt b.isLt)
    rw [BitVec.toNat_ofNat, Nat.shiftRight_eq_div_pow, Nat.mod_eq_of_lt hlt]
  · show (if b.slt a then b else a).toInt = min a.toInt b.toInt
    rw [apply_ite BitVec.toInt]
    simp only [BitVec.slt_iff_toInt_lt]
    split <;> omega
  · show (if a.slt b then b else a).toInt = max a.toInt b.toInt
    rw [apply_ite BitVec.toInt]
    simp only [BitVec.slt_iff_toInt_lt]
    split <;> omega
  · show (if b.ult a then b else a).toNat = min a.toNat b.toNat
    rw [apply_ite BitVec.toNat]
    simp only [BitVec.ult_iff_toNat_lt]
    split <;> omega
  · show (if a.ult b then b else a).toNat = max a.toNat b.toNat
    rw [apply_ite BitVec.toNat]
    simp only [BitVec.ult_iff_toNat_lt]
    split <;> omega

/-- Settles O8: imm15 sign-extended is the word of its value, a shift count stands in its low 6 bits. -/
theorem scalarImmediateResults : Obligations.ScalarImmediateResults := by
  intro s t th c rd rs1 imm pm sh ops
  refine ⟨fun func hf => ?_, fun hr => ?_⟩
  · have hops : decodeImm t func rd rs1 imm = if func ∈ [4, 5, 6] ∧ 64 ≤ imm.toNat then none else ops[func]? := by
      have hsh : BitVec.ofNat 6 imm.toNat = sh := BitVec.ofNat_toNat ..
      by_cases h : 64 ≤ imm.toNat <;> interval_cases func <;> simp [decodeImm, ops, h, hsh]
    have hdec := (decodeTile_wordImm pm t hf imm.isLt rd rs1).2
    rw [BitVec.ofNat_toNat, BitVec.setWidth_eq, hops] at hdec
    exact hdec
  intro a m
  refine ⟨rdReceives_alu hr rfl ?_, rdReceives_alu hr rfl ?_, rdReceives_alu hr rfl ?_, rdReceives_alu hr rfl ?_,
    rdReceives_alu hr rfl ?_, rdReceives_alu hr rfl ?_, rdReceives_alu hr rfl ?_, rdReceives_alu hr rfl ?_,
    rdReceives_alu hr rfl ?_⟩
  · show (a + imm.signExtend 64).toInt = _
    rw [BitVec.toInt_add, BitVec.toInt_signExtend_of_le (by decide)]
  · exact fun k => BitVec.getLsbD_and
  · exact fun k => BitVec.getLsbD_or
  · exact fun k => BitVec.getLsbD_xor
  · refine (toNat_bool _).trans ?_
    simp only [BitVec.slt_iff_toInt_lt, BitVec.toInt_signExtend_of_le (show 15 ≤ 64 by decide)]
    rfl
  · show (a <<< 15 ||| imm.setWidth 64).toNat = _
    have himm := imm.isLt
    rw [BitVec.toNat_or, BitVec.toNat_shiftLeft, BitVec.toNat_setWidth, Nat.mod_eq_of_lt (by omega : imm.toNat < 2 ^ 64),
      Nat.shiftLeft_eq, show (2 : Nat) ^ 64 = 2 ^ 49 * 2 ^ 15 by rfl, Nat.mul_mod_mul_right, ← Nat.shiftLeft_eq,
      ← Nat.shiftLeft_add_eq_or_of_lt himm]
  · show (a <<< sh.toNat).toNat = _
    rw [BitVec.toNat_shiftLeft, Nat.shiftLeft_eq]
  · show (a >>> sh.toNat).toNat = _
    rw [BitVec.toNat_ushiftRight, Nat.shiftRight_eq_div_pow]
  · exact toInt_sshiftRight_div a sh.toNat

/-! ## Branches and jumps (R132) -/

/-- R132: a branch of a ready slot goes by its comparison. -/
theorem branchesOn_branch {s : State} {t : SlotId} {th : ThreadSlot} {c : Cmd} {rs1 rs2 : Fin 32} {imm : BitVec 14}
    (hr : s.ready t th c [rs1, rs2] []) {i : Instr} {cmp : Word → Word → Bool} {P : Prop}
    (hexec : exec i s = .next (s.live (s.branch t rs1 rs2 imm cmp))) (hP : cmp (th.xget rs1) (th.xget rs2) = true ↔ P) :
    BranchesOn s t th imm i P := by
  obtain ⟨s', hs', hslot, honly⟩ := leads_setSlot hr hexec rfl
  refine ⟨s', hs', if cmp (th.xget rs1) (th.xget rs2) then branchTo th.pc imm.toInt else th.pc + 4, hslot.trans ?_, honly,
    fun h => if_pos (hP.2 h), fun h => if_neg fun hc => h (hP.1 hc)⟩
  split <;> rfl

/-- Settles O9: each branch by its comparison; a jump leaves its slot as one `State.setSlot`. -/
theorem branchesAndJumps : Obligations.BranchesAndJumps := by
  intro s t th c rs1 rs2 rd imm far a b
  refine ⟨fun hr => ?_, fun hr => leads_setSlot hr rfl rfl, fun hr halign => leads_setSlot hr rfl (if_neg (not_not.2 halign))⟩
  refine ⟨branchesOn_branch hr rfl ?_, branchesOn_branch hr rfl ?_, branchesOn_branch hr rfl ?_, branchesOn_branch hr rfl ?_,
    branchesOn_branch hr rfl ?_, branchesOn_branch hr rfl ?_⟩
  · exact beq_iff_eq
  · exact bne_iff_ne
  · exact BitVec.slt_iff_toInt_lt
  · rw [Bool.not_eq_true', ← Bool.not_eq_true, BitVec.slt_iff_toInt_lt, Int.not_lt]
  · exact BitVec.ult_iff_toNat_lt
  · rw [Bool.not_eq_true', ← Bool.not_eq_true, BitVec.ult_iff_toNat_lt, Nat.not_lt]

end Sys2Proof.Machine
end

section

/-! PROOFS of the family "thread model": O15 and O17. An instruction of a ready slot gives its slot one value, or ends its thread with
a fault. -/

namespace Sys2Proof.Machine

variable {s : State} {t : SlotId} {th : ThreadSlot} {c : Cmd} {xs vs : List Nat} {i : Instr}

/-! ## Faults (R117, R122) -/

theorem faultsWith_threadFault {status : Nat} (hexec : exec i s = .next (s.threadFault t th status)) : FaultsWith s t th i status :=
  ⟨_, hexec, s.slot_setSlot_same .., fun _ hj => s.slot_setSlot_ne _ hj, rfl, rfl⟩

theorem faultsWith_issue (hr : s.ready t th c xs vs) {body : ThreadSlot → Cmd → State} {status : Nat}
    (hexec : exec i s = .next (s.live (s.issue t xs vs body))) (hbody : body th c = s.threadFault t th status) :
    FaultsWith s t th i status :=
  faultsWith_threadFault (by rw [hexec, State.live_of_running hr.1, State.issue_of_ready hr, hbody])

/-- R117: a status other than that of an absent target is a fault of the thread. -/
theorem State.accessFault_ne {status : Nat} (h : status ≠ 8) (spans : List (Nat × Nat)) :
    s.accessFault t th status spans = s.threadFault t th status := if_neg fun h8 => h h8.1

/-- R134: outside the code region no instruction issues. -/
theorem State.issue_outside (hs : s.slot (tkey t) = th) (hc : s.cmd th.cmd = some c) (hp : c.phase = .running) (hl : th.live = true)
    (hi : c.inCode th.pc = false) (body : ThreadSlot → Cmd → State) : s.issue t xs vs body = s.threadFault t th 4 := by
  simp [State.issue, hs, hc, hp, hl, hi]

/-- R122: the status of a memory instruction of a ready slot that finds a request slot. -/
theorem faultsWith_memIssue (hr : s.ready t th c xs vs) (hacq : th.acqHeld = false) (hlen : th.reqs.length < 16) {wr : Bool}
    {ea : ThreadSlot → Nat} {n al status : Nat} {mk : ThreadSlot → ReqKind × List Byte}
    (hexec : exec i s = .next (s.live (s.memIssue t xs vs wr ea n al mk)))
    (hst : s.accessStatus (whoThread t th.cmd) wr (ea th) n al = status) (h0 : status ≠ 0) (h8 : status ≠ 8) :
    FaultsWith s t th i status := by
  refine faultsWith_issue hr hexec ?_
  simp [hacq, Nat.not_le.2 hlen, hst, h0, State.accessFault_ne h8]

/-- R122: a misaligned access. -/
theorem State.accessStatus_misaligned {who : Who} {wr : Bool} {ea n al : Nat} (h : ea % al ≠ 0) : s.accessStatus who wr ea n al = 3 :=
  if_pos h

/-- R122: an aligned access beyond 48 bits. -/
theorem State.accessStatus_beyond {who : Who} {wr : Bool} {ea n al : Nat} (h : ea % al = 0) (hea : 2 ^ 48 ≤ ea) :
    s.accessStatus who wr ea n al = 4 := (if_neg (not_not.2 h)).trans (if_pos hea)

/-- R136: the logical tile is none that the command holds. -/
theorem faultsWith_lta {rd rs1 : Fin 32} (hr : s.ready t th c [rs1] []) {f : Share → Nat}
    (hexec : exec i s = .next (s.live (s.lta t rd rs1 f))) (h : ∀ h ∈ c.shares, h.ltile ≠ (th.xget rs1).toNat) :
    FaultsWith s t th i 4 := by
  refine faultsWith_issue hr hexec ?_
  have hnone : c.shares.find? (fun h => decide (h.ltile = (th.xget rs1).toNat)) = none :=
    List.find?_eq_none.2 fun x hx => by simpa using h x hx
  simp only [hnone]

theorem threadFaults : ThreadFaults := by
  intro s t th c rt base rs1 sz imm far a n
  refine ⟨fun hr hacq hlen => ⟨fun hmis => ?_, fun hal hbig => ?_⟩, fun hr hacq hlen => ⟨fun hmis => ?_, fun hal hbig => ?_⟩,
    fun hr => ⟨fun hmis => ?_, fun hnone => ?_⟩, fun hf hs hc hp hl hi => ?_⟩
  · have hst := State.accessStatus_misaligned (s := s) (who := whoThread t th.cmd) (wr := false) (n := n) hmis
    exact ⟨faultsWith_memIssue hr hacq hlen rfl hst (by decide) (by decide),
      faultsWith_memIssue hr hacq hlen rfl hst (by decide) (by decide)⟩
  · have hst := State.accessStatus_beyond (s := s) (who := whoThread t th.cmd) (wr := false) (n := n) hal hbig
    exact ⟨faultsWith_memIssue hr hacq hlen rfl hst (by decide) (by decide),
      faultsWith_memIssue hr hacq hlen rfl hst (by decide) (by decide)⟩
  · exact faultsWith_memIssue hr hacq hlen rfl (State.accessStatus_misaligned hmis) (by decide) (by decide)
  · exact faultsWith_memIssue hr hacq hlen rfl (State.accessStatus_beyond hal hbig) (by decide) (by decide)
  · exact faultsWith_issue hr rfl (if_pos hmis)
  · exact ⟨faultsWith_lta hr rfl hnone, faultsWith_lta hr rfl hnone⟩
  · have hissue := fun xs => State.issue_outside (xs := xs) (vs := []) hs hc hp hl hi
    exact ⟨faultsWith_threadFault (congrArg Host.Outcome.next ((State.live_of_running hf _).trans (hissue ..))),
      faultsWith_threadFault (congrArg Host.Outcome.next ((State.live_of_running hf _).trans (hissue ..)))⟩

/-! ## Formats (R118, R130) -/

/-- R130: a vector operation in a format it does not take. -/
theorem faultsWith_vecOp (hr : s.ready t th c [] vs) {vd : Fin 8} {fmt : Fin 16} {ok : List Fmt}
    {op : ThreadSlot → Fmt → ArithCtl → BitVec 2048 × BitVec 8} (hexec : exec i s = .next (s.live (s.vecOp t vd vs fmt ok op)))
    (h : ∀ f, fmtOf fmt = some f → f ∉ ok) : FaultsWith s t th i 0x0C := by
  refine faultsWith_issue hr hexec ?_
  cases hf : fmtOf fmt with
  | none => rfl
  | some f => simp [h f hf]

section
variable {vd va vb vc : Fin 8} {fmt : Fin 16} {mode : Nat} (hr : s.ready t th c [] [va, vb, vc])
  (hexec : exec i s = .next (s.live (s.vecPoolOp t vd va vb vc fmt mode)))
include hr hexec

/-- R275: a VPOOL in a format it does not take. -/
theorem faultsWith_vecPoolOp_format (h : ∀ f, fmtOf fmt = some f → f ∉ [Fmt.int8, .fp16, .bf16]) : FaultsWith s t th i 0x0C := by
  refine faultsWith_issue hr hexec ?_
  cases hf : fmtOf fmt with
  | none => rfl
  | some f =>
    have hno : ¬ (f = .int8 ∨ f = .fp16 ∨ f = .bf16) := by simpa using h f hf
    simp only [if_neg hno]

/-- R274: a VPOOL whose control word is not legal. -/
theorem faultsWith_vecPoolOp_control {f : Fmt} (hf : fmtOf fmt = some f) (hok : f ∈ [Fmt.int8, .fp16, .bf16])
    (h : (poolCtl (2048 / (16 * f.width)) ((th.vget vc).toNat % 65536)).legal = false) : FaultsWith s t th i 0x0F := by
  refine faultsWith_issue hr hexec ?_
  have hyes : f = .int8 ∨ f = .fp16 ∨ f = .bf16 := by simpa using hok
  simp [hf, hyes, h]

end

theorem vectorFormatFaults : VectorFormatFaults := by
  intro s t th c vd va vb vc fmt hr
  refine ⟨fun h => ⟨faultsWith_vecOp (hr.mono (by simp) (by simp)) rfl h, faultsWith_vecOp hr rfl h⟩,
    fun h => faultsWith_vecPoolOp_format hr rfl h, fun f hf hok h => ?_⟩
  exact ⟨faultsWith_vecPoolOp_control hr rfl hf hok h, faultsWith_vecPoolOp_control hr rfl hf hok h⟩

/-- Settles O15. -/
theorem threadFaultsAndFormats : Obligations.ThreadFaultsAndFormats := ⟨threadFaults, vectorFormatFaults⟩

/-! ## Descriptors, identity, logical tiles and the end of a thread (R116, R118, R132, R133, R136) -/

theorem rdReceives_issue (hr : s.ready t th c xs vs) {rd : Fin 32} {body : ThreadSlot → Cmd → State} {v : Word} {P : Word → Prop}
    (hexec : exec i s = .next (s.live (s.issue t xs vs body))) (hbody : body th c = s.setSlot (tkey t) (th.xput rd v).pc4)
    (hP : P v) : RdReceives s t th rd i P :=
  ⟨v, hP, leads_setSlot hr hexec hbody⟩

/-- R136: the base of the physical tile that runs a logical tile of the command. -/
theorem rdReceives_lta {rd rs1 : Fin 32} (hr : s.ready t th c [rs1] []) {f : Share → Nat}
    (hexec : exec i s = .next (s.live (s.lta t rd rs1 f))) {h : Share} (hh : h ∈ c.shares) (hl : h.ltile = (th.xget rs1).toNat)
    (huniq : ∀ g ∈ c.shares, g.ltile = h.ltile → g = h) : RdReceives s t th rd i fun x => x = BitVec.ofNat 64 (f h) := by
  refine rdReceives_issue hr hexec ?_ rfl
  cases hfind : c.shares.find? (fun h => decide (h.ltile = (th.xget rs1).toNat)) with
  | none => exact absurd hl (by simpa using List.find?_eq_none.1 hfind h hh)
  | some g =>
    have hg : g.ltile = (th.xget rs1).toNat := by simpa using List.find?_some hfind
    simp only [huniq g (List.mem_of_find?_eq_some hfind) (hg.trans hl.symm)]

/-- R132: a descriptor is the number of its 32 bytes. -/
theorem State.num_lt (s : State) (a n : Nat) : s.num a n < 256 ^ n := by
  have h := leNat_lt (s.bytes a n)
  rwa [State.bytes, List.length_map, List.length_range] at h

/-- R133, R412: the copy of the time base that a die reads. -/
theorem State.readCopy_bounds (s : State) (d : Nat) :
    s.now ≤ (s.readCopy d).1 + 20 ∧ readAt (fun _ => 0) s.tbCopy d ≤ (s.readCopy d).1
      ∧ (readAt (fun _ => 0) s.tbCopy d ≤ s.now + 20 → (s.readCopy d).1 ≤ s.now + 20) := by
  simp only [State.readCopy, State.draw]
  omega

/-- Settles O17. -/
theorem controlInstructions : Obligations.ControlInstructions := by
  intro s t th c rd rs1 dreg idx w
  refine ⟨fun hr hidx => ?_, fun hr sel v hv => ?_, fun hr => ?_, fun hr h hh hl huniq => ?_, fun hr => ⟨?_, fun hw => ?_⟩⟩
  · obtain ⟨s', hs', hslot, honly⟩ := leads_setSlot hr (i := .tdld t dreg idx) rfl (if_neg (Nat.not_le.2 hidx))
    exact ⟨s', hs', _, by rw [BitVec.toNat_ofNat]; exact Nat.mod_eq_of_lt (s.num_lt _ 32), hslot, honly⟩
  · simp only [List.mem_cons, Prod.mk.injEq, List.not_mem_nil, or_false] at hv
    obtain ⟨hsel, rfl⟩ | ⟨hsel, rfl⟩ | ⟨hsel, rfl⟩ | ⟨hsel, rfl⟩ | ⟨hsel, rfl⟩ | ⟨hsel, rfl⟩ | ⟨hsel, rfl⟩ | ⟨hsel, rfl⟩
      | ⟨hsel, rfl⟩ | ⟨hsel, rfl⟩ := hv
    all_goals exact rdReceives_issue hr rfl (by simp only [hsel]) rfl
  · obtain ⟨hrun, -⟩ := id hr
    refine ⟨(s.readCopy t.die).2.setSlot (tkey t) (th.xput rd (BitVec.ofNat 64 (s.readCopy t.die).1)).pc4, ?_, (s.readCopy t.die).1,
      State.slot_setSlot_same .., s.readCopy_bounds t.die⟩
    exact congrArg Host.Outcome.next ((State.live_of_running hrun _).trans (State.issue_of_ready hr _))
  · exact ⟨rdReceives_lta (f := fun h => tileBase h.die h.lea h.tile) hr rfl hh hl huniq,
      rdReceives_lta (f := fun h => aTil h.die h.lea h.tile 0) hr rfl hh hl huniq⟩
  · exact leads_setSlot hr rfl rfl
  · exact faultsWith_issue hr rfl (if_pos (by rw [hw]; rfl))

end Sys2Proof.Machine
end

section

/-! PROOFS of the family "thread model": O14. The lanes of INT16 are integers of 16 bits; every move of lanes ends in `State.vecDone`,
but for VEXT, which writes a scalar register. -/

namespace Sys2Proof.Machine

/-! ## The lanes of a register (R129) -/

theorem packBits_lane (n : Nat) (l : List Nat) (k : Nat) : packBits n l >>> (n * k) % 2 ^ n = l.getD k 0 % 2 ^ n := by
  induction l generalizing k with
  | nil => simp [packBits]
  | cons x l ih =>
    cases k with
    | zero => simp [packBits]
    | succ k =>
      have hdrop : packBits n (x :: l) >>> n = packBits n l := by
        rw [packBits, Nat.shiftRight_eq_div_pow, Nat.add_mul_div_left _ _ (Nat.two_pow_pos n),
          Nat.div_eq_of_lt (Nat.mod_lt _ (Nat.two_pow_pos n)), Nat.zero_add]
      rw [Nat.mul_succ, Nat.add_comm, Nat.shiftRight_add, hdrop, ih, List.getD_cons_succ]

theorem packBits_lt (n : Nat) (l : List Nat) : packBits n l < 2 ^ (n * l.length) := by
  induction l with
  | nil => simp [packBits]
  | cons x l ih =>
    have hx := Nat.mod_lt x (Nat.two_pow_pos n)
    rw [packBits, List.length_cons, Nat.mul_succ, Nat.add_comm (n * l.length), Nat.pow_add]
    calc x % 2 ^ n + 2 ^ n * packBits n l < 2 ^ n * (packBits n l + 1) := by rw [Nat.mul_succ]; omega
      _ ≤ 2 ^ n * 2 ^ (n * l.length) := Nat.mul_le_mul_left _ ih

/-- A lane of a register put together from its lanes. -/
theorem getD_lanes_unlanes {n : Nat} {l : List Nat} (hl : n * l.length = 2048) {k : Nat} (hk : k < 2048 / n) :
    (lanes n (unlanes n l)).getD k 0 = l.getD k 0 % 2 ^ n := by
  have hbits : (unlanes n l).toNat = packBits n l := Nat.mod_eq_of_lt (hl ▸ packBits_lt n l)
  rw [lanes, List.getD_eq_getElem _ _ (by simpa using hk), List.getElem_map, List.getElem_range, hbits, packBits_lane]

/-- R129: a lane of a two-operand operation. -/
theorem getD_lanes_vec2 (f : Fmt) (A : ArithCtl) (a b : BitVec 2048) (op : Num → Num → Num) {k : Nat}
    (hn : laneBits f * (2048 / laneBits f) = 2048) (hk : k < 2048 / laneBits f) :
    (lanes (laneBits f) (vec2 f A a b op).1).getD k 0
      = (laneResult f A (op (laneRead f A ((lanes (laneBits f) a).getD k 0)).1
          (laneRead f A ((lanes (laneBits f) b).getD k 0)).1)).val % 2 ^ laneBits f := by
  simp only [vec2, laneMap]
  rw [getD_lanes_unlanes (by simpa using hn) hk, List.getD_eq_getElem _ _ (by simpa using hk)]
  simp

/-! ## INT16 (R130) -/

/-- The exact value of an integer. -/
def intNum (i : Int) : Num := .fin (decide (i < 0)) i.natAbs 0

theorem laneRead_int16 (A : ArithCtl) (w : Nat) : (laneRead .int16 A w).1 = intNum (sext 16 w) := by
  have hw : sext 16 (w % 2 ^ 16) = sext 16 w := by simp [sext]
  show intNum (sext 16 (w % 2 ^ 16)) = _
  rw [hw]

/-- The sign and the magnitude of an integer give it back; with the sign turned, its negation. -/
theorem signed_natAbs (x : Int) : (if decide (x < 0) = true then -(x.natAbs : Int) else x.natAbs) = x := by
  by_cases h : x < 0 <;> simp only [h, decide_true, decide_false, if_true, Bool.false_eq_true, if_false] <;> omega

theorem signed_natAbs_not (x : Int) : (if (!decide (x < 0)) = true then -(x.natAbs : Int) else x.natAbs) = -x := by
  by_cases h : x < 0 <;>
    simp only [h, decide_true, decide_false, Bool.not_true, Bool.not_false, if_true, Bool.false_eq_true, if_false] <;> omega

theorem signed_mul_natAbs (x y : Int) :
    (if (decide (x < 0) != decide (y < 0)) = true then -1 else 1) * ((x.natAbs * y.natAbs : Nat) : Int) = x * y := by
  rw [Nat.cast_mul]
  rcases lt_or_ge x 0 with hx | hx <;> rcases lt_or_ge y 0 with hy | hy <;>
    simp [hx, hy, Int.not_lt.2, abs_of_neg, abs_of_nonneg]

theorem sext_wrap16 {v : Int} (h1 : -32768 ≤ v) (h2 : v ≤ 32767) : sext 16 (wrap 16 v % 2 ^ 16) = v := by
  have hw : (wrap 16 v : Int) = v % 65536 := Int.toNat_of_nonneg (Int.emod_nonneg _ (by decide))
  simp only [sext, Nat.reducePow, Nat.reduceSub, Nat.mod_mod]
  split <;> omega

/-- R130: an INT16 lane whose exact result, of sign `neg` and magnitude `m`, lies in the format. -/
theorem laneResult_int16 (A : ArithCtl) {neg : Bool} {m : Nat} {v : Int} (hv : (if neg then -1 else 1) * (m : Int) = v)
    (h1 : -32768 ≤ v) (h2 : v ≤ 32767) : (laneResult .int16 A (.fin neg m 0)).val = wrap 16 v := by
  subst hv
  simp only [laneResult, Int.toNat_zero, Nat.shiftLeft_zero]
  rw [if_neg (by omega)]

/-- R129, R130: the sum of two integers of either sign. -/
theorem laneResult_add (A : ArithCtl) {p q : Bool} {m n : Nat} {v : Int}
    (hv : (if p then -(m : Int) else m) + (if q then -(n : Int) else n) = v) (h1 : -32768 ≤ v) (h2 : v ≤ 32767) :
    (laneResult .int16 A ((Num.fin p m 0).add (.fin q n 0))).val = wrap 16 v := by
  simp only [Num.add, min_self, Int.sub_self, Int.toNat_zero, Nat.shiftLeft_zero, hv]
  refine laneResult_int16 A ?_ h1 h2
  by_cases h0 : v = 0
  · simp [h0]
  · by_cases hneg : v < 0 <;> simp only [h0, hneg, decide_true, decide_false, if_true, if_false, Bool.false_eq_true] <;> omega

theorem vectorIntegerLanes : VectorIntegerLanes := by
  intro A a b k x y hk hx hy
  have hlane := fun op => getD_lanes_vec2 .int16 A a b op (k := k) rfl hk
  simp only [laneRead_int16] at hlane
  have key : ∀ (op : Num → Num → Num) (v : Int), (laneResult .int16 A (op (intNum x) (intNum y))).val = wrap 16 v →
      -32768 ≤ v → v ≤ 32767 → sext 16 ((lanes 16 (vec2 .int16 A a b op).1).getD k 0) = v := by
    intro op v hop h1 h2
    have h := hlane op
    simp only [laneBits] at h
    rw [h, ← hx, ← hy, hop]
    exact sext_wrap16 h1 h2
  refine ⟨fun h1 h2 => key _ _ ?_ h1 h2, fun h1 h2 => key _ _ ?_ h1 h2, fun h1 h2 => key _ _ ?_ h1 h2⟩
  · exact laneResult_add A (by rw [signed_natAbs, signed_natAbs]) h1 h2
  · exact laneResult_add A (by rw [signed_natAbs, signed_natAbs_not, Int.sub_eq_add_neg]) h1 h2
  · exact laneResult_int16 A (signed_mul_natAbs x y) h1 h2

/-! ## Moves of lanes (R131, R273 to R277) -/

section
variable {s : State} {t : SlotId} {th : ThreadSlot} {c : Cmd} {xs vs : List Nat} {i : Instr}

/-- R129: a body that ends in `State.vecDone`, of a slot and a state that differ in nothing that the result shows. -/
theorem vdReceives_vecDone (hr : s.ready t th c xs vs) {body : ThreadSlot → Cmd → State}
    (hexec : exec i s = .next (s.live (s.issue t xs vs body))) {u : State} {th' : ThreadSlot} {vd : Fin 8} {f : Fmt}
    {r : BitVec 2048 × BitVec 8} (hbody : body th c = u.vecDone t th' vd f r) (hth : th'.cmd = th.cmd)
    (hu : u = { s with free := u.free }) : VdReceives s t th' c vd i r := by
  obtain ⟨hrun, -, hcmd, -⟩ := id hr
  have hslot : u.slot = s.slot := State.slot_congr (by rw [hu])
  have hsched : u.cmd = s.cmd := State.cmd_congr (by rw [hu])
  have hmem : u.mem = s.mem := by rw [hu]
  obtain ⟨h1, h2, h3, h4⟩ := State.vecDone_spec (s := u) (t := t) (th := th') (c := c) vd f r (by rw [hsched, hth, hcmd])
  exact ⟨_, by rw [hexec, State.live_of_running hrun, State.issue_of_ready hr, hbody], h1, fun k hk => (h2 k hk).trans (by rw [hslot]),
    h3, h4.trans hmem⟩

/-- R273 to R275: a VPOOL whose control word is legal and names the operation. -/
theorem vdReceives_vecPoolOp {vd va vb vc : Fin 8} {fmt : Fin 16} {f : Fmt} {mode : Nat} (hr : s.ready t th c [] [va, vb, vc])
    (hexec : exec i s = .next (s.live (s.vecPoolOp t vd va vb vc fmt mode))) (hf : fmtOf fmt = some f)
    (hok : f ∈ [Fmt.int8, .fp16, .bf16]) :
    let pc := poolCtl (2048 / (16 * f.width)) ((th.vget vc).toNat % 65536)
    let pool := vecPool f c.arith pc (th.vget va) (th.vget vb) th.lfsr
    pc.legal = true → pc.mode = mode → VdReceives s t { th with lfsr := pool.2.2 } c vd i (pool.1, pool.2.1) := by
  intro pc pool hlegal hmode
  have hyes : f = .int8 ∨ f = .fp16 ∨ f = .bf16 := by simpa using hok
  refine vdReceives_vecDone hr (u := s) (f := .fp16) hexec ?_ rfl rfl
  simp only [hf, if_pos hyes]
  rw [if_neg (by simpa using hlegal), if_neg (not_not.2 hmode)]
  rfl

/-- R114, R129: what VEXT leaves: rd, the flags of the command, and nothing of another slot or of memory. -/
theorem State.vecExt_spec {th' : ThreadSlot} (h : s.cmd th.cmd = some c) (f : Fmt) (fl : BitVec 8) :
    let s' := ((s.setSlot (tkey t) th').addFlags th.cmd fl).vecChecked t f
    s'.slot (tkey t) = th' ∧ (∀ k, k ≠ tkey t → s'.slot k = s.slot k) ∧ s'.mem = s.mem
      ∧ s'.cmd th.cmd = some { c with flags := c.flags ||| fl } := by
  intro s'
  have hflags := State.addFlags_only (s.setSlot (tkey t) th') th.cmd fl
  have hcheck := State.vecChecked_only ((s.setSlot (tkey t) th').addFlags th.cmd fl) t f
  have hslots : s'.slot = (s.setSlot (tkey t) th').slot := State.slot_congr (hcheck.slots.trans hflags.slots)
  refine ⟨by rw [hslots, State.slot_setSlot_same], fun k hk => by rw [hslots, State.slot_setSlot_ne _ _ hk],
    hcheck.mem.trans hflags.mem, ?_⟩
  rw [State.cmd_congr hcheck.sched]
  exact State.cmd_addFlags fl h

end

theorem vectorMoves : VectorMoves := by
  intro s t th c vd va vb vc rs fmt fmt2 half f g hf hg a b A pc pool bfly cast lane int
  refine ⟨fun hr => ?_, fun hr hok => ?_, fun hr hok hlegal => ?_, fun hr hok => ?_, fun hr hok => ?_⟩
  · let x : Nat × State := if f.width * 2 < g.width then s.draw 1 else (0, s)
    refine ⟨x.1, vdReceives_vecDone hr (u := x.2) (f := f) rfl ?_ ?_ ?_⟩
    · simp only [hf, hg]; rfl
    · split <;> rfl
    · simp only [x]; split <;> rfl
  · have hfs : f = .fp16 ∨ f = .bf16 := by simpa using hok
    obtain rfl | rfl := hfs
    · exact vdReceives_vecDone hr (u := s) (f := .fp16) rfl (by rw [hf]) rfl rfl
    · exact vdReceives_vecDone hr (u := s) (f := .bf16) rfl (by rw [hf]) rfl rfl
  · exact ⟨vdReceives_vecPoolOp hr rfl hf hok hlegal, vdReceives_vecPoolOp hr rfl hf hok hlegal,
      vdReceives_vecPoolOp hr rfl hf hok hlegal⟩
  · exact vdReceives_vecDone hr (u := s) (f := f) rfl (by simp only [hf, if_pos hok]; rfl) rfl rfl
  · obtain ⟨hrun, -, hcmd, -⟩ := id hr
    refine ⟨_, congrArg Host.Outcome.next ((State.live_of_running hrun _).trans (State.issue_of_ready hr _)), ?_⟩
    simp only [hf, if_pos hok]
    exact State.vecExt_spec hcmd f _

/-- Settles O14. -/
theorem vectorMovesAndLanes : Obligations.VectorMovesAndLanes := ⟨vectorIntegerLanes, vectorMoves⟩

end Sys2Proof.Machine
end

section

/-! PROOFS of the family "thread model": O10. A memory instruction of a ready slot enters its request and sends its frames; frames are
sent through the fabric's state and registers alone. -/

namespace Sys2Proof.Machine

/-! ## Frames to other modules (R516, R517) -/

/-- Nothing but the fabric's state and registers differs. -/
def State.colRegsOnly (s t : State) : Prop := t = { s with col := t.col, regs := t.regs }

theorem State.colRegsOnly.trans {s t u : State} (h : s.colRegsOnly t) (k : t.colRegsOnly u) : s.colRegsOnly u := by
  unfold State.colRegsOnly at *; rw [k, h]

theorem State.colRegsOnly_foldl {β : Type} {f : State → β → State} (hf : ∀ (s : State) x, s.colRegsOnly (f s x)) (l : List β) (s : State) :
    s.colRegsOnly (l.foldl f s) := by
  induction l generalizing s with
  | nil => rfl
  | cons x l ih => exact (hf s x).trans (ih _)

theorem State.colRegsOnly.ite {s t u : State} {p : Prop} [Decidable p] (h : s.colRegsOnly t) (k : s.colRegsOnly u) :
    s.colRegsOnly (if p then t else u) := by
  split <;> assumption

/-- R517: a frame sent, or one that finds no port. -/
theorem State.colTo_only (s : State) (dst : Nat) (o : ColOut) : s.colRegsOnly (s.colTo dst o) := by
  unfold State.colTo
  split
  · exact .ite rfl rfl
  · rfl

theorem State.remoteFrames_only (s : State) (wr : Bool) (a n : Nat) (bs : List Byte) (cls task : Nat) :
    s.colRegsOnly (s.remoteFrames wr a n bs cls task) := by
  unfold State.remoteFrames
  split
  · rfl
  · exact State.colRegsOnly_foldl (fun s _ => s.colTo_only _ _) _ s

/-- R150, R516: a request to another module. -/
theorem State.remoteSend_only (s : State) (r : Option CmdRef) (slot a n : Nat) (wr : Bool) (bs : List Byte) :
    s.colRegsOnly (s.remoteSend r slot a n wr bs) := by
  have hissue : s.colRegsOnly (s.remoteIssue slot a n wr) := by
    rw [State.colRegsOnly, s.remoteIssue_only]
  simp only [State.remoteSend]
  split
  · exact hissue
  · exact hissue.trans (State.remoteFrames_only ..)

/-- R150: an access of the module's own memory sends nothing. -/
theorem State.remoteSend_local (s : State) (r : Option CmdRef) (slot : Nat) {a : Nat} (n : Nat) (wr : Bool) (bs : List Byte)
    (h : a < 0x400000000000) : s.remoteSend r slot a n wr bs = s := by
  simp only [State.remoteSend, s.remoteIssue_local slot n wr h, if_true]

/-! ## Memory instructions (R121 to R123) -/

section
variable {s : State} {t : SlotId} {th : ThreadSlot} {c : Cmd} {xs vs : List Nat} {i : Instr}

/-- The slot that enters a request, before its frames are sent, and after. -/
theorem takesRequest_of_exec {u : State} {q : MemReq}
    (hexec : exec i s = .next u) (hu : (s.setSlot (tkey t) { th with reqs := th.reqs ++ [q] }.pc4).colRegsOnly u)
    (hlocal : q.addr < 0x400000000000 → u = s.setSlot (tkey t) { th with reqs := th.reqs ++ [q] }.pc4) : TakesRequest s t th i q := by
  have hslot : u.slot = (s.setSlot (tkey t) { th with reqs := th.reqs ++ [q] }.pc4).slot := State.slot_congr (by rw [hu])
  refine ⟨u, hexec, by rw [hslot, State.slot_setSlot_same], fun j hj => by rw [hslot, State.slot_setSlot_ne _ _ hj],
    by rw [show u.slots = (s.setSlot (tkey t) { th with reqs := th.reqs ++ [q] }.pc4).slots by rw [hu]]; exact hu, fun h => ?_⟩
  rw [hlocal h]
  exact ⟨rfl, rfl⟩

/-- R122: an aligned access of 48 bits has the status that its memory gives it. -/
theorem State.accessStatus_aligned {who : Who} {wr : Bool} {ea n al : Nat} (h : ea % al = 0) (hea : ea < 2 ^ 48) :
    s.accessStatus who wr ea n al = s.access who wr ea n := (if_neg (not_not.2 h)).trans (if_neg (Nat.not_le.2 hea))

/-- R114, R121: the slot whose register a load will write: what an earlier load would bring it is not seen any more. -/
def ThreadSlot.loading (th : ThreadSlot) : ReqKind → ThreadSlot
  | .load rd _ _ => th.xdrop rd
  | .vload vd => th.vdrop vd
  | _ => th

/-- R122, R123, R147: an access that is allowed and that nothing holds. -/
theorem takesRequest_memIssue (hr : s.ready t th c xs vs) {wr : Bool} {ea : ThreadSlot → Nat} {n al : Nat}
    {mk : ThreadSlot → ReqKind × List Byte} (hexec : exec i s = .next (s.live (s.memIssue t xs vs wr ea n al mk)))
    (hal : ea th % al = 0)
    (hmay : th.acqHeld = false ∧ th.reqs.length < 16 ∧ ea th < 2 ^ 48 ∧ s.access (whoThread t th.cmd) wr (ea th) n = 0
      ∧ (wr = true → stepsBar t th (ea th) n = false) ∧ (0x400000000000 ≤ ea th → s.tagsOut = false)) :
    TakesRequest s t (th.loading (mk th).1) i ⟨(mk th).1, ea th, n, (mk th).2, s.now⟩ := by
  obtain ⟨hacq, hlen, hea, haccess, hbar, htags⟩ := hmay
  obtain ⟨hrun, -⟩ := id hr
  have hheld : ¬ (th.acqHeld || decide (16 ≤ th.reqs.length)) = true := by simp [hacq, hlen]
  have hst : ¬ s.accessStatus (whoThread t th.cmd) wr (ea th) n al ≠ 0 :=
    not_not.2 ((State.accessStatus_aligned hal hea).trans haccess)
  have hstall : ¬ ((wr && stepsBar t th (ea th) n) || (decide (0x400000000000 ≤ ea th) && s.tagsOut)) = true := by
    simpa using ⟨hbar, htags⟩
  refine takesRequest_of_exec ?_ (State.remoteSend_only _ (some (th.loading (mk th).1).cmd) (tkey t) (ea th) n wr
    (mk th).2) fun h => State.remoteSend_local _ _ _ _ _ _ h
  rw [hexec, State.live_of_running hrun, State.memIssue, State.issue_of_ready hr]
  simp only [if_neg hheld, if_neg hst, if_neg hstall]
  rfl

end

/-- R121: the effective address is base plus imm12, sign-extended, in 64 bits. -/
theorem ThreadSlot.ea_eq (th : ThreadSlot) (base : Nat) (imm : BitVec 12) :
    (th.ea base imm : Int) = ((th.xget base).toInt + imm.toInt) % 2 ^ 64 := by
  rw [ThreadSlot.ea, BitVec.toNat_add, ← BitVec.toInt_signExtend_of_le (show 12 ≤ 64 by decide), BitVec.toInt_eq_toNat_cond,
    BitVec.toInt_eq_toNat_cond]
  omega

/-- Settles O10. -/
theorem memoryAccessesTakeRequests : Obligations.MemoryAccessesTakeRequests := by
  intro s t th c rt base vt sz imm a n may
  refine ⟨th.ea_eq base imm, fun hr hal hmay => ⟨?_, ?_⟩, fun hr hal hmay => ?_, fun hr hal hmay => ?_, fun hr hal hmay => ?_⟩
  · exact takesRequest_memIssue hr (i := .ld t rt base sz imm) rfl hal hmay
  · exact takesRequest_memIssue hr (i := .ldu t rt base sz imm) rfl hal hmay
  · exact takesRequest_memIssue hr (i := .st t rt base sz imm) rfl hal hmay
  · exact takesRequest_memIssue hr (i := .vld t vt base imm) rfl hal hmay
  · exact takesRequest_memIssue hr (i := .vst t vt base imm) rfl hal hmay

end Sys2Proof.Machine
end

section

/-! PROOFS of the family "thread model": O16. A post that arrives writes its counter and then the waits of the eight slots of its tile,
one after the other. -/

namespace Sys2Proof.Machine

/-! ## Counters and the waits on them (R137, R141, R143) -/

/-- R137: a counter lies in the block of its tile. -/
theorem blockAt_of_syncAt {a d l ti n : Nat} (h : syncAt a = some (d, l, ti, n)) : blockAt a = some (.til d l ti) := by
  unfold syncAt at h
  split at h
  · next hb =>
    dsimp only at h
    split at h
    · cases h; exact hb
    · cases h
  · cases h

theorem blockAt_aMdw {d o : Nat} (hd : d < 4) (ho : o < 0x10000) : blockAt (aMdw d o) = some (.mdw d) := by
  have hbase : aMdw d o = valeBase + ((d + 1) * 0x10000000 + o) := by
    simp only [aMdw, meadowBase, valeBase]
    omega
  have hdie : (aMdw d o - valeBase) / 0x10000000 = d + 1 := by omega
  have hoff : (aMdw d o - valeBase) % 0x10000000 = o := by omega
  have hk : o / 0x10000 = 0 := by omega
  unfold blockAt
  rw [if_neg (by omega)]
  simp only [hdie, hoff, hk]
  rw [if_neg (by omega), if_pos (by omega), if_pos (by omega), Nat.add_sub_cancel]

/-- R22: a counter is not the operating point that the tile cycles are counted by. -/
theorem State.tileCycle_setReg_counter (s : State) {a d l ti n : Nat} (h : syncAt a = some (d, l, ti, n)) (hd : d < 4) (v : Nat) :
    (s.setReg a v).tileCycle d = s.tileCycle d := by
  have hne : aMdw d 0x10 ≠ a := fun he => by
    have hb := blockAt_of_syncAt h
    rw [← he, blockAt_aMdw hd (by decide)] at hb
    cases hb
  simp only [State.tileCycle, State.tileEighths, State.fld, State.reg_setReg_ne _ _ hne]
  rfl

/-- R141: a counter after a post of 32 bits. -/
theorem postValue_lt {kind old v : Nat} (hold : old < 2 ^ 64) (hv : v < 2 ^ 32) : postValue kind old v < 2 ^ 64 := by
  unfold postValue
  split <;> omega

/-- R143: the waits of slot `i` of a tile after a post. -/
def State.waitsLand (d l ti k v cycle : Nat) (s : State) (i : Nat) : State :=
  s.setSlot (slotKey d l ti i) { s.slot (slotKey d l ti i) with
    waits := (s.slot (slotKey d l ti i)).waits.map fun w => w.landed k v cycle }

theorem State.waitsSee_eq (s : State) (d l ti k v : Nat) :
    s.waitsSee d l ti k v = (List.range 8).foldl (State.waitsLand d l ti k v (s.tileCycle d)) s := by
  have hcycle : ∀ (u : State) (th : ThreadSlot) (j : Nat), (u.setSlot j th).tileCycle d = u.tileCycle d := fun _ _ _ => rfl
  unfold State.waitsSee
  generalize List.range 8 = is
  generalize hs : s.tileCycle d = cycle
  induction is generalizing s with
  | nil => rfl
  | cons i is ih =>
    rw [List.foldl_cons, List.foldl_cons, ih _ ((hcycle ..).trans hs)]
    simp only [State.waitsLand, hs]

theorem State.waitsLand_spec (d l ti k v cycle : Nat) (s : State) (n : Nat) :
    let u := (List.range n).foldl (State.waitsLand d l ti k v cycle) s
    u = { s with slots := u.slots } ∧
      ∀ i, (u.slot (slotKey d l ti i)).waits = if i < n then (s.slot (slotKey d l ti i)).waits.map fun w => w.landed k v cycle
        else (s.slot (slotKey d l ti i)).waits := by
  induction n with
  | zero => exact ⟨rfl, fun i => rfl⟩
  | succ n ih =>
    simp only [List.range_succ, List.foldl_append, List.foldl_cons, List.foldl_nil]
    generalize (List.range n).foldl (State.waitsLand d l ti k v cycle) s = u at ih
    obtain ⟨honly, hslot⟩ := ih
    refine ⟨by rw [State.waitsLand, honly]; rfl, fun i => ?_⟩
    by_cases hi : i = n
    · subst hi
      rw [State.waitsLand, State.slot_setSlot_same, if_pos (Nat.lt_succ_self _)]
      simp only [hslot, if_neg (lt_irrefl _)]
    · rw [State.waitsLand, State.slot_setSlot_ne _ _ (slotKey_inj.not.2 hi), hslot]
      simp only [show i < n + 1 ↔ i < n by omega]

/-- R143: the waits of a tile see a counter's value, and nothing else changes. -/
theorem State.waitsSee_spec (s : State) (d l ti k v : Nat) :
    s.waitsSee d l ti k v = { s with slots := (s.waitsSee d l ti k v).slots } ∧
      ∀ i < 8, ((s.waitsSee d l ti k v).slot (slotKey d l ti i)).waits
        = (s.slot (slotKey d l ti i)).waits.map fun w => w.landed k v (s.tileCycle d) := by
  rw [State.waitsSee_eq]
  obtain ⟨honly, hslot⟩ := State.waitsLand_spec d l ti k v (s.tileCycle d) s 8
  exact ⟨honly, fun i hi => (hslot i).trans (if_pos hi)⟩

/-! ## Posts (R138 to R142, R165) -/

section
variable {s : State} {t : SlotId} {th : ThreadSlot} {c : Cmd}

/-- R139, R142: a post of no status whose release has nothing to wait for. -/
theorem exec_post {rs1 rs2 : Fin 32} {kind : Fin 4} {rel : Bool} (hr : s.ready t th c [rs1, rs2] [])
    (hst : s.postStatus (whoThread t th.cmd) (th.xget rs1).toNat kind = 0) (hrel : rel = true → th.released = true) :
    exec (.post t rs1 rs2 kind rel) s
      = .next ((s.setSlot (tkey t) th.pc4).postBy t th.pc4 (th.xget rs1).toNat kind ((th.xget rs2).toNat % 2 ^ 32)) := by
  have hheld : ¬ (rel && !th.released) = true := by simpa using hrel
  refine congrArg Host.Outcome.next ((State.live_of_running hr.1 _).trans ((State.issue_of_ready hr _).trans ?_))
  simp only [if_neg hheld, hst]
  rfl

/-- R140: a post to a counter that the command owns goes on its way. -/
theorem State.postBy_owned {a kind v : Nat} (hc : s.cmd th.cmd = some c) (ho : c.ownsCounter a = true) :
    s.postBy t th a kind v = { s with posts := s.posts ++ [PostFlight.mk a kind v (tkey t) th.cmd] } := by
  simp only [State.postBy, hc, if_pos ho]

/-- R165: a post to another counter is held in the command's commit log. -/
theorem State.postBy_held {a kind v : Nat} (hc : s.cmd th.cmd = some c) (ho : c.ownsCounter a = false) :
    s.postBy t th a kind v = s.updCmd th.cmd fun c => { c with log := logPost c.log a kind v (tkey t) } := by
  simp [State.postBy, hc, ho]

/-- R140, R141, R143: a post applied to a counter of a present die. -/
theorem State.postApply_spec {a kind v d l ti n : Nat} (hsync : syncAt a = some (d, l, ti, n)) (hup : s.meadowUp d = true)
    (hv : v < 2 ^ 32) :
    let u := s.postApply a kind v
    u.posts = s.posts ∧ u.reg a = postValue kind (s.reg a) v ∧ (∀ x, x ≠ a → u.reg x = s.reg x)
      ∧ ∀ i < 8, (u.slot (slotKey d l ti i)).waits
          = (s.slot (slotKey d l ti i)).waits.map fun w => w.landed n (postValue kind (s.reg a) v) (s.tileCycle d) := by
  have hlt : postValue kind (s.reg a) v < 2 ^ 64 := postValue_lt (s.reg_lt _) hv
  have hd : d < 4 := by
    simp only [State.meadowUp, Bool.and_eq_true, decide_eq_true_eq] at hup
    exact hup.1
  have happly : s.postApply a kind v
      = (s.setReg a (postValue kind (s.reg a) v)).waitsSee d l ti n (postValue kind (s.reg a) v) := by
    simp only [State.postApply, hsync, if_pos hup]
  generalize postValue kind (s.reg a) v = new at hlt happly ⊢
  obtain ⟨honly, hwaits⟩ := State.waitsSee_spec (s.setReg a new) d l ti n new
  rw [State.tileCycle_setReg_counter s hsync hd] at hwaits
  have hreg : ((s.setReg a new).waitsSee d l ti n new).reg = (s.setReg a new).reg := by
    funext x; exact State.reg_congr (by rw [honly]) x
  rw [happly]
  refine ⟨by rw [honly]; rfl, ?_, fun x hx => ?_, hwaits⟩
  · rw [hreg, State.reg_setReg_same, Nat.mod_eq_of_lt hlt]
  · rw [hreg, State.reg_setReg_ne _ _ hx]

theorem postArrive_leads {k : Nat} {p : PostFlight} {d l ti n : Nat} (hf : s.frozen = false) (hp : s.posts[k]? = some p)
    (hsync : syncAt p.addr = some (d, l, ti, n)) (hup : s.meadowUp d = true) (hv : p.value < 2 ^ 32) :
    Leads (.postArrive k) s fun s' =>
      s'.posts = s.posts.eraseIdx k ∧ s'.reg p.addr = postValue p.kind (s.reg p.addr) p.value
      ∧ (∀ x, x ≠ p.addr → s'.reg x = s.reg x)
      ∧ ∀ i < 8, (s'.slot (slotKey d l ti i)).waits
          = (s.slot (slotKey d l ti i)).waits.map fun w => w.landed n (s'.reg p.addr) (s.tileCycle d) := by
  obtain ⟨hposts, hreg, hregs, hwaits⟩ :=
    State.postApply_spec (s := { s with posts := s.posts.eraseIdx k }) (kind := p.kind) hsync hup hv
  refine ⟨_, congrArg Host.Outcome.next ((State.live_of_running hf _).trans (by simp only [hp])), hposts, hreg, hregs, fun i hi => ?_⟩
  rw [hreg]
  exact hwaits i hi

/-! ## Waits (R143, R144) and fences (R147) -/

/-- R143: the end of a wait whose condition is as the result says. -/
theorem waitEnd_leads {i : Instr} {k : Nat} {w : WaitRec} {arrived : Bool} {result : Word} (hf : s.frozen = false)
    (hs : s.slot (tkey t) = th) (hbusy : th.busy = true) (hw : th.waits[k]? = some w)
    (hexec : exec i s = .next (s.live (s.waitEnd t k arrived result))) (hmet : w.met = arrived)
    (hlate : arrived = false → w.within (s.tileCycle t.die) = false) :
    Leads i s fun s' => s'.slot (tkey t) = ({ th with waits := th.waits.eraseIdx k } : ThreadSlot).xset w.rd result
      ∧ s.onlySlot s' (tkey t) := by
  refine ⟨_, hexec.trans (congrArg Host.Outcome.next ((State.live_of_running hf _).trans ?_)), s.slot_setSlot_same ..,
    s.onlySlot_setSlot ..⟩
  have hends : ¬ (!th.busy || w.met != arrived || (!arrived && w.within (s.tileCycle t.die))) = true := by
    cases arrived <;> simp_all
  simp only [State.waitEnd, hs, hw, if_neg hends]

/-- R147: a fence that nothing holds. -/
theorem fence_leads {i : Instr} {release : Bool} (hr : s.ready t th c [] []) (hexec : exec i s = .next (s.live (s.fence t release)))
    (hrel : release = true → th.released = true) :
    Leads i s fun s' => s'.slot (tkey t) = th.pc4 ∧ s.onlySlot s' (tkey t) := by
  have hgo : ¬ (release && !th.released) = true := by simpa using hrel
  exact leads_setSlot hr hexec (if_neg hgo)

/-- R147: a fence that waits for the slot's requests. -/
theorem exec_fence_waits {i : Instr} (hr : s.ready t th c [] []) (hexec : exec i s = .next (s.live (s.fence t true)))
    (hreqs : th.reqs ≠ []) : exec i s = .next s := by
  have hheld : th.released = false := by simp [ThreadSlot.released, hreqs]
  rw [hexec, State.live_of_running hr.1, State.fence, State.issue_of_ready hr]
  simp [hheld]

end

/-- Settles O16. -/
theorem postsWaitsFences : Obligations.PostsWaitsFences := by
  intro s t th c rd rs1 rs2 kind rel acq cnt k a v
  refine ⟨fun hr hst hrel => ?_, fun p d l ti n hf hp hsync hup hv => postArrive_leads hf hp hsync hup hv,
    fun hr => leads_setSlot hr rfl rfl, fun w hf hs hbusy hw => ⟨fun hmet => ?_, fun hmet hmax hlate => ?_⟩, fun hr => ?_⟩
  · obtain ⟨-, -, hcmd, -⟩ := id hr
    have hcmd' : (s.setSlot (tkey t) th.pc4).cmd th.pc4.cmd = some c := hcmd
    refine ⟨fun ho => ?_, fun ho => ?_⟩
    · exact ⟨_, (exec_post hr hst hrel).trans (congrArg Host.Outcome.next (State.postBy_owned hcmd' ho)), s.slot_setSlot_same .., rfl, rfl⟩
    · have honly := (s.setSlot (tkey t) th.pc4).updCmd_only th.cmd fun c => { c with log := logPost c.log a kind v (tkey t) }
      refine ⟨_, (exec_post hr hst hrel).trans (congrArg Host.Outcome.next (State.postBy_held hcmd' ho)), ?_, honly.posts,
        State.cmd_updCmd _ (fun _ => rfl) hcmd'⟩
      exact (congrFun (State.slot_congr honly.slots) _).trans (s.slot_setSlot_same ..)
  · exact waitEnd_leads hf hs hbusy hw rfl hmet nofun
  · refine waitEnd_leads hf hs hbusy hw rfl hmet fun _ => ?_
    simp [WaitRec.within, hmax, hlate]
  · refine ⟨fence_leads hr rfl nofun, fun hreqs hsteps => ?_, fun hreqs => ⟨exec_fence_waits hr rfl hreqs, exec_fence_waits hr rfl hreqs⟩⟩
    have hrel : th.released = true := by simp [ThreadSlot.released, hreqs, hsteps]
    exact ⟨fence_leads hr rfl fun _ => hrel, fence_leads hr rfl fun _ => hrel⟩

end Sys2Proof.Machine
end

section

/-! PROOFS of the family "thread model": O11. Serving an access counts it, in registers that decide nothing about memory
(`State.countsOnly`); a write then puts its bytes line by line, of which none is refused. -/

namespace Sys2Proof.Machine

/-! ## The registers that memory goes by (R36, R320, R322) -/

/-- VAL_DIE_PRESENT, and the blocks of the DRAM controllers with the region table and the failed pseudo-channels. -/
def MemReg (a : Nat) : Prop := a = aVal 0x20 ∨ ∃ d < 4, ∃ o < 0x10000, a = aDmc d o

theorem memReg_dmc {d o : Nat} (hd : d < 4) (ho : o < 0x10000) : MemReg (aDmc d o) := .inr ⟨d, hd, o, ho, rfl⟩

theorem not_memReg_flr (die : Nat) {o : Nat} (ho : o < 0x10000) : ¬ MemReg (aFlr die o) := by
  have hbase : aFlr die o = (if die < 4 then meadowBase die else if die = 4 then valeBase else heathBase (die - 5)) + 0x50000 + o := rfl
  simp only [meadowBase, valeBase, heathBase] at hbase
  rintro (h | ⟨d, hd, p, hp, h⟩) <;> simp only [aVal, aDmc, meadowBase, valeBase] at h <;> split_ifs at hbase <;> omega

theorem not_memReg_til {d l t o : Nat} (hl : l < 16) (ht : t < 17) (ho : o < 0x10000) : ¬ MemReg (aTil d l t o) := by
  rintro (h | ⟨e, _, p, hp, h⟩) <;> simp only [aTil, leaBase, aVal, aDmc, meadowBase, valeBase] at h <;> omega

/-- The registers that memory goes by are the same. -/
def State.sameMap (s u : State) : Prop := ∀ a, MemReg a → u.reg a = s.reg a

/-- Nothing but registers, free values and the fabric's state differs, and of the registers none that memory goes by. -/
def State.countsOnly (s u : State) : Prop := u = { s with regs := u.regs, free := u.free, col := u.col } ∧ s.sameMap u

section
variable {s u v : State}

theorem State.countsOnly_refl (s : State) : s.countsOnly s := ⟨rfl, fun _ _ => rfl⟩

theorem State.countsOnly.trans (h : s.countsOnly u) (k : u.countsOnly v) : s.countsOnly v := by
  obtain ⟨h1, h2⟩ := h
  obtain ⟨k1, k2⟩ := k
  exact ⟨by rw [k1, h1], fun a ha => (k2 a ha).trans (h2 a ha)⟩

theorem State.countsOnly.ite {p : Prop} [Decidable p] (h : s.countsOnly u) (k : s.countsOnly v) :
    s.countsOnly (if p then u else v) := by
  split <;> assumption

theorem State.countsOnly_foldl {β : Type} {f : State → β → State} {l : List β} (hf : ∀ (s : State), ∀ x ∈ l, s.countsOnly (f s x))
    (s : State) : s.countsOnly (l.foldl f s) := by
  induction l generalizing s with
  | nil => exact s.countsOnly_refl
  | cons x l ih => exact (hf s x (.head _)).trans (ih (fun s y hy => hf s y (.tail _ hy)) _)

theorem State.countsOnly_setReg (s : State) {a : Nat} (ha : ¬ MemReg a) (v : Nat) : s.countsOnly (s.setReg a v) :=
  ⟨rfl, fun _ hb => s.reg_setReg_ne _ fun e => ha (e ▸ hb)⟩

theorem State.countsOnly_setFld (s : State) {a : Nat} (ha : ¬ MemReg a) (hi lo v : Nat) : s.countsOnly (s.setFld a hi lo v) :=
  s.countsOnly_setReg ha _

theorem State.countsOnly_count (s : State) {a : Nat} (ha : ¬ MemReg a) (hi lo n : Nat) : s.countsOnly (s.count a hi lo n) :=
  s.countsOnly_setFld ha _ _ _

theorem State.countsOnly.now (h : s.countsOnly u) : u.now = s.now := by rw [h.1]
theorem State.countsOnly.mem (h : s.countsOnly u) : u.mem = s.mem := by rw [h.1]
theorem State.countsOnly.slots (h : s.countsOnly u) : u.slots = s.slots := by rw [h.1]
theorem State.countsOnly.sched (h : s.countsOnly u) : u.sched = s.sched := by rw [h.1]
theorem State.countsOnly.posts (h : s.countsOnly u) : u.posts = s.posts := by rw [h.1]
theorem State.countsOnly.poison (h : s.countsOnly u) : u.poison = s.poison := by rw [h.1]
theorem State.countsOnly.spoilt (h : s.countsOnly u) : u.spoilt = s.spoilt := by rw [h.1]

end

/-! ## What serving an access counts (R105, R376, R385, R386) -/

theorem State.countTask_counts (s : State) (die task n : Nat) : s.countsOnly (s.countTask die task n) := by
  refine State.countsOnly_foldl (fun s i hi => ?_) s
  have hi4 := List.mem_range.1 hi
  exact .ite (s.countsOnly_count (not_memReg_flr die (by omega)) _ _ _) s.countsOnly_refl

theorem State.charge_counts (s : State) (die task n : Nat) {q c : Nat} (hq : q < 5) (hc : c < 8) :
    s.countsOnly (s.charge die q c task n) := by
  have hpoint : ∀ o < 0x100, ¬ MemReg (aPoint die q o) := fun o ho => not_memReg_flr die (by omega)
  unfold State.charge
  refine .ite s.countsOnly_refl ?_
  have hover : s.countsOnly (if s.budget die q c ≤ s.fld (aPoint die q (0x20 + 4 * c)) 19 0
      then s.count32 (aPoint die q (0x40 + 4 * c)) else s) :=
    .ite (s.countsOnly_count (hpoint _ (by omega)) _ _ _) s.countsOnly_refl
  exact (hover.trans (State.countsOnly_count _ (hpoint _ (by omega)) _ _ _)).trans (State.countTask_counts ..)

theorem State.chargeLines_counts (s : State) (r : CmdRef) (wr : Bool) (a len : Nat) : s.countsOnly (s.chargeLines r wr a len) := by
  unfold State.chargeLines
  split
  · exact s.countsOnly_refl
  · refine State.countsOnly_foldl (fun s x _ => ?_) s
    split
    · exact State.charge_counts _ _ _ _ (by decide) (bits_lt ..)
    · exact s.countsOnly_refl

theorem State.injectFire_counts (s : State) {d l t : Nat} (hl : l < 16) (ht : t < 17) (k : Nat) :
    s.countsOnly (s.injectFire d l t k) :=
  .ite ((s.countsOnly_setReg (not_memReg_til hl ht (by decide)) _).trans
    (State.countsOnly_setFld _ (not_memReg_til hl ht (by decide)) _ _ _)) s.countsOnly_refl

theorem State.sramFire_counts (s : State) {d l t : Nat} (hl : l < 16) (ht : t < 17) : s.countsOnly (s.sramFire d l t) :=
  (s.injectFire_counts hl ht 4).trans (State.injectFire_counts _ hl ht 5)

/-- R385: a class 7 read in time. -/
theorem State.measureC7_counts (s : State) (die a : Nat) {time : Nat} (h : time ≤ 2000) : s.countsOnly (s.measureC7 die time a) := by
  simp only [State.measureC7, if_pos h]
  exact .ite s.countsOnly_refl (.ite (s.countsOnly_setReg (not_memReg_flr die (by decide)) _) s.countsOnly_refl)

theorem State.slots_ite {s t u : State} {p : Prop} [Decidable p] (ht : t.slots = s.slots) (hu : u.slots = s.slots) :
    (if p then t else u).slots = s.slots := by
  split <;> assumption

theorem State.eventOnly.slots {s t : State} (h : s.eventOnly t) : t.slots = s.slots := congrArg (·.slots) h.1

theorem State.setReg_slots_ite (s : State) (p : Prop) [Decidable p] (a v : Nat) : (if p then s.setReg a v else s).slots = s.slots :=
  State.slots_ite (State.setReg_slots ..) rfl

theorem State.count32_slots (s : State) (a : Nat) : (s.count32 a).slots = s.slots := State.setFld_slots ..

/-- R385: a read is late at most once in a stretch of time. -/
theorem State.lateRead_slots (s : State) (f : Flr) (p : Prop) [Decidable p] (die time a : Nat) :
    (if p then s else { s with flr := f }.raise die 0 0x1F "FLR_C7_LATE" time a).slots = s.slots :=
  State.slots_ite rfl (State.raise_only { s with flr := f } die 0 0x1F "FLR_C7_LATE" time a).slots

/-- R385: the measurement of a read leaves the slots alone. -/
theorem State.measureC7_slots (s : State) (die time a : Nat) : (s.measureC7 die time a).slots = s.slots := by
  unfold State.measureC7
  refine State.slots_ite rfl (State.slots_ite (s.setReg_slots_ite ..) ?_)
  exact (State.lateRead_slots ..).trans ((State.count32_slots ..).trans (s.setReg_slots_ite ..))

theorem State.measureLoad_slots (s : State) (t : SlotId) (cls : Nat) (q : MemReq) : (s.measureLoad t cls q).slots = s.slots := by
  unfold State.measureLoad
  split
  · split
    · exact s.measureC7_slots ..
    · rfl
  · rfl

theorem State.measureLoad_counts (s : State) (t : SlotId) {cls : Nat} {q : MemReq} (h : cls ≠ 7 ∨ s.now - q.since ≤ 2000) :
    s.countsOnly (s.measureLoad t cls q) := by
  unfold State.measureLoad
  split
  · split
    · next hc => exact s.measureC7_counts _ _ (h.resolve_left fun hn => hn hc)
    · exact s.countsOnly_refl
  · exact s.countsOnly_refl

end Sys2Proof.Machine
end

section

/-! PROOFS of the family "thread model": O11, what counting leaves as it was: the stacks, the targets and the poison of the lines. -/

namespace Sys2Proof.Machine

/-! ## Places (R26, R573) -/

theorem placeOf_dram {a b len : Nat} : placeOf a = some (.dram, b, len) ↔ a < 0x001000000000 ∧ b = 0 ∧ len = 0x001000000000 := by
  constructor
  · intro h
    simp only [placeOf] at h
    split at h
    · next ha => cases h; exact ⟨ha, rfl, rfl⟩
    · repeat' split at h
      all_goals simp at h
  · rintro ⟨ha, rfl, rfl⟩
    exact if_pos ha

/-- R28: an address of a tile's SRAM names a lea and a tile that the module has. -/
theorem placeOf_tile_lt {a d l t b len : Nat} (h : placeOf a = some (.tile d l t, b, len)) :
    l < 16 ∧ t < 17 ∧ a < 0x001040000000 := by
  simp only [placeOf] at h
  repeat' split at h
  all_goals simp only [Option.some.injEq, Prod.mk.injEq, Place.tile.injEq, reduceCtorEq, false_and] at h
  omega

section
variable {s u : State}

/-! ## The stacks (R320, R321) -/

theorem State.sameMap.regionCode (h : s.sameMap u) {r : Nat} (hr : r < 64) : u.regionCode r = s.regionCode r := by
  unfold State.regionCode
  rw [h _ (memReg_dmc (by decide) (by omega))]

theorem State.sameMap.stackShare (h : s.sameMap u) (st : Nat) {r : Nat} (hr : r ≤ 64) : u.stackShare st r = s.stackShare st r := by
  induction r with
  | zero => rfl
  | succ r ih => rw [State.stackShare, State.stackShare, ih (by omega), h.regionCode (by omega)]

theorem State.sameMap.stackOf (h : s.sameMap u) {a : Nat} (ha : a < 0x001000000000) : u.stackOf a = s.stackOf a := by
  have hr : a / 0x40000000 < 64 := by omega
  simp only [State.stackOf, h.regionCode hr, h.stackShare _ hr.le]

theorem State.stackOf_lt (s : State) (a : Nat) : (s.stackOf a).1 < 4 := by
  unfold State.stackOf
  dsimp only
  split
  · assumption
  · exact Nat.mod_lt _ (by decide)

/-! ## Targets (R29, R323) and poison (R95, R337) -/

theorem State.sameMap.meadowUp (h : s.sameMap u) (d : Nat) : u.meadowUp d = s.meadowUp d := by
  rw [State.meadowUp, State.meadowUp, h _ (.inl rfl)]

theorem State.sameMap.targetUp (h : s.sameMap u) (a : Nat) : u.targetUp a = s.targetUp a := by
  have hval : u.reg (aVal 0x20) = s.reg (aVal 0x20) := h _ (.inl rfl)
  have hup : u.meadowUp = s.meadowUp := funext h.meadowUp
  unfold State.targetUp
  split
  · next hp => simp only [State.stackUp, hval, hup, h.stackOf (placeOf_dram.1 hp).1]
  all_goals simp only [hval, hup]

theorem State.sameMap.pcFailed (h : s.sameMap u) (a : Nat) : u.pcFailed a = s.pcFailed a := by
  unfold State.pcFailed
  by_cases ha : a < 0x001000000000
  · have hreg : ∀ d < 4, u.reg (aDmc d 0x0C) = s.reg (aDmc d 0x0C) := fun d hd => h _ (memReg_dmc hd (by decide))
    have hany : (List.range 4).any (fun d => decide (u.reg (aDmc d 0x0C) ≠ 0))
        = (List.range 4).any (fun d => decide (s.reg (aDmc d 0x0C) ≠ 0)) := by
      rw [Bool.eq_iff_iff]
      simp only [List.any_eq_true, List.mem_range]
      exact exists_congr fun d => and_congr_right fun hd => by rw [hreg d hd]
    simp only [hany, h.stackOf ha, hreg _ (s.stackOf_lt a)]
  · simp [ha]

/-- No line of the bytes is poisoned, to be poisoned, or in a failed pseudo-channel. -/
def State.linesGood (s : State) (a n : Nat) : Prop :=
  ∀ x ∈ linesOf a n, s.poisoned x = false ∧ s.spoilt.contains x = false ∧ s.pcFailed x = false

theorem State.real_local (s : State) {a : Nat} (ha : a < 0x400000000000) : s.real a = a := by
  rw [State.real, State.ownWindow, if_neg (by omega)]

theorem State.readPoison_local (s : State) {a : Nat} (n : Nat) (ha : a < 0x400000000000) :
    s.readPoison a n = false ↔ s.linesGood a n := by
  rw [State.readPoison, s.real_local ha, List.any_eq_false]
  simp [State.linesGood, and_assoc]

/-- Memory, and what decides of its lines, are the same. -/
def State.memoryAs (s u : State) : Prop := u.mem = s.mem ∧ u.poison = s.poison ∧ u.spoilt = s.spoilt ∧ s.sameMap u

theorem State.memoryAs.trans {v : State} (h : s.memoryAs u) (k : u.memoryAs v) : s.memoryAs v := by
  obtain ⟨hm, hp, hs, hr⟩ := h
  obtain ⟨km, kp, ks, kr⟩ := k
  exact ⟨km.trans hm, kp.trans hp, ks.trans hs, fun a ha => (kr a ha).trans (hr a ha)⟩

theorem State.countsOnly.memoryAs (h : s.countsOnly u) : s.memoryAs u := ⟨h.mem, h.poison, h.spoilt, h.2⟩

theorem State.memoryAs_setSlot (s : State) (k : Nat) (th : ThreadSlot) : s.memoryAs (s.setSlot k th) := ⟨rfl, rfl, rfl, fun _ _ => rfl⟩

theorem State.memoryAs.linesGood (h : s.memoryAs u) (a n : Nat) : u.linesGood a n ↔ s.linesGood a n := by
  obtain ⟨-, hp, hs, hr⟩ := h
  simp only [State.linesGood, State.poisoned, hp, hs, hr.pcFailed]

/-! ## The bytes of memory -/

theorem State.byte_local (s : State) {a : Nat} (ha : a < 0x400000000000) : s.byte a = readAt memDefault s.mem a := by
  simp only [State.byte, s.real_local ha, if_neg (Nat.not_le.2 ha)]

theorem State.byte_of_mem (h : u.mem = s.mem) {a : Nat} (ha : a < 0x400000000000) : u.byte a = s.byte a := by
  rw [u.byte_local ha, s.byte_local ha, h]

theorem State.bytes_of_mem (h : u.mem = s.mem) {a n : Nat} (ha : a + n ≤ 0x400000000000) : u.bytes a n = s.bytes a n :=
  List.map_congr_left fun i hi => State.byte_of_mem h (by have := List.mem_range.1 hi; omega)

theorem State.readOut_length (s : State) (a n : Nat) : (s.readOut a n).length = n := by
  unfold State.readOut
  split <;> simp [State.bytes]

end

end Sys2Proof.Machine
end

section

/-! PROOFS of the family "thread model": O11, writes. A write goes line by line (R93, R169); where every line's target stands and none is
poisoned or in a failed pseudo-channel, all its bytes are put. -/

namespace Sys2Proof.Machine

/-! ## The lines that bytes touch -/

theorem mem_linesOf {x a n : Nat} : x ∈ linesOf a n ↔ 0 < n ∧ x % 64 = 0 ∧ a / 64 ≤ x / 64 ∧ x / 64 ≤ (a + n - 1) / 64 := by
  unfold linesOf
  split
  · next hn => simp [hn]
  · simp only [List.mem_map, List.mem_range]
    constructor
    · rintro ⟨i, hi, rfl⟩
      omega
    · rintro ⟨hn, hx, hlo, hhi⟩
      exact ⟨x / 64 - a / 64, by omega, by omega⟩

theorem line_mem_linesOf (a : Nat) {n : Nat} (hn : 0 < n) : a / 64 * 64 ∈ linesOf a n := mem_linesOf.2 (by omega)

section
variable {s u : State}

/-! ## A line lies in one pseudo-channel (R322) -/

theorem State.stackShare_mod (s : State) (st r : Nat) : s.stackShare st r % 64 = 0 := by
  induction r with
  | zero => rfl
  | succ r ih =>
    rw [State.stackShare]
    split_ifs <;> omega

theorem State.stackOf_line (s : State) (a : Nat) :
    (s.stackOf (a / 64 * 64)).1 = (s.stackOf a).1 ∧ (s.stackOf (a / 64 * 64)).2 / 64 = (s.stackOf a).2 / 64 := by
  have hr : a / 64 * 64 / 0x40000000 = a / 0x40000000 := by omega
  have hj : a / 64 * 64 % 0x40000000 / 0x1000 = a % 0x40000000 / 0x1000 := by omega
  simp only [State.stackOf, hr, hj]
  split
  · have hshare := s.stackShare_mod (s.regionCode (a / 0x40000000)) (a / 0x40000000)
    refine ⟨rfl, ?_⟩
    dsimp only
    omega
  · have hshare := s.stackShare_mod (a % 0x40000000 / 0x1000 % 4) (a / 0x40000000)
    refine ⟨rfl, ?_⟩
    dsimp only
    omega

theorem State.pcFailed_line (s : State) (a : Nat) : s.pcFailed (a / 64 * 64) = s.pcFailed a := by
  obtain ⟨h1, h2⟩ := s.stackOf_line a
  have hpc : bits (s.stackOf (a / 64 * 64)).2 10 6 = bits (s.stackOf a).2 10 6 := by
    simp only [bits_eq, show (2 : Nat) ^ 6 = 64 by rfl, h2]
  have hd : a / 64 * 64 < 0x001000000000 ↔ a < 0x001000000000 := by omega
  simp only [State.pcFailed, h1, hpc, hd]

/-! ## A line written (R93, R95, R337) -/

theorem memPut_append (m : List Host.Cell) (a : Nat) (l k : List Byte) :
    memPut m a (l ++ k) = memPut (memPut m a l) (a + l.length) k := by
  induction l generalizing m a with
  | nil => rfl
  | cons b t ih => simp only [List.cons_append, memPut, ih, List.length_cons, Nat.add_assoc, Nat.add_comm 1]

/-- Bytes put in two parts, of which the first ends the line. -/
theorem memPut_take_drop (m : List Host.Cell) (a n : Nat) (bs : List Byte) :
    memPut (memPut m a (bs.take n)) (a + n) (bs.drop n) = memPut m a bs := by
  rcases Nat.le_total n bs.length with hn | hn
  · conv_rhs => rw [← bs.take_append_drop n, memPut_append, List.length_take_of_le hn]
  · rw [List.take_of_length_le hn, List.drop_of_length_le hn]
    rfl

/-- The state differs in memory, and its poison has at most gone. -/
def State.wrote (s u : State) (m : List Host.Cell) : Prop :=
  u.mem = m ∧ u.regs = s.regs ∧ (∀ x, s.poisoned x = false → u.poisoned x = false)
    ∧ ∀ x, s.spoilt.contains x = false → u.spoilt.contains x = false

theorem contains_erase_false {l : List Nat} {x y : Nat} (h : l.contains x = false) : (l.erase y).contains x = false := by
  simp only [List.contains_eq_mem, decide_eq_false_iff_not] at h ⊢
  exact fun hm => h (List.mem_of_mem_erase hm)

theorem State.putLine_wrote {a : Nat} (bs : List Byte) (ha : a < 0x400000000000) (hpc : s.pcFailed a = false) (hp : s.poisoned a = false) :
    s.wrote (s.putLine a bs) (memPut s.mem a bs) := by
  have hput : s.putBytes a bs = { s with mem := memPut s.mem a bs } := if_neg (Nat.not_le.2 ha)
  simp only [State.putLine, hpc, hp, hput, Bool.false_eq_true, if_false]
  split
  · exact ⟨rfl, rfl, fun x h => contains_erase_false h, fun x h => contains_erase_false h⟩
  · exact ⟨rfl, rfl, fun x h => h, fun x h => h⟩

theorem State.sameMap_of_regs (h : u.regs = s.regs) : s.sameMap u := fun a _ => by rw [State.reg, State.reg, h]

theorem State.wrote.trans {v : State} {m n : List Host.Cell} (h : s.wrote u m) (k : u.wrote v n) : s.wrote v n := by
  obtain ⟨-, hregs, hp, hs⟩ := h
  obtain ⟨kmem, kregs, kp, ks⟩ := k
  exact ⟨kmem, kregs.trans hregs, fun x hx => kp x (hp x hx), fun x hx => ks x (hs x hx)⟩

theorem State.wrote.linesGood {m : List Host.Cell} (h : s.wrote u m) {a n : Nat} (hg : s.linesGood a n) : u.linesGood a n := by
  obtain ⟨-, hregs, hp, hs⟩ := h
  intro x hx
  obtain ⟨gp, gs, gf⟩ := hg x hx
  exact ⟨hp x gp, hs x gs, ((State.sameMap_of_regs hregs).pcFailed x).trans gf⟩

theorem State.linesGood.drop {a n : Nat} (h : s.linesGood a n) (k : Nat) : s.linesGood (a + k) (n - k) :=
  fun x hx => h x (by rw [mem_linesOf] at hx ⊢; omega)

theorem State.linesGood.first {a n : Nat} (h : s.linesGood a n) (hn : 0 < n) : s.poisoned a = false ∧ s.pcFailed a = false := by
  obtain ⟨hp, -, hf⟩ := h _ (line_mem_linesOf a hn)
  refine ⟨?_, (s.pcFailed_line a).symm.trans hf⟩
  rwa [State.poisoned, Nat.mul_div_cancel _ (by decide)] at hp

/-- R93: the lines written one after another put all the bytes. -/
theorem State.putLines_wrote (f : Nat) (s : State) (a : Nat) (bs : List Byte) (hf : bs.length + a % 64 ≤ 64 * f)
    (ha : a + bs.length ≤ 0x400000000000) (hg : s.linesGood a bs.length) : s.wrote (s.putLines f a bs) (memPut s.mem a bs) := by
  induction f generalizing s a bs with
  | zero =>
    obtain rfl : bs = [] := List.length_eq_zero_iff.1 (by omega)
    exact ⟨rfl, rfl, fun _ h => h, fun _ h => h⟩
  | succ f ih =>
    rw [State.putLines]
    split
    · next he =>
      obtain rfl := List.isEmpty_iff.1 he
      exact ⟨rfl, rfl, fun _ h => h, fun _ h => h⟩
    · next he =>
      have hlen : 0 < bs.length := List.length_pos_iff.2 fun e => he (List.isEmpty_iff.2 e)
      obtain ⟨hp, hpc⟩ := hg.first hlen
      have hfirst := s.putLine_wrote (bs.take (64 - a % 64)) (by omega) hpc hp
      have hrest := ih (s.putLine a (bs.take (64 - a % 64))) (a + (64 - a % 64)) (bs.drop (64 - a % 64))
        (by rw [List.length_drop]; omega) (by rw [List.length_drop]; omega)
        (by rw [List.length_drop]; exact (hfirst.linesGood hg).drop _)
      rw [hfirst.1, memPut_take_drop] at hrest
      exact hfirst.trans hrest

/-- R93, R169: a write of which every line's target stands and none is refused. -/
theorem State.store_mem {a : Nat} {bs : List Byte} (ha : a + bs.length ≤ 0x400000000000) (hup : (linesOf a bs.length).all s.targetUp = true)
    (hg : s.linesGood a bs.length) : (s.store a bs).mem = memPut s.mem a bs := by
  cases bs with
  | nil => simp [State.store, State.putLines, memPut, linesOf]
  | cons b t =>
    have hreal : s.real a = a := s.real_local (by rw [List.length_cons] at ha; omega)
    rw [State.store, hreal, if_pos hup]
    exact (s.putLines_wrote _ a (b :: t) (by omega) ha hg).1

theorem State.byte_of_memPut {a x : Nat} {bs : List Byte} (h : u.mem = memPut s.mem a bs) (hx : x < 0x400000000000) :
    u.byte x = if h : a ≤ x ∧ x < a + bs.length then bs[x - a]'(by omega) else s.byte x := by
  rw [u.byte_local hx, s.byte_local hx, h, readAt_memPut]

/-! ## Admitted accesses (R27, R29, R31) -/

/-- An access that none of the three refusals stops: not that of absent targets. -/
theorem not_absent_of_status_zero {outside deny absent : Prop} [Decidable outside] [Decidable deny] [Decidable absent] {st : Nat}
    (h : (if outside then 4 else if deny then 4 else if absent then 8 else st) = 0) : ¬ absent := by
  split_ifs at h
  assumption

/-- R29: the targets of the lines of an allowed access of the module's own memory stand. -/
theorem State.access_targets {who : Who} {wr : Bool} {a n : Nat} (h : s.access who wr a n = 0) (ha : a < 0x400000000000) :
    (linesOf a n).all s.targetUp = true := by
  rw [State.access, State.ownWindow, if_neg (by omega)] at h
  simp only [State.accessAt] at h
  split at h
  · cases h
  · have hup := not_absent_of_status_zero h
    rw [Bool.or_eq_true, not_or, Bool.not_eq_true', Bool.not_eq_false] at hup
    exact hup.1

end

end Sys2Proof.Machine
end

section

/-! PROOFS of the family "thread model": O11, the acknowledgements. -/

namespace Sys2Proof.Machine

section
variable {s u : State}

/-! ## Reads and writes of clean memory (R94, R95) -/

theorem State.readOut_counts (h : s.countsOnly u) {a n : Nat} (hplace : s.readOut a n = s.bytes a n ∧ u.readOut a n = u.bytes a n)
    (hn : a + n ≤ 0x400000000000) : u.readOut a n = s.readOut a n := by
  rw [hplace.1, hplace.2, State.bytes_of_mem h.mem hn]

/-- A read of clean memory without poison gives the bytes, and counts at most. -/
theorem State.fetch_clean (s : State) (r : CmdRef) {a n : Nat} (hp : s.readPoison a n = false)
    (hn : a < 0x001040000000 → a + n ≤ 0x400000000000) :
    ∃ u, s.fetch r a n .clean = (.data (s.readOut a n), u) ∧ s.countsOnly u := by
  unfold State.fetch
  split
  · next d l t b len hplace =>
    obtain ⟨hl, ht, ha⟩ := placeOf_tile_lt hplace
    have hcount := s.sramFire_counts (d := d) hl ht
    refine ⟨_, ?_, hcount⟩
    dsimp only
    rw [State.readOut_counts hcount (by simp [State.readOut, hplace]) (hn ha)]
  · exact ⟨s, by simp [hp], s.countsOnly_refl⟩
  · next b len hplace =>
    obtain ⟨ha, -⟩ := placeOf_dram.1 hplace
    have hcount := s.chargeLines_counts r false a n
    have hgood : (s.chargeLines r false a n).readPoison a n = false := by
      rw [State.readPoison_local _ n (by omega), hcount.memoryAs.linesGood, ← s.readPoison_local n (by omega)]
      exact hp
    refine ⟨_, ?_, hcount⟩
    dsimp only
    rw [if_neg (Bool.eq_false_iff.1 hgood), State.readOut_counts hcount (by simp [State.readOut, hplace]) (hn (by omega))]
  · exact ⟨s, by simp, s.countsOnly_refl⟩
  · exact ⟨_, if_neg (Bool.eq_false_iff.1 hp), rfl, fun _ _ => rfl⟩
  · exact ⟨s, rfl, s.countsOnly_refl⟩

/-- A write to memory that reports no error is a store, after what it counts. -/
theorem State.sramStore_clean (s : State) (r : CmdRef) (a : Nat) (bs : List Byte) :
    ∃ u, s.sramStore r a bs .clean = u.store a bs ∧ s.countsOnly u := by
  unfold State.sramStore
  split
  · next d l t b len hplace =>
    obtain ⟨hl, ht, -⟩ := placeOf_tile_lt hplace
    split
    · exact ⟨s, rfl, s.countsOnly_refl⟩
    · exact ⟨_, rfl, s.sramFire_counts hl ht⟩
  · split <;> exact ⟨s, rfl, s.countsOnly_refl⟩
  · exact ⟨s, rfl, s.countsOnly_refl⟩

/-- An allowed write of unpoisoned memory puts its bytes, whatever is counted before it. -/
theorem State.memoryAs.store_mem (h : s.memoryAs u) {who : Who} {a : Nat} {bs : List Byte}
    (hacc : s.access who true a bs.length = 0) (hp : s.readPoison a bs.length = false) (ha : a + bs.length ≤ 0x400000000000) :
    (u.store a bs).mem = memPut s.mem a bs := by
  obtain ⟨hm, -, -, hmap⟩ := id h
  rcases Nat.lt_or_ge a 0x400000000000 with hlt | hge
  · have hup : (linesOf a bs.length).all u.targetUp = true := by
      rw [show u.targetUp = s.targetUp from funext hmap.targetUp]
      exact s.access_targets hacc hlt
    rw [State.store_mem ha hup ((h.linesGood _ _).2 ((s.readPoison_local _ hlt).1 hp)), hm]
  · obtain rfl : bs = [] := List.length_eq_zero_iff.1 (by omega)
    simp [State.store, State.putLines, memPut, hm]

end

/-! ## Loads (R121, R123) -/

/-- R121: what a read brings its register. -/
def ThreadSlot.loaded (th : ThreadSlot) (bs : List Byte) : ReqKind → ThreadSlot
  | .load rd size signed => th.xset rd (loadValue size signed bs)
  | .vload vd => th.vset vd (BitVec.ofNat 2048 (leNat bs))
  | _ => th

def ReqKind.isRead : ReqKind → Bool
  | .load .. | .vload _ => true
  | _ => false

section
variable {s : State} {t : SlotId} {k : Fin 16} {th : ThreadSlot} {q : MemReq}

theorem exec_readAck {bs : List Byte} {u : State} (hf : s.frozen = false) (hs : s.slot (tkey t) = th) (hq : th.reqs[k.val]? = some q)
    (hbar : earlierBars (th.reqs.take k) q = false) (hwait : s.remoteWaits (tkey t) q.addr q.len = false)
    (htake : s.dramTakes (s.cmdClass th.cmd) false q.addr q.len = true) (hacc : s.access (whoThread t th.cmd) false q.addr q.len = 0)
    (hfetch : s.fetch th.cmd q.addr q.len .clean = (.data bs, u)) (hk : q.kind.isRead = true) :
    exec (.memoryRequestAck t k .clean) s = .next ((u.setSlot (tkey t)
      (ThreadSlot.loaded { th with reqs := th.reqs.eraseIdx k } bs q.kind)).measureLoad t (s.cmdClass th.cmd) q) := by
  obtain ⟨kind, a, n, data, since⟩ := q
  change Host.Outcome.next (s.live _) = _
  rw [s.live_of_running hf]
  cases kind
  case load => simp [hs, hq, hbar, hwait, htake, hacc, hfetch, ThreadSlot.loaded]
  case vload => simp [hs, hq, hbar, hwait, htake, hacc, hfetch, ThreadSlot.loaded]
  all_goals cases hk

theorem leNat_lt_two_pow (bs : List Byte) : leNat bs < 2 ^ (8 * bs.length) := by
  rw [pow_mul]
  exact leNat_lt bs

theorem loadValue_unsigned {bs : List Byte} (hn : bs.length ≤ 8) : (loadValue bs.length false bs).toNat = leNat bs := by
  rw [loadValue, if_neg Bool.false_ne_true, BitVec.toNat_ofNat]
  exact Nat.mod_eq_of_lt ((leNat_lt_two_pow bs).trans_le (Nat.pow_le_pow_right (by decide) (by omega)))

theorem loadValue_signed {bs : List Byte} (h0 : 0 < bs.length) (hn : bs.length ≤ 8) :
    (loadValue bs.length true bs).toInt
      = if leNat bs < 2 ^ (8 * bs.length - 1) then (leNat bs : Int) else leNat bs - 2 ^ (8 * bs.length) := by
  have hlt := leNat_lt_two_pow bs
  have hhalf : 2 ^ (8 * bs.length) = 2 * 2 ^ (8 * bs.length - 1) := by rw [← pow_succ', Nat.sub_add_cancel (by omega)]
  have hle : 2 ^ (8 * bs.length - 1) ≤ 2 ^ 63 := Nat.pow_le_pow_right (by decide) (by omega)
  have hcast : ((2 ^ (8 * bs.length) : Nat) : Int) = 2 ^ (8 * bs.length) := by push_cast; rfl
  rw [loadValue, if_pos rfl, BitVec.toInt_ofInt, sext, Nat.mod_eq_of_lt hlt, ← hcast]
  refine Int.bmod_eq_of_le ?_ ?_ <;> split_ifs <;> omega

/-- R121, R123: an acknowledged read of clean memory. -/
theorem readAck (hf : s.frozen = false) (hs : s.slot (tkey t) = th) (hq : th.reqs[k.val]? = some q)
    (hbar : earlierBars (th.reqs.take k) q = false) (hwait : s.remoteWaits (tkey t) q.addr q.len = false)
    (htake : s.dramTakes (s.cmdClass th.cmd) false q.addr q.len = true) (hacc : s.access (whoThread t th.cmd) false q.addr q.len = 0)
    (hp : s.readPoison q.addr q.len = false) (hk : q.kind.isRead = true) (hn : q.len ≤ 256) :
    Leads (.memoryRequestAck t k .clean) s fun s' =>
      s'.slot (tkey t) = ThreadSlot.loaded { th with reqs := th.reqs.eraseIdx k } (s.readOut q.addr q.len) q.kind
      ∧ (s.cmdClass th.cmd ≠ 7 ∨ s.now - q.since ≤ 2000 → s'.mem = s.mem) := by
  obtain ⟨u, hfetch, hcount⟩ := s.fetch_clean th.cmd hp (by omega)
  refine ⟨_, exec_readAck hf hs hq hbar hwait htake hacc hfetch hk, ?_, fun hsoon => ?_⟩
  · rw [State.slot_congr (State.measureLoad_slots ..), State.slot_setSlot_same]
  · rw [(State.measureLoad_counts _ t (by rwa [State.setSlot_now, hcount.now])).mem, State.setSlot_mem, hcount.mem]

theorem loadsAcknowledged : LoadsAcknowledged := by
  intro s t k th q rd n sg vd hf hs hq hbar hwait htake hacc hp
  have hread := readAck hf hs hq hbar hwait htake hacc hp
  have hlen := s.readOut_length q.addr q.len
  refine ⟨fun hk hn h0 h8 => ?_, fun hk hn => ?_⟩
  · obtain ⟨s', hexec, hslot, hmem⟩ := hread (by rw [hk]; rfl) (by omega)
    obtain rfl := hlen.trans hn
    refine ⟨s', hexec, _, hslot.trans (by rw [hk]; rfl), hmem, ?_, ?_⟩
    · rintro rfl
      exact loadValue_unsigned h8
    · rintro rfl
      exact loadValue_signed h0 h8
  · obtain ⟨s', hexec, hslot, hmem⟩ := hread (by rw [hk]; rfl) (by omega)
    refine ⟨s', hexec, _, hslot.trans (by rw [hk]; rfl), hmem, ?_⟩
    rw [BitVec.toNat_ofNat]
    exact Nat.mod_eq_of_lt ((leNat_lt_two_pow _).trans_eq (by rw [hlen, hn]))

end

/-! ## Stores (R123, R135) -/

theorem State.store_slots (s : State) (a : Nat) (bs : List Byte) : (s.store a bs).slots = s.slots := congrArg (·.slots) (s.store_only a bs)

theorem storesAcknowledged : StoresAcknowledged := by
  intro s t k th a data since hf hs hq hbar hwait htake hacc hp ha
  obtain ⟨u, hstore, hcount⟩ := State.sramStore_clean
    ((s.setSlot (tkey t) { th with reqs := th.reqs.eraseIdx k }).chargeLines th.cmd true a data.length) th.cmd a data
  have hall := (State.chargeLines_counts _ th.cmd true a data.length).trans hcount
  have hmem := ((s.memoryAs_setSlot _ _).trans hall.memoryAs).store_mem hacc hp ha
  refine ⟨u.store a data, ?_, ?_, fun x hx => State.byte_of_memPut hmem hx⟩
  · rw [← hstore]
    change Host.Outcome.next (s.live _) = _
    rw [s.live_of_running hf]
    simp [hs, hq, hbar, hwait, htake, hacc]
  · rw [State.slot_congr (u.store_slots ..), State.slot_congr hall.slots, State.slot_setSlot_same]

/-! ## Copies (R145, R142) -/

/-- R145: an allowed copy that nothing holds takes one request. -/
theorem takesRequest_copy {s : State} {t : SlotId} {th : ThreadSlot} {c : Cmd} {rd rs1 rs2 : Fin 32} {cnt : Fin 64}
    (hr : s.ready t th c [rd, rs1, rs2] []) (hacq : th.acqHeld = false) (hreqs : th.reqs.length < 16) (hcopies : s.copiesOn t < 4)
    (hst : s.copyStatus (whoThread t th.cmd) (th.xget rd).toNat (th.xget rs1).toNat (th.xget rs2).toNat = 0)
    (hbar : stepsBar t th (th.xget rd).toNat (th.xget rs2).toNat = false) (htags : s.tagsOut = false)
    (hdst : (th.xget rd).toNat < 0x400000000000) :
    TakesRequest s t th (.copy t rd rs1 rs2 cnt)
      ⟨.copy (th.xget rd).toNat cnt th.steps.length, (th.xget rs1).toNat, (th.xget rs2).toNat, [], s.now⟩ := by
  obtain ⟨hrun, -⟩ := id hr
  have hheld : ¬ (th.acqHeld || decide (16 ≤ th.reqs.length) || decide (4 ≤ s.copiesOn t)) = true := by
    simp [hacq, hreqs, hcopies]
  have hstall : ¬ (stepsBar t th (th.xget rd).toNat (th.xget rs2).toNat || s.tagsOut) = true := by simp [hbar, htags]
  refine takesRequest_of_exec ?_ (State.remoteSend_only _ (some th.cmd) (tkey t) (th.xget rs1).toNat (th.xget rs2).toNat false [])
    fun h => State.remoteSend_local _ _ _ _ _ _ h
  change Host.Outcome.next (s.live _) = _
  rw [s.live_of_running hrun, State.issue_of_ready hr]
  simp only [if_neg hheld, if_neg (not_not.2 hst), if_neg hstall]
  rw [State.remoteSend_local (h := hdst)]

/-- What a copy leaves at its destination (R145): the bytes read, undefined ones where the ranges overlap. -/
def State.copyBytes (s : State) (src dst len : Nat) (bs : List Byte) : List Byte :=
  if overlaps src len dst len then undefinedBytes s.free len else bs

/-- The state of which a copy that has read its bytes writes: the read is measured, and the write's lines are charged. -/
def State.copyCharged (s : State) (t : SlotId) (r : CmdRef) (q : MemReq) (dst : Nat) : State :=
  (State.measureLoad { s with free := s.free + b2n (overlaps q.addr q.len dst q.len) } t (s.cmdClass r) q).chargeLines r true dst q.len

theorem State.copyBytes_length (s : State) (src dst : Nat) {len : Nat} {bs : List Byte} (h : bs.length = len) :
    (s.copyBytes src dst len bs).length = len := by
  unfold State.copyBytes
  split
  · simp [undefinedBytes]
  · exact h

theorem State.copyCharged_counts (s : State) (t : SlotId) (r : CmdRef) (q : MemReq) (dst : Nat)
    (h : s.cmdClass r = 7 → s.now - q.since ≤ 2000) : s.countsOnly (s.copyCharged t r q dst) := by
  have hfree : s.countsOnly { s with free := s.free + b2n (overlaps q.addr q.len dst q.len) } := ⟨rfl, fun _ _ => rfl⟩
  exact (hfree.trans (State.measureLoad_counts _ t (not_or_of_imp h))).trans (State.chargeLines_counts ..)

/-- The bytes of memory after a copy, which brings `bs` where the ranges do not overlap. -/
theorem copied_byte {s v : State} {dst len x : Nat} {out bs : List Byte} {apart : Prop} (hmem : v.mem = memPut s.mem dst out)
    (hout : out.length = len) (hbs : apart → out = bs) (hx : x < 0x400000000000) :
    (¬ (dst ≤ x ∧ x < dst + len) → v.byte x = s.byte x)
      ∧ (apart → dst ≤ x → x < dst + len → some (v.byte x) = bs[x - dst]?) := by
  subst hout
  rw [State.byte_of_memPut hmem hx]
  refine ⟨fun hoff => dif_neg hoff, fun hapart hlo hhi => ?_⟩
  rw [dif_pos ⟨hlo, hhi⟩, ← List.getElem?_eq_getElem, hbs hapart]

theorem lowest_pair_zero {a b : Nat} (ha : a = 0) (hb : b = 0) : lowest [a, b] = 0 := by subst ha hb; rfl

section
variable {s : State} {t : SlotId} {th : ThreadSlot} {c : Cmd} {cnt : Fin 64} {dst src len since : Nat} {data : List Byte}

theorem exec_copyComplete {bs : List Byte} {u : State} (hf : s.frozen = false) (hs : s.slot (tkey t) = th)
    (hq : th.reqs[0]? = some ⟨.copy dst cnt 0, src, len, data, since⟩) (hlen : 0 < len)
    (hsrc : s.access (whoThread t th.cmd) false src len = 0) (hdst : s.access (whoThread t th.cmd) true dst len = 0)
    (hrd : s.dramTakes (s.cmdClass th.cmd) false src len = true) (hwr : s.dramTakes (s.cmdClass th.cmd) true dst len = true)
    (hws : s.remoteWaits (tkey t) src len = false) (hwd : s.remoteWaits (tkey t) dst len = false)
    (hcls : u.cmdClass th.cmd = s.cmdClass th.cmd) (hfetch : s.fetch th.cmd src len .clean = (.data bs, u)) :
    exec (.copyComplete t 0 .clean) s = .next ((((u.copyCharged t th.cmd ⟨.copy dst cnt 0, src, len, [], since⟩ dst).store dst
      (u.copyBytes src dst len bs)).setSlot (tkey t) { th with reqs := th.reqs.eraseIdx 0 }).postBy t
        { th with reqs := th.reqs.eraseIdx 0 } (ownCounter t cnt) 0 1) := by
  change Host.Outcome.next (s.live _) = _
  rw [s.live_of_running hf]
  simp [hs, hq, hrd, hwr, hws, hwd, hlen.ne', lowest_pair_zero hsrc hdst, hfetch, State.copyCharged, State.copyBytes, hcls]

end

theorem copiesMoveBytes : CopiesMoveBytes := by
  intro s t th c rd rs1 rs2 cnt
  refine ⟨takesRequest_copy, fun dst src len since data hf hs hcmd hq hlen hsrcEnd hdstEnd hsrc hdst hpsrc hpdst hown hrd hwr hsoon hws hwd => ?_⟩
  obtain ⟨u, hfetch, hread⟩ := s.fetch_clean th.cmd hpsrc fun _ => hsrcEnd
  have hcls : u.cmdClass th.cmd = s.cmdClass th.cmd := by rw [State.cmdClass, State.cmdClass, State.cmd_congr hread.sched]
  have hcount := hread.trans (u.copyCharged_counts t th.cmd ⟨.copy dst cnt 0, src, len, [], since⟩ dst (by rwa [hcls, hread.now]))
  have hout := u.copyBytes_length src dst (s.readOut_length src len)
  have hmem := hcount.memoryAs.store_mem (by rwa [hout]) (by rwa [hout]) (by rwa [hout])
  have honly := State.store_only (u.copyCharged t th.cmd ⟨.copy dst cnt 0, src, len, [], since⟩ dst) dst
    (u.copyBytes src dst len (s.readOut src len))
  have hexec := exec_copyComplete hf hs hq hlen hsrc hdst hrd hwr hws hwd hcls hfetch
  generalize (u.copyCharged t th.cmd ⟨.copy dst cnt 0, src, len, [], since⟩ dst).store dst
    (u.copyBytes src dst len (s.readOut src len)) = w at hmem honly hexec
  have hwcmd : (w.setSlot (tkey t) { th with reqs := th.reqs.eraseIdx 0 }).cmd th.cmd = some c :=
    (congrFun (State.cmd_congr ((congrArg (·.sched) honly).trans hcount.sched)) th.cmd).trans hcmd
  refine ⟨_, hexec.trans (congrArg Host.Outcome.next (State.postBy_owned hwcmd hown)),
    (w.slot_setSlot_same ..).trans (by rw [List.eraseIdx_zero, List.drop_one]), ?_, fun x hx => ?_⟩
  · exact congrArg (· ++ _) ((congrArg (·.posts) honly).trans hcount.posts)
  · exact copied_byte hmem hout (fun hover => if_neg (Bool.eq_false_iff.1 hover)) hx

/-- Settles O11. -/
theorem accessesAcknowledged : Obligations.AccessesAcknowledged := ⟨loadsAcknowledged, storesAcknowledged, copiesMoveBytes⟩

end Sys2Proof.Machine
end

section
/-! PROOFS of the family "jobs": O59, a frozen Heath that leaves its reset with a factory repair outside its port's registers. -/

namespace Sys2Proof.Machine

/-- A frozen module just after its reset, whose fuses hold one factory repair of die 5: lane 4 in module 1008 of port 3. -/
def strayRepair : State :=
  { State.reset with
    frozen := true
    past := 12000000
    fuses := { State.reset.fuses with repairs := [(5, 3, 1008, 4)] }
    pending := [.heathResetRelease] }

/-- The module after the Heaths have left their reset. -/
def strayRepairTaken : State :=
  match step strayRepair with
  | .next t => t
  | _ => strayRepair

theorem step_strayRepair : step strayRepair = .next strayRepairTaken := rfl

theorem strayRepair_frozenStandby : FrozenStandby strayRepair := fun _ => by decide

/-- Why the repair strays: the fuses bound no module's number, and this one's repair register would be the next port's FDL_STATE. -/
theorem aFdl_module1008 : aFdl 5 3 (0x40 + 4 * 1008) = aFdl 5 4 0 := by decide

theorem strayRepairTaken_frozen : strayRepairTaken.frozen = true := by decide

theorem strayRepairTaken_linkState : strayRepairTaken.linkState 5 4 = 4 := by decide

/-- Refutes O59: the Heaths leave reset while a freeze is in force, and the repair of `strayRepair` writes 0x84, a repaired lane 4,
over the FDL_STATE of the first Heath's Vale port, which then reads ACTIVE (4). -/
theorem not_stepKeepsInvariants : ¬ Obligations.StepKeepsInvariants := by
  unfold Obligations.StepKeepsInvariants
  intro ⟨_, hstep⟩
  obtain ⟨_, _, hstandby⟩ := hstep _ _ step_strayRepair
  exact hstandby strayRepair_frozenStandby strayRepairTaken_frozen 0 (by decide) strayRepairTaken_linkState

end Sys2Proof.Machine
end

section
/-! PROOFS of the family "jobs": O36, a command that starts for its re-run, whose descriptor has a new ARITH_CTL since. -/

namespace Sys2Proof.Machine

/-- A running job with one command, at 0x10000, that waits for its re-run; its first run began with bit 16 of ARITH_CTL set. Its map-set
table at 0x10400 has one entry. -/
def rerunJob : Job :=
  { words := [0, 0x10000 + 2 ^ 48, 0, 0x10400 + 2 ^ 48, 0xFFFFFFFF, 0, 0, 0], ringSet := 0, serial := 0, phase := .running
    started := true, tStart := 0, cmds := [{ cmdFresh ⟨0, 0⟩ with words := [0, 0, 0x10000], runs := 1, rerun := true }]
    kills := 0, goldenTested := 0, goldenFailed := 0, pinned := [], handed := [] }

/-- The module that runs that job: Meadow 0 and its stack alone are present. The descriptor is that of a THREADS command of no tiles
with a time limit of 5, and its ARITH_CTL is 0. -/
def rerunWaits : State :=
  { State.reset with
    regs := [(aVal 0x20, 0x101), (aSch 0, 1), (aFdl 4 0 0, 4)]
    sched := { schedFresh with jobs := [rerunJob] }
    fwRules := [(0, [⟨0, 2 ^ 48, 0, 0, 0, true, true, true⟩])]
    mem := [(0x10004, 5), (0x10050, 64), (0x10400, 1)] }

/-- What the start of the re-run finds. -/
def rerunEnv : StartEnv :=
  match rerunWaits.findStart rerunJob ⟨0, 0⟩ with
  | .passes e => e
  | .fails _ e => e

/-- The module once the command has started. -/
def rerunStarted : State :=
  match exec (.threads 0 0) rerunWaits with
  | .next t => t
  | _ => rerunWaits

theorem rerunWaits_curJob : rerunWaits.curJob = some rerunJob := by decide

theorem rerunWaits_rowFits :
    rowFits (decide (rerunWaits.readStatus (whoSch ⟨0, 0⟩) (rerunJob.cmdAddr ⟨0, 0⟩) 128 = 0))
      (rerunWaits.words (rerunJob.cmdAddr ⟨0, 0⟩) 16) 0 none = true := by decide +kernel

theorem rerunWaits_inWindow : rerunWaits.inWindow rerunJob ⟨0, 0⟩ = true := by decide +kernel

theorem rerunWaits_isTurn : rerunWaits.isTurn rerunJob ⟨0, 0⟩ = true := by decide +kernel

theorem rerunWaits_passes : rerunWaits.findStart rerunJob ⟨0, 0⟩ = .passes rerunEnv := by decide +kernel

/-- Nothing holds the start up. -/
theorem rerunWaits_open :
    rerunWaits.startOpen rerunEnv = true ∧ rerunWaits.kvRoom (rerunWaits.startFrames rerunEnv) = true ∧ rerunEnv.ctxs = []
      ∧ rerunWaits.noRoom rerunEnv = none := by decide +kernel

theorem exec_rerunWaits : exec (.threads 0 0) rerunWaits = .next rerunStarted := rfl

/-- The run has the ARITH_CTL of the command's first run. -/
theorem rerunStarted_arith : (rerunStarted.cmd ⟨0, 0⟩).map (fun c => word c.words 2) = some 0x10000 := by decide +kernel

theorem rerunWaits_arith : word (rerunWaits.words (rerunJob.cmdAddr ⟨0, 0⟩) 16) 2 = 0 := by decide +kernel

/-- A start that passes gives the command the descriptor that memory holds. -/
theorem not_commandStarts : ¬ CommandStarts := by
  intro h
  have hrow := h rerunWaits 0 0 rerunJob rerunEnv 0 rfl (by decide) rerunWaits_curJob rfl (.threads 0 0, 0, none) (.head _)
    rerunWaits_rowFits
  obtain ⟨hstart, _⟩ := hrow.1 rerunWaits_inWindow rerunWaits_isTurn
  obtain ⟨hopen, hkv, hctxs, hroom⟩ := rerunWaits_open
  obtain ⟨t, ht, c, hcmd, _, hwords, _⟩ := hstart rerunWaits_passes hopen hkv (by simp [hctxs]) hroom
  have hnext : rerunStarted = t := Host.Outcome.next.inj (exec_rerunWaits.symm.trans ht)
  subst hnext
  have hword : word c.words 2 = 0x10000 := Option.some.inj ((congrArg (Option.map _) hcmd).symm.trans rerunStarted_arith)
  rw [hwords] at hword
  exact absurd (hword.symm.trans rerunWaits_arith) (by decide)

/-- Refutes O36: R68 has a re-run keep the ARITH_CTL of its command's first run (`Cmd.heldWords`), so where the descriptor's has changed
in memory since, the run does not have the descriptor's words. -/
theorem not_startsOfCommandsAndJobs : ¬ Obligations.StartsOfCommandsAndJobs := fun h => not_commandStarts h.1

end Sys2Proof.Machine
end

section
/-! PROOFS of the family "jobs": O29. The ends of commands and jobs leave slots, ports, presence bits and the FIFO alone
(`State.aside`); each clause is a theorem about its own command. -/

namespace Sys2Proof.Machine

/-! ## What the ends of commands and jobs leave alone -/

/-- What `State.aside` speaks of. -/
def State.tracked (s : State) :=
  (s.slots, s.ports, s.regs, s.sched.fifo, s.sched.jobs, s.sched.kills, s.prairie.records)

/-- Under `place`, the thread slots, the ports, the presence bits and the completion FIFO are as before; under `job`, so are the jobs, the
kills and the hand-offs. -/
def State.aside (place job : Prop) (s t : State) : Prop :=
  (place → t.slots = s.slots ∧ t.ports = s.ports ∧ t.reg (aVal 0x20) = s.reg (aVal 0x20) ∧ t.sched.fifo = s.sched.fifo)
    ∧ (job → t.sched.jobs = s.sched.jobs ∧ t.sched.kills = s.sched.kills ∧ t.prairie.records = s.prairie.records)

section
variable {place job : Prop} {u s t : State}

theorem State.aside_refl (s : State) : s.aside place job s := ⟨fun _ => ⟨rfl, rfl, rfl, rfl⟩, fun _ => ⟨rfl, rfl, rfl⟩⟩

theorem State.aside.trans {v : State} (h : u.aside place job s) (k : s.aside place job v) : u.aside place job v := by
  refine ⟨fun hp => ?_, fun hj => ?_⟩
  · obtain ⟨hslots, hports, hreg, hfifo⟩ := h.1 hp
    obtain ⟨kslots, kports, kreg, kfifo⟩ := k.1 hp
    exact ⟨kslots.trans hslots, kports.trans hports, kreg.trans hreg, kfifo.trans hfifo⟩
  · obtain ⟨hjobs, hkills, hrec⟩ := h.2 hj
    obtain ⟨kjobs, kkills, krec⟩ := k.2 hj
    exact ⟨kjobs.trans hjobs, kkills.trans hkills, krec.trans hrec⟩

theorem State.aside.presence (h : s.aside True job t) : t.reg (aVal 0x20) = s.reg (aVal 0x20) := (h.1 trivial).2.2.1

theorem State.aside.jobs (h : s.aside place True t) : t.sched.jobs = s.sched.jobs := (h.2 trivial).1

theorem State.aside.same (h : u.aside place job s) (e : t.tracked = s.tracked) : u.aside place job t := by
  simp only [State.tracked, Prod.mk.injEq] at e
  obtain ⟨hslots, hports, hregs, hfifo, hjobs, hkills, hrec⟩ := e
  refine h.trans ⟨fun _ => ⟨hslots, hports, ?_, hfifo⟩, fun _ => ⟨hjobs, hkills, hrec⟩⟩
  simp only [State.reg, hregs]

theorem State.aside.ite {c : Prop} [Decidable c] (h : u.aside place job s) (k : u.aside place job t) :
    u.aside place job (if c then s else t) := by
  split <;> assumption

theorem State.aside.foldl {β : Type} {f : State → β → State} {l : List β} (h : u.aside place job s)
    (hf : ∀ t x, u.aside place job t → u.aside place job (f t x)) : u.aside place job (l.foldl f s) := by
  induction l generalizing s with
  | nil => exact h
  | cons x l ih => exact ih (hf _ _ h)

/-! ### Registers, memory and events -/

theorem State.aside.setReg {a v : Nat} (h : u.aside place job s) (ha : a ≠ aVal 0x20) : u.aside place job (s.setReg a v) :=
  h.trans ⟨fun _ => ⟨rfl, rfl, s.reg_setReg_ne v ha.symm, rfl⟩, fun _ => ⟨rfl, rfl, rfl⟩⟩

theorem State.aside.setFld {a hi lo v : Nat} (h : u.aside place job s) (ha : a ≠ aVal 0x20) :
    u.aside place job (s.setFld a hi lo v) := h.setReg ha

theorem State.aside.count {a hi lo n : Nat} (h : u.aside place job s) (ha : a ≠ aVal 0x20) :
    u.aside place job (s.count a hi lo n) := h.setReg ha

theorem State.aside.count32 {a : Nat} (h : u.aside place job s) (ha : a ≠ aVal 0x20) : u.aside place job (s.count32 a) :=
  h.count ha

theorem aSch_ne_presence (o : Nat) : aSch o ≠ aVal 0x20 := by simp only [aSch, aVal]; omega

theorem aRing_ne_presence (set o : Nat) : aRing set o ≠ aVal 0x20 := aSch_ne_presence _

theorem aQueue_ne_presence (q o : Nat) : aQueue q o ≠ aVal 0x20 := by simp only [aQueue, aIqm, aVal]; omega

theorem aIqm_ne_presence (o : Nat) : aIqm o ≠ aVal 0x20 := by simp only [aIqm, aVal]; omega

/-- The presence register's address ends in 0x20. -/
theorem aTil_ne_presence (d l t : Nat) {o : Nat} (h : o % 0x100 = 0) : aTil d l t o ≠ aVal 0x20 := by
  simp only [aTil, leaBase, meadowBase, aVal, valeBase]; omega

theorem State.aside.memOnly (h : u.aside place job s) (e : s.memOnly t) : u.aside place job t :=
  h.same (by rw [e]; rfl)

theorem State.aside.store {a : Nat} {bs : List Byte} (h : u.aside place job s) : u.aside place job (s.store a bs) :=
  h.memOnly (s.store_only a bs)

theorem State.aside.spoil {outs : List (Nat × Nat)} (h : u.aside place job s) : u.aside place job (s.spoil outs) :=
  h.foldl fun t o ht => by
    have hput : u.aside place job (t.putBytes o.1 (undefinedBytes t.free o.2)) := .ite (ht.same rfl) ht
    exact hput.same rfl

theorem State.aside.ringPut {set ring type : Nat} {ws : List Nat} (h : u.aside place job s) :
    u.aside place job (s.ringPut set ring type ws) :=
  .ite (.same (.setReg (.same h.store rfl) (aRing_ne_presence _ _)) rfl) (.setReg (.same h.store rfl) (aRing_ne_presence _ _))

theorem State.aside.eventTo {set : Nat} {e : Ev} (h : u.aside place job s) : u.aside place job (s.eventTo set e) :=
  .ite (.count32 h (aSch_ne_presence _)) (.ringPut h)

theorem State.aside.eventOut {e : Ev} (h : u.aside place job s) : u.aside place job (s.eventOut e) := by
  unfold State.eventOut
  split
  · exact .eventTo h
  · exact .ite (.foldl h fun _ _ ht => .eventTo ht) (.count32 h (aSch_ne_presence _))

theorem State.aside.report {e : Ev} (h : u.aside place job s) : u.aside place job (s.report e) :=
  .ite h (.same h rfl)

theorem State.aside.raiseEv {e : Ev} (h : u.aside place job s) : u.aside place job (s.raiseEv e) :=
  .ite (.same (.report h) rfl) (.eventOut (.report h))

theorem State.aside.raise {die lea tile : Nat} {name : String} {a b : Nat} (h : u.aside place job s) :
    u.aside place job (s.raise die lea tile name a b) := .raiseEv h

theorem State.aside.raiseCmd {j : Job} {r : CmdRef} {die lea tile : Nat} {name : String} {a b : Nat} (h : u.aside place job s) :
    u.aside place job (s.raiseCmd j r die lea tile name a b) := .raiseEv h

/-! ### What a run held -/

theorem State.aside.ctxStore {c : Nat} {w : List Nat} (h : u.aside place job s) : u.aside place job (s.ctxStore c w) :=
  .ite (.store (.store h)) (.raise (.store (.store h)))

theorem State.aside.tearDown {j : Job} {r : CmdRef} {cause c : Nat} (h : u.aside place job s) :
    u.aside place job (s.tearDown j r cause c) :=
  .ite h (.raiseCmd (.ctxStore (.same h rfl)))

theorem State.aside.queueShow {q : Nat} (h : u.aside place job s) : u.aside place job (s.queueShow q) :=
  .setReg h (aQueue_ne_presence _ _)

theorem State.aside.takeRewind {q : Nat} (h : u.aside place job s) : u.aside place job (s.takeRewind q) :=
  .queueShow (.same h rfl)

theorem State.aside.takeRelease {q : Nat} (h : u.aside place job s) : u.aside place job (s.takeRelease q) :=
  .queueShow (.setFld (.setFld (.same (.same h rfl) rfl) (aIqm_ne_presence _)) (aQueue_ne_presence _ _))

theorem State.aside.kvLow (h : u.aside place job s) : u.aside place job s.kvLow := .ite h (.raise (.same h rfl))

theorem State.aside.setKvFree {n : Nat} (h : u.aside place job s) : u.aside place job (s.setKvFree n) := by
  have ht : u.aside place job (s.setFld (aSch 0x80C) 22 0 n) := .setFld h (aSch_ne_presence _)
  exact .ite (.kvLow ht) (.ite (.same ht rfl) ht)

theorem State.aside.framePush {f : Nat} (h : u.aside place job s) : u.aside place job (s.framePush f) := .setKvFree (.store h)

theorem State.aside.dropReserve {c : Cmd} (h : u.aside place job s) : u.aside place job (s.dropReserve c) :=
  .setFld h (aSch_ne_presence _)

theorem State.aside.dropOwned {c : Cmd} (h : u.aside place job s) : u.aside place job (s.dropOwned c) :=
  .foldl h fun _ _ ht => .setReg ht (aTil_ne_presence _ _ _ rfl)

theorem State.aside.runOver {r : CmdRef} (h : u.aside place job s) : u.aside place job (s.runOver r) := .same h rfl

theorem State.aside.abandon {c : Cmd} (h : u.aside place job s) : u.aside place job (s.abandon c) :=
  .dropOwned (.dropReserve (.foldl (.foldl (.spoil (.runOver h)) fun _ _ ht => .takeRewind ht) fun _ _ ht => .framePush ht))

theorem State.aside.killedInfo {c : Cmd} (h : u.aside place job s) : u.aside place job (s.killedInfo c).2 := by
  unfold State.killedInfo
  split
  · exact .same h rfl
  · exact h

theorem State.aside.cqPut {set type : Nat} {ws : List Nat} {r : Option CmdRef} (h : u.aside place job s) :
    u.aside place job (s.cqPut set type ws r) := .ite (.same h rfl) (.ringPut h)

theorem State.aside.goldenDefer {j : Job} (h : u.aside place job s) : u.aside place job (s.goldenDefer j) :=
  .ite (.setFld h (aSch_ne_presence _)) h

theorem State.aside.noteFrame {j : Job} (h : u.aside place job s) : u.aside place job (s.noteFrame j) :=
  .ite h (.same h rfl)

theorem State.aside.drainSet {set : Nat} (h : u.aside place job s) : u.aside place job (s.drainSet set) :=
  .ite (.setFld (.setFld h (aRing_ne_presence _ _)) (aRing_ne_presence _ _)) h

/-! ### Where a job or a command of it changes -/

theorem State.aside.placed (h : u.aside place False s)
    (e : (t.slots, t.ports, t.regs, t.sched.fifo) = (s.slots, s.ports, s.regs, s.sched.fifo)) : u.aside place False t := by
  simp only [Prod.mk.injEq] at e
  obtain ⟨hslots, hports, hregs, hfifo⟩ := e
  exact h.trans ⟨fun _ => ⟨hslots, hports, by simp only [State.reg, hregs], hfifo⟩, False.elim⟩

theorem State.aside.updJob {n : Nat} {f : Job → Job} (h : u.aside place False s) : u.aside place False (s.updJob n f) :=
  .placed h rfl

theorem State.aside.updCmd {r : CmdRef} {f : Cmd → Cmd} (h : u.aside place False s) : u.aside place False (s.updCmd r f) := by
  unfold State.updCmd
  split
  · exact .updJob h
  · exact h

theorem State.aside.goldenOver {c : Cmd} {status : Nat} (h : u.aside place False s) : u.aside place False (s.goldenOver c status) :=
  .updCmd (.abandon h)

theorem State.aside.failCmd {j : Job} {c : Cmd} {status : Nat} {tears : Bool} (h : u.aside place False s) :
    u.aside place False (s.failCmd j c status tears) :=
  .ite (.goldenOver h) (.foldl (.raiseCmd (.cqPut (.updCmd (.abandon h)))) fun _ _ ht => .tearDown ht)

theorem State.aside.killedCmd {j : Job} {c : Cmd} (h : u.aside place False s) : u.aside place False (s.killedCmd j c) :=
  .ite (.goldenOver h) (.cqPut (.updJob (.updCmd (.abandon (.killedInfo h)))))

theorem State.aside.skipOne {n : Nat} {r : CmdRef} (h : u.aside place False s) : u.aside place False (s.skipOne n r) := by
  unfold State.skipOne
  split
  · exact h
  · refine .ite h (.ite h ?_)
    dsimp only
    split
    · exact h
    · exact .cqPut (.updJob h)

theorem State.aside.skips (h : u.aside place False s) : u.aside place False s.skips := by
  unfold State.skips
  split
  · exact h
  · exact .ite h (.foldl h fun _ _ ht => .foldl ht fun _ _ hv => .skipOne hv)

theorem State.aside.endJob {j : Job} {status : Nat} (h : u.aside place False s) : u.aside place False (s.endJob j status) := by
  have hdefer : u.aside place False (if j.started then s.goldenDefer j else s) := .ite (.goldenDefer h) h
  exact .drainSet (.cqPut (.noteFrame (.placed hdefer rfl)))

theorem State.aside.jobCheck (h : u.aside place False s) : u.aside place False s.jobCheck := by
  unfold State.jobCheck
  split
  · exact h
  · exact .ite (.endJob h) h

theorem State.aside.suspendJob (h : u.aside place False s) : u.aside place False s.suspendJob := by
  unfold State.suspendJob
  split
  · exact .placed (.raiseEv h) rfl
  · exact h

theorem State.aside.limitJob {n : Nat} (h : u.aside place False s) : u.aside place False (s.limitJob n) := by
  unfold State.limitJob
  split
  · exact h
  · dsimp only
    split
    · exact .endJob (.foldl h fun _ _ ht => .raiseCmd (.cqPut (.updJob ht)))
    · exact .foldl h fun _ _ ht => .raiseCmd (.cqPut (.updJob ht))

theorem State.aside.killDone {k : KillRec} (h : u.aside place False s) : u.aside place False (s.killDone k) := by
  unfold State.killDone
  extract_lets t
  have ht : u.aside place False t := .foldl h fun _ _ hv => by
    split
    · exact .ite (.killedCmd hv) (.failCmd hv)
    · exact hv
  split
  · exact .jobCheck (.skips ht)
  · exact .suspendJob ht
  · split
    · exact .limitJob ht
    · exact ht

theorem State.aside.killsDone {n : Nat} (h : u.aside place False s) : u.aside place False (State.killsDone n s) := by
  induction n generalizing s with
  | zero => exact h
  | succ n ih =>
    unfold State.killsDone
    split
    · exact h
    · exact ih (.killDone (.placed h rfl))

theorem State.aside.kill {rs : List CmdRef} {status : Nat} {tears : Bool} {after : KillThen} (h : u.aside place False s) :
    u.aside place False (s.kill rs status tears after) := by
  unfold State.kill
  extract_lets refs cs dies t v k
  have ht : u.aside place False t := .foldl h fun _ _ hx => .updCmd hx
  have hv : u.aside place False v := by
    unfold v
    refine .ite ht ?_
    split
    · exact .updJob ht
    · exact ht
  exact .ite hv (.ite (.killDone hv) (.placed hv rfl))

end

/-! ## Kills and records on their way -/

theorem mem_of_lookup {α : Type} {m : Sparse α} {k : Nat} {v : α} (h : lookup m k = some v) : (k, v) ∈ m := by
  induction m with
  | nil => cases h
  | cons e m ih =>
    obtain ⟨i, w⟩ := e
    unfold lookup at h
    split at h
    · next hi => cases h; subst hi; exact .head _
    · exact .tail _ (ih h)

/-- A slot that is not a free one is listed. -/
theorem State.slot_listed (s : State) {n : Nat} (h : (s.slot n).busy = true) : (n, s.slot n) ∈ s.slots := by
  unfold State.slot readAt at *
  cases hl : lookup s.slots n with
  | none => rw [hl] at h; cases h
  | some th => exact mem_of_lookup hl

/-- A slot is freed: `State.freeSlots` is a run of this. -/
def State.freeSlot (s : State) (d k : Nat) : State :=
  (s.setSlot k slotFree).setFld (aTil d (k / 8 / 17 % 16) (k / 8 % 17) 0) (8 + k % 8) (8 + k % 8) 0

theorem State.freeSlot_mem (s : State) (d k : Nat) : (s.freeSlot d k).mem = s.mem := by
  rw [State.freeSlot, State.setFld_mem, State.setSlot_mem]

theorem State.freeSlot_sched (s : State) (d k : Nat) : (s.freeSlot d k).sched = s.sched := by
  rw [State.freeSlot, State.setFld_sched, State.setSlot_sched]

theorem State.slot_freeSlot (s : State) (d k n : Nat) : (s.freeSlot d k).slot n = if n = k then slotFree else s.slot n := by
  have hslot : (s.freeSlot d k).slot n = (s.setSlot k slotFree).slot n := by
    simp only [State.slot, State.freeSlot, State.setFld_slots]
  rw [hslot]
  by_cases h : n = k
  · simp [h]
  · simp [h, s.slot_setSlot_ne slotFree h]

theorem State.freeSlots_eq (s : State) (d : Nat) (f : ThreadSlot → Bool) :
    s.freeSlots d f
      = ((s.slots.filter fun e => decide (slotDie e.1 = d) && f e.2).map (·.1)).foldl (fun s k => s.freeSlot d k) s := rfl

theorem State.slot_foldl_freeSlot (s : State) (d : Nat) (l : List Nat) (n : Nat) :
    (l.foldl (fun s k => s.freeSlot d k) s).slot n = if n ∈ l then slotFree else s.slot n := by
  induction l generalizing s with
  | nil => rfl
  | cons k l ih =>
    rw [List.foldl_cons, ih, State.slot_freeSlot]
    by_cases hk : n = k <;> simp [hk]

/-- A slot of the die that `f` picks is free. -/
theorem State.slot_freeSlots (s : State) (d : Nat) (f : ThreadSlot → Bool) (n : Nat) :
    (s.freeSlots d f).slot n
      = if n ∈ (s.slots.filter fun e => decide (slotDie e.1 = d) && f e.2).map (·.1) then slotFree else s.slot n := by
  rw [State.freeSlots_eq, State.slot_foldl_freeSlot]

theorem State.slot_freeSlots_other (s : State) {d n : Nat} (f : ThreadSlot → Bool) (h : slotDie n ≠ d) :
    (s.freeSlots d f).slot n = s.slot n := by
  rw [s.slot_freeSlots, if_neg]
  rintro hm
  obtain ⟨e, he, rfl⟩ := List.mem_map.1 hm
  simp [h] at he

theorem State.slot_freeSlots_busy (s : State) {d n : Nat} {f : ThreadSlot → Bool} (hd : slotDie n = d) (hb : (s.slot n).busy = true)
    (hf : f (s.slot n) = true) : (s.freeSlots d f).slot n = slotFree := by
  rw [s.slot_freeSlots, if_pos]
  exact List.mem_map.2 ⟨_, List.mem_filter.2 ⟨s.slot_listed hb, by simp [hd, hf]⟩, rfl⟩

theorem foldl_fixes {α β : Type} {x : State → α} {f : State → β → State} (h : ∀ s y, x (f s y) = x s) (l : List β) (s : State) :
    x (l.foldl f s) = x s := by
  induction l generalizing s with
  | nil => rfl
  | cons y l ih => exact (ih _).trans (h s y)

theorem State.freeSlots_mem (s : State) (d : Nat) (f : ThreadSlot → Bool) : (s.freeSlots d f).mem = s.mem :=
  foldl_fixes (x := State.mem) (fun s k => s.freeSlot_mem d k) _ s

theorem State.freeSlots_sched (s : State) (d : Nat) (f : ThreadSlot → Bool) : (s.freeSlots d f).sched = s.sched :=
  foldl_fixes (x := State.sched) (fun s k => s.freeSlot_sched d k) _ s

theorem State.eachPart_regsOnly (s : State) (d : Nat) (rs : List CmdRef) {f : State → Cmd → Nat → Nat → State}
    (hf : ∀ (s : State) c d l, s.regsOnly (f s c d l)) : s.regsOnly (s.eachPart d rs f) :=
  State.regsOnly_foldl _ _ (fun s r => by
    split
    · exact State.regsOnly_foldl _ _ (fun s e => hf ..) s
    · exact s.regsOnly_refl) s

theorem State.engineAbandons_regsOnly (s : State) (c : Cmd) (d l : Nat) : s.regsOnly (s.engineAbandons c d l) := by
  unfold State.engineAbandons
  split
  · exact s.regsOnly_setFld ..
  · exact s.regsOnly_setFld ..
  · exact s.regsOnly_refl

theorem State.engineIdle_regsOnly (s : State) (c : Cmd) (d l : Nat) : s.regsOnly (s.engineIdle c d l) := by
  unfold State.engineIdle
  split
  · exact ((s.regsOnly_setFld ..).trans (State.regsOnly_setFld ..)).trans (State.regsOnly_setFld ..)
  · exact ((s.regsOnly_setFld ..).trans (State.regsOnly_setFld ..)).trans (State.regsOnly_setFld ..)
  · exact s.regsOnly_refl

section
variable {s : State} {d : Fin 4} {k : KillRec}

/-- R175: a kill reaches a Meadow. -/
theorem kill_reaches (hf : s.frozen = false) (hk : s.sched.kills = [k]) (hd : k.dies.contains d.val = true)
    (hr : k.reached.contains d.val = false) :
    Leads (.kill d) s fun s' =>
      (∀ n, slotDie n = d.val → (s.slot n).busy = true → (s.slot n).cmd ∈ k.cmds → s'.slot n = slotFree)
        ∧ (∀ n, slotDie n ≠ d.val → s'.slot n = s.slot n)
        ∧ s'.sched.kills = [{ k with reached := k.reached ++ [d.val] }] ∧ s'.mem = s.mem := by
  obtain ⟨f, hfdef⟩ : ∃ f : ThreadSlot → Bool, f = fun th => th.busy && k.cmds.contains th.cmd := ⟨_, rfl⟩
  obtain ⟨v, hv⟩ : ∃ v : State, v = { s.freeSlots d f with
      posts := (s.freeSlots d f).posts.filter fun p => !(decide (slotDie p.slot = d) && k.cmds.contains p.cmd) } := ⟨_, rfl⟩
  have hw := v.eachPart_regsOnly d k.cmds State.engineAbandons_regsOnly
  have hdrop : s.dropWork d k.cmds = v.eachPart d k.cmds State.engineAbandons := by rw [hv, hfdef]; rfl
  have hslots : (s.dropWork d k.cmds).slots = (s.freeSlots d f).slots := by rw [hdrop, hw.slots, hv]
  have hmem : (s.dropWork d k.cmds).mem = s.mem := by rw [hdrop, hw.mem, hv]; exact s.freeSlots_mem d f
  have hkills : (s.dropWork d k.cmds).sched.kills = [k] := by rw [hdrop, hw.sched, hv, ← hk]; exact congrArg (·.kills) (s.freeSlots_sched d f)
  have hslot : ∀ n, (s.dropWork d k.cmds).slot n = (s.freeSlots d f).slot n := fun n => by simp only [State.slot, hslots]
  refine ⟨_, rfl, ?_⟩
  rw [State.live_of_running hf]
  simp only [hk, List.filter_cons, hd, hr, Bool.not_false, Bool.and_self, if_true, List.filter_nil, List.flatMap_cons,
    List.flatMap_nil, List.append_nil, hkills, List.map_cons, List.map_nil]
  refine ⟨fun n hn hb hc => ?_, fun n hn => ?_, trivial, hmem⟩
  · exact (hslot n).trans (s.slot_freeSlots_busy hn hb (by simp [hfdef, hb, hc]))
  · exact (hslot n).trans (s.slot_freeSlots_other f hn)

/-- R175: the Meadow's report takes it off the kill, which another Meadow still holds up. -/
theorem drained_takes (hf : s.frozen = false) (hrun : s.schRunning = true) (hk : s.sched.kills = [k])
    (hr : k.reached.contains d.val = true) (he : ∃ e ∈ k.dies, e ≠ d.val) :
    Leads (.drained d) s fun s' => s'.sched = { s.sched with
        kills := [{ k with dies := k.dies.erase d.val, reached := k.reached.erase d.val }] }
      ∧ s' = { s with sched := s'.sched, regs := s'.regs } := by
  have hidle := s.eachPart_regsOnly d k.cmds State.engineIdle_regsOnly
  have hnot : ∀ t : State, t.killOver { k with dies := k.dies.erase d.val, reached := k.reached.erase d.val } = false := fun t => by
    obtain ⟨e, hm, hne⟩ := he
    have hleft : k.dies.erase d.val ≠ [] := List.ne_nil_of_mem ((List.mem_erase_of_ne hne).2 hm)
    simp [State.killOver, hleft]
  refine ⟨_, rfl, ?_⟩
  rw [State.live_of_running hf]
  simp only [hrun, Bool.not_true, Bool.false_eq_true, if_false, hk, List.filter_cons, hr, if_true, List.filter_nil,
    List.flatMap_cons, List.flatMap_nil, List.append_nil, hidle.sched, List.map_cons, List.map_nil, List.length_singleton,
    State.killsDone, List.find?_cons, hnot, List.find?_nil, true_and]
  rw [hidle]

/-- R210: the oldest record of a Meadow enters the FIFO where it has room. -/
theorem record_enters {rec_ : FifoRec} (hf : s.frozen = false) (ho : s.sched.outbox.find? (fun r => decide (r.die = d.val)) = some rec_) :
    (s.sched.fifo.length < 1024 → Leads (.record d) s fun s' => s' = { s with sched := { s.sched with
        outbox := s.sched.outbox.erase rec_, fifo := s.sched.fifo ++ [rec_] } })
      ∧ (1024 ≤ s.sched.fifo.length → exec (.record d) s = .next s) := by
  have hexec : exec (.record d) s = .next (if 1024 ≤ s.sched.fifo.length then s else { s with sched := { s.sched with
      outbox := s.sched.outbox.erase rec_, fifo := s.sched.fifo ++ [rec_] } }) := by
    change execRecord d s = _
    simp only [execRecord, State.live_of_running hf, ho]
  exact ⟨fun h => ⟨_, hexec, if_neg (by omega)⟩, fun h => hexec.trans (by rw [if_pos h])⟩

end

/-! ## Dies that leave and return -/

/-- A bit of a register after a bit of it was set. -/
theorem State.bit_setFld (s : State) (a : Nat) {i k : Nat} (v : Nat) (hi : i < 64) :
    bit ((s.setFld a i i v).reg a) k = if k = i then decide (v % 2 = 1) else bit (s.reg a) k := by
  rw [State.bit_reg, State.bit_reg]
  split
  · next h => subst h; rw [s.fld_setFld_same v le_rfl hi]; simp
  · next h => rw [s.fld_setFld_apart v le_rfl hi (by omega)]

theorem State.sideband_sideSend (s : State) (die p q v : Nat) :
    ((s.sideSend die p v).port die q).sideband = (s.port die q).sideband ++ if q = p then [v] else [] := by
  have hkey : portKey die q = portKey die p ↔ q = p := by simp [portKey]
  by_cases h : q = p <;> simp [State.sideSend, State.port, State.setPort, readAt_writeAt, hkey, h]

/-- A payload sent stays there while more are sent. -/
theorem State.mem_sideSend {s : State} {die p q v w : Nat} (h : w ∈ (s.port die q).sideband) :
    w ∈ ((s.sideSend die p v).port die q).sideband := by
  rw [State.sideband_sideSend]; exact List.mem_append_left _ h

/-- The Vale's registers stand before the Meadows'. -/
theorem meadowBase_le_aTil (d l t o : Nat) : meadowBase 0 ≤ aTil d l t o := by
  simp only [aTil, leaBase, meadowBase]; omega

theorem State.freeSlot_reg (s : State) (d k : Nat) {a : Nat} (ha : a < meadowBase 0) : (s.freeSlot d k).reg a = s.reg a :=
  State.reg_setReg_ne _ _ (ha.trans_le (meadowBase_le_aTil ..)).ne

theorem dieBase_vale : dieBase 4 = valeBase := rfl

/-- The registers of the Vale's ports stand behind the scheduler core's and before the Meadows'. -/
theorem aFdl_vale_lt {q : Nat} (hq : q < 6) : aFdl 4 q 0 < meadowBase 0 := by
  simp only [aFdl, dieBase_vale, valeBase, meadowBase]; omega

theorem aSch_lt_aFdl {o : Nat} (q : Nat) (ho : o < 0x10000) : aSch o < aFdl 4 q 0 := by
  simp only [aFdl, dieBase_vale, valeBase, aSch]; omega

theorem aFdl_ne_presence (q : Nat) : aFdl 4 q 0 ≠ aVal 0x20 := by
  simp only [aFdl, dieBase_vale, valeBase, aVal]; omega

/-- No slot of a die is busy once all of them are freed. -/
theorem State.freeSlots_idle (s : State) {d n : Nat} (hd : slotDie n = d) : ((s.freeSlots d fun _ => true).slot n).busy = false := by
  cases hb : (s.slot n).busy with
  | true => rw [s.slot_freeSlots_busy hd hb rfl]; rfl
  | false => rw [s.slot_freeSlots]; split; exacts [rfl, hb]

theorem State.forgetDie_idle (s : State) {d n : Nat} (hd : slotDie n = d) : ((s.forgetDie d).slot n).busy = false :=
  s.freeSlots_idle hd

theorem State.forgetDie_reg (s : State) (d : Nat) {a : Nat} (ha : a < meadowBase 0) : (s.forgetDie d).reg a = s.reg a :=
  foldl_fixes (x := fun s : State => s.reg a) (fun s k => s.freeSlot_reg d k ha) _ s

/-- R364: what one FENCE of `State.sendFences` does. -/
def State.sendFence (d : Nat) (s : State) (n : Nat) : State :=
  if s.linkState 4 n = 0 ∨ 6 ≤ s.linkState 4 n then s else s.sideSend 4 n (fencePayload d)

theorem State.sendFence_regs (d : Nat) (s : State) (n : Nat) : (s.sendFence d n).regs = s.regs := by
  unfold State.sendFence; split <;> rfl

theorem State.sendFence_slots (d : Nat) (s : State) (n : Nat) : (s.sendFence d n).slots = s.slots := by
  unfold State.sendFence; split <;> rfl

theorem State.sendFences_eq (s : State) (d : Nat) :
    s.sendFences d = [(ringNeighbours d).1, (ringNeighbours d).2].foldl (State.sendFence d) s := rfl

theorem State.sendFences_regs (s : State) (d : Nat) : (s.sendFences d).regs = s.regs :=
  foldl_fixes (x := State.regs) (State.sendFence_regs d) _ s

theorem State.sendFences_slots (s : State) (d : Nat) : (s.sendFences d).slots = s.slots :=
  foldl_fixes (x := State.slots) (State.sendFence_slots d) _ s

theorem State.mem_sendFence {d n q w : Nat} {s : State} (h : w ∈ (s.port 4 q).sideband) :
    w ∈ ((s.sendFence d n).port 4 q).sideband := by
  unfold State.sendFence
  split
  · exact h
  · exact State.mem_sideSend h

/-- R364: FENCE goes to a neighbour whose link is neither in RESET nor DOWN. -/
theorem State.fenced {d n : Nat} {l : List Nat} (s : State) (hn : n ∈ l) (h0 : s.linkState 4 n ≠ 0) (h6 : s.linkState 4 n < 6) :
    fencePayload d ∈ ((l.foldl (State.sendFence d) s).port 4 n).sideband := by
  induction l generalizing s with
  | nil => cases hn
  | cons m l ih =>
    rw [List.foldl_cons]
    have hlink : (s.sendFence d m).linkState 4 n = s.linkState 4 n := by
      simp only [State.linkState, State.fld, State.reg, State.sendFence_regs]
    cases hn with
    | tail _ hn => exact ih _ hn (hlink ▸ h0) (hlink ▸ h6)
    | head =>
      have hsent : fencePayload d ∈ ((s.sendFence d n).port 4 n).sideband := by
        rw [State.sendFence, if_neg (by omega), State.sideband_sideSend]
        simp
      clear ih h0 h6 hlink
      generalize s.sendFence d n = t at hsent
      induction l generalizing t with
      | nil => exact hsent
      | cons m l ih => exact ih _ (State.mem_sendFence hsent)

/-- R364: the presence bits of a Meadow that leaves, and the event. -/
def State.markGone (s : State) (d : Nat) : State :=
  ((s.setFld (aVal 0x20) d d 0).setFld (aVal 0x20) (8 + d) (8 + d) 0).raise 4 0 0x1F "DIE_DEPARTED" d (32 + d)

theorem State.bit_markGone (s : State) {d k : Nat} (hd : d < 8) (hk : k = d ∨ k = 8 + d) :
    bit ((s.markGone d).reg (aVal 0x20)) k = false := by
  have hreg := State.aside.presence (job := True) (.raise (die := 4) (lea := 0) (tile := 0x1F) (name := "DIE_DEPARTED") (a := d) (b := 32 + d)
    ((s.setFld (aVal 0x20) d d 0).setFld (aVal 0x20) (8 + d) (8 + d) 0).aside_refl)
  rw [State.markGone, hreg, State.bit_setFld _ _ _ (by omega), State.bit_setFld _ _ _ (by omega)]
  rcases hk with rfl | rfl <;> simp

theorem State.linkState_markGone (s : State) (d q : Nat) : (s.markGone d).linkState 4 q = s.linkState 4 q := by
  have hreg : (s.markGone d).reg (aFdl 4 q 0) = s.reg (aFdl 4 q 0) :=
    ((State.raise_only ..).2 _ (aSch_lt_aFdl q (by decide)).ne' fun _ _ => (aSch_lt_aFdl q (by omega)).ne').trans
      ((State.reg_setReg_ne _ _ (aFdl_ne_presence q)).trans (State.reg_setReg_ne _ _ (aFdl_ne_presence q)))
  simp only [State.linkState, State.fld, hreg]

/-- After the presence bits and the event, a Meadow's slots are freed and no kill waits for it; from the fences on, only commands and
jobs change. -/
theorem State.meadowGone_aside (s : State) (d : Nat) :
    ∃ w : State, (w.sendFences d).aside True False (s.meadowGone d) ∧ w.slots = ((s.markGone d).forgetDie d).slots
      ∧ ∀ a < meadowBase 0, w.reg a = (s.markGone d).reg a := by
  unfold State.meadowGone
  extract_lets rs t u v drop sched w x
  have hu : u = s.markGone d := rfl
  have hv : v = u.forgetDie d := rfl
  have hslots : w.slots = v.slots := rfl
  have hregs : w.regs = v.regs := rfl
  refine ⟨w, .killsDone (.kill x.aside_refl), by rw [hslots, hv, hu], fun a ha => ?_⟩
  rw [State.reg_congr hregs, hv, u.forgetDie_reg d ha, hu]

theorem ringNeighbours_lt {d n : Nat} (hn : n ∈ [(ringNeighbours d).1, (ringNeighbours d).2]) : n < 4 := by
  simp only [ringNeighbours, List.mem_cons, List.not_mem_nil, or_false] at hn
  split at hn <;> omega

theorem bit_reg_of_aside {s t : State} {job : Prop} (h : s.aside True job t) (i : Nat) :
    bit (t.reg (aVal 0x20)) i = bit (s.reg (aVal 0x20)) i := by rw [h.presence]

theorem State.reported_congr {s t : State} (h : t.collectors = s.collectors) {die a b : Nat} {name : String}
    (hr : s.reported die name a b) : t.reported die name a b := by
  unfold State.reported
  rwa [State.collector_congr h]

section
variable {s : State}

/-- R364: a Meadow whose port is DOWN is marked absent. -/
theorem meadow_markedAbsent {d : Fin 4} (hf : s.frozen = false) (hrun : s.schRunning = true)
    (hdown : s.linkState 4 d = 6 ∨ s.linkState 4 d = 7) (hup : s.meadowUp d = true) :
    Leads (.dieMarkAbsent ⟨d.val, by omega⟩) s fun s' => s'.meadowUp d = false ∧ s'.stackUp d = false
      ∧ (∀ n, slotDie n = d.val → (s'.slot n).busy = false)
      ∧ ∀ n ∈ [(ringNeighbours d).1, (ringNeighbours d).2], s.linkState 4 n ≠ 0 → s.linkState 4 n < 6 →
        fencePayload d ∈ (s'.port 4 n).sideband := by
  have hbit : bit (s.reg (aVal 0x20)) d = true := by simpa [State.meadowUp] using hup
  have hexec : exec (.dieMarkAbsent ⟨d.val, by omega⟩) s = .next (s.meadowGone d) := by
    change execDieMarkAbsent _ s = _
    have hne : d.val ≠ 4 := by omega
    rcases hdown with hdown | hdown <;> simp [execDieMarkAbsent, State.live_of_running hf, hrun, hdown, hbit, hne]
  obtain ⟨w, hgone, hfreed, hreg⟩ := s.meadowGone_aside d
  obtain ⟨hslots, hports, -, -⟩ := hgone.1 trivial
  have hpresence : (s.meadowGone d).reg (aVal 0x20) = (s.markGone d).reg (aVal 0x20) := by
    rw [hgone.presence, State.reg_congr (w.sendFences_regs d), hreg _ (by decide)]
  refine ⟨_, hexec, ?_, ?_, fun n hn => ?_, fun n hn h0 h6 => ?_⟩
  · simp [State.meadowUp, hpresence, s.bit_markGone (d := d) (by omega) (.inl rfl)]
  · simp [State.stackUp, hpresence, s.bit_markGone (d := d) (by omega) (.inr rfl)]
  · rw [State.slot_congr ((hslots.trans (w.sendFences_slots d)).trans hfreed)]
    exact State.forgetDie_idle _ hn
  · have hport : (s.meadowGone d).port 4 n = (w.sendFences d).port 4 n := by simp only [State.port, hports]
    have hlink : w.linkState 4 n = s.linkState 4 n := by
      have hlt := ringNeighbours_lt hn
      rw [← s.linkState_markGone d]
      simp only [State.linkState, State.fld, hreg _ (aFdl_vale_lt (by omega : n < 6))]
    rw [hport, State.sendFences_eq]
    exact w.fenced hn (hlink ▸ h0) (hlink ▸ h6)

/-- R169, R364: a Heath whose port is DOWN is marked absent. -/
theorem heath_markedAbsent {h : Fin 2} (hf : s.frozen = false) (hrun : s.schRunning = true)
    (hdown : s.linkState 4 (4 + h) = 6 ∨ s.linkState 4 (4 + h) = 7) (hup : bit (s.reg (aVal 0x20)) (5 + h) = true) :
    Leads (.dieMarkAbsent ⟨5 + h.val, by omega⟩) s fun s' => bit (s'.reg (aVal 0x20)) (5 + h) = false
      ∧ (∀ r ∈ s'.prairie.records, r.heath ≠ h.val)
      ∧ ((∀ r ∈ s.prairie.records, r.heath ≠ h.val) → s'.reported 4 "DIE_DEPARTED" (5 + h.val) (36 + h.val)) := by
  have hexec : exec (.dieMarkAbsent ⟨5 + h.val, by omega⟩) s = .next (s.heathGone h) := by
    change execDieMarkAbsent _ s = _
    rcases hdown with hdown | hdown <;>
      simp [execDieMarkAbsent, State.live_of_running hf, hrun, hdown, hup, show 5 + h.val ≠ 4 by omega,
        show ¬ 5 + h.val < 4 by omega]
  obtain ⟨m, hm⟩ : ∃ m, m = (s.setFld (aVal 0x20) (5 + h) (5 + h) 0).raise 4 0 0x1F "DIE_DEPARTED" (5 + h) (32 + 4 + h) := ⟨_, rfl⟩
  have hraise : (s.setFld (aVal 0x20) (5 + h) (5 + h) 0).aside True True m := hm ▸ (State.aside_refl _).raise
  refine ⟨_, hexec, ?_, fun r hr => ?_, fun hnone => ?_⟩
  · have haside : (s.setFld (aVal 0x20) (5 + h) (5 + h) 0).aside True False (s.heathGone h) := by
      unfold State.heathGone
      rw [← hm]
      exact .placed (.foldl ⟨hraise.1, False.elim⟩ fun _ _ ht => .raiseEv ht) rfl
    rw [bit_reg_of_aside haside, State.bit_setFld _ _ _ (by omega)]
    simp
  · exact of_decide_eq_true (List.mem_filter.1 hr).2
  · have hlost : m.prairie.records.filter (fun r => decide (r.heath = h.val)) = [] := by
      rw [(hraise.2 trivial).2.2]
      exact List.filter_eq_nil_iff.2 fun r hr => by simpa using hnone r hr
    have hcol : (s.heathGone h).collectors = m.collectors := by
      subst hm
      simp only [State.heathGone, hlost, List.foldl_nil]
    exact State.reported_congr hcol (hm ▸ State.raise_reported _ le_rfl ..)

end
/-- The Vale's port to another die. -/
def valePort (o : Nat) : Nat := if o < 4 then o else o - 1

theorem portTo_vale : ∀ o < 7, o ≠ 4 → portTo 4 o = some (valePort o) := by decide

theorem facing_portTo_vale : ∀ o < 7, o ≠ 4 → facing o ((portTo o 4).getD 0) = 4 := by decide

/-- R356: what has been sent to a die's port to the Vale waits at the Vale's port to the die. -/
theorem State.sideSent_vale (s : State) {o v : Nat} (ho : o < 7) (h4 : o ≠ 4) :
    s.sideSent o ((portTo o 4).getD 0) v = (s.port 4 (valePort o)).sideband.contains v := by
  simp only [State.sideSent, facing_portTo_vale o ho h4, portTo_vale o ho h4]

/-- R366: one REJOIN of `State.sendRejoins`. -/
def State.sendRejoin (d : Nat) (s : State) (o : Nat) : State :=
  match portTo 4 o with
  | some q => if s.sideSent o ((portTo o 4).getD 0) (rejoinPayload d) then s else s.sideSend 4 q (rejoinPayload d)
  | none => s

theorem State.sendRejoin_regs (d : Nat) (s : State) (o : Nat) : (s.sendRejoin d o).regs = s.regs := by
  unfold State.sendRejoin; split
  · split <;> rfl
  · rfl

theorem State.mem_sendRejoin {d o q w : Nat} {s : State} (h : w ∈ (s.port 4 q).sideband) :
    w ∈ ((s.sendRejoin d o).port 4 q).sideband := by
  unfold State.sendRejoin; split
  · split
    · exact h
    · exact State.mem_sideSend h
  · exact h

theorem State.sendRejoin_sent (d : Nat) (s : State) {o : Nat} (ho : o < 7) (h4 : o ≠ 4) :
    rejoinPayload d ∈ ((s.sendRejoin d o).port 4 (valePort o)).sideband := by
  simp only [State.sendRejoin, portTo_vale o ho h4, s.sideSent_vale ho h4]
  split
  · next h => simpa using h
  · simp [State.sideband_sideSend]

/-- R366: REJOIN reaches every die of a list. -/
theorem State.rejoinSent {d o : Nat} {l : List Nat} (s : State) (hm : o ∈ l) (ho : o < 7) (h4 : o ≠ 4) :
    (l.foldl (State.sendRejoin d) s).sideSent o ((portTo o 4).getD 0) (rejoinPayload d) = true := by
  rw [State.sideSent_vale _ ho h4, List.contains_iff_mem]
  obtain ⟨l₁, l₂, rfl⟩ := List.append_of_mem hm
  rw [List.foldl_append, List.foldl_cons]
  generalize l₁.foldl (State.sendRejoin d) s = t
  have hsent := t.sendRejoin_sent d ho h4
  generalize t.sendRejoin d o = v at hsent
  clear hm
  induction l₂ generalizing v with
  | nil => exact hsent
  | cons m l ih => exact ih _ (State.mem_sendRejoin hsent)

theorem aPoint_vale_ne_presence (q o : Nat) : aPoint 4 q o ≠ aVal 0x20 := by
  simp only [aPoint, aFlr, dieBase_vale, aVal]; omega

theorem aFlr_vale_ne_presence (o : Nat) : aFlr 4 o ≠ aVal 0x20 := by
  simp only [aFlr, dieBase_vale, aVal]; omega

section
variable {place job : Prop} {u s : State}

theorem State.aside.countTaskVale {task n : Nat} (h : u.aside place job s) : u.aside place job (s.countTask 4 task n) :=
  .foldl h fun t i ht => by
    dsimp only
    split
    · exact .count ht (aFlr_vale_ne_presence _)
    · exact ht

theorem State.aside.chargeVale {q c task n : Nat} (h : u.aside place job s) : u.aside place job (s.charge 4 q c task n) := by
  unfold State.charge
  split
  · exact h
  · exact .countTaskVale (.count (.ite (.count32 h (aPoint_vale_ne_presence _ _)) h) (aPoint_vale_ne_presence _ _))

end

theorem State.chargeMsg_reg (s : State) (p : Nat) (m : Msg) : (s.chargeMsg 4 p m).reg (aVal 0x20) = s.reg (aVal 0x20) := by
  unfold State.chargeMsg
  split
  · exact State.aside.presence (job := True) (.chargeVale s.aside_refl)
  · rfl

theorem State.pump_reg (s : State) (p : Nat) : (s.pump 4 p).reg (aVal 0x20) = s.reg (aVal 0x20) := by
  unfold State.pump
  split
  · rfl
  · exact (foldl_fixes (x := fun s : State => s.reg (aVal 0x20)) (f := fun s (e : Nat × Msg) => s.chargeMsg 4 p e.2)
      (fun s e => s.chargeMsg_reg p e.2) _ _).trans (State.reg_congr rfl _)

/-- R366: the Vale's own end goes ACTIVE. -/
def State.valeActive (s : State) (d : Nat) : State := if s.linkState 4 d = 3 then (s.setLink 4 d 4).pump 4 d else s

theorem State.valeActive_reg (s : State) (d : Nat) : (s.valeActive d).reg (aVal 0x20) = s.reg (aVal 0x20) := by
  unfold State.valeActive
  split
  · exact (State.pump_reg ..).trans (State.reg_setReg_ne _ _ (aFdl_ne_presence d).symm)
  · rfl

theorem State.sendRejoins_eq (s : State) (d : Nat) :
    s.sendRejoins d = [d, (ringNeighbours d).1, (ringNeighbours d).2, 5, 6].foldl (State.sendRejoin d) (s.valeActive d) := rfl

theorem State.sendRejoins_reg (s : State) (d : Nat) : (s.sendRejoins d).reg (aVal 0x20) = s.reg (aVal 0x20) := by
  rw [State.sendRejoins_eq, ← s.valeActive_reg d]
  exact foldl_fixes (x := fun s : State => s.reg (aVal 0x20)) (fun s o => State.reg_congr (State.sendRejoin_regs d s o) _) _ _

theorem linksUp_mono {d : Nat} {f g : Nat → Nat → Bool} (hfg : ∀ e q, f e q = true → g e q = true) (h : linksUp d f = true) :
    linksUp d g = true := by
  simp only [linksUp, List.all_eq_true, Bool.and_eq_true] at h ⊢
  intro p hp
  obtain ⟨hown, hother⟩ := h p hp
  refine ⟨hfg _ _ hown, ?_⟩
  split at hother
  · next q hq => exact hfg _ _ hother
  · cases hother

/-- R366: what a Meadow's return does before its event: the epochs of its maps advance, and it is present again. -/
def State.markBack (s : State) (d : Nat) : State :=
  let t := (List.range 2).foldl (fun s m => (s.setPraEpoch d m (s.praEpoch d m + 1) false).praUncurrent d m) s
  (t.setFld (aVal 0x20) d d 1).setFld (aVal 0x20) (8 + d) (8 + d) (b2n (t.dramReady d))

theorem State.epoch_regs (s : State) (d m e : Nat) (valid : Bool) : ((s.setPraEpoch d m e valid).praUncurrent d m).regs
    = (s.setReg (aPra d (if m = 0 then 0x08 else 0x0C)) (e % 2 ^ 16 + b2n valid * 2 ^ 16)).regs := rfl

theorem State.epochs_dramReady (s : State) (d : Nat) :
    ((List.range 2).foldl (fun s m => (s.setPraEpoch d m (s.praEpoch d m + 1) false).praUncurrent d m) s).dramReady d = s.dramReady d := by
  refine foldl_fixes (x := fun s : State => s.dramReady d) (fun s m => ?_) _ _
  have hne : ∀ o, aDmc d 0 ≠ aPra d o := fun o => by simp only [aDmc, aPra]; omega
  have hreg := (State.reg_congr (s.epoch_regs d m (s.praEpoch d m + 1) false) (aDmc d 0)).trans (State.reg_setReg_ne _ _ (hne _))
  exact congrArg (fun w => decide (bits w 2 0 = 2)) hreg

theorem State.markBack_bits (s : State) {d : Nat} (hd : d < 4) :
    bit ((s.markBack d).reg (aVal 0x20)) d = true ∧ bit ((s.markBack d).reg (aVal 0x20)) (8 + d) = s.dramReady d := by
  rw [State.markBack, State.bit_setFld _ _ _ (by omega), State.bit_setFld _ _ _ (by omega), State.bit_setFld _ _ _ (by omega),
    s.epochs_dramReady]
  cases s.dramReady d <;> simp [b2n]

section
variable {s : State} {d : Fin 4}

/-- R366: REJOIN is sent for a Meadow all of whose links are up, and some not ACTIVE. -/
theorem rejoin_sent (hf : s.frozen = false) (hrun : s.schRunning = true) (habsent : s.meadowUp d = false) (hidle : s.curJob = none)
    (hup : linksUp d s.linkUp = true) (hnot : linksUp d (fun e q => decide (s.linkState e q = 4)) = false) :
    Leads (.dieRejoin d) s fun s' => s'.meadowUp d = false
      ∧ ∀ o ∈ [d.val, (ringNeighbours d).1, (ringNeighbours d).2, 5, 6], s'.sideSent o ((portTo o 4).getD 0) (rejoinPayload d) = true := by
  refine ⟨s.sendRejoins d, ?_, ?_, fun o ho => ?_⟩
  · change execDieRejoin d s = _
    simp [execDieRejoin, State.live_of_running hf, hrun, habsent, hidle, hup, hnot]
  · simpa only [State.meadowUp, s.sendRejoins_reg] using habsent
  · rw [State.sendRejoins_eq]
    have hport : o < 7 ∧ o ≠ 4 := by
      have := d.isLt
      have hring := fun h => ringNeighbours_lt (d := d) (n := o) h
      simp only [List.mem_cons, List.not_mem_nil, or_false] at ho hring
      omega
    exact State.rejoinSent _ ho hport.1 hport.2

/-- R366: the Meadow is present again once all its links are ACTIVE. -/
theorem rejoin_done (hf : s.frozen = false) (hrun : s.schRunning = true) (habsent : s.meadowUp d = false) (hidle : s.curJob = none)
    (hactive : linksUp d (fun e q => decide (s.linkState e q = 4)) = true) :
    Leads (.dieRejoin d) s fun s' => s'.meadowUp d = true ∧ s'.stackUp d = s.dramReady d ∧ s'.reported 4 "DIE_REJOINED" d (32 + d.val) := by
  have hup : linksUp d s.linkUp = true := linksUp_mono (fun e q h => by simpa [State.linkUp] using .inr (of_decide_eq_true h)) hactive
  have hbits := fun i => bit_reg_of_aside ((State.aside_refl (place := True) (job := True) (s.markBack d)).raise (die := 4) (lea := 0) (tile := 0x1F)
    (name := "DIE_REJOINED") (a := d) (b := 32 + d)) i
  obtain ⟨hpresent, hstack⟩ := s.markBack_bits d.isLt
  refine ⟨(s.markBack d).raise 4 0 0x1F "DIE_REJOINED" d (32 + d), ?_, ?_, ?_, State.raise_reported _ le_rfl ..⟩
  · change execDieRejoin d s = _
    simp [execDieRejoin, State.live_of_running hf, hrun, habsent, hidle, hup, hactive, State.markBack]
  · simp [State.meadowUp, hbits, hpresent]
  · simp [State.stackUp, hbits, hstack]

end

/-- Settles O29: a kill, a report, a record and a die's leaving and returning, each by its own theorem. -/
theorem killsAndDepartures : Obligations.KillsAndDepartures := by
  intro s d h rec_ k hf _
  exact ⟨kill_reaches hf, fun hrun => drained_takes hf hrun, record_enters hf, meadow_markedAbsent hf, heath_markedAbsent hf,
    fun hrun habsent hidle => ⟨rejoin_sent hf hrun habsent hidle, rejoin_done hf hrun habsent hidle⟩⟩

end Sys2Proof.Machine
end

section
/-! PROOFS of the family "jobs": O35. The running job and its record of a command (`State.runs`, `State.holds`) are followed through
what the scheduler core does; what leaves the jobs alone is `State.aside`. -/

namespace Sys2Proof.Machine

/-! ## The running job and its record of a command -/

/-- The scheduler core runs or suspends the job `k` of number `n`, which no other job has. -/
def State.runs (s : State) (n : Nat) (k : Job) : Prop :=
  s.curJob = some k ∧ k.serial = n ∧ ∀ x ∈ s.sched.jobs, x.serial = n → x = k

/-- `c` is that job's record of the command `r`. -/
def State.holds (s : State) (n : Nat) (r : CmdRef) (c : Cmd) : Prop :=
  ∃ k, s.runs n k ∧ k.cmds.find? (fun c => decide (c.ref = r)) = some c

section
variable {s t : State} {n : Nat} {r : CmdRef} {c : Cmd} {k : Job}

theorem State.runs_of_named {j : Job} (hj : s.curJob = some j) (hn : NamedAlone s j) : s.runs j.serial j := ⟨hj, rfl, hn⟩

theorem State.runs_congr (e : t.sched.jobs = s.sched.jobs) (h : s.runs n k) : t.runs n k := by
  unfold State.runs State.curJob at *
  rwa [e]

theorem State.holds_congr (e : t.sched.jobs = s.sched.jobs) (h : s.holds n r c) : t.holds n r c := by
  obtain ⟨k, hk, hc⟩ := h
  exact ⟨k, State.runs_congr e hk, hc⟩

theorem State.holds.cmd (h : s.holds n r c) : s.cmd r = some c := by
  obtain ⟨k, ⟨hk, -, -⟩, hc⟩ := h
  simp only [State.cmd, hk, hc]

theorem State.holds_of_cmd (h : s.runs n k) (hc : s.cmd r = some c) : s.holds n r c := by
  refine ⟨k, h, ?_⟩
  simpa only [State.cmd, h.1] using hc

theorem State.holds.ref (h : s.holds n r c) : c.ref = r := by
  obtain ⟨k, -, hc⟩ := h
  simpa using List.find?_some hc

theorem State.cmd_ref (h : s.cmd r = some c) : c.ref = r := by
  unfold State.cmd at h
  split at h
  · simpa using List.find?_some h
  · cases h

theorem Job.cmdAt_of_find {j : Job} (h : j.cmds.find? (fun c => decide (c.ref = r)) = some c) : j.cmdAt r = c := by
  simp only [Job.cmdAt, h, Option.getD_some]

theorem Job.cmdAt_ref (j : Job) (r : CmdRef) : (j.cmdAt r).ref = r := by
  unfold Job.cmdAt
  cases h : j.cmds.find? fun c => decide (c.ref = r) with
  | none => rfl
  | some c => simpa using List.find?_some h

/-- An update of the job that leaves it the job that runs or is being suspended. -/
theorem State.runs.updJob {g : Job → Job} (h : s.runs n k) (hs : (g k).serial = n)
    (hp : ((g k).phase = .running ∨ (g k).phase = .suspending)) : (s.updJob n g).runs n (g k) := by
  obtain ⟨hk, hserial, halone⟩ := h
  have hcur : k.phase = .running ∨ k.phase = .suspending := by simpa using List.find?_some hk
  refine ⟨?_, hs, fun x hx hxn => ?_⟩
  · unfold State.curJob State.updJob at *
    rw [List.find?_map]
    have hsame : s.sched.jobs.find? ((fun j : Job => decide (j.phase = .running) || decide (j.phase = .suspending)) ∘
        fun j => if j.serial = n then g j else j)
        = s.sched.jobs.find? fun j => decide (j.phase = .running) || decide (j.phase = .suspending) :=
      List.find?_congr fun x hx => by
        by_cases hxn : x.serial = n
        · rw [halone x hx hxn]
          simp only [Function.comp, hserial, if_true, ← Bool.decide_or, hp, hcur]
        · simp [hxn]
    rw [hsame, hk]
    simp [hserial]
  · obtain ⟨y, hy, rfl⟩ := List.mem_map.1 hx
    by_cases hyn : y.serial = n
    · rw [if_pos hyn, halone y hy hyn]
    · rw [if_neg hyn] at hxn; exact absurd hxn hyn

theorem State.runs.phase (h : s.runs n k) : k.phase = .running ∨ k.phase = .suspending := by
  simpa using List.find?_some h.1

/-- The job after `f` has replaced its records of the command `r`. -/
def Job.mapCmd (j : Job) (r : CmdRef) (f : Cmd → Cmd) : Job := { j with cmds := j.cmds.map fun c => if c.ref = r then f c else c }

theorem State.runs.updCmd {f : Cmd → Cmd} (h : s.runs n k) (r : CmdRef) : (s.updCmd r f).runs n (k.mapCmd r f) := by
  have hupd : s.updCmd r f = s.updJob n fun j => j.mapCmd r f := by
    simp only [State.updCmd, h.1, h.2.1]; rfl
  rw [hupd]
  exact h.updJob h.2.1 h.phase

theorem State.holds.updCmd {f : Cmd → Cmd} {q : CmdRef} (h : s.holds n r c) (hf : ∀ c, c.ref = q → (f c).ref = q) :
    (s.updCmd q f).holds n r (if r = q then f c else c) := by
  have hcref := h.ref
  obtain ⟨k, hk, hc⟩ := h
  refine ⟨_, hk.updCmd q, ?_⟩
  have hsame : ((fun c : Cmd => decide (c.ref = r)) ∘ fun c => if c.ref = q then f c else c) = fun c => decide (c.ref = r) := by
    funext x
    by_cases hx : x.ref = q <;> simp [hx, hf]
  rw [Job.mapCmd, List.find?_map, hsame, hc, Option.map_some, hcref]

/-- A record put for another command. -/
theorem State.holds.putCmd {d : Cmd} (h : s.holds n r c) (hd : d.ref ≠ r) : (s.updJob n fun j => j.putCmd d).holds n r c := by
  obtain ⟨k, hk, hc⟩ := h
  refine ⟨_, hk.updJob hk.2.1 hk.phase, ?_⟩
  unfold Job.putCmd
  dsimp only
  split
  · have hsame : ((fun c : Cmd => decide (c.ref = r)) ∘ fun x => if x.ref = d.ref then d else x) = fun c => decide (c.ref = r) := by
      funext x
      by_cases hx : x.ref = d.ref <;> simp [hx]
    rw [List.find?_map, hsame, hc, Option.map_some]
    have hcref : c.ref = r := by simpa using List.find?_some hc
    rw [if_neg fun e => hd (e.symm.trans hcref)]
  · rw [List.find?_append, hc]; rfl

/-! ## Skips and the end of the job -/

theorem State.holds.skipOne {q : CmdRef} (h : s.holds n r c) (hc : c.phase ≠ .waiting) : (s.skipOne n q).holds n r c := by
  obtain ⟨k, hk, hfind⟩ := id h
  unfold State.skipOne
  split
  · exact h
  · next j hj =>
    have hjk : j = k := hk.2.2 j (List.mem_of_find?_eq_some hj) (by simpa using List.find?_some hj)
    subst hjk
    dsimp only
    split
    · exact h
    · next hwait =>
      split
      · exact h
      · split
        · exact h
        · have hqr : (j.cmdAt q).ref ≠ r := fun e => by
            rw [j.cmdAt_ref] at e
            subst e
            rw [Job.cmdAt_of_find hfind] at hwait
            exact hwait (.inl hc)
          exact State.holds_congr (State.aside.jobs (place := True) (.cqPut (State.aside_refl _))) (h.putCmd hqr)

theorem State.holds.skips (h : s.holds n r c) (hc : c.phase ≠ .waiting) : s.skips.holds n r c := by
  obtain ⟨k, hk, -⟩ := id h
  have hfold : ∀ (l : Nat) (is : List Nat) (t : State), t.holds n r c → (is.foldl (fun s i => s.skipOne n ⟨l, i⟩) t).holds n r c := by
    intro l is
    induction is with
    | nil => exact fun _ => id
    | cons i is ih => exact fun t ht => ih _ (ht.skipOne hc)
  simp only [State.skips, hk.1, hk.2.1]
  split
  · exact h
  · generalize List.range 2 = ls
    clear hk
    induction ls generalizing s with
    | nil => exact h
    | cons l ls ih => exact ih (hfold l _ s h)

theorem State.endJob_jobs (s : State) (j : Job) (status : Nat) :
    (s.endJob j status).sched.jobs = s.sched.jobs.filter fun x => decide (x.serial ≠ j.serial) := by
  unfold State.endJob
  extract_lets u cur sched v
  have hu : s.aside True True u := .ite (.goldenDefer s.aside_refl) s.aside_refl
  have hv : v.aside True True (((v.noteFrame j).cqPut j.ringSet 2 (jobEntry j status v.now) none).drainSet j.ringSet) :=
    .drainSet (.cqPut (.noteFrame v.aside_refl))
  rw [hv.jobs, ← hu.jobs]

theorem State.mem_endJob {j x : Job} {status : Nat} (h : x ∈ (s.endJob j status).sched.jobs) : x.serial ≠ j.serial := by
  rw [State.endJob_jobs] at h
  simpa using (List.mem_filter.1 h).2

/-- Once the skips and the end of the job are decided, the command has come to what its record says, or its job has ended. -/
theorem State.holds.cameTo {j : Job} {P : Cmd → Prop} (h : s.holds j.serial r c) (hP : P c) : CameTo s j r P := by
  obtain ⟨k, hk, hc⟩ := h
  exact .inl ⟨k, List.mem_of_find?_eq_some hk.1, hk.2.1, by rwa [Job.cmdAt_of_find hc]⟩

theorem State.holds.cameTo_jobCheck {j : Job} {P : Cmd → Prop} (h : s.holds j.serial r c) (hP : P c) : CameTo s.jobCheck j r P := by
  obtain ⟨k, hk, -⟩ := id h
  simp only [State.jobCheck, hk.1]
  split
  · exact .inr fun x hx => hk.2.1 ▸ State.mem_endJob hx
  · exact h.cameTo hP

end


/-! ## Commands that fail -/

/-- The command has failed with the status. -/
def Cmd.failedWith (c : Cmd) (st : Nat) : Prop := c.phase = .failed ∧ c.endStatus = st

section
variable {s t : State} {n st : Nat} {r : CmdRef} {c d : Cmd} {k j : Job} {tears : Bool}

theorem State.holds.aside {place : Prop} (h : s.holds n r c) (a : s.aside place True t) : t.holds n r c :=
  State.holds_congr a.jobs h

/-- How the record of a command ends in `State.failCmd`; what goes before and after it there leaves the jobs alone. -/
theorem State.failCmd_record (s : State) (j : Job) (d : Cmd) (st : Nat) (tears : Bool) :
    ∃ e : Cmd, e.ref = d.ref ∧ e.failedWith st ∧ ∃ u : State, s.aside True True u
      ∧ (u.updCmd d.ref fun _ => e).aside True True (s.failCmd j d st tears) := by
  have hctx : ∀ l : List Nat, (match l with
      | x :: _ => if d.faultCtx = 0xFFFF then { d with faultCtx := x } else d
      | [] => d).ref = d.ref := fun l => by
    split
    · split <;> rfl
    · rfl
  unfold State.failCmd
  by_cases hl : d.ref.list = 2
  · rw [if_pos hl]
    exact ⟨{ d.ended .failed with endStatus := st }, rfl, ⟨rfl, rfl⟩, s.abandon d, .abandon s.aside_refl, State.aside_refl _⟩
  · rw [if_neg hl]
    extract_lets tear e u
    have he : e.ref = d.ref := hctx tear
    refine ⟨{ e.ended .failed with endStatus := st }, he, ⟨rfl, rfl⟩, u, .abandon s.aside_refl, ?_⟩
    rw [← he]
    exact .foldl (.raiseCmd (.cqPut (State.aside_refl _))) fun _ _ ht => .tearDown ht

theorem State.runs.failCmd (h : s.runs n k) : ∃ k, (s.failCmd j d st tears).runs n k := by
  obtain ⟨e, -, -, u, hu, ha⟩ := s.failCmd_record j d st tears
  exact ⟨_, State.runs_congr ha.jobs ((State.runs_congr hu.jobs h).updCmd d.ref)⟩

theorem State.holds.failCmd (h : s.holds n r c) (hd : d.ref = r) :
    ∃ e, (s.failCmd j d st tears).holds n r e ∧ e.failedWith st := by
  subst hd
  obtain ⟨e, he, hfailed, u, hu, ha⟩ := s.failCmd_record j d st tears
  have hupd := (h.aside hu).updCmd (q := d.ref) (f := fun _ => e) fun _ _ => he
  rw [if_pos rfl] at hupd
  exact ⟨e, hupd.aside ha, hfailed⟩

/-- The failure of another command. -/
theorem State.holds.failCmd_other (h : s.holds n r c) (hd : d.ref ≠ r) : (s.failCmd j d st tears).holds n r c := by
  obtain ⟨e, he, -, u, hu, ha⟩ := s.failCmd_record j d st tears
  have hupd := (h.aside hu).updCmd (q := d.ref) (f := fun _ => e) fun _ _ => he
  rw [if_neg (Ne.symm hd)] at hupd
  exact hupd.aside ha

/-- R170: a command that fails has come to its failure, or the job has ended with it. -/
theorem State.holds.fails (h : s.holds j.serial r c) (hd : d.ref = r) :
    CameTo (s.failCmd k d st tears).skips.jobCheck j r fun c => c.phase = .failed ∧ c.endStatus = st := by
  obtain ⟨e, he, hfailed⟩ := h.failCmd (j := k) (st := st) (tears := tears) hd
  exact (he.skips (by rw [hfailed.1]; decide)).cameTo_jobCheck hfailed

/-! ## Kills -/

/-- R175: the kill of a list of commands puts them down as such. -/
theorem State.holds.killing {l : List Cmd} (h : s.holds n r c) :
    (l.foldl (fun s d => s.updCmd d.ref fun c => { c with phase := .killing }) s).holds n r
      (if r ∈ l.map (·.ref) then { c with phase := .killing } else c) := by
  induction l generalizing s c with
  | nil => exact h
  | cons d l ih =>
    have hd := h.updCmd (q := d.ref) (f := fun c => { c with phase := .killing }) fun _ => id
    have hl := ih hd
    rw [List.foldl_cons]
    by_cases he : r = d.ref
    · simpa [he] using hl
    · simpa [he] using hl

/-- R175: each command that a kill with a status of its own covers fails with it. -/
def State.failAll (st : Nat) (tears : Bool) (l : List CmdRef) (s : State) : State :=
  l.foldl (fun s r =>
    match s.curJob, s.cmd r with
    | some j, some c => if st = 1 then s.killedCmd j c else s.failCmd j c st tears
    | _, _ => s) s

theorem State.runs.failAll_some {q : CmdRef} {l : List CmdRef} (h : s.runs n k) (hst : st ≠ 1) (hd : s.cmd q = some d) :
    s.failAll st tears (q :: l) = (s.failCmd k d st tears).failAll st tears l := by
  simp only [State.failAll, List.foldl_cons, h.1, hd, hst, if_false]

theorem State.failAll_none {q : CmdRef} {l : List CmdRef} (hd : s.cmd q = none) :
    s.failAll st tears (q :: l) = s.failAll st tears l := by
  simp only [State.failAll, List.foldl_cons, hd]
  cases s.curJob <;> rfl

theorem State.runs.failAll {l : List CmdRef} (hst : st ≠ 1) (h : s.runs n k) : ∃ k, (s.failAll st tears l).runs n k := by
  induction l generalizing s k with
  | nil => exact ⟨k, h⟩
  | cons q l ih =>
    cases hd : s.cmd q with
    | none => rw [State.failAll_none hd]; exact ih h
    | some d =>
      obtain ⟨k', hk⟩ := h.failCmd (j := k) (d := d) (st := st) (tears := tears)
      rw [h.failAll_some hst hd]
      exact ih hk

theorem State.holds.failAll {l : List CmdRef} (hst : st ≠ 1) (h : s.holds n r c) (hc : c.failedWith st ∨ r ∈ l) :
    ∃ e, (s.failAll st tears l).holds n r e ∧ e.failedWith st := by
  induction l generalizing s c with
  | nil => exact ⟨c, h, hc.resolve_right List.not_mem_nil⟩
  | cons q l ih =>
    obtain ⟨k, hk, -⟩ := id h
    by_cases hq : q = r
    · subst hq
      obtain ⟨e, he, hfailed⟩ := h.failCmd (j := k) (st := st) (tears := tears) h.ref
      rw [hk.failAll_some hst h.cmd]
      exact ih he (.inl hfailed)
    · have hc' : c.failedWith st ∨ r ∈ l := hc.imp_right fun hm => (List.mem_cons.1 hm).resolve_left (Ne.symm hq)
      cases hd : s.cmd q with
      | none => rw [State.failAll_none hd]; exact ih h hc'
      | some d =>
        rw [hk.failAll_some hst hd]
        exact ih (h.failCmd_other fun e => hq ((State.cmd_ref hd).symm.trans e)) hc'

/-- The commands that a kill of `r` alone covers (R217). -/
def State.killSet (s : State) (r : CmdRef) : List Cmd :=
  ((([r] ++ ([r].filterMap s.cmd).flatMap Cmd.goldenRuns).eraseDups).filterMap s.cmd).filter fun c =>
    decide (c.phase = .running) && !c.due

theorem State.mem_killSet (hc : s.cmd r = some c) (hrun : c.phase = .running) (hdue : c.due = false) : c ∈ s.killSet r := by
  refine List.mem_filter.2 ⟨List.mem_filterMap.2 ⟨r, ?_, hc⟩, by simp [hrun, hdue]⟩
  rw [List.mem_eraseDups]
  exact List.mem_append_left _ (List.mem_singleton.2 rfl)

theorem State.killSet_single (hc : s.cmd r = some c) (hrun : c.phase = .running) (hdue : c.due = false) (hkind : c.kind ≠ 5) :
    s.killSet r = [c] := by
  simp [State.killSet, hc, Cmd.goldenRuns, hkind, hrun, hdue, List.eraseDups_cons]

/-- The record of that kill. -/
def State.killRec (s : State) (r : CmdRef) (st : Nat) (tears : Bool) : KillRec :=
  ⟨(s.killSet r).map (·.ref), ((s.killSet r).flatMap s.workDies).eraseDups, [], st, tears, .go⟩

/-- R175: a kill of one command is complete at once where no die holds work of what it covers, else it waits for the dies. -/
theorem State.kill_one (hc : c ∈ s.killSet r) :
    s.kill [r] st tears .go =
      let t := (s.killSet r).foldl (fun s d => s.updCmd d.ref fun c => { c with phase := .killing }) s
      if (s.killRec r st tears).dies.isEmpty then (t.failAll st tears ((s.killSet r).map (·.ref))).skips.jobCheck
      else { t with sched := { t.sched with kills := t.sched.kills ++ [s.killRec r st tears] } } := by
  have hne : (s.killSet r).isEmpty = false := List.isEmpty_eq_false_iff.2 (List.ne_nil_of_mem hc)
  have hrec : s.kill [r] st tears .go =
      let t := (s.killSet r).foldl (fun s d => s.updCmd d.ref fun c => { c with phase := .killing }) s
      if (s.killSet r).isEmpty && decide (KillThen.go = .go) then t
      else if t.killOver ⟨(s.killSet r).map (·.ref), ((s.killSet r).flatMap s.workDies ++ []).eraseDups, [], st, tears, .go⟩ then
        t.killDone ⟨(s.killSet r).map (·.ref), ((s.killSet r).flatMap s.workDies ++ []).eraseDups, [], st, tears, .go⟩
      else { t with sched := { t.sched with kills := t.sched.kills ++
        [⟨(s.killSet r).map (·.ref), ((s.killSet r).flatMap s.workDies ++ []).eraseDups, [], st, tears, .go⟩] } } := rfl
  rw [hrec]
  simp only [hne, Bool.false_eq_true, if_false, List.append_nil, State.killOver, decide_true, Bool.true_or,
    Bool.and_true, State.killRec]
  rfl

end

/-! ## Time limits (R154, R155) -/

section
variable {s t u : State} {n st : Nat} {r : CmdRef} {c d : Cmd} {k j : Job}

theorem State.runs.find (h : s.runs n k) : s.sched.jobs.find? (fun x => decide (x.serial = n)) = some k := by
  obtain ⟨hk, hserial, halone⟩ := h
  obtain ⟨x, hx⟩ : ∃ x, s.sched.jobs.find? (fun x => decide (x.serial = n)) = some x :=
    Option.isSome_iff_exists.1 (List.find?_isSome.2 ⟨k, List.mem_of_find?_eq_some hk, by simpa using hserial⟩)
  rw [hx, halone x (List.mem_of_find?_eq_some hx) (by simpa using List.find?_some hx)]

theorem State.timerRecord_enters {x : FifoRec} (hroom : s.recordsFull = false) (hnew : x ∉ s.sched.fifo) :
    s.timerRecord x = { s with sched := { s.sched with fifo := s.sched.fifo ++ [x] } } := by
  simp [State.timerRecord, hroom, hnew]

theorem jobTimeout_expired (hf : s.frozen = false) (h : s.runs n k) (hstarted : k.started = true)
    (hlim : bits (word k.words 4) 31 0 ≠ 0xFFFFFFFF) (hlate : k.tStart + 1000 * bits (word k.words 4) 31 0 < s.now) :
    exec (.jobTimeout n) s = .next (s.timerRecord (.jobLimit n)) := by
  show execJobTimeout n s = _
  simp only [execJobTimeout, State.live_of_running hf, h.find, hstarted]
  simp [hlim, Nat.not_le.2 hlate]

theorem jobTimeout_early (hf : s.frozen = false) (h : s.runs n k)
    (hlim : bits (word k.words 4) 31 0 = 0xFFFFFFFF ∨ s.now ≤ k.tStart + 1000 * bits (word k.words 4) 31 0) :
    exec (.jobTimeout n) s = .next s := by
  show execJobTimeout n s = _
  have hwait : (!k.started || decide (bits (word k.words 4) 31 0 = 0xFFFFFFFF)
      || decide (s.now ≤ k.tStart + 1000 * bits (word k.words 4) 31 0)) = true := by
    rcases hlim with hnone | hearly
    · simp [hnone]
    · simp [hearly]
  simp only [execJobTimeout, State.live_of_running hf, h.find, hwait, if_true]

theorem commandTimeout_expired {list : Fin 2} {idx : BitVec 16} (hf : s.frozen = false) (hc : s.cmd ⟨list, idx.toNat⟩ = some c)
    (hrun : c.phase = .running) (hlim : wTimeLimit c.words ≠ 0xFFFFFFFF) (hlate : c.tStart + 1000 * wTimeLimit c.words < s.now) :
    exec (.commandTimeout list idx) s = .next (s.timerRecord (.fault 4 0 0x1F ⟨list, idx.toNat⟩ c.serial 7)) := by
  show execCommandTimeout list idx s = _
  simp only [execCommandTimeout, State.live_of_running hf, hc]
  simp [hrun, hlim, Nat.not_le.2 hlate]

theorem commandTimeout_early {list : Fin 2} {idx : BitVec 16} (hf : s.frozen = false) (hc : s.cmd ⟨list, idx.toNat⟩ = some c)
    (hlim : wTimeLimit c.words = 0xFFFFFFFF ∨ s.now ≤ c.tStart + 1000 * wTimeLimit c.words) :
    exec (.commandTimeout list idx) s = .next s := by
  show execCommandTimeout list idx s = _
  have hwait : (decide (c.phase ≠ .running) || decide (wTimeLimit c.words = 0xFFFFFFFF)
      || decide (s.now ≤ c.tStart + 1000 * wTimeLimit c.words)) = true := by
    rcases hlim with hnone | hearly
    · simp [hnone]
    · simp [hearly]
  simp only [execCommandTimeout, State.live_of_running hf, hc, hwait, if_true]

/-! ## The oldest record of the FIFO (R168, R210) -/

/-- The state once the scheduler core has taken the oldest record, `t` being the others. -/
def State.fifoRest (s : State) (t : List FifoRec) : State := { s with sched := { s.sched with fifo := t } }

theorem State.holds.fifoRest {l : List FifoRec} (h : s.holds n r c) : (s.fifoRest l).holds n r c := State.holds_congr rfl h

theorem State.recordCounts_of_cmd {m : Nat} (hc : s.cmd r = some c) (hrun : c.phase = .running) :
    s.recordCounts r m = (decide (c.serial = m) && !c.due) := by
  simp [State.recordCounts, hc, hrun]

theorem completionFifoRecord_share {d m : Nat} {l : List FifoRec} (hf : s.frozen = false)
    (htakes : (!s.schRunning || !s.sched.cqWait.isEmpty) = false) (hfifo : s.sched.fifo = .shareEnd d r m n :: l)
    (hcount : s.recordCounts r m = true) :
    exec .completionFifoRecord s = .next ((s.fifoRest l).updCmd r fun c => { c with shares := c.shares.map fun h =>
      if h.ltile = n ∧ h.state = 2 then { h with state := 3 } else h }) := by
  show execCompletionFifoRecord s = _
  simp only [execCompletionFifoRecord, State.live_of_running hf, hfifo, htakes, Bool.false_eq_true, if_false]
  exact congrArg Host.Outcome.next (if_pos hcount)

theorem completionFifoRecord_engine {d l m : Nat} {t : List FifoRec} (hf : s.frozen = false)
    (htakes : (!s.schRunning || !s.sched.cqWait.isEmpty) = false) (hfifo : s.sched.fifo = .engineEnd d l r m :: t)
    (hcount : s.recordCounts r m = true) :
    exec .completionFifoRecord s = .next ((s.fifoRest t).updCmd r fun c => { c with engines := c.engines.map fun e =>
      if e.die = d ∧ e.lea = l ∧ e.state = 2 then { e with state := 3 } else e }) := by
  show execCompletionFifoRecord s = _
  simp only [execCompletionFifoRecord, State.live_of_running hf, hfifo, htakes, Bool.false_eq_true, if_false]
  exact congrArg Host.Outcome.next (if_pos hcount)

theorem completionFifoRecord_fault {d l m : Nat} {t : List FifoRec} (hf : s.frozen = false)
    (htakes : (!s.schRunning || !s.sched.cqWait.isEmpty) = false) (hfifo : s.sched.fifo = .fault d l n r m st :: t) :
    exec .completionFifoRecord s = .next (if s.recordCounts r m then (s.fifoRest t).faultCmd r d l n st true else s.fifoRest t) := by
  show execCompletionFifoRecord s = _
  simp only [execCompletionFifoRecord, State.live_of_running hf, hfifo, htakes, Bool.false_eq_true, if_false]
  rfl

theorem completionFifoRecord_jobLimit {t : List FifoRec} (hf : s.frozen = false)
    (htakes : (!s.schRunning || !s.sched.cqWait.isEmpty) = false) (hfifo : s.sched.fifo = .jobLimit n :: t) :
    exec .completionFifoRecord s = .next ((s.fifoRest t).jobLimit n) := by
  show execCompletionFifoRecord s = _
  simp only [execCompletionFifoRecord, State.live_of_running hf, hfifo, htakes, Bool.false_eq_true, if_false]
  rfl

theorem State.updCmd_spec {f : Cmd → Cmd} (hc : s.cmd r = some c) (hf : ∀ c, (f c).ref = c.ref) :
    (s.updCmd r f).sched.fifo = s.sched.fifo ∧ (s.updCmd r f).mem = s.mem ∧ (s.updCmd r f).regs = s.regs
      ∧ (s.updCmd r f).cmd r = some (f c) := by
  have honly := s.updCmd_only r f
  unfold State.schedOnly at honly
  exact ⟨((State.aside.updCmd (place := True) s.aside_refl).1 trivial).2.2.2, by rw [honly], by rw [honly], State.cmd_updCmd f hf hc⟩

end

/-! ## Faults (R168) -/

section
variable {s t u : State} {n st : Nat} {r : CmdRef} {c d : Cmd} {k j : Job} {tears : Bool}

/-- The command as the kill leaves it until it is over. -/
theorem State.holds.killSet (h : s.holds n r c) (hm : c ∈ s.killSet r) :
    ((s.killSet r).foldl (fun s d => s.updCmd d.ref fun c => { c with phase := .killing }) s).holds n r { c with phase := .killing } := by
  have hk := h.killing (l := s.killSet r)
  rwa [if_pos (List.mem_map.2 ⟨c, hm, h.ref⟩)] at hk

/-- R175: a kill that no die holds up ends its command. -/
theorem State.holds.kill_ends (h : s.holds j.serial r c) (hm : c ∈ s.killSet r) (hst : st ≠ 1)
    (hdies : (s.killRec r st tears).dies.isEmpty = true) :
    CameTo (s.kill [r] st tears .go) j r fun c => c.phase = .failed ∧ c.endStatus = st := by
  rw [State.kill_one hm]
  simp only [hdies, if_true]
  obtain ⟨e, he, hfailed⟩ := (h.killSet hm).failAll (st := st) (tears := tears) (l := (s.killSet r).map (·.ref)) hst
    (.inr (List.mem_map.2 ⟨c, hm, h.ref⟩))
  exact (he.skips (by rw [hfailed.1]; decide)).cameTo_jobCheck hfailed

/-- R175: else the command waits for the dies, as does the kill. -/
theorem State.holds.kill_waits (h : s.holds n r c) (hm : c ∈ s.killSet r) (hdies : (s.killRec r st tears).dies.isEmpty = false) :
    (s.kill [r] st tears .go).holds n r { c with phase := .killing } ∧ s.killRec r st tears ∈ (s.kill [r] st tears .go).sched.kills := by
  rw [State.kill_one hm]
  simp only [hdies, Bool.false_eq_true, if_false]
  exact ⟨State.holds_congr rfl (h.killSet hm), List.mem_append_right _ (List.mem_singleton.2 rfl)⟩

theorem State.kill_fifo (s : State) (rs : List CmdRef) (status : Nat) (tears : Bool) (after : KillThen) :
    (s.kill rs status tears after).sched.fifo = s.sched.fifo :=
  ((State.aside.kill (place := True) s.aside_refl).1 trivial).2.2.2

theorem State.workDies_congr (hr : t.regs = s.regs) (hs : d.shares = c.shares) (he : d.engines = c.engines) : t.workDies d = s.workDies c := by
  simp only [State.workDies, State.meadowUp, State.reg, hr, hs, he]

/-- Where a fault record puts what has met the fault. -/
def Cmd.faulted (c : Cmd) (die lea tile : Nat) : Cmd := { c with faultDie := die % 4, faultLea := lea, faultTile := tile }

/-- The state in which the kill of a fault record is decided. -/
def State.faulted (s : State) (r : CmdRef) (die lea tile : Nat) : State := s.updCmd r fun c => c.faulted die lea tile

theorem State.holds.faulted (h : s.holds n r c) (die lea tile : Nat) : (s.faulted r die lea tile).holds n r (c.faulted die lea tile) := by
  have hupd := h.updCmd (q := r) (f := fun c => c.faulted die lea tile) fun _ => id
  rwa [if_pos rfl] at hupd

theorem State.holds.faultCmd {die lea tile : Nat} (h : s.holds n r c) (hdue : c.due = false) :
    s.faultCmd r die lea tile st tears = (s.faulted r die lea tile).kill [r] st tears .go := by
  simp only [State.faultCmd, h.cmd, Option.any_some, hdue, Bool.false_eq_true, if_false]
  rfl

theorem State.holds.mem_killSet_faulted {die lea tile : Nat} (h : s.holds n r c) (hrun : c.phase = .running) (hdue : c.due = false) :
    c.faulted die lea tile ∈ (s.faulted r die lea tile).killSet r :=
  State.mem_killSet (h.faulted die lea tile).cmd hrun hdue

theorem State.holds.faultCmd_fifo {die lea tile : Nat} (h : s.holds n r c) (hdue : c.due = false) :
    (s.faultCmd r die lea tile st tears).sched.fifo = s.sched.fifo := by
  rw [h.faultCmd hdue, State.kill_fifo]
  exact ((State.aside.updCmd (place := True) s.aside_refl).1 trivial).2.2.2

/-- The dies that the kill of a command that has no golden runs waits for. -/
theorem State.holds.killRec_dies {die lea tile : Nat} (h : s.holds n r c) (hrun : c.phase = .running) (hdue : c.due = false)
    (hkind : c.kind ≠ 5) :
    (s.faulted r die lea tile).killRec r st tears = ⟨[r], (s.workDies c).eraseDups, [], st, tears, .go⟩ := by
  have hset := State.killSet_single (h.faulted die lea tile).cmd hrun hdue hkind
  have hregs : (s.faulted r die lea tile).regs = s.regs := (State.updCmd_spec (f := fun c => c.faulted die lea tile) h.cmd fun _ => rfl).2.2.1
  have hdies : (s.faulted r die lea tile).workDies (c.faulted die lea tile) = s.workDies c := State.workDies_congr hregs rfl rfl
  have href : (c.faulted die lea tile).ref = r := h.ref
  simp only [State.killRec, hset, List.map_cons, List.map_nil, href, List.flatMap_cons, List.flatMap_nil, List.append_nil, hdies]

/-- R168: a fault whose command no die holds work of ends it at once. -/
theorem State.holds.faultCmd_ends {die lea tile : Nat} (h : s.holds j.serial r c) (hrun : c.phase = .running) (hdue : c.due = false)
    (hst : st ≠ 1) (hkind : c.kind ≠ 5) (hdies : s.workDies c = []) :
    CameTo (s.faultCmd r die lea tile st tears) j r fun c => c.phase = .failed ∧ c.endStatus = st := by
  rw [h.faultCmd hdue]
  refine (h.faulted die lea tile).kill_ends (h.mem_killSet_faulted hrun hdue) hst ?_
  rw [h.killRec_dies hrun hdue hkind, hdies]
  rfl

/-- R168, R175: else it is killed first. -/
theorem State.holds.faultCmd_waits {die lea tile : Nat} (h : s.holds n r c) (hrun : c.phase = .running) (hdue : c.due = false)
    (hkind : c.kind ≠ 5) (hdies : s.workDies c ≠ []) :
    (∃ c', (s.faultCmd r die lea tile st tears).cmd r = some c' ∧ c'.phase = .killing ∧ c'.faultDie = die % 4 ∧ c'.faultLea = lea)
      ∧ ∃ k ∈ (s.faultCmd r die lea tile st tears).sched.kills, k.cmds = [r] ∧ k.status = st ∧ k.dies = (s.workDies c).eraseDups := by
  have hrec := h.killRec_dies (die := die) (lea := lea) (tile := tile) (st := st) (tears := tears) hrun hdue hkind
  have hopen : ((s.faulted r die lea tile).killRec r st tears).dies.isEmpty = false := by
    obtain ⟨x, l, hx⟩ := List.exists_cons_of_ne_nil hdies
    rw [hrec, hx, List.eraseDups_cons]
    rfl
  rw [h.faultCmd hdue]
  obtain ⟨hheld, hkill⟩ := (h.faulted die lea tile).kill_waits (h.mem_killSet_faulted hrun hdue) hopen
  rw [hrec] at hkill
  exact ⟨⟨_, hheld.cmd, rfl, rfl, rfl⟩, _, hkill, rfl, rfl, rfl⟩

/-- R168, R217: the fault of a GOLDEN command, whose golden runs its kill covers. -/
theorem State.holds.faultCmd_golden {die lea tile : Nat} (h : s.holds j.serial r c) (hrun : c.phase = .running) (hdue : c.due = false)
    (hst : st ≠ 1) :
    CameTo (s.faultCmd r die lea tile st tears) j r fun c =>
      (c.phase = .failed ∧ c.endStatus = st) ∨ (c.phase = .killing ∧ c.faultDie = die % 4 ∧ c.faultLea = lea) := by
  have hm := h.mem_killSet_faulted (die := die) (lea := lea) (tile := tile) hrun hdue
  rw [h.faultCmd hdue]
  cases hdies : ((s.faulted r die lea tile).killRec r st tears).dies.isEmpty with
  | true =>
    exact ((h.faulted die lea tile).kill_ends hm hst hdies).imp (fun ⟨k, hk, hn, hP⟩ => ⟨k, hk, hn, .inl hP⟩) id
  | false =>
    exact ((h.faulted die lea tile).kill_waits hm hdies).1.cameTo (.inr ⟨rfl, rfl, rfl⟩)

end

/-! ## The limit of a job (R154) -/

section
variable {s t u : State} {n st : Nat} {r : CmdRef} {c d : Cmd} {k j : Job} {tears : Bool}

theorem State.limitJob_ends (s : State) (n : Nat) : ∀ x ∈ (s.limitJob n).sched.jobs, x.serial ≠ n := by
  have hnone : ∀ u : State, u.sched.jobs.find? (fun j => decide (j.serial = n)) = none → ∀ x ∈ u.sched.jobs, x.serial ≠ n :=
    fun u hu x hx => by simpa using List.find?_eq_none.1 hu x hx
  unfold State.limitJob
  split
  · next hfind => exact hnone s hfind
  · extract_lets u
    split
    · next k hk =>
      have hserial : k.serial = n := by simpa using List.find?_some hk
      exact fun x hx => hserial ▸ State.mem_endJob hx
    · next hfind => exact hnone u hfind

/-- The job `n` runs or is being suspended, and no command of it is at its commit point. -/
def State.settled (s : State) (n : Nat) : Prop :=
  ∃ k, s.runs n k ∧ ∀ c ∈ k.cmds, (c.due || decide (c.phase = .committing)) = false

theorem State.settled.commitsWait (h : s.settled n) : s.commitsWait = false := by
  obtain ⟨k, ⟨hk, -, -⟩, hcmds⟩ := h
  simp only [State.commitsWait, hk, Option.any_some]
  exact List.any_eq_false.2 fun c hc => by simp [hcmds c hc]

theorem State.settled_of_commitsWait (h : s.runs n k) (hs : s.commitsWait = false) : s.settled n := by
  refine ⟨k, h, fun c hc => ?_⟩
  simp only [State.commitsWait, h.1, Option.any_some] at hs
  simpa using List.any_eq_false.1 hs c hc

theorem State.settled.killing (h : s.settled n) (r : CmdRef) : (s.updCmd r fun c => { c with phase := .killing }).settled n := by
  obtain ⟨k, hk, hcmds⟩ := h
  refine ⟨_, hk.updCmd r, fun c hc => ?_⟩
  obtain ⟨d, hd, rfl⟩ := List.mem_map.1 hc
  split
  · rfl
  · exact hcmds d hd

theorem State.settled.suspending (h : s.settled n) : (s.updJob n fun j => { j with phase := .suspending }).settled n := by
  obtain ⟨k, hk, hcmds⟩ := h
  exact ⟨_, hk.updJob hk.2.1 (.inr rfl), hcmds⟩

/-- R154, R175: the kill of a job's limit, once it is over, ends the job. -/
theorem State.runs.killDone_limit {cmds : List CmdRef} (h : s.runs n k) (hst : st ≠ 1) :
    ∀ x ∈ (s.killDone ⟨cmds, [], [], st, tears, .limit⟩).sched.jobs, x.serial ≠ n := by
  obtain ⟨k, hk⟩ := h.failAll (l := cmds) (tears := tears) hst
  have hdone : s.killDone ⟨cmds, [], [], st, tears, .limit⟩ = (s.failAll st tears cmds).limitJob n := by
    have hunfold : s.killDone ⟨cmds, [], [], st, tears, .limit⟩ = match (s.failAll st tears cmds).curJob with
        | some j => (s.failAll st tears cmds).limitJob j.serial
        | none => s.failAll st tears cmds := rfl
    simp only [hunfold, hk.1, hk.2.1]
  rw [hdone]
  exact State.limitJob_ends _ n

/-- The commands that run are in flight. -/
theorem State.mem_inFlight (hc : s.cmd r = some c) (hrun : c.phase = .running) : c ∈ s.inFlight := by
  unfold State.cmd at hc
  unfold State.inFlight
  split at hc
  · exact List.mem_filter.2 ⟨List.mem_of_find?_eq_some hc, by simp [Cmd.inFlight, hrun]⟩
  · cases hc

/-- R154: the limit of a job that runs ends it, where no die holds work of it and no command is at its commit point. -/
theorem State.runs.jobLimit (h : s.runs n k) (hrun : k.phase = .running) (hdies : ∀ c ∈ s.inFlight, s.workDies c = [])
    (hkills : s.sched.kills = []) (hcommits : s.commitsWait = false) : ∀ x ∈ (s.jobLimit n).sched.jobs, x.serial ≠ n := by
  simp only [State.jobLimit, h.find, hrun]
  unfold State.kill
  extract_lets rs cs dies u v rec_
  have hcs : ∀ c ∈ cs, s.workDies c = [] := fun c hc => by
    obtain ⟨hfound, hphase⟩ := List.mem_filter.1 hc
    obtain ⟨q, -, hq⟩ := List.mem_filterMap.1 hfound
    exact hdies c (State.mem_inFlight hq (by simpa using (Bool.and_eq_true_iff.1 hphase).1))
  have hempty : dies = [] := by
    have hnone : cs.flatMap s.workDies = [] := List.flatMap_eq_nil_iff.2 hcs
    simp only [dies, hnone, hkills]
    rfl
  have hu : ∀ (l : List Cmd) (t : State), t.settled n →
      (l.foldl (fun s c => s.updCmd c.ref fun c => { c with phase := .killing }) t).settled n := fun l => by
    induction l with
    | nil => exact fun _ => id
    | cons c l ih => exact fun t ht => ih _ (ht.killing c.ref)
  have hus : u.settled n := hu cs s (State.settled_of_commitsWait h hcommits)
  have hvs : v.settled n := by
    obtain ⟨k, hk, -⟩ := id hus
    have hv : v = u.updJob n fun j => { j with phase := .suspending } := by
      simp only [v, hk.1, hk.2.1]
      rfl
    exact hv ▸ hus.suspending
  have hrec : rec_ = ⟨cs.map (·.ref), [], [], 7, false, .limit⟩ :=
    congrArg (fun l => KillRec.mk (cs.map (·.ref)) l [] 7 false .limit) hempty
  have hover : v.killOver rec_ = true := by
    rw [hrec, State.killOver, hvs.commitsWait]
    rfl
  obtain ⟨k, hk, -⟩ := hvs
  rw [if_neg (by simp), if_pos hover, hrec]
  exact hk.killDone_limit (by decide)

end

/-! ## The end of an engine's part (R210) -/

section
variable {s t u : State} {n st : Nat} {r : CmdRef} {c d : Cmd} {k j : Job} {x : EnginePart} {pe : PartEnd}

/-- The command once an engine has ended its part. -/
def Cmd.partEnded (c : Cmd) (x : EnginePart) : Cmd :=
  { c with engines := c.engines.map fun y => if y.die = x.die ∧ y.lea = x.lea then { y with state := 2 } else y }

/-- The record of the end of an engine's part. -/
def Cmd.partRecord (c : Cmd) (x : EnginePart) : PartEnd → FifoRec
  | .done => .engineEnd x.die x.lea c.ref c.serial
  | .fault st => .fault x.die x.lea 0x1F c.ref c.serial st
  | .attributed ctx st => .attributed x.die x.lea c.ref c.serial ctx st

/-- The state with the engine idle and its part ended. -/
def State.partEnded (s : State) (c : Cmd) (x : EnginePart) : State :=
  (s.engineIdle c x.die x.lea).updCmd c.ref fun d => d.partEnded x

theorem State.engineDone_eq (hcut : pe = .fault 8 → s.cutOff x.die = false) :
    s.engineDone c x pe = if x.die < 4 then (s.partEnded c x).send (c.partRecord x pe) else (s.partEnded c x).timerRecord (c.partRecord x pe) := by
  unfold State.engineDone
  rw [if_neg fun ⟨he, hx⟩ => by rw [hcut he] at hx; cases hx]
  cases pe <;> rfl

/-- Where the record goes, the memory and the jobs stay as they are. -/
theorem State.engineDone_rest (hcut : pe = .fault 8 → s.cutOff x.die = false) :
    (s.engineDone c x pe).mem = (s.partEnded c x).mem ∧ (s.engineDone c x pe).sched.jobs = (s.partEnded c x).sched.jobs := by
  rw [State.engineDone_eq hcut]
  split
  · exact ⟨rfl, rfl⟩
  · unfold State.timerRecord
    split
    · exact ⟨rfl, rfl⟩
    · exact ⟨rfl, rfl⟩

theorem State.cmd_of_jobs (e : t.sched.jobs = s.sched.jobs) (r : CmdRef) : t.cmd r = s.cmd r := by
  unfold State.cmd State.curJob
  rw [e]

theorem State.partEnded_spec (hc : s.cmd c.ref = some d) :
    (s.partEnded c x).mem = s.mem ∧ (s.partEnded c x).sched.outbox = s.sched.outbox ∧ (s.partEnded c x).cmd c.ref = some (d.partEnded x) := by
  have hidle := s.engineIdle_regsOnly c x.die x.lea
  have hcmd : (s.engineIdle c x.die x.lea).cmd c.ref = some d := by rw [State.cmd_congr hidle.sched, hc]
  obtain ⟨-, hmem, -, hended⟩ := State.updCmd_spec (f := fun d => d.partEnded x) hcmd fun _ => rfl
  refine ⟨hmem.trans hidle.mem, ?_, hended⟩
  rw [← hidle.sched]
  unfold State.partEnded State.updCmd
  split <;> rfl

theorem engineCompletion_full {list : Fin 2} {idx : BitVec 16} {die : Fin 4} {lea : Fin 16} {err : EngineErr} (hf : s.frozen = false)
    (hfull : s.recordsFull = true) : exec (.engineCompletion list idx die lea err) s = .next s := by
  show execEngineCompletion list idx die lea err s = _
  simp only [execEngineCompletion, State.live_of_running hf, hfull, Bool.or_true, Bool.true_or, if_true]
  split
  · rfl
  · split <;> rfl

/-- R210: an engine that meets no error ends its part as the engine's work says. -/
theorem engineCompletion_clean {list : Fin 2} {idx : BitVec 16} {die : Fin 4} {lea : Fin 16} (hf : s.frozen = false)
    (hc : s.cmd ⟨list, idx.toNat⟩ = some c) (hrun : c.phase = .running) (hx : c.enginePart die lea = some x)
    (hup : x.die < 4 → s.meadowUp x.die = true) (hroom : s.recordsFull = false) (htake : s.stacksTake = true)
    (hpart : s.enginePart c x.die x.lea = some (u, pe)) :
    exec (.engineCompletion list idx die lea .clean) s = .next (u.engineDone c x pe) := by
  have hgo : (decide (c.phase ≠ .running) || s.recordsFull || !s.stacksTake || (decide (x.die < 4) && !s.meadowUp x.die)) = false := by
    simpa [hrun, hroom, htake] using hup
  show execEngineCompletion list idx die lea .clean s = _
  simp only [execEngineCompletion, State.live_of_running hf, hc, hx, hgo, Bool.false_eq_true, if_false, hpart]
  split
  case h_7 => rfl
  all_goals contradiction

/-- R210: the engine's part is marked, and a Meadow's engine sends its record. -/
theorem engineCompletion_ends {list : Fin 2} {idx : BitVec 16} {die : Fin 4} {lea : Fin 16} (hf : s.frozen = false)
    (hc : s.cmd ⟨list, idx.toNat⟩ = some c) (hrun : c.phase = .running) (hx : c.enginePart die lea = some x)
    (hup : x.die < 4 → s.meadowUp x.die = true) (hroom : s.recordsFull = false) (htake : s.stacksTake = true)
    (hpart : s.enginePart c x.die x.lea = some (u, pe)) (hcut : pe = .fault 8 → u.cutOff x.die = false)
    (hd : u.cmd ⟨list, idx.toNat⟩ = some d) :
    Leads (.engineCompletion list idx die lea .clean) s fun s' => s'.mem = u.mem ∧ s'.cmd ⟨list, idx.toNat⟩ = some (d.partEnded x)
      ∧ (x.die < 4 → ∃ e, s'.sched.outbox = u.sched.outbox ++ [e]) := by
  refine ⟨_, engineCompletion_clean hf hc hrun hx hup hroom htake hpart, ?_⟩
  have href := State.cmd_ref hc
  rw [← href] at hd ⊢
  obtain ⟨hmem, hbox, hcmd⟩ := State.partEnded_spec (x := x) hd
  obtain ⟨hrest, hjobs⟩ := State.engineDone_rest (s := u) (c := c) hcut
  refine ⟨hrest.trans hmem, (State.cmd_of_jobs hjobs _).trans hcmd, fun hdie => ⟨c.partRecord x pe, ?_⟩⟩
  rw [State.engineDone_eq hcut, if_pos hdie, ← hbox]
  rfl

end

/-! ## The commit point (R162, R166) -/

section
variable {place job : Prop} {s t u : State} {n st : Nat} {r : CmdRef} {c d : Cmd} {k j : Job} {tears : Bool}

/-! ### Kills in progress -/

theorem State.aside.kills (h : s.aside place True t) : t.sched.kills = s.sched.kills := (h.2 trivial).2.1

theorem State.updCmd_kills (s : State) (r : CmdRef) (f : Cmd → Cmd) : (s.updCmd r f).sched.kills = s.sched.kills := by
  unfold State.updCmd
  split <;> rfl

theorem State.skipOne_kills (s : State) (n : Nat) (q : CmdRef) : (s.skipOne n q).sched.kills = s.sched.kills := by
  unfold State.skipOne
  split
  · rfl
  · dsimp only
    split
    · rfl
    · split
      · rfl
      · split
        · rfl
        · refine (State.aside.kills (place := True) (State.aside.cqPut (State.aside_refl _))).trans ?_
          rfl

theorem State.skips_kills (s : State) : s.skips.sched.kills = s.sched.kills := by
  have hlist : ∀ (n l : Nat) (is : List Nat) (t : State),
      (is.foldl (fun s i => s.skipOne n ⟨l, i⟩) t).sched.kills = t.sched.kills := fun n l is => by
    induction is with
    | nil => exact fun _ => rfl
    | cons i is ih => exact fun t => (ih _).trans (t.skipOne_kills n ⟨l, i⟩)
  unfold State.skips
  split
  · rfl
  · next j hj =>
    split
    · rfl
    · clear hj
      generalize List.range 2 = ls
      induction ls generalizing s with
      | nil => rfl
      | cons l ls ih => exact (ih _).trans (hlist j.serial l _ s)

theorem State.endJob_kills (s : State) (j : Job) (status : Nat) : (s.endJob j status).sched.kills = s.sched.kills := by
  unfold State.endJob
  extract_lets u cur sched v
  have hu : s.aside True True u := .ite (.goldenDefer s.aside_refl) s.aside_refl
  have hv : v.aside True True (((v.noteFrame j).cqPut j.ringSet 2 (jobEntry j status v.now) none).drainSet j.ringSet) :=
    .drainSet (.cqPut (.noteFrame v.aside_refl))
  rw [hv.kills, ← hu.kills]

theorem State.jobCheck_kills (s : State) : s.jobCheck.sched.kills = s.sched.kills := by
  unfold State.jobCheck
  split
  · rfl
  · split
    · exact s.endJob_kills _ _
    · rfl

theorem State.killsDone_none (n : Nat) (h : s.sched.kills = []) : State.killsDone n s = s := by
  cases n with
  | zero => rfl
  | succ n => simp only [State.killsDone, h, List.find?_nil]

/-! ### What the effects leave alone -/

/-- Only the jobs, the kills and the hand-offs count where slots and registers may change. -/
theorem State.aside.jobKept (h : u.aside False job s)
    (e : (t.sched.jobs, t.sched.kills, t.prairie.records) = (s.sched.jobs, s.sched.kills, s.prairie.records)) : u.aside False job t := by
  simp only [Prod.mk.injEq] at e
  exact h.trans ⟨False.elim, fun _ => e⟩

theorem State.aside.postApply {a kind v : Nat} (h : u.aside False job s) : u.aside False job (s.postApply a kind v) := by
  unfold State.postApply
  split
  · refine .ite (.foldl (.jobKept h rfl) fun _ _ ht => .jobKept ht rfl) h
  · exact h

theorem State.aside.collForget {c : Cmd} (h : u.aside place job s) : u.aside place job (s.collForget c) := .ite h (.same h rfl)

theorem State.aside.lostEffects {j : Job} {c : Cmd} (h : u.aside place job s) : u.aside place job (s.lostEffects j c) :=
  .foldl h fun _ _ ht => .ite (.raiseCmd ht) ht

theorem State.aside.handing (h : s.aside place True t) (j : Job) (c : Cmd) : t.handing j c = s.handing j c := by
  unfold State.handing
  rw [(h.2 trivial).2.2]

/-! ### The commit -/

theorem State.isDue {c : Cmd} (hrun : c.phase = .running) (hl : c.ref.list ≠ 2) (hshares : ∀ h ∈ c.shares, h.state = 3)
    (hengines : ∀ e ∈ c.engines, e.state = 3) : c.due = true := by
  simp only [Cmd.due, hrun, hl, Bool.and_eq_true, List.all_eq_true, decide_eq_true_eq, ne_eq, not_false_eq_true, and_self, true_and]
  exact ⟨hshares, hengines⟩

theorem commitPoint_due {list : Fin 2} {idx : BitVec 16} (hf : s.frozen = false) (hgo : s.schRunning = true) (hj : s.curJob = some j)
    (hc : s.cmd ⟨list, idx.toNat⟩ = some c) (hrun : c.phase = .running) (hdue : c.due = true) (hkind : c.kind ≠ 4) :
    exec (.commitPoint list idx) s = .next (s.commit j c) := by
  show execCommitPoint list idx s = _
  simp only [execCommitPoint, State.live_of_running hf, hj, hc, hgo, hkind, hrun, hdue, decide_false, Bool.and_false, Bool.not_true,
    Bool.false_eq_true, if_false, if_true, reduceCtorEq]

/-- The command's record at its commit. -/
def State.committed (s : State) (c : Cmd) : Cmd :=
  { c with removed := c.removed + (c.ctxs.filter fun x => decide (ctxState (s.ctx x) = 5)).length, tEnd := max s.now 1 }

theorem State.commit_of_stale (hkind : c.kind = 1) (hstale : s.glenStale c = true) :
    s.commit j c = (s.failCmd j c 0x0B true).skips.jobCheck := by
  unfold State.commit
  rw [if_pos ⟨hkind, hstale⟩]

theorem State.count32_cmd (s : State) (a : Nat) (r : CmdRef) : (s.count32 a).cmd r = s.cmd r :=
  congrFun (State.cmd_congr (s.regsOnly_count a 31 0 1).sched) r

theorem State.commit_of_none (hc : s.cmd c.ref = some c) (hkind : c.kind = 2) (hop : praOp c.words = 1)
    (hhand : praHandoff c.words = true) (hranked : c.ranked ≠ []) (hnone : s.handed c = none) :
    ∃ a, s.commit j c = ((s.count32 a).failCmd j c 0x0A true).skips.jobCheck := by
  have hval : s.praValidate c = (s.count32 (aPra ((c.engines.map (·.die)).getD 0 0) 0x4C), 0x0A) := by
    simp only [State.praValidate, hkind, hop, hhand, hranked, hnone, ne_eq, not_true_eq_false, or_self, if_false]
  generalize aPra ((c.engines.map (·.die)).getD 0 0) 0x4C = a at hval
  refine ⟨a, ?_⟩
  simp only [State.commit, hkind, hc, Option.getD_some, hval, State.count32_cmd, if_false, if_true, ne_eq, false_and,
    not_false_eq_true, OfNat.ofNat_ne_zero, OfNat.ofNat_ne_one]

/-- The commit of a command whose kind has no effects of its own to validate. -/
theorem State.commit_plain (hc : s.cmd c.ref = some c) (hk : c.kind ∉ [1, 2, 4]) :
    s.commit j c = if wLogLen c.words < c.logNeed then (s.failCmd j c 2 true).skips.jobCheck
      else (c.takes.foldl State.takeRelease (s.updCmd c.ref fun _ => s.committed c)).commitEnd j c.ref := by
  simp only [List.mem_cons, List.not_mem_nil, or_false, not_or] at hk
  obtain ⟨hk1, hk2, -⟩ := hk
  have hval : s.praValidate c = (s, 0) := by
    unfold State.praValidate
    rw [if_pos (.inl hk2)]
  have hkc : (s.committed c).kind = c.kind := rfl
  simp only [State.commit, hk1, hc, Option.getD_some, hval, false_and, if_false, ne_eq, not_true_eq_false]
  split
  · rfl
  · show State.commitEnd (State.applyEffects (s.updCmd c.ref fun _ => s.committed c) j (s.committed c)) j c.ref = _
    simp only [State.applyEffects, hkc, hk1, hk2, if_false]
    rfl

/-- R166: the end of a commit that waits for no hand-off. -/
theorem State.holds.commitEnd (h : s.holds j.serial r c) (hk4 : c.kind ≠ 4) (hhand : s.handing j c = false) (hkills : s.sched.kills = []) :
    CameTo (s.commitEnd j r) j r fun c => c.phase = .committed := by
  unfold State.commitEnd
  rw [h.cmd]
  dsimp -zeta only
  rw [if_neg (by simp [hhand])]
  extract_lets s0 s1 s2 s3 e s4 s5 s6
  have h0 : s0 = s := if_neg fun hk => hk4 hk.1
  rw [h0, if_neg fun hk => hk4 hk.1]
  have h1 : s.aside False True s1 := by
    unfold s1
    rw [h0]
    exact .ite (.collForget s.aside_refl) s.aside_refl
  have h2 : s.aside False True s2 := .foldl h1 fun _ x ht => by
    cases x with
    | post => exact .postApply ht
    | _ => exact ht
  have h4 : s.aside False True s4 := .dropOwned (.dropReserve (.runOver (.lostEffects h2)))
  have h5 : s5.holds j.serial r (c.ended .committed) := by
    have hupd := (h.aside h4).updCmd (q := r) (f := fun c => c.ended .committed) fun _ => id
    rwa [if_pos rfl] at hupd
  have k5 : s5.sched.kills = [] := by
    rw [← hkills, ← h4.kills]
    exact s4.updCmd_kills r _
  have h6 : s5.aside True True s6 := .cqPut s5.aside_refl
  have k6 : s6.skips.jobCheck.sched.kills = [] := by rw [State.jobCheck_kills, State.skips_kills, h6.kills, k5]
  rw [State.killsDone_none _ k6]
  exact ((h5.aside h6).skips CmdPhase.noConfusion).cameTo_jobCheck rfl

end

/-! ## The statement -/

section
variable {s : State} {list : Fin 2} {idx : BitVec 16} {j : Job} {c : Cmd} {t : List FifoRec} {d l n st : Nat} {r : CmdRef}

/-- A fault record of the run of a command that is not at its commit point. -/
theorem completionFifoRecord_fault_counts (hf : s.frozen = false) (htakes : (!s.schRunning || !s.sched.cqWait.isEmpty) = false)
    (hc : s.cmd r = some c) (hrun : c.phase = .running) (hdue : c.due = false) (hfifo : s.sched.fifo = .fault d l n r c.serial st :: t) :
    exec .completionFifoRecord s = .next ((s.fifoRest t).faultCmd r d l n st true) := by
  rw [completionFifoRecord_fault hf htakes hfifo, if_pos (by simp [State.recordCounts_of_cmd hc hrun, hdue])]

/-- R168: a record of an earlier run, or of a command at its commit point, decides nothing. -/
theorem completionFifoRecord_fault_stale {m : Nat} (hf : s.frozen = false) (htakes : (!s.schRunning || !s.sched.cqWait.isEmpty) = false)
    (hc : s.cmd r = some c) (hrun : c.phase = .running) (hm : m ≠ c.serial ∨ c.due = true)
    (hfifo : s.sched.fifo = .fault d l n r m st :: t) :
    exec .completionFifoRecord s = .next (s.fifoRest t) := by
  have hstale : s.recordCounts r m = false := by
    rw [State.recordCounts_of_cmd hc hrun]
    rcases hm with hm | hdue
    · simp [Ne.symm hm]
    · simp [hdue]
  rw [completionFifoRecord_fault hf htakes hfifo, hstale, if_neg Bool.false_ne_true]

/-- A record that is recorded for its command. -/
theorem completionFifoRecord_counts {f : Cmd → Cmd} (hc : s.cmd r = some c)
    (hexec : exec .completionFifoRecord s = .next ((s.fifoRest t).updCmd r f)) (hf : ∀ c, (f c).ref = c.ref) :
    Leads .completionFifoRecord s fun s' => s'.sched.fifo = t ∧ s'.mem = s.mem ∧ s'.regs = s.regs ∧ s'.cmd r = some (f c) :=
  ⟨_, hexec, State.updCmd_spec (s := s.fifoRest t) hc hf⟩

theorem commitPoint_commits (hf : s.frozen = false) (hgo : s.schRunning = true) (h : s.holds j.serial ⟨list, idx.toNat⟩ c)
    (hj : s.curJob = some j) (hrun : c.phase = .running) (hdue : c.due = true) (hkills : s.sched.kills = [])
    (hhand : s.handing j c = false) (hk : c.kind ∉ [1, 2, 4]) (hlog : c.logNeed ≤ wLogLen c.words) :
    Leads (.commitPoint list idx) s fun s' => CameTo s' j ⟨list, idx.toNat⟩ fun c => c.phase = .committed := by
  have hk4 : c.kind ≠ 4 := fun e => hk (by simp [e])
  refine ⟨_, commitPoint_due hf hgo hj h.cmd hrun hdue hk4, ?_⟩
  have href := h.ref
  rw [State.commit_plain (href ▸ h.cmd) hk, if_neg (Nat.not_lt.2 hlog), href]
  have hupd := h.updCmd (q := ⟨list, idx.toNat⟩) (f := fun _ => s.committed c) fun _ _ => href
  rw [if_pos rfl] at hupd
  have htakes : (s.updCmd ⟨list, idx.toNat⟩ fun _ => s.committed c).aside True True
      (c.takes.foldl State.takeRelease (s.updCmd ⟨list, idx.toNat⟩ fun _ => s.committed c)) :=
    .foldl (State.aside_refl _) fun _ _ ht => .takeRelease ht
  refine (hupd.aside htakes).commitEnd hk4 ?_ (by rw [htakes.kills, State.updCmd_kills, hkills])
  rw [htakes.handing]
  refine Eq.trans ?_ hhand
  unfold State.handing State.updCmd
  split <;> rfl

theorem commitPoint_overflows (hf : s.frozen = false) (hgo : s.schRunning = true) (h : s.holds j.serial ⟨list, idx.toNat⟩ c)
    (hj : s.curJob = some j) (hrun : c.phase = .running) (hdue : c.due = true) (hk : c.kind ∉ [1, 2, 4])
    (hlog : wLogLen c.words < c.logNeed) :
    Leads (.commitPoint list idx) s fun s' => CameTo s' j ⟨list, idx.toNat⟩ fun c => c.phase = .failed ∧ c.endStatus = 2 := by
  have hk4 : c.kind ≠ 4 := fun e => hk (by simp [e])
  refine ⟨_, commitPoint_due hf hgo hj h.cmd hrun hdue hk4, ?_⟩
  rw [State.commit_plain (h.ref.symm ▸ h.cmd) hk, if_pos hlog]
  exact h.fails h.ref

theorem commitPoint_stale (hf : s.frozen = false) (hgo : s.schRunning = true) (h : s.holds j.serial ⟨list, idx.toNat⟩ c)
    (hj : s.curJob = some j) (hrun : c.phase = .running) (hdue : c.due = true) (hk : c.kind = 1) (hstale : s.glenStale c = true) :
    Leads (.commitPoint list idx) s fun s' => CameTo s' j ⟨list, idx.toNat⟩ fun c => c.phase = .failed ∧ c.endStatus = 0x0B := by
  refine ⟨_, commitPoint_due hf hgo hj h.cmd hrun hdue (by omega), ?_⟩
  rw [State.commit_of_stale hk hstale]
  exact h.fails h.ref

theorem commitPoint_unhanded (hf : s.frozen = false) (hgo : s.schRunning = true) (h : s.holds j.serial ⟨list, idx.toNat⟩ c)
    (hj : s.curJob = some j) (hrun : c.phase = .running) (hdue : c.due = true) (hk : c.kind = 2) (hop : praOp c.words = 1)
    (hhand : praHandoff c.words = true) (hranked : c.ranked ≠ []) (hnone : s.handed c = none) :
    Leads (.commitPoint list idx) s fun s' => CameTo s' j ⟨list, idx.toNat⟩ fun c => c.phase = .failed ∧ c.endStatus = 0x0A := by
  refine ⟨_, commitPoint_due hf hgo hj h.cmd hrun hdue (by omega), ?_⟩
  obtain ⟨a, ha⟩ := State.commit_of_none (j := j) (h.ref.symm ▸ h.cmd) hk hop hhand hranked hnone
  rw [ha]
  have hcount : (s.count32 a).holds j.serial ⟨list, idx.toNat⟩ c :=
    State.holds_congr (congrArg (·.jobs) (s.regsOnly_count a 31 0 1).sched) h
  exact hcount.fails h.ref

end

/-- Settles O35: the number of the running job names it alone, so each update of its record of the command is seen by what follows
it (`State.holds`); what the ends of commands do beside that leaves the jobs alone (`State.aside`). -/
theorem commandEnds : Obligations.CommandEnds := by
  unfold Obligations.CommandEnds
  intro s u list idx j c cu t die lea x pe d l n st r lim jlim expired hf hj hrunning hn
  have hruns := State.runs_of_named hj hn
  have htakes : s.schRunning = true → s.sched.cqWait = [] → (!s.schRunning || !s.sched.cqWait.isEmpty) = false :=
    fun hgo hwait => by simp [hgo, hwait]
  refine ⟨fun hstarted hlim hlate hroom hnew => ⟨_, jobTimeout_expired hf hruns hstarted hlim hlate, State.timerRecord_enters hroom hnew⟩,
    jobTimeout_early hf hruns, fun hgo hwait hfifo hdies hkills hcommits => ?_, fun hc hrun => ?_⟩
  · exact ⟨_, completionFifoRecord_jobLimit hf (htakes hgo hwait) hfifo,
      (State.runs_congr (t := s.fifoRest t) rfl hruns).jobLimit hrunning hdies hkills hcommits⟩
  have h : s.holds j.serial r c := State.holds_of_cmd hruns hc
  have hrest : (s.fifoRest t).holds j.serial r c := h.fifoRest
  have hcounts : c.due = false → s.recordCounts r c.serial = true := fun hdue => by simp [State.recordCounts_of_cmd hc hrun, hdue]
  have hl : c.ref.list ≠ 2 := by rw [h.ref]; exact Nat.ne_of_lt list.isLt
  refine ⟨fun hlim hlate hroom hnew => ⟨_, commandTimeout_expired hf hc hrun hlim hlate, State.timerRecord_enters hroom hnew⟩,
    commandTimeout_early hf hc, fun hgo hwait hdue => ⟨fun hfifo => ?_, fun hfifo => ?_, fun hfifo hst hkind => ?_, fun hfifo hst _ => ?_⟩,
    fun hgo hwait m hm hfifo => completionFifoRecord_fault_stale hf (htakes hgo hwait) hc hrun hm hfifo,
    fun hx hup hroom htake hpart hcut hcu => engineCompletion_ends hf hc hrun hx hup hroom htake hpart hcut hcu,
    engineCompletion_full hf, fun hgo hkills hhand hshares hengines => ?_⟩
  · exact completionFifoRecord_counts hc (completionFifoRecord_share hf (htakes hgo hwait) hfifo (hcounts hdue)) fun _ => rfl
  · exact completionFifoRecord_counts hc (completionFifoRecord_engine hf (htakes hgo hwait) hfifo (hcounts hdue)) fun _ => rfl
  · exact ⟨_, completionFifoRecord_fault_counts hf (htakes hgo hwait) hc hrun hdue hfifo, hrest.faultCmd_fifo hdue,
      fun hdies => hrest.faultCmd_ends hrun hdue hst hkind hdies, fun hdies => hrest.faultCmd_waits hrun hdue hkind hdies⟩
  · exact ⟨_, completionFifoRecord_fault_counts hf (htakes hgo hwait) hc hrun hdue hfifo, hrest.faultCmd_fifo hdue,
      hrest.faultCmd_golden hrun hdue hst⟩
  · have hdue := State.isDue hrun hl hshares hengines
    exact ⟨commitPoint_commits hf hgo h hj hrun hdue hkills hhand, commitPoint_overflows hf hgo h hj hrun hdue,
      commitPoint_stale hf hgo h hj hrun hdue, commitPoint_unhanded hf hgo h hj hrun hdue⟩

end Sys2Proof.Machine
end

section

/-! PROOFS of the family "contexts and scheduler": what O33, O34 and O42 share. Consuming an entry of a ring and taking a request of
the KV manager move on registers of the scheduler core that no reading of memory, of a context or of a page table goes by
(`State.readsAs`). -/

namespace Sys2Proof.Machine

/-! ## Bits of fields (R5) -/

theorem testBit_bits (w hi lo k : Nat) : (bits w hi lo).testBit k = (decide (k < hi + 1 - lo) && w.testBit (lo + k)) := by
  rw [bits, Nat.testBit_mod_two_pow, Nat.testBit_shiftRight]

/-- A bit after a field was set: the field's own, or as it was. -/
theorem testBit_setBits (w v : Nat) {hi lo : Nat} (hl : lo ≤ hi) (k : Nat) :
    (setBits w hi lo v).testBit k = if lo ≤ k ∧ k ≤ hi then v.testBit (k - lo) else w.testBit k := by
  have hbit : ∀ x : Nat, x.testBit k = decide (bits x k k = 1) := fun x => bit_eq_bits x k
  split
  · next hk =>
    have hfield := congrArg (Nat.testBit · (k - lo)) (bits_setBits w hi lo v)
    simp only [testBit_bits, Nat.testBit_mod_two_pow, show k - lo < hi + 1 - lo by omega, decide_true, Bool.true_and] at hfield
    rwa [Nat.add_sub_cancel' hk.1] at hfield
  · next hk =>
    by_cases hlo : k < lo
    · rw [hbit, hbit w, bits_setBits_below w v hlo]
    · rw [hbit, hbit w, bits_setBits_above w v hl (by omega)]

/-- A part of a field that was set reads that part of the value. -/
theorem bits_setBits_inside (w v : Nat) {hi lo hi2 lo2 : Nat} (hl : lo ≤ lo2) (h2 : lo2 ≤ hi2) (hh : hi2 ≤ hi) :
    bits (setBits w hi lo v) hi2 lo2 = bits v (hi2 - lo) (lo2 - lo) := by
  refine Nat.eq_of_testBit_eq fun k => ?_
  rw [testBit_bits, testBit_bits, testBit_setBits w v (by omega), show hi2 - lo + 1 - (lo2 - lo) = hi2 + 1 - lo2 by omega]
  by_cases hk : k < hi2 + 1 - lo2
  · rw [if_pos (by omega), show lo2 + k - lo = lo2 - lo + k by omega]
  · simp [hk]

/-- A field outside the one that was set is as it was. -/
theorem bits_setBits_apart (w v : Nat) {hi lo hi2 lo2 : Nat} (hl : lo ≤ hi) (h : hi2 < lo ∨ hi < lo2) :
    bits (setBits w hi lo v) hi2 lo2 = bits w hi2 lo2 :=
  h.elim (bits_setBits_below w v) (bits_setBits_above w v hl)

/-! ## Registers that only say how far the scheduler core has come -/

/-- The head of a submission ring, or the request or the result of the KV manager (R205, R266, R267). -/
def IsCursor (a : Nat) : Prop := a = aSch 0x860 ∨ a = aSch 0x870 ∨ ∃ set < 4, a = aRing set 0x24

theorem not_isCursor_of_addr {a : Nat} (h : a < aSch 0x100 ∨ aSch 0x871 ≤ a) : ¬ IsCursor a := by
  rintro (rfl | rfl | ⟨set, hs, rfl⟩) <;> simp only [aRing, aSch] at h <;> omega

theorem not_isCursor_kv {o : Nat} (h : 0x800 ≤ o) (h' : o < 0x860) : ¬ IsCursor (aSch o) := by
  rintro (e | e | ⟨set, hs, e⟩) <;> simp only [aRing, aSch] at e <;> omega

theorem not_isCursor_memReg {a : Nat} (h : MemReg a) : ¬ IsCursor a := by
  obtain rfl | ⟨d, -, o, -, rfl⟩ := h
  · exact not_isCursor_of_addr (.inl (by simp only [aVal, aSch]; omega))
  · exact not_isCursor_of_addr (.inr (by simp only [aDmc, meadowBase, aSch, valeBase]; omega))

theorem not_isCursor_col (o : Nat) : ¬ IsCursor (aCol o) :=
  not_isCursor_of_addr (.inr (by simp only [aCol, aSch]; omega))

theorem not_isCursor_queue (q o : Nat) : ¬ IsCursor (aQueue q o) :=
  not_isCursor_of_addr (.inr (by simp only [aQueue, aIqm, aSch]; omega))

/-- Memory, its poison, the fabric, the context table and every register but the cursors are the same. -/
structure State.readsAs (s u : State) : Prop where
  mem : u.mem = s.mem
  poison : u.poison = s.poison
  spoilt : u.spoilt = s.spoilt
  free : u.free = s.free
  col : u.col = s.col
  table : u.sched.ctxTable = s.sched.ctxTable
  reg : ∀ a, ¬ IsCursor a → u.reg a = s.reg a

theorem State.readsAs_setReg (s : State) {a : Nat} (h : IsCursor a) (v : Nat) : s.readsAs (s.setReg a v) :=
  ⟨rfl, rfl, rfl, rfl, rfl, rfl, fun _ hb => s.reg_setReg_ne v fun e => hb (e ▸ h)⟩

section
variable {s u : State}

theorem State.readsAs.trans {v : State} (h : s.readsAs u) (k : u.readsAs v) : s.readsAs v :=
  ⟨k.mem.trans h.mem, k.poison.trans h.poison, k.spoilt.trans h.spoilt, k.free.trans h.free, k.col.trans h.col,
    k.table.trans h.table, fun a ha => (k.reg a ha).trans (h.reg a ha)⟩

/-! ### Memory and poison -/

theorem State.readsAs.sameMap (h : s.readsAs u) : s.sameMap u := fun _ ha => h.reg _ (not_isCursor_memReg ha)

theorem State.readsAs.fld (h : s.readsAs u) {a : Nat} (ha : ¬ IsCursor a) (hi lo : Nat) : u.fld a hi lo = s.fld a hi lo := by
  rw [State.fld, State.fld, h.reg a ha]

theorem State.readsAs.real (h : s.readsAs u) : u.real = s.real := by
  funext a
  unfold State.real State.ownWindow State.ownAddr State.fld
  rw [h.reg _ (not_isCursor_col 0), h.reg _ (not_isCursor_col 0x20)]

theorem State.readsAs.byte (h : s.readsAs u) : u.byte = s.byte := by
  funext a
  simp only [State.byte, h.real, h.mem, h.col, h.free]

theorem State.readsAs.num (h : s.readsAs u) : u.num = s.num := by
  funext a n
  simp only [State.num, State.bytes, h.byte]

theorem State.readsAs.words (h : s.readsAs u) : u.words = s.words := by
  funext a n
  simp only [State.words, h.num]

theorem State.readsAs.targetUp (h : s.readsAs u) : u.targetUp = s.targetUp := funext h.sameMap.targetUp

theorem State.readsAs.readPoison (h : s.readsAs u) : u.readPoison = s.readPoison := by
  funext a n
  simp only [State.readPoison, State.poisoned, h.real, h.poison, h.spoilt, h.sameMap.pcFailed]

/-! ### Contexts -/

theorem State.readsAs.ctxAddr (h : s.readsAs u) : u.ctxAddr = s.ctxAddr := by
  funext m c
  have ha : ¬ IsCursor (aSch (if m = 0 then 0x10 else 0x18)) :=
    not_isCursor_of_addr (.inl (by simp only [aSch]; split <;> omega))
  simp only [State.ctxAddr, h.reg _ ha]

theorem State.readsAs.ctxCopyStatus (h : s.readsAs u) : u.ctxCopyStatus = s.ctxCopyStatus := by
  funext m c
  simp only [State.ctxCopyStatus, h.ctxAddr, h.targetUp, h.readPoison]

theorem State.readsAs.ctx (h : s.readsAs u) : u.ctx = s.ctx := by
  funext c
  simp only [State.ctx, h.table, h.words, h.ctxAddr, h.ctxCopyStatus]

theorem State.readsAs.resident (h : s.readsAs u) : u.resident = s.resident := by
  funext c
  rw [State.resident, State.resident, h.table]

theorem State.readsAs.ctxReady (h : s.readsAs u) : u.ctxReady = s.ctxReady := by
  funext w
  simp only [State.ctxReady, h.fld (not_isCursor_queue _ _)]

/-! ### Page tables and nodes -/

theorem State.readsAs.pdir (h : s.readsAs u) : u.pdir = s.pdir := by
  funext root
  simp only [State.pdir, h.num]

theorem State.readsAs.nodeMax (h : s.readsAs u) : u.nodeMax = s.nodeMax :=
  h.fld (not_isCursor_kv (by decide) (by decide)) 20 0

theorem State.readsAs.nodeWord (h : s.readsAs u) : u.nodeWord = s.nodeWord := by
  funext x i
  simp only [State.nodeWord, State.nodeAddr, h.num, h.reg _ (not_isCursor_kv (o := 0x838) (by decide) (by decide))]

theorem State.readsAs.nodeValid (h : s.readsAs u) : u.nodeValid = s.nodeValid := by
  funext x
  simp only [State.nodeValid, h.nodeWord]

theorem State.readsAs.tableBad (h : s.readsAs u) : u.tableBad = s.tableBad := by
  funext root layers d
  unfold State.tableBad State.pageList
  rw [h.num, h.words]

theorem State.readsAs.tableFrames (h : s.readsAs u) : u.tableFrames = s.tableFrames := by
  funext root d
  unfold State.tableFrames State.pageList
  rw [h.num]

theorem State.readsAs.tableNodes (h : s.readsAs u) : u.tableNodes = s.tableNodes := by
  funext root d
  simp only [State.tableNodes, h.num]

theorem State.readsAs.countsFull (h : s.readsAs u) : u.countsFull = s.countsFull := by
  funext fs
  unfold State.countsFull State.frameRefs State.refAddr
  rw [h.num, h.reg _ (not_isCursor_kv (by decide) (by decide))]

theorem State.readsAs.walkStatus (h : s.readsAs u) : u.walkStatus = s.walkStatus := by
  have hlists : u.pageList = s.pageList := by
    funext root l
    simp only [State.pageList, h.num]
  have hframes : u.kvFrames = s.kvFrames := h.fld (not_isCursor_kv (by decide) (by decide)) 22 0
  funext root layers
  simp only [State.walkStatus, h.pdir, hlists, h.tableBad, h.tableFrames, h.tableNodes, h.countsFull, hframes, h.nodeMax,
    h.nodeValid]

end

/-! ## One of several statuses (R208, R259) -/

/-- A status that is not 0 is one of those given. -/
theorem mem_of_oneOf {l : List Nat} (h : oneOf l ≠ 0) : oneOf l ∈ l ∧ oneOf l ≠ 0 := by
  have hmem : ∀ x ∈ (l.filter fun x => decide (x ≠ 0)).eraseDups, x ∈ l := fun x hx =>
    (List.mem_filter.1 (List.mem_eraseDups.1 hx)).1
  refine ⟨hmem _ ?_, h⟩
  unfold oneOf at *
  generalize (l.filter fun x => decide (x ≠ 0)).eraseDups = c at *
  match c with
  | [] => exact absurd rfl h
  | [x] => exact .head _
  | x :: y :: t =>
    have hlt := Nat.mod_lt (Config.whichOf (x :: y :: t)) (show 0 < (x :: y :: t).length by simp)
    simp only [List.getD_eq_getElem _ _ hlt]
    exact List.getElem_mem _

theorem oneOf_eq_zero {l : List Nat} (h : ∀ x ∈ l, x = 0) : oneOf l = 0 :=
  not_not.1 fun hne => (mem_of_oneOf hne).2 (h _ (mem_of_oneOf hne).1)

end Sys2Proof.Machine
end

section

/-! PROOFS of the family "contexts and scheduler": O33. Every clause reads RING_CTL bit by bit after a run of writes of its fields. -/

namespace Sys2Proof.Machine

/-! ## Registers of a ring set (R204, R205, R218) -/

theorem aRing_inj {set o p : Nat} : aRing set o = aRing set p ↔ o = p := by
  simp only [aRing, aSch]; omega

theorem aRing_ne {set o p : Nat} (h : o ≠ p) : aRing set o ≠ aRing set p := mt aRing_inj.1 h

section
variable (s : State)

theorem State.reg_setFld_same {a hi lo : Nat} (v : Nat) (hl : lo ≤ hi) (hh : hi < 64) :
    (s.setFld a hi lo v).reg a = setBits (s.reg a) hi lo v := by
  rw [State.setFld, State.reg_setReg_same, Nat.mod_eq_of_lt (setBits_lt (s.reg_lt a) v hl hh)]

/-- A bit of a register after a field of it was set. -/
theorem State.bit_reg_setFld {a hi lo : Nat} (v : Nat) (hl : lo ≤ hi) (hh : hi < 64) (k : Nat) :
    bit ((s.setFld a hi lo v).reg a) k = if lo ≤ k ∧ k ≤ hi then bit v (k - lo) else bit (s.reg a) k := by
  rw [s.reg_setFld_same v hl hh]
  exact testBit_setBits _ v hl k

theorem State.onlyRegs_setReg (a v : Nat) : s.onlyRegs (s.setReg a v) [a] :=
  ⟨rfl, fun _ h => s.reg_setReg_ne v fun e => h (e ▸ .head _)⟩

theorem State.onlyRegs_setFld (a hi lo v : Nat) : s.onlyRegs (s.setFld a hi lo v) [a] := s.onlyRegs_setReg _ _

theorem State.onlyRegs_refl (l : List Nat) : s.onlyRegs s l := ⟨rfl, fun _ _ => rfl⟩

variable {s}

theorem State.onlyRegs.trans {t u : State} {l : List Nat} (h : s.onlyRegs t l) (k : t.onlyRegs u l) : s.onlyRegs u l := by
  obtain ⟨hs, hr⟩ := h
  obtain ⟨ks, kr⟩ := k
  exact ⟨by rw [ks, hs], fun a ha => (kr a ha).trans (hr a ha)⟩

/-- R205: an index of a ring fits its register. -/
theorem State.ringIndex_mod (s : State) (set r n : Nat) : n % 2 ^ s.ringLog set r % 2 ^ 64 = n % 2 ^ s.ringLog set r := by
  have hlog : s.ringLog set r < 2 ^ 4 := (bits_lt ..).trans_eq (congrArg (2 ^ ·) (by omega))
  exact Nat.mod_eq_of_lt ((Nat.mod_lt _ (Nat.two_pow_pos _)).trans_le (Nat.pow_le_pow_right (by decide) (by omega)))

/-- R206: an event leaves the registers of the ring sets alone, but for the tails of the event rings. -/
theorem State.eventOnly.reg_ring {t : State} (h : s.eventOnly t) {set o : Nat} (ho : o < 0x100) (ho' : o ≠ 0x30) :
    t.reg (aRing set o) = s.reg (aRing set o) :=
  h.2 _ (by simp only [aRing, aSch]; omega) fun _ _ => by simp only [aRing, aSch]; omega

end

/-! ## Errors (R205, R220) -/

/-- R205: what an error of a ring set leaves: ERROR set, reported, and of the set's other registers the event tail alone changed. -/
theorem State.ringError_spec (s : State) (set : Nat) :
    (s.ringError set).fld (aRing set 0x18) 31 31 = 1
      ∧ (∀ k, k ≠ 31 → bit ((s.ringError set).reg (aRing set 0x18)) k = bit (s.reg (aRing set 0x18)) k)
      ∧ (∀ o < 0x100, o ≠ 0x18 → o ≠ 0x30 → (s.ringError set).reg (aRing set o) = s.reg (aRing set o))
      ∧ (s.ringError set).reported 4 "RING_ERROR" set 0 := by
  have hev : (s.setFld (aRing set 0x18) 31 31 1).eventOnly (s.ringError set) := State.raise_only ..
  refine ⟨?_, fun k hk => ?_, fun o ho h1 h2 => ?_, State.raise_reported _ le_rfl ..⟩
  · rw [State.fld, hev.reg_ring (by decide) (by decide), ← State.fld, State.fld_setFld_same _ _ le_rfl (by decide)]; rfl
  · rw [hev.reg_ring (by decide) (by decide), State.bit_setFld _ _ _ (by decide), if_neg hk]
  · rw [hev.reg_ring ho h2, State.reg_setFld_ne _ _ _ _ (aRing_ne h1)]

/-! ## Doorbells (R205) -/

section
variable {s : State} {init : Init} {set : Fin 4} {value : Word32} (hf : s.frozen = false)
include hf

/-- R204: only the owner of a set writes its doorbells and RING_CTL. -/
theorem exec_ring_other (hown : init.toNat ≠ ringOwner set) :
    exec (.sqTailDoorbell init set value) s = .next s ∧ exec (.ringEnable init set value) s = .next s
      ∧ exec (.ringDisable init set value) s = .next s := by
  refine ⟨?_, ?_, ?_⟩
  · show execSqTailDoorbell init set value s = _
    simp only [execSqTailDoorbell, State.live_of_running hf, if_pos hown]
  · show execRingEnable init set value s = _
    simp only [execRingEnable, State.live_of_running hf, if_pos (Or.inl hown)]
  · show execRingDisable init set value s = _
    simp only [execRingDisable, State.live_of_running hf, if_pos (Or.inl hown)]

theorem exec_sqTailDoorbell (hown : init.toNat = ringOwner set) :
    exec (.sqTailDoorbell init set value) s
      = .next (if 2 ^ s.ringLog set 0 ≤ value.toNat % 2 ^ 15 then s.ringError set else s.setReg (aRing set 0x20) (value.toNat % 2 ^ 15)) := by
  show execSqTailDoorbell init set value s = _
  have hv : bits value.toNat 14 0 = value.toNat % 2 ^ 15 := by rw [bits_eq, Nat.pow_zero, Nat.div_one]
  simp only [execSqTailDoorbell, State.live_of_running hf, hown, ne_eq, not_true_eq_false, if_false, State.ringIndex, hv]

theorem sqTailDoorbell_moves (hown : init.toNat = ringOwner set) (h : value.toNat % 2 ^ 15 < 2 ^ s.ringLog set 0) :
    Leads (.sqTailDoorbell init set value) s fun s' =>
      s'.reg (aRing set 0x20) = value.toNat % 2 ^ 15 ∧ s.onlyRegs s' [aRing set 0x20] := by
  refine ⟨_, by rw [exec_sqTailDoorbell hf hown, if_neg (Nat.not_le.2 h)], ?_, s.onlyRegs_setReg _ _⟩
  rw [State.reg_setReg_same]
  exact Nat.mod_eq_of_lt (by omega)

theorem sqTailDoorbell_beyond (hown : init.toNat = ringOwner set) (h : 2 ^ s.ringLog set 0 ≤ value.toNat % 2 ^ 15) :
    Leads (.sqTailDoorbell init set value) s fun s' =>
      s'.fld (aRing set 0x18) 31 31 = 1 ∧ s'.reg (aRing set 0x20) = s.reg (aRing set 0x20) ∧ s'.reported 4 "RING_ERROR" set 0 := by
  obtain ⟨herr, -, hreg, hrep⟩ := s.ringError_spec set
  exact ⟨_, by rw [exec_sqTailDoorbell hf hown, if_pos h], herr, hreg _ (by decide) (by decide) (by decide), hrep⟩

end

/-! ## Enabling (R218, R219) -/

/-- R219: ERROR of a set is cleared by a write of RING_CTL with bit 31. -/
def State.errorCleared (s : State) (set v : Nat) : State := if bit v 31 then s.setFld (aRing set 0x18) 31 31 0 else s

theorem State.errorCleared_only (s : State) (set v : Nat) : s.onlyRegs (s.errorCleared set v) [aRing set 0x18] := by
  unfold State.errorCleared
  split
  · exact s.onlyRegs_setFld ..
  · exact s.onlyRegs_refl _

theorem State.bit_errorCleared (s : State) (set v : Nat) {k : Nat} (hk : k ≠ 31) :
    bit ((s.errorCleared set v).reg (aRing set 0x18)) k = bit (s.reg (aRing set 0x18)) k := by
  unfold State.errorCleared
  split
  · rw [State.bit_setFld _ _ _ (by decide), if_neg hk]
  · rfl

theorem State.ringEn_errorCleared (s : State) (set v : Nat) : (s.errorCleared set v).ringEn set = s.ringEn set := by
  rw [State.ringEn, State.ringEn, s.bit_errorCleared set v (by decide)]

/-- R218: the LOGs of a write of RING_CTL taken over. -/
def State.logsWritten (s : State) (set v : Nat) : State :=
  (s.errorCleared set v).setFld (aRing set 0x18) 12 1 (bits v 12 1)

section
variable (s : State) (set v : Nat)

theorem State.logsWritten_only : s.onlyRegs (s.logsWritten set v) [aRing set 0x18] :=
  (s.errorCleared_only set v).trans (State.onlyRegs_setFld ..)

theorem State.reg_logsWritten {o : Nat} (h : o ≠ 0x18) : (s.logsWritten set v).reg (aRing set o) = s.reg (aRing set o) :=
  (s.logsWritten_only set v).2 _ (by simpa using aRing_ne h)

theorem State.ringEn_logsWritten : (s.logsWritten set v).ringEn set = s.ringEn set := by
  rw [State.ringEn, State.logsWritten, State.bit_reg_setFld _ _ (by decide) (by decide), if_neg (by decide)]
  exact s.ringEn_errorCleared set v

theorem State.ringLog_logsWritten {r : Nat} (hr : r < 3) : (s.logsWritten set v).ringLog set r = v / 2 ^ (4 * r + 1) % 16 := by
  rw [State.ringLog, State.fld, State.logsWritten, State.reg_setFld_same _ _ (by decide) (by decide),
    bits_setBits_inside _ _ (by omega) (by omega) (by omega)]
  refine Nat.eq_of_testBit_eq fun k => ?_
  rw [testBit_bits, testBit_bits, show (16 : Nat) = 2 ^ 4 from rfl, Nat.testBit_mod_two_pow, Nat.testBit_div_two_pow]
  have hwidth : k < 4 * r + 4 - 1 + 1 - (4 * r + 1 - 1) ↔ k < 4 := by omega
  by_cases hk : k < 4
  · simp only [hwidth, show 4 * r + 1 - 1 + k < 12 + 1 - 1 by omega, hk, decide_true, Bool.true_and,
      show 1 + (4 * r + 1 - 1 + k) = k + (4 * r + 1) by omega]
  · simp only [hwidth, hk, decide_false, Bool.false_and]

theorem State.ringBaseOk_logsWritten {off : Nat} (h : off ≠ 0x18) (log : Nat) :
    (s.logsWritten set v).ringBaseOk set off log = s.ringBaseOk set off log := by
  simp only [State.ringBaseOk, s.reg_logsWritten set v h]

end

/-- R205, R219: the indices of an enabled set's rings. -/
def ringIndices : List Nat := [0x20, 0x24, 0x28, 0x2C, 0x30, 0x34]

/-- R219: the indices of a set at 0. -/
def State.indicesCleared (s : State) (set : Nat) : State := ringIndices.foldl (fun s o => s.setReg (aRing set o) 0) s

theorem State.reg_foldl_clear (set : Nat) (l : List Nat) (s : State) (a : Nat) :
    (l.foldl (fun s o => s.setReg (aRing set o) 0) s).reg a = if a ∈ l.map (aRing set) then 0 else s.reg a := by
  induction l generalizing s with
  | nil => rfl
  | cons o l ih =>
    rw [List.foldl_cons, ih]
    by_cases ha : a = aRing set o
    · simp [ha]
    · simp [ha, s.reg_setReg_ne 0 ha]

theorem State.indicesCleared_regsOnly (s : State) (set : Nat) : s.regsOnly (s.indicesCleared set) :=
  State.regsOnly_foldl _ _ (fun s _ => s.regsOnly_setReg ..) s

theorem State.reg_indicesCleared (s : State) (set : Nat) {o : Nat} :
    (s.indicesCleared set).reg (aRing set o) = if o ∈ ringIndices then 0 else s.reg (aRing set o) := by
  have hmem : aRing set o ∈ ringIndices.map (aRing set) ↔ o ∈ ringIndices := by
    simp only [List.mem_map, aRing_inj, exists_eq_right]
  rw [State.indicesCleared, State.reg_foldl_clear]
  simp only [hmem]

/-- R219: a set whose rings are legal is enabled: its indices and its counts of entries are 0, and EN is 1. -/
def State.ringEnabled (s : State) (set : Nat) : State :=
  let q := fun (m : Sparse Nat) (r : Nat) => writeAt (fun _ => 0) m (ringKey set r) 0
  { (s.indicesCleared set).setFld (aRing set 0x18) 0 0 1 with
    sched := { s.sched with ringSeq := q (q s.sched.ringSeq 1) 2 } }

/-- R218: the rings of a write of RING_CTL are not legal. -/
def State.ringsBad (s : State) (set v : Nat) : Bool :=
  [bits v 4 1, bits v 8 5, bits v 12 9].any (fun l => decide (l < 4)) || !s.ringBaseOk set 0 (bits v 4 1)
    || !s.ringBaseOk set 8 (bits v 8 5) || !s.ringBaseOk set 0x10 (bits v 12 9)

/-- R218, R219: a set that is neither enabled nor draining is enabled, or is in error. -/
theorem State.ringEnable_disabled {s : State} {set v : Nat} (hdrain : bit (s.reg (aRing set 0x18)) 13 = false)
    (hen : s.ringEn set = false) :
    s.ringEnable set v
      = if s.ringsBad set v then (s.logsWritten set v).ringError set else (s.logsWritten set v).ringEnabled set := by
  have hd : bit ((s.errorCleared set v).reg (aRing set 0x18)) 13 = false := by rw [s.bit_errorCleared set v (by decide), hdrain]
  have he : (s.errorCleared set v).ringEn set = false := (s.ringEn_errorCleared set v).trans hen
  have hbase : (s.logsWritten set v).ringsBad set v = s.ringsBad set v := by
    simp only [State.ringsBad, s.ringBaseOk_logsWritten set v (by decide : 0 ≠ 0x18),
      s.ringBaseOk_logsWritten set v (by decide : 8 ≠ 0x18), s.ringBaseOk_logsWritten set v (by decide : 0x10 ≠ 0x18)]
  rw [← hbase]
  show (if bit ((s.errorCleared set v).reg (aRing set 0x18)) 13 then _ else if (s.errorCleared set v).ringEn set then _ else _) = _
  rw [hd, he]
  rfl

/-- R219: what an enabled set shows. -/
theorem State.ringEnabled_spec (s : State) (set : Nat) :
    (s.ringEnabled set).ringEn set = true ∧ (∀ r, (s.ringEnabled set).ringLog set r = s.ringLog set r)
      ∧ (∀ o ∈ ringIndices, (s.ringEnabled set).reg (aRing set o) = 0) ∧ (s.ringEnabled set).mem = s.mem
      ∧ ∀ r ∈ [1, 2], readAt (fun _ => 0) (s.ringEnabled set).sched.ringSeq (ringKey set r) = 0 := by
  have hreg := State.reg_congr (x := s.ringEnabled set) (y := (s.indicesCleared set).setFld (aRing set 0x18) 0 0 1)
    (by simp only [State.ringEnabled])
  have hctl : (s.indicesCleared set).reg (aRing set 0x18) = s.reg (aRing set 0x18) := by
    rw [State.reg_indicesCleared, if_neg (by decide)]
  have hmem : (s.ringEnabled set).mem = (s.indicesCleared set).mem := by
    simp only [State.ringEnabled, State.setFld_mem]
  have hseq : (s.ringEnabled set).sched.ringSeq
      = writeAt (fun _ => 0) (writeAt (fun _ => 0) s.sched.ringSeq (ringKey set 1) 0) (ringKey set 2) 0 := by
    simp only [State.ringEnabled]
  refine ⟨?_, fun r => ?_, fun o ho => ?_, hmem.trans (s.indicesCleared_regsOnly set).mem, fun r hr => ?_⟩
  · rw [State.ringEn, hreg, State.bit_setFld _ _ _ (by decide)]; rfl
  · rw [State.ringLog, State.fld, hreg, ← State.fld, State.fld_setFld_apart _ _ le_rfl (by decide) (.inr (by omega)),
      State.ringLog, State.fld, State.fld, hctl]
  · have hne : o ≠ 0x18 := by rintro rfl; exact absurd ho (by decide)
    rw [hreg, State.reg_setFld_ne _ _ _ _ (aRing_ne hne), State.reg_indicesCleared, if_pos ho]
  · have hr' : r = 1 ∨ r = 2 := by simpa using hr
    obtain rfl | rfl := hr'
    · rw [hseq, readAt_writeAt_ne _ _ _ (by simp [ringKey]), readAt_writeAt_same]
    · rw [hseq, readAt_writeAt_same]

section
variable {s : State} {init : Init} {set : Fin 4} {value : Word32} (hf : s.frozen = false) (hown : init.toNat = ringOwner set)
include hf hown

theorem exec_ringEnable (hv : value.toNat % 2 = 1) :
    exec (.ringEnable init set value) s = .next (s.ringEnable set value.toNat) := by
  show execRingEnable init set value s = _
  have hbit : bit value.toNat 0 = true := by rw [bit, Nat.testBit_zero, hv]; rfl
  simp [execRingEnable, State.live_of_running hf, hown, hbit]

/-- R218: the rings of a write are legal where each LOG is 4 at least and each base is in DRAM. -/
theorem ringEnable_enables (hv : value.toNat % 2 = 1) (hdrain : bit (s.reg (aRing set 0x18)) 13 = false) (hen : s.ringEn set = false)
    (h0 : 4 ≤ value.toNat / 2 % 16) (h1 : 4 ≤ value.toNat / 2 ^ 5 % 16) (h2 : 4 ≤ value.toNat / 2 ^ 9 % 16)
    (b0 : s.ringBaseOk set 0 (value.toNat / 2 % 16) = true) (b1 : s.ringBaseOk set 8 (value.toNat / 2 ^ 5 % 16) = true)
    (b2 : s.ringBaseOk set 0x10 (value.toNat / 2 ^ 9 % 16) = true) :
    Leads (.ringEnable init set value) s fun s' => s'.ringEn set = true
      ∧ (∀ r < 3, s'.ringLog set r = value.toNat / 2 ^ (4 * r + 1) % 16) ∧ (∀ o ∈ ringIndices, s'.reg (aRing set o) = 0)
      ∧ s'.mem = s.mem ∧ ∀ r ∈ [1, 2], readAt (fun _ => 0) s'.sched.ringSeq (ringKey set r) = 0 := by
  have hgood : s.ringsBad set value.toNat = false := by
    simp only [State.ringsBad, bits_eq, Nat.pow_one, Nat.reduceAdd, Nat.reduceSub, Nat.reducePow] at *
    simp [b0, b1, b2, h0, h1, h2]
  obtain ⟨sen, slog, sidx, smem, sseq⟩ := (s.logsWritten set value.toNat).ringEnabled_spec set
  refine ⟨(s.logsWritten set value.toNat).ringEnabled set, ?_, sen, fun r hr => ?_, sidx, ?_, sseq⟩
  · rw [exec_ringEnable hf hown hv, State.ringEnable_disabled hdrain hen, if_neg (ne_true_of_eq_false hgood)]
  · rw [slog, s.ringLog_logsWritten _ _ hr]
  · rw [smem, (s.logsWritten_only _ _).1]

/-- R218: a submission ring of fewer than 16 entries is an error. -/
theorem ringEnable_short (hv : value.toNat % 2 = 1) (hdrain : bit (s.reg (aRing set 0x18)) 13 = false) (hen : s.ringEn set = false)
    (h0 : value.toNat / 2 % 16 < 4) :
    Leads (.ringEnable init set value) s fun s' =>
      s'.ringEn set = false ∧ s'.fld (aRing set 0x18) 31 31 = 1 ∧ s'.reported 4 "RING_ERROR" set 0 := by
  have hbad : s.ringsBad set value.toNat = true := by
    have hlog : bits value.toNat 4 1 < 4 := by rw [bits_eq]; exact h0
    simp [State.ringsBad, hlog]
  obtain ⟨herr, hbit, -, hrep⟩ := (s.logsWritten set value.toNat).ringError_spec set
  refine ⟨_, by rw [exec_ringEnable hf hown hv, State.ringEnable_disabled hdrain hen, if_pos hbad], ?_, herr, hrep⟩
  rw [State.ringEn, hbit 0 (by decide), ← State.ringEn, s.ringEn_logsWritten, hen]

/-! ## Disabling (R219) -/

theorem exec_ringDisable (hv : value.toNat % 2 = 0) (hen : s.ringEn set = true) :
    exec (.ringDisable init set value) s
      = .next (((s.errorCleared set value.toNat).setFld (aRing set 0x18) 13 13 1).drainSet set) := by
  show execRingDisable init set value s = _
  have hbit : bit value.toNat 0 = false := by rw [bit, Nat.testBit_zero, hv]; rfl
  have he : (s.errorCleared set value.toNat).ringEn set = true := (s.ringEn_errorCleared ..).trans hen
  simp only [execRingDisable, State.live_of_running hf, hown, hbit, ne_eq, not_true_eq_false, Bool.false_eq_true, or_self, if_false]
  rw [State.errorCleared] at he
  rw [State.errorCleared, if_pos he]

end

/-- R219: a set drains on while a job of it is left, or a completion entry of a job of it waits. -/
def State.ringUsed (s : State) (set : Nat) : Bool :=
  s.sched.jobs.any (fun j => decide (j.ringSet = set)) || s.sched.cqWait.any (fun w => decide (w.1 = set) && decide (w.2.1 ≠ 3))

/-- R219: a set is disabled once it drains and is not used. -/
theorem State.drainSet_eq (s : State) (set : Nat) :
    s.drainSet set = if bit (s.reg (aRing set 0x18)) 13 && !s.ringUsed set then
      (s.setFld (aRing set 0x18) 0 0 0).setFld (aRing set 0x18) 13 13 0 else s := by
  rw [State.drainSet, State.ringUsed, Bool.not_or, Bool.and_assoc]

/-- R219: draining changes RING_CTL alone. -/
theorem State.drainSet_only (s : State) (set : Nat) : s.onlyRegs (s.drainSet set) [aRing set 0x18] := by
  rw [State.drainSet_eq]
  split
  · exact (s.onlyRegs_setFld ..).trans (State.onlyRegs_setFld ..)
  · exact s.onlyRegs_refl _

/-- R219: a set begins to drain: EN falls at once where the set is not used, and otherwise DRAINING shows. -/
theorem State.drainSet_begun (s : State) (set : Nat) :
    let t := (s.setFld (aRing set 0x18) 13 13 1).drainSet set
    (s.ringUsed set = false → t.ringEn set = false ∧ bit (t.reg (aRing set 0x18)) 13 = false)
      ∧ (s.ringUsed set = true → t.ringEn set = s.ringEn set ∧ bit (t.reg (aRing set 0x18)) 13 = true) := by
  intro t
  have hset : bit ((s.setFld (aRing set 0x18) 13 13 1).reg (aRing set 0x18)) 13 = true := by
    rw [State.bit_setFld _ _ _ (by decide)]; rfl
  have hused : (s.setFld (aRing set 0x18) 13 13 1).ringUsed set = s.ringUsed set := by
    rw [State.ringUsed, State.ringUsed, State.setFld_sched]
  have ht : t = if s.ringUsed set = false then ((s.setFld (aRing set 0x18) 13 13 1).setFld (aRing set 0x18) 0 0 0).setFld
      (aRing set 0x18) 13 13 0 else s.setFld (aRing set 0x18) 13 13 1 := by
    show State.drainSet _ _ = _
    rw [State.drainSet_eq, hset, hused]
    simp
  constructor
  · intro h
    rw [ht, if_pos h, State.ringEn]
    refine ⟨?_, (State.bit_setFld _ _ _ (by decide)).trans (if_pos rfl)⟩
    rw [State.bit_setFld _ _ _ (by decide), if_neg (by decide), State.bit_setFld _ _ _ (by decide), if_pos rfl]
    rfl
  · intro h
    rw [ht, if_neg (by simp [h])]
    exact ⟨(State.bit_setFld _ _ _ (by decide)).trans (if_neg (by decide)), hset⟩

section
variable {s : State} {init : Init} {set : Fin 4} {value : Word32} (hf : s.frozen = false) (hown : init.toNat = ringOwner set)
  (hv : value.toNat % 2 = 0) (hen : s.ringEn set = true)
include hf hown hv hen

/-- R219: the write that disables a set changes RING_CTL alone; EN falls or the set drains. -/
theorem ringDisable_leads :
    Leads (.ringDisable init set value) s fun s' => s.onlyRegs s' [aRing set 0x18]
      ∧ (s.ringUsed set = false → s'.ringEn set = false ∧ bit (s'.reg (aRing set 0x18)) 13 = false)
      ∧ (s.ringUsed set = true → s'.ringEn set = true ∧ bit (s'.reg (aRing set 0x18)) 13 = true) := by
  obtain ⟨hidle, hbusy⟩ := (s.errorCleared set value.toNat).drainSet_begun set
  have hsched := congrArg State.sched (s.errorCleared_only set value.toNat).1
  have hused : (s.errorCleared set value.toNat).ringUsed set = s.ringUsed set := by rw [State.ringUsed, State.ringUsed, hsched]
  rw [hused] at hidle hbusy
  rw [s.ringEn_errorCleared, hen] at hbusy
  exact ⟨_, exec_ringDisable hf hown hv hen,
    ((s.errorCleared_only _ _).trans (State.onlyRegs_setFld ..)).trans (State.drainSet_only ..), hidle, hbusy⟩

end

/-! ## Completion entries that wait (R206) -/

theorem State.store_regs (s : State) (a : Nat) (bs : List Byte) : (s.store a bs).regs = s.regs := congrArg (·.regs) (s.store_only a bs)

theorem State.store_sched (s : State) (a : Nat) (bs : List Byte) : (s.store a bs).sched = s.sched := congrArg (·.sched) (s.store_only a bs)

/-- R206: an entry of the completion ring moves its tail on, and leaves the set's other registers alone. -/
theorem State.reg_ringPut_completion (s : State) (set type : Nat) (ws : List Nat) {a : Nat} :
    (s.ringPut set 1 type ws).reg a
      = if a = aRing set 0x28 then (s.reg a + 1) % 2 ^ s.ringLog set 1 else s.reg a := by
  simp only [State.ringPut]
  generalize hu : State.store s _ _ = u
  have hregs : ∀ b, u.reg b = s.reg b := fun b => State.reg_congr (by rw [← hu, s.store_regs]) b
  have hput : ∀ q : Sched, (State.setReg { u with sched := q } (aRing set 0x28) ((s.reg (aRing set 0x28) + 1) % 2 ^ s.ringLog set 1)).reg a
      = if a = aRing set 0x28 then (s.reg a + 1) % 2 ^ s.ringLog set 1 else s.reg a := by
    intro q
    split
    · next h => rw [h, State.reg_setReg_same, s.ringIndex_mod]
    · next h => rw [State.reg_setReg_ne _ _ h]; exact hregs a
  split
  · exact hput _
  · exact hput _

theorem State.cqWait_ringPut (s : State) (set ring type : Nat) (ws : List Nat) :
    (s.ringPut set ring type ws).sched.cqWait = s.sched.cqWait := by
  simp only [State.ringPut]
  split <;> simp only [State.msixSignal_sched, State.setReg_sched, s.store_sched]

/-- R206: the oldest entry that waits for a set's completion ring is written. -/
theorem completionEntryWrite_leads {s : State} {set : Fin 4} {e : Nat × Nat × List Nat × Option CmdRef} (hf : s.frozen = false)
    (hfind : s.sched.cqWait.find? (fun w => decide (w.1 = set.val)) = some e) (hrun : s.schRunning = true) (hen : s.ringEn set = true)
    (hroom : ringFull (s.reg (aRing set 0x2C)) (s.reg (aRing set 0x28)) (s.ringLog set 1) = false) :
    Leads (.completionEntryWrite set) s fun s' => s'.sched.cqWait = s.sched.cqWait.erase e
      ∧ s'.reg (aRing set 0x28) = (s.reg (aRing set 0x28) + 1) % 2 ^ s.ringLog set 1 := by
  let t : State := { s with sched := { s.sched with cqWait := s.sched.cqWait.erase e } }
  have hdrain := State.drainSet_only (t.ringPut set 1 e.2.1 e.2.2.1) set
  refine ⟨(t.ringPut set 1 e.2.1 e.2.2.1).drainSet set, ?_, ?_, ?_⟩
  · show execCompletionEntryWrite set s = _
    simp only [execCompletionEntryWrite, State.live_of_running hf, hfind, hrun, hen, hroom]
    rfl
  · rw [hdrain.1]
    exact t.cqWait_ringPut ..
  · rw [hdrain.2 _ (by simpa using aRing_ne (by decide)), State.reg_ringPut_completion, if_pos rfl]
    rfl

/-- Settles O33: each clause by what its command writes of RING_CTL and the indices. -/
theorem ringSets : Obligations.RingSets := by
  unfold Obligations.RingSets
  intro s init set value e v ctl own hf
  refine ⟨fun hown => sqTailDoorbell_moves hf hown, fun hown => sqTailDoorbell_beyond hf hown, fun hown hv hdrain hen => ⟨?_, ?_⟩,
    fun hown hv hen hwait => ⟨fun hjobs => ?_, fun hjobs => ?_⟩, fun hown => exec_ring_other hf hown,
    fun hfind hrun hen hroom => completionEntryWrite_leads hf hfind hrun hen hroom⟩
  · exact ringEnable_enables hf hown hv hdrain hen
  · exact ringEnable_short hf hown hv hdrain hen
  · obtain ⟨t, ht, honly, hidle, -⟩ := ringDisable_leads hf hown hv hen
    have hused : s.ringUsed set = false := by
      simp only [State.ringUsed, Bool.or_eq_false_iff, List.any_eq_false]
      exact ⟨fun j hj => by simpa using hjobs j hj, fun w hw => by simpa using hwait w hw⟩
    exact ⟨t, ht, (hidle hused).1, (hidle hused).2, honly⟩
  · obtain ⟨t, ht, honly, -, hbusy⟩ := ringDisable_leads hf hown hv hen
    obtain ⟨j, hj, hset⟩ := hjobs
    have hused : s.ringUsed set = true := by
      rw [State.ringUsed, Bool.or_eq_true]
      exact .inl (List.any_eq_true.2 ⟨j, hj, by simpa using hset⟩)
    exact ⟨t, ht, (hbusy hused).1, (hbusy hused).2, honly⟩

end Sys2Proof.Machine
end

section

/-! PROOFS of the family "contexts and scheduler": what O34 and O42 share: the words of a descriptor, and what taking and giving back
the frames of a page table leaves alone. -/

namespace Sys2Proof.Machine

/-! ## Words of a list (R194) -/

theorem word_set (w : List Nat) (i j v : Nat) : word (w.set i v) j = if i = j ∧ i < w.length then v else word w j := by
  simp only [word, List.getD_eq_getElem?_getD, List.getElem?_set]
  by_cases hij : i = j
  · subst hij
    by_cases hi : i < w.length <;> simp [hi]
  · simp [hij]

theorem word_setWord_same {w : List Nat} {i : Nat} (h : i < w.length) (v : Nat) : word (setWord w i v) i = v % 2 ^ 64 := by
  rw [setWord, word_set, if_pos ⟨rfl, h⟩]

theorem word_setWord_ne (w : List Nat) {i j : Nat} (h : j ≠ i) (v : Nat) : word (setWord w i v) j = word w j := by
  rw [setWord, word_set, if_neg fun e => h e.1.symm]

theorem word_setWordBits_same {w : List Nat} {i : Nat} (h : i < w.length) (hi lo v : Nat) :
    word (setWordBits w i hi lo v) i = setBits (word w i) hi lo v := by
  rw [setWordBits, word_set, if_pos ⟨rfl, h⟩]

theorem word_setWordBits_ne (w : List Nat) {i j : Nat} (h : j ≠ i) (hi lo v : Nat) : word (setWordBits w i hi lo v) j = word w j := by
  rw [setWordBits, word_set, if_neg fun e => h e.1.symm]

@[simp] theorem length_setWord (w : List Nat) (i v : Nat) : (setWord w i v).length = w.length := List.length_set

@[simp] theorem length_setWordBits (w : List Nat) (i hi lo v : Nat) : (setWordBits w i hi lo v).length = w.length := List.length_set

theorem drop_setWord (w : List Nat) {i n : Nat} (h : i < n) (v : Nat) : (setWord w i v).drop n = w.drop n :=
  List.drop_set_of_lt h

theorem drop_setWordBits (w : List Nat) {i n : Nat} (h : i < n) (hi lo v : Nat) : (setWordBits w i hi lo v).drop n = w.drop n :=
  List.drop_set_of_lt h

/-- A field of word 0 outside the one that was set, however short the list. -/
theorem bits_setWordBits_apart (w : List Nat) (i v : Nat) {hi lo hi2 lo2 : Nat} (hl : lo ≤ hi) (h : hi2 < lo ∨ hi < lo2) :
    bits (word (setWordBits w i hi lo v) i) hi2 lo2 = bits (word w i) hi2 lo2 := by
  by_cases hi : i < w.length
  · rw [word_setWordBits_same hi, bits_setBits_apart _ _ hl h]
  · rw [setWordBits, word_set, if_neg fun e => hi e.2]

theorem State.words_length (s : State) (a n : Nat) : (s.words a n).length = n := by simp [State.words]

theorem State.word_words_lt (s : State) (a n i : Nat) : word (s.words a n) i < 2 ^ 64 := by
  simp only [word, List.getD_eq_getElem?_getD, State.words, List.getElem?_map]
  cases (List.range n)[i]? with
  | none => exact Nat.two_pow_pos _
  | some k => exact s.num_lt _ 8

/-! ## Descriptors (R194, R196) -/

/-- R194: a descriptor that is not FREE has words. -/
theorem length_of_ctxState {w : List Nat} (h : ctxState w ≠ 0) : 0 < w.length := by
  refine List.length_pos_iff.2 fun he => h ?_
  subst he
  rfl

theorem ctxState_setState {w : List Nat} (h : 0 < w.length) {v : Nat} (hv : v < 8) : ctxState (setWordBits w 0 2 0 v) = v := by
  rw [ctxState, word_setWordBits_same h, bits_setBits]
  exact Nat.mod_eq_of_lt hv

/-- R195: readiness does not go by STATE. -/
theorem State.ctxReady_setState (s : State) (w : List Nat) (v : Nat) : s.ctxReady (setWordBits w 0 2 0 v) = s.ctxReady w := by
  have hfield := fun hi lo h => bits_setWordBits_apart w 0 v (hi := 2) (lo := 0) (hi2 := hi) (lo2 := lo) (by decide) (.inr h)
  simp only [State.ctxReady, bit_eq_bits, hfield 5 5 (by decide), hfield 40 40 (by decide), hfield 63 48 (by decide),
    hfield 39 32 (by decide)]

/-- R208: what an image gives a descriptor of eight words or more. -/
theorem imageInto_spec {old : List Nat} (img : List Nat) (h : 8 ≤ old.length) :
    (∀ hi lo, hi < 5 ∨ 5 < lo ∧ hi < 32 → bits (word (imageInto old img) 0) hi lo = bits (word old 0) hi lo)
      ∧ bits (word (imageInto old img) 0) 63 48 = bits (word img 0) 63 48
      ∧ word (imageInto old img) 1 = word img 1 % 2 ^ 64
      ∧ (∀ i, 2 ≤ i → i < 8 → word (imageInto old img) i = word old i)
      ∧ (imageInto old img).drop 8 = img.drop 8 ∧ 8 ≤ (imageInto old img).length := by
  unfold imageInto
  extract_lets block need queue d
  have hlen : d.length = old.length := by simp [d, queue, need, block]
  have htake : (d.take 8).length = 8 := by simp [hlen, h]
  have hword : ∀ i < 8, word (d.take 8 ++ img.drop 8) i = word d i := fun i hi => by
    rw [word, word, List.getD_eq_getElem?_getD, List.getD_eq_getElem?_getD, List.getElem?_append_left (hi.trans_eq htake.symm),
      List.getElem?_take_of_lt hi]
  have hzero : word d 0 = setBits (setBits (setBits (word old 0) 5 5 (bits (word img 0) 5 5)) 63 48 (bits (word img 0) 63 48))
      40 32 (bits (word img 0) 40 32) := by
    have hpos : 0 < old.length := by omega
    rw [show d = setWord queue 1 (word img 1) from rfl, word_setWord_ne _ (by decide), word_setWordBits_same (by simpa [need, block]),
      word_setWordBits_same (by simpa [block]), word_setWordBits_same hpos]
  refine ⟨fun hi lo hf => ?_, ?_, ?_, fun i h2 h8 => ?_, ?_, ?_⟩
  · rw [hword 0 (by decide), hzero, bits_setBits_apart _ _ (by decide) (by omega), bits_setBits_apart _ _ (by decide) (by omega),
      bits_setBits_apart _ _ (by decide) (by omega)]
  · rw [hword 0 (by decide), hzero, bits_setBits_apart _ _ (by decide) (by decide), bits_setBits]
    exact Nat.mod_eq_of_lt (bits_lt ..)
  · rw [hword 1 (by decide)]
    exact word_setWord_same (by simp [queue, need, block]; omega) _
  · rw [hword i h8, show d = setWord queue 1 (word img 1) from rfl, word_setWord_ne _ (by omega), word_setWordBits_ne _ (by omega),
      word_setWordBits_ne _ (by omega), word_setWordBits_ne _ (by omega)]
  · rw [List.drop_append_of_le_length htake.ge, List.drop_of_length_le htake.le, List.nil_append]
  · simp [htake]

/-! ## The frames of a page table (R249, R255, R256) -/

/-- Memory, the quarantine and SCH_KV_QUAR alone differ: what references of frames and nodes leave. -/
def State.framesOnly (s t : State) : Prop :=
  t = { s with
      mem := t.mem, poison := t.poison, spoilt := t.spoilt, regs := t.regs
      kv := { s.kv with quarantine := t.kv.quarantine } }
    ∧ ∀ a, a ≠ aSch 0x814 → t.reg a = s.reg a

section
variable {s t u : State}

theorem State.framesOnly_refl (s : State) : s.framesOnly s := ⟨rfl, fun _ _ => rfl⟩

theorem State.framesOnly.trans (h : s.framesOnly t) (k : t.framesOnly u) : s.framesOnly u := by
  obtain ⟨hs, hr⟩ := h
  obtain ⟨ks, kr⟩ := k
  exact ⟨by rw [ks, hs], fun a ha => (kr a ha).trans (hr a ha)⟩

theorem State.framesOnly_foldl {β : Type} {f : State → β → State} (hf : ∀ (s : State) x, s.framesOnly (f s x)) (l : List β) (s : State) :
    s.framesOnly (l.foldl f s) := by
  induction l generalizing s with
  | nil => exact s.framesOnly_refl
  | cons x l ih => exact (hf s x).trans (ih _)

theorem State.framesOnly.sched (h : s.framesOnly t) : t.sched = s.sched := congrArg (·.sched) h.1

theorem State.framesOnly.retired (h : s.framesOnly t) : t.kv.retired = s.kv.retired := congrArg (·.kv.retired) h.1

theorem State.framesOnly.waiting (h : s.framesOnly t) : t.kv.waitingPublish = s.kv.waitingPublish := congrArg (·.kv.waitingPublish) h.1

theorem State.store_framesOnly (s : State) (a : Nat) (bs : List Byte) : s.framesOnly (s.store a bs) := by
  have h := s.store_only a bs
  refine ⟨?_, fun b _ => State.reg_congr (s.store_regs a bs) b⟩
  generalize s.store a bs = t at *
  rw [h]

theorem State.frameRelease_framesOnly (s : State) (f : Nat) : s.framesOnly (s.frameRelease f) := by
  unfold State.frameRelease
  extract_lets n t
  have ht : s.framesOnly t := s.store_framesOnly ..
  split
  · exact ht.trans ⟨rfl, fun a ha => State.reg_setFld_ne _ _ _ _ ha⟩
  · exact ht

theorem State.tableRelease_framesOnly (s : State) (root layers : Nat) : s.framesOnly (s.tableRelease root layers) := by
  unfold State.tableRelease
  split
  · exact s.framesOnly_refl
  · exact (State.framesOnly_foldl State.frameRelease_framesOnly _ s).trans
      (State.framesOnly_foldl (fun s x => s.store_framesOnly ..) _ _)

theorem State.tableAcquire_framesOnly (s : State) (root layers : Nat) : s.framesOnly (s.tableAcquire root layers) := by
  unfold State.tableAcquire
  split
  · exact s.framesOnly_refl
  · exact (State.framesOnly_foldl (fun s f => s.store_framesOnly ..) _ s).trans
      (State.framesOnly_foldl (fun s x => s.store_framesOnly ..) _ _)

end

end Sys2Proof.Machine
end

section

/-! PROOFS of the family "contexts and scheduler": O34. An entry whose checks pass is consumed by `State.sqRun`, and its operation acts
on the state in which the head has moved on. -/

namespace Sys2Proof.Machine

/-! ## What the checks of an entry say (R208) -/

theorem failIf_eq_nil {c : Bool} {st : Nat} : failIf c st = [] ↔ c = false := by
  cases c <;> simp [failIf]

theorem sqAddr_aligned {w : List Nat} (h : sqFails w = []) (hop : sqOp w ∈ [1, 2, 6, 7]) : sqAddr w % 64 = 0 := by
  simp only [sqFails, List.append_eq_nil_iff, failIf_eq_nil] at h
  obtain ⟨⟨-, haddr⟩, -⟩ := h
  simpa [hop] using haddr

/-! ## The entry taken (R203, R205) -/

section
variable {s : State} {set op : Nat} {w : List Nat}

theorem State.sqTake_readsAs (hs : set < 4) : s.readsAs (s.sqTake set) :=
  (s.readsAs_setReg (.inr (.inr ⟨set, hs, rfl⟩)) _).trans ⟨rfl, rfl, rfl, rfl, rfl, rfl, fun _ _ => rfl⟩

theorem State.reg_sqTake (s : State) (set : Nat) :
    (s.sqTake set).reg (aRing set 0x24) = (s.reg (aRing set 0x24) + 1) % 2 ^ s.ringLog set 0 := by
  refine (State.reg_setReg_same s _ _).trans ?_
  exact s.ringIndex_mod ..

/-- R203, R208: the operation of an entry whose checks pass acts on the state in which the head has moved on. -/
theorem State.sqRun_takes (h : TakesOp s set op w) {isOp : List Nat → Bool} {fails : List Nat → List Nat}
    {act : List Nat → State → State} (hop : isOp w = true) (hfails : ∀ x ∈ fails w, x = 0) :
    s.sqRun set isOp fails act = act w (s.sqTake set) := by
  obtain ⟨-, hrun, hturn, rfl, -, hsq⟩ := h
  simp only [State.sqRun, hrun, hturn, hop, hsq, List.nil_append, oneOf_eq_zero hfails]
  simp

end

/-! ## Completion entries leave the heads alone (R206) -/

theorem State.reg_cqPut (s : State) (set type : Nat) (ws : List Nat) (r : Option CmdRef) {a : Nat} (ha : a ≠ aRing set 0x28) :
    (s.cqPut set type ws r).reg a = s.reg a := by
  unfold State.cqPut
  split
  · rfl
  · rw [State.reg_ringPut_completion, if_neg ha]

/-- R154: the end of a job that has not started leaves the heads of the rings alone. -/
theorem State.reg_endJob (s : State) {j : Job} (status : Nat) (hstarted : j.started = false) {a : Nat}
    (h18 : a ≠ aRing j.ringSet 0x18) (h28 : a ≠ aRing j.ringSet 0x28) : (s.endJob j status).reg a = s.reg a := by
  have hnote : ∀ t : State, (t.noteFrame j).reg a = t.reg a := fun t => by
    unfold State.noteFrame
    split <;> rfl
  unfold State.endJob
  extract_lets u cur sched v
  rw [(State.drainSet_only _ _).2 a (by simpa using h18), State.reg_cqPut _ _ _ _ _ h28, hnote]
  show u.reg a = s.reg a
  rw [show u = s from if_neg (by simp [hstarted])]

/-! ## Jobs (R203, R208) -/

section
variable {s : State} {set : Fin 4} {w : List Nat}

/-- R203: a queued job that joins no running one changes nothing but the queue. -/
theorem State.preemptCheck_idle (h : s.curJob = none) : s.preemptCheck = s := by
  unfold State.preemptCheck
  rw [h]

/-- R574: the job that an entry describes. -/
def State.jobTaken (s : State) (set : Nat) (w : List Nat) : Job :=
  ⟨s.words (sqAddr w) 8, set, s.sched.serial, .queued, false, 0, [], 0, 0, 0, [], []⟩

def State.jobQueued (s : State) (set : Nat) (w : List Nat) : State :=
  { s with sched := { s.sched with jobs := s.sched.jobs ++ [s.jobTaken set w], serial := s.sched.serial + 1 } }

theorem State.curJob_jobQueued (h : s.curJob = none) (set : Nat) (w : List Nat) : (s.jobQueued set w).curJob = none := by
  unfold State.curJob State.jobQueued State.jobTaken at *
  simp [List.find?_append, h]

theorem job_leads (h : TakesOp s set 1 w) (hread : s.readStatus whoBetween (sqAddr w) 64 = 0) (hidle : s.curJob = none) :
    Leads (.job set) s fun s' => ∃ n : Job, s'.sched.jobs = s.sched.jobs ++ [n] ∧ n.words = s.words (sqAddr w) 8 ∧ n.ringSet = set
      ∧ n.phase = .queued ∧ n.serial = s.sched.serial ∧ s'.sched.serial = s.sched.serial + 1 ∧ HeadMoved s s' set ∧ s'.mem = s.mem := by
  obtain ⟨hf, -, -, -, hop, hsq⟩ := id h
  have hreads : s.readsAs (s.sqTake set) := State.sqTake_readsAs set.isLt
  refine ⟨(s.sqTake set).jobQueued set w, ?_, (s.sqTake set).jobTaken set w, rfl, ?_, rfl, rfl, rfl, rfl, s.reg_sqTake set, hreads.mem⟩
  · show execJob set s = _
    rw [execJob, State.live_of_running hf, State.sqRun_takes h (by simp [sqIsJob, hop])]
    · exact congrArg _ (State.preemptCheck_idle ((s.sqTake set).curJob_jobQueued hidle set w))
    · simp [hop, sqAddr_aligned hsq, hread]
  · exact congrFun (congrFun hreads.words _) _

/-- R154, R208: a queued job that has not started is removed. -/
theorem jobCancel_leads {j : Job} (h : TakesOp s set 8 w) (hj : s.cancelTarget set w = some j) (hstarted : j.started = false) :
    Leads (.jobCancel set) s fun s' =>
      s'.sched.jobs = s.sched.jobs.filter (fun x => decide (x.serial ≠ j.serial)) ∧ HeadMoved s s' set := by
  obtain ⟨hf, -, -, -, hop, -⟩ := id h
  have hset : j.ringSet = set := by
    have hfound := List.find?_some hj
    simp only [Bool.and_eq_true, decide_eq_true_eq] at hfound
    exact hfound.1.1
  have hj' : (s.sqTake set).cancelTarget set w = some j := hj
  have hentry := State.aside.cqPut (place := True) (job := True) (set := set) (type := 3) (r := none)
    (ws := [0 + sqOp w * 2 ^ 8 + sqCtx w * 2 ^ 16 + bits (word w 0) 63 32 * 2 ^ 32, 0, 0, 0, 0, 0, 0])
    ((s.sqTake set).endJob j 0x0E).aside_refl
  refine ⟨((s.sqTake set).endJob j 0x0E).sqAnswer set w 0, ?_, ?_, ?_⟩
  · show execJobCancel set s = _
    rw [execJobCancel, State.live_of_running hf, State.sqRun_takes h (by simp [hop]) (by simp [hj, failIf]), hj']
  · rw [State.sqAnswer, hentry.jobs, State.endJob_jobs]
    rfl
  · rw [HeadMoved, State.sqAnswer, State.reg_cqPut _ _ _ _ _ (aRing_ne (by decide)),
      State.reg_endJob _ _ hstarted (hset ▸ aRing_ne (by decide)) (hset ▸ aRing_ne (by decide)), State.reg_sqTake]

end

/-! ## Contexts (R195, R197, R208) -/

/-- R197, R208: the descriptor that an image gives a context with `tokens`. -/
def State.allocated (s : State) (img : List Nat) (tokens : Nat) : List Nat :=
  let blank := setWordBits (setWordBits (List.replicate 32 0) 0 4 3 (bits (word img 0) 4 3)) 0 27 16 (ctxDomain img)
  let d := setWord (setWord (imageInto blank img) 2 tokens) 3 s.now
  setWordBits d 0 2 0 (if s.ctxReady d then 3 else 4)

theorem State.ctxAlloc_eq (s : State) (c : Nat) (img : List Nat) (tokens : Nat) :
    s.ctxAlloc c img tokens = (s.tableAcquire (ctxRoot img) (ctxLayers img)).setCtx c (s.allocated img tokens) := rfl

/-- R197: what a context holds that was allocated from an image whose words have 64 bits. -/
theorem State.allocated_spec (s : State) {img : List Nat} (hone : word img 1 < 2 ^ 64) :
    let d := s.allocated img 0
    ctxState d = (if s.ctxReady d then 3 else 4) ∧ ctxRoot d = ctxRoot img ∧ ctxLayers d = ctxLayers img ∧ ctxTokens d = 0
      ∧ ctxDomain d = ctxDomain img ∧ d.drop 8 = img.drop 8 := by
  intro d
  obtain ⟨hfields, -, hroot, -, hrest, hlen⟩ := imageInto_spec (old := setWordBits (setWordBits (List.replicate 32 0) 0 4 3
    (bits (word img 0) 4 3)) 0 27 16 (ctxDomain img)) img (by simp)
  have hdomain := hfields 27 16 (by decide)
  rw [word_setWordBits_same (by simp), bits_setBits] at hdomain
  have hd : d = s.allocated img 0 := rfl
  clear_value d
  simp only [State.allocated] at hd
  generalize imageInto _ img = e at *
  have hone' : word d 1 = word img 1 := by
    rw [hd, word_setWordBits_ne _ (by decide), word_setWord_ne _ (by decide), word_setWord_ne _ (by decide), hroot, Nat.mod_eq_of_lt hone]
  refine ⟨?_, ?_, ?_, ?_, ?_, ?_⟩
  · rw [hd, State.ctxReady_setState, ctxState_setState (by simp; omega) (by split <;> decide)]
  · rw [ctxRoot, hone', ctxRoot]
  · rw [ctxLayers, hone', ctxLayers]
  · rw [ctxTokens, hd, word_setWordBits_ne _ (by decide), word_setWord_ne _ (by decide), word_setWord_same (by omega)]
    rfl
  · rw [ctxDomain, hd, bits_setWordBits_apart _ _ _ (by decide) (by decide), word_setWord_ne _ (by decide), word_setWord_ne _ (by decide),
      hdomain]
    exact Nat.mod_eq_of_lt (bits_lt ..)
  · rw [hd, drop_setWordBits _ (by decide), drop_setWord _ (by decide), drop_setWord _ (by decide), hrest]

section
variable {s : State} {set : Fin 4} {w : List Nat}

/-- R208: the context image that an entry names. -/
def State.ctxImage (s : State) (w : List Nat) : List Nat := s.words (sqAddr w) 32

/-- R208: the image of an entry can be read, and its reserved fields are 0. -/
def State.ctxImageGood (s : State) (w : List Nat) : Prop :=
  sqAddr w % 64 = 0 ∧ s.readStatus whoBetween (sqAddr w) 256 = 0 ∧ imageBad (s.ctxImage w) = false

theorem State.imageFails_nil (h : s.ctxImageGood w) : s.imageFails w = [] ∧ s.imageOk w = true := by
  obtain ⟨ha, hread, hbad⟩ := h
  rw [State.ctxImage] at hbad
  simp [State.imageFails, State.imageOk, ha, hread, hbad, failIf]

theorem State.ctxDomainFails_nil {c : Nat} (h : s.domainOpen (ctxDomain (s.ctx c)) set = true) : s.ctxDomainFails set c = [] := by
  simp [State.ctxDomainFails, h, failIf]

theorem ctxAlloc_leads (h : TakesOp s set 2 w) (himage : s.ctxImageGood w) (hfree : ctxState (s.ctx (sqCtx w)) = 0)
    (hopen : s.domainOpen (ctxDomain (s.ctxImage w)) set = true)
    (hwalk : s.walkStatus (ctxRoot (s.ctxImage w)) (ctxLayers (s.ctxImage w)) = 0) :
    Leads (.ctxAlloc set) s fun s' => s' = (((s.sqTake set).tableAcquire (ctxRoot (s.ctxImage w)) (ctxLayers (s.ctxImage w))).setCtx
      (sqCtx w) (s.allocated (s.ctxImage w) 0)).sqAnswer set w 0 := by
  obtain ⟨hf, -, -, -, hop, -⟩ := id h
  obtain ⟨himg, hok⟩ := State.imageFails_nil himage
  unfold State.ctxImage at *
  have hreads : s.readsAs (s.sqTake set) := State.sqTake_readsAs set.isLt
  have halloc : ∀ img, (s.sqTake set).allocated img 0 = s.allocated img 0 := fun img => by
    simp only [State.allocated, hreads.ctxReady]
    rfl
  refine ⟨_, ?_, rfl⟩
  show execCtxAlloc set s = _
  rw [execCtxAlloc, State.live_of_running hf, State.sqRun_takes h (by simp [hop])]
  · rw [State.ctxAlloc_eq, hreads.words, halloc]
  · simp [himg, hok, hfree, hopen, hwalk, failIf]

/-- R208: the descriptor of a context that was freed: STATE, the TD fields. -/
def freed (d : List Nat) : List Nat := setWord (setWord (setWordBits (setWordBits d 0 2 0 0) 0 15 8 0) 4 0) 5 0

theorem freed_spec (d : List Nat) :
    ctxState (freed d) = 0 ∧ word (freed d) 4 = 0 ∧ word (freed d) 5 = 0 ∧ ∀ i, i ≠ 0 → i ≠ 4 → i ≠ 5 → word (freed d) i = word d i := by
  have hset : ∀ (x : List Nat) (i : Nat), word (setWord x i 0) i = 0 := fun x i => by
    rw [setWord, word_set]
    split
    · rfl
    · next hi => exact List.getD_eq_default _ _ (by simpa using hi)
  refine ⟨?_, ?_, hset _ _, fun i h0 h4 h5 => ?_⟩
  · rw [ctxState, freed, word_setWord_ne _ (by decide), word_setWord_ne _ (by decide), bits_setWordBits_apart _ _ _ (by decide) (by decide),
      setWordBits, word_set]
    split
    · exact bits_setBits ..
    · next hi =>
      have hd : d = [] := by simpa using hi
      subst hd
      rfl
  · rw [freed, word_setWord_ne _ (by decide), hset]
  · rw [freed, word_setWord_ne _ h5, word_setWord_ne _ h4, word_setWordBits_ne _ h0, word_setWordBits_ne _ h0]

theorem ctxFree_leads (h : TakesOp s set 3 w) (hopen : s.domainOpen (ctxDomain (s.ctx (sqCtx w))) set = true)
    (hstate : ctxState (s.ctx (sqCtx w)) ≠ 0) (huse : s.ctxInUse (sqCtx w) = false) (hswap : sqCtx w ∉ s.sched.swaps) :
    Leads (.ctxFree set) s fun s' =>
      ∃ u : State, (∀ x, lookup u.sched.ctxTable x = if x = sqCtx w then none else lookup s.sched.ctxTable x)
        ∧ s' = (u.ctxStore (sqCtx w) (freed (s.ctx (sqCtx w)))).sqAnswer set w 0 := by
  obtain ⟨hf, -, -, -, hop, -⟩ := id h
  have hreads : s.readsAs (s.sqTake set) := State.sqTake_readsAs set.isLt
  let old := s.ctx (sqCtx w)
  let t := (s.sqTake set).tableRelease (ctxRoot old) (ctxLayers old)
  have ht : t.sched.ctxTable = s.sched.ctxTable :=
    (congrArg Sched.ctxTable (State.tableRelease_framesOnly ..).sched).trans hreads.table
  refine ⟨(({ t with sched := { t.sched with ctxTable := eraseKey t.sched.ctxTable (sqCtx w) } } : State).ctxStore (sqCtx w)
    (freed old)).sqAnswer set w 0, ?_, _, fun x => ?_, rfl⟩
  · show execCtxFree set s = _
    rw [execCtxFree, State.live_of_running hf, State.sqRun_takes h (by simp [hop])]
    · simp only [hreads.ctx]
      rfl
    · simp [State.ctxDomainFails_nil hopen, hstate, huse, hswap, failIf]
  · show lookup (eraseKey t.sched.ctxTable (sqCtx w)) x = _
    rw [ht]
    split
    · next he => rw [he, lookup_eraseKey_same]
    · next hne => exact lookup_eraseKey_ne _ hne

/-- R208: a descriptor with BLOCK set to `b`. -/
theorem blocked_spec {d : List Nat} (h : 0 < d.length) (b : Bool) :
    bits (word (setWordBits d 0 5 5 (b2n b)) 0) 5 5 = b2n b
      ∧ (∀ k, k ≠ 5 → bit (word (setWordBits d 0 5 5 (b2n b)) 0) k = bit (word d 0) k)
      ∧ ∀ i, i ≠ 0 → word (setWordBits d 0 5 5 (b2n b)) i = word d i := by
  rw [word_setWordBits_same h]
  refine ⟨?_, fun k hk => ?_, fun i hi => word_setWordBits_ne _ hi _ _ _⟩
  · rw [bits_setBits]
    cases b <;> rfl
  · exact (testBit_setBits _ _ (by decide) k).trans (if_neg (by omega))

theorem State.sqBlock_takes {op : Nat} (h : TakesOp s set op w) (b : Bool) (hopen : s.domainOpen (ctxDomain (s.ctx (sqCtx w))) set = true)
    (h0 : ctxState (s.ctx (sqCtx w)) ≠ 0) (h5 : ctxState (s.ctx (sqCtx w)) ≠ 5) :
    s.sqBlock set op b = ((s.sqTake set).setCtx (sqCtx w) (setWordBits (s.ctx (sqCtx w)) 0 5 5 (b2n b))).sqAnswer set w 0 := by
  obtain ⟨-, -, -, -, hop, -⟩ := id h
  have hreads : s.readsAs (s.sqTake set) := State.sqTake_readsAs set.isLt
  rw [State.sqBlock, State.sqRun_takes h (by simp [hop])]
  · rw [hreads.ctx]
  · simp [State.ctxDomainFails_nil hopen, h0, h5, failIf]

/-- R208: CTX_BLOCK and CTX_UNBLOCK. -/
theorem ctxBlock_leads {i : Instr} {op : Nat} (b : Bool) (hexec : exec i s = .next (s.live (s.sqBlock set op b)))
    (h : TakesOp s set op w) (hopen : s.domainOpen (ctxDomain (s.ctx (sqCtx w))) set = true)
    (h0 : ctxState (s.ctx (sqCtx w)) ≠ 0) (h5 : ctxState (s.ctx (sqCtx w)) ≠ 5) :
    Leads i s fun s' => ∃ d : List Nat, bits (word d 0) 5 5 = b2n b
      ∧ (∀ k, k ≠ 5 → bit (word d 0) k = bit (word (s.ctx (sqCtx w)) 0) k) ∧ (∀ i, i ≠ 0 → word d i = word (s.ctx (sqCtx w)) i)
      ∧ s' = ((s.sqTake set).setCtx (sqCtx w) d).sqAnswer set w 0 := by
  obtain ⟨hblock, hbits, hwords⟩ := blocked_spec (length_of_ctxState h0) b
  refine ⟨_, hexec, _, hblock, hbits, hwords, ?_⟩
  rw [State.live_of_running h.1, State.sqBlock_takes h b hopen h0 h5]

theorem ctxWrite_leads (h : TakesOp s set 6 w) (himage : s.ctxImageGood w)
    (hold : s.domainOpen (ctxDomain (s.ctx (sqCtx w))) set = true) (himg : s.domainOpen (ctxDomain (s.ctxImage w)) set = true)
    (huse : s.ctxInUse (sqCtx w) = false) (h0 : ctxState (s.ctx (sqCtx w)) ≠ 0) (h5 : ctxState (s.ctx (sqCtx w)) ≠ 5)
    (hroot : ctxRoot (s.ctxImage w) = ctxRoot (s.ctx (sqCtx w))) :
    Leads (.ctxWrite set) s fun s' =>
      s' = ((s.sqTake set).setCtx (sqCtx w) (imageInto (s.ctx (sqCtx w)) (s.ctxImage w))).sqAnswer set w 0 := by
  obtain ⟨hf, -, -, -, hop, -⟩ := id h
  obtain ⟨hfails, hok⟩ := State.imageFails_nil himage
  unfold State.ctxImage at *
  have hreads : s.readsAs (s.sqTake set) := State.sqTake_readsAs set.isLt
  refine ⟨_, ?_, rfl⟩
  show execCtxWrite set s = _
  rw [execCtxWrite, State.live_of_running hf, State.sqRun_takes h (by simp [hop])]
  · simp [hreads.words, hreads.ctx, hroot]
  · simp [hfails, State.ctxDomainFails_nil hold, hok, huse, himg, h0, h5, hroot, failIf]

theorem ctxRead_leads (h : TakesOp s set 7 w) (hopen : s.domainOpen (ctxDomain (s.ctx (sqCtx w))) set = true)
    (haccess : s.access whoBetween true (sqAddr w) 256 = 0) :
    Leads (.ctxRead set) s fun s' =>
      s' = ((s.sqTake set).store (sqAddr w) (wordBytes (s.ctx (sqCtx w)))).sqAnswer set w 0 := by
  obtain ⟨hf, -, -, -, hop, -⟩ := id h
  have hreads : s.readsAs (s.sqTake set) := State.sqTake_readsAs set.isLt
  refine ⟨_, ?_, rfl⟩
  show execCtxRead set s = _
  rw [execCtxRead, State.live_of_running hf, State.sqRun_takes h (by simp [hop])]
  · rw [hreads.ctx]
  · simp [State.ctxDomainFails_nil hopen, haccess]

end

/-- Settles O34: each operation by what it does to the descriptor it reads. -/
theorem ringOperations : Obligations.RingOperations := by
  unfold Obligations.RingOperations
  intro s set w j c img old open_ image
  refine ⟨fun h hread hidle => job_leads h hread hidle, fun h himage hfree hopen hwalk => ?_, fun h hopen hstate huse hswap => ?_,
    fun e he h hopen h0 h5 => ?_, fun h himage hold himg huse h0 h5 hlen hroot => ?_, fun h hopen haccess => ctxRead_leads h hopen haccess,
    fun h hj _ hstarted => jobCancel_leads h hj hstarted⟩
  · obtain ⟨t, ht, hs'⟩ := ctxAlloc_leads h himage hfree hopen hwalk
    obtain ⟨hst, hrt, hly, htk, hdm, hdr⟩ := s.allocated_spec (s.word_words_lt (sqAddr w) 32 1)
    exact ⟨t, ht, s.allocated img 0, hst, hrt, hly, htk, hdm, hdr, hs'⟩
  · obtain ⟨t, ht, u, htable, hs'⟩ := ctxFree_leads h hopen hstate huse hswap
    obtain ⟨hst, h4, h5, hrest⟩ := freed_spec old
    exact ⟨t, ht, freed old, hst, h4, h5, hrest, u, htable, hs'⟩
  · have he' : e = (Instr.ctxBlock set, 4, 1) ∨ e = (Instr.ctxUnblock set, 5, 0) := by simpa using he
    obtain rfl | rfl := he'
    · exact ctxBlock_leads true rfl h hopen h0 h5
    · exact ctxBlock_leads false rfl h hopen h0 h5
  · obtain ⟨t, ht, hs'⟩ := ctxWrite_leads h himage hold himg huse h0 h5 hroot
    obtain ⟨hfields, hneed, hone, hkept, hdrop, -⟩ := imageInto_spec (old := old) img (by omega)
    have hone' : word (imageInto old img) 1 = word img 1 := hone.trans (Nat.mod_eq_of_lt (s.word_words_lt (sqAddr w) 32 1))
    refine ⟨t, ht, imageInto old img, hfields 2 0 (by decide), ?_, ?_, ?_, hneed, fun i hi => ?_, hdrop, hs'⟩
    · rw [ctxTokens, hkept 2 (by decide) (by decide), ctxTokens]
    · rw [ctxRoot, hone', ctxRoot]
    · rw [ctxLayers, hone', ctxLayers]
    · have hi' : i = 3 ∨ i = 4 ∨ i = 5 := by simpa using hi
      exact hkept i (by omega) (by omega)

end Sys2Proof.Machine
end

section

/-! PROOFS of the family "contexts and scheduler": O42, the residency of contexts: what a write of the context table reads back as. -/

namespace Sys2Proof.Machine

/-! ## The context table (R195, R197) -/

section
variable {s t : State} {c : Nat} {w : List Nat}

theorem State.ctx_of_lookup (h : lookup s.sched.ctxTable c = some w) : s.ctx c = w := by
  rw [State.ctx, h]

theorem State.ctx_of_insert {m : Sparse (List Nat)} (h : t.sched.ctxTable = insertKey m c w) : t.ctx c = w :=
  State.ctx_of_lookup (by rw [h, lookup_insertKey_same])

theorem State.lookup_of_insert {m : Sparse (List Nat)} (h : t.sched.ctxTable = insertKey m c w) :
    ∀ x, x ≠ c → lookup t.sched.ctxTable x = lookup m x := fun x hx => by
  rw [h, lookup_insertKey_ne m w hx]

/-- R195: a resident context's descriptor is replaced in the context table. -/
theorem State.table_setCtx (h : s.resident c = true) (w : List Nat) :
    (s.setCtx c w).sched.ctxTable = insertKey s.sched.ctxTable c w := by
  rw [State.setCtx, if_pos h]

/-- R195: a descriptor read from a copy in memory has its 32 words. -/
theorem State.ctx_length (h : s.resident c = false) : (s.ctx c).length = 32 := by
  have hnone : lookup s.sched.ctxTable c = none := by simpa [State.resident] using h
  rw [State.ctx, hnone]
  exact s.words_length ..

/-! ## Readiness (R196) -/

theorem State.ctxSettled_resident (h : ctxState w = 1 ∨ ctxState w = 2) :
    s.ctxSettled w = setWordBits w 0 2 0 (if s.ctxReady w then 1 else 2) := by
  unfold State.ctxSettled
  obtain h | h := h
  · rw [h]; rfl
  · rw [h]; rfl

end

/-- R196: STATE of a resident context follows its readiness. -/
theorem contextReadiness_leads {s : State} {c : Fin 4096} (hf : s.frozen = false) (hrun : s.schRunning = true)
    (hres : s.resident c = true) (hswap : c.val ∉ s.sched.swaps) (hstate : ctxState (s.ctx c) = 1 ∨ ctxState (s.ctx c) = 2) :
    Leads (.contextReadiness c) s fun s' => s'.ctx c = setWordBits (s.ctx c) 0 2 0 (if s.ctxReady (s.ctx c) then 1 else 2)
      ∧ ∀ x, x ≠ c.val → lookup s'.sched.ctxTable x = lookup s.sched.ctxTable x := by
  have hsettled := State.ctxSettled_resident (s := s) hstate
  have hexec : exec (.contextReadiness c) s
      = .next (if s.ctxSettled (s.ctx c) = s.ctx c then s else s.setCtx c (s.ctxSettled (s.ctx c))) := by
    show execContextReadiness c s = _
    simp [execContextReadiness, State.live_of_running hf, hrun, hswap]
  refine ⟨_, hexec, ?_⟩
  split
  · next hsame => exact ⟨(hsettled ▸ hsame).symm, fun _ _ => rfl⟩
  · have htable := State.table_setCtx hres (s.ctxSettled (s.ctx c))
    exact ⟨(State.ctx_of_insert htable).trans hsettled, State.lookup_of_insert htable⟩

/-! ## Swap-ins (R199) -/

/-- R199: the descriptor with which a context becomes resident. -/
def State.swappedIn (s : State) (c : Nat) : List Nat :=
  setWord (setWordBits (s.ctx c) 0 2 0 (if s.ctxReady (s.ctx c) then 1 else 2)) 3 s.now

theorem State.chargeAs_counts (s : State) {cls : Nat} (hcls : cls < 8) (task : Nat) (wr : Bool) (a len : Nat) :
    s.countsOnly (s.chargeAs cls task wr a len) := by
  refine State.countsOnly_foldl (fun s x _ => ?_) s
  split
  · exact State.charge_counts _ _ _ _ (by decide) hcls
  · exact s.countsOnly_refl

theorem State.swapIn_sched {s : State} {c : Nat} (h : s.ctxCopyStatus 0 c = 0) :
    (s.swapIn c).sched = { s.sched with ctxTable := insertKey s.sched.ctxTable c (s.swappedIn c) } := by
  have hcopy : ¬ (s.ctxCopyStatus 0 c ≠ 0 ∧ s.ctxCopyStatus 1 c ≠ 0) := fun hc => hc.1 h
  simp only [State.swapIn, if_neg hcopy]
  refine (State.setFld_sched ..).trans ?_
  exact (State.chargeAs_counts _ (by decide) _ _ _ _).sched

theorem swapInComplete_leads {s : State} {c : Fin 4096} (hf : s.frozen = false) (hrun : s.schRunning = true)
    (hswap : c.val ∈ s.sched.swaps) (hcopy : s.ctxCopyStatus 0 c = 0) :
    Leads (.swapInComplete c) s fun s' => s'.sched = { s.sched with
      swaps := s.sched.swaps.erase c.val, ctxTable := insertKey s.sched.ctxTable c (s.swappedIn c) } := by
  let t : State := { s with sched := { s.sched with swaps := s.sched.swaps.erase c.val } }
  have hreads : s.readsAs t := ⟨rfl, rfl, rfl, rfl, rfl, rfl, fun _ _ => rfl⟩
  have hin : t.swappedIn c = s.swappedIn c := by
    simp only [State.swappedIn, hreads.ctx, hreads.ctxReady]
    rfl
  refine ⟨t.swapIn c, ?_, ?_⟩
  · show execSwapInComplete c s = _
    simp only [execSwapInComplete, State.live_of_running hf, hrun, List.contains_iff_mem.2 hswap]
    rfl
  · exact (State.swapIn_sched (by rw [hreads.ctxCopyStatus, hcopy])).trans (by rw [hin])

theorem State.swappedIn_spec (s : State) {c : Nat} (h : s.resident c = false) :
    ctxState (s.swappedIn c) = (if s.ctxReady (s.ctx c) then 1 else 2) ∧ ctxLastUsed (s.swappedIn c) = s.now % 2 ^ 64 := by
  have hlen := State.ctx_length h
  refine ⟨?_, word_setWord_same (by simp [hlen]) _⟩
  rw [State.swappedIn, ctxState, word_setWord_ne _ (by decide), ← ctxState]
  exact ctxState_setState (by omega) (by split <;> decide)

/-! ## Autonomous swaps (R201) -/

theorem oldest_spec (key : Nat → Nat) (l : List Nat) :
    (oldest key l = none → l = []) ∧ ∀ d, oldest key l = some d → d ∈ l ∧ ∀ x ∈ l, key d ≤ key x := by
  induction l with
  | nil => exact ⟨fun _ => rfl, fun d h => by cases h⟩
  | cons c l ih =>
    obtain ⟨hnone, hsome⟩ := ih
    unfold oldest
    cases ho : oldest key l with
    | none =>
      refine ⟨fun h => (by cases h), fun d h => ?_⟩
      cases h
      simp [hnone ho]
    | some e =>
      obtain ⟨hmem, hle⟩ := hsome e ho
      by_cases hlt : key e < key c
      · simp only [if_pos hlt]
        refine ⟨fun h => (by cases h), fun d h => ?_⟩
        cases h
        exact ⟨.tail _ hmem, List.forall_mem_cons.2 ⟨hlt.le, hle⟩⟩
      · simp only [if_neg hlt]
        refine ⟨fun h => (by cases h), fun d h => ?_⟩
        cases h
        exact ⟨.head _, List.forall_mem_cons.2 ⟨le_rfl, fun x hx => (not_lt.1 hlt).trans (hle x hx)⟩⟩

/-- R201: the one context that is older than every other of a list is chosen. -/
theorem oldest_eq {key : Nat → Nat} {l : List Nat} {c : Nat} (hc : c ∈ l) (h : ∀ x ∈ l, x ≠ c → key c < key x) :
    oldest key l = some c := by
  obtain ⟨hnone, hsome⟩ := oldest_spec key l
  cases ho : oldest key l with
  | none => rw [hnone ho] at hc; cases hc
  | some d =>
    obtain ⟨hd, hle⟩ := hsome d ho
    by_cases he : d = c
    · rw [he]
    · exact absurd (h d hd he) (not_lt.2 (hle c hc))

theorem autonomousSwap_leads {s : State} {c : Fin 4096} (hf : s.frozen = false) (hrun : s.schRunning = true) (hroom : s.ctxRoom = true)
    (hdemand : s.demandWaits = false) (hfew : s.sched.swaps.length < 8) (hswap : c.val ∉ s.sched.swaps) (hstate : ctxState (s.ctx c) = 3)
    (holdest : ∀ x < 4096, x ≠ c.val → x ∉ s.sched.swaps → ctxState (s.ctx x) = 3 → ctxLastUsed (s.ctx c) < ctxLastUsed (s.ctx x)) :
    Leads .autonomousSwap s fun s' => s' = { s with sched := { s.sched with swaps := s.sched.swaps ++ [c.val] } } := by
  have hgo : oldest (fun c => ctxLastUsed (s.ctx c))
      ((List.range 4096).filter fun c => !s.sched.swaps.contains c && decide (ctxState (s.ctx c) = 3)) = some c.val := by
    refine oldest_eq (List.mem_filter.2 ⟨List.mem_range.2 c.isLt, by simp [hswap, hstate]⟩) fun x hx hne => ?_
    obtain ⟨hlt, hx⟩ := List.mem_filter.1 hx
    simp only [Bool.and_eq_true, Bool.not_eq_true', List.contains_eq_mem, decide_eq_false_iff_not, decide_eq_true_eq] at hx
    exact holdest x (List.mem_range.1 hlt) hne hx.1 hx.2
  refine ⟨_, ?_, rfl⟩
  show execAutonomousSwap s = _
  simp only [execAutonomousSwap, State.live_of_running hf, hgo, hrun, hdemand, hroom, Nat.not_le.2 hfew]
  rfl

theorem contextResidency : ContextResidency := by
  intro s c w hf hrun
  refine ⟨fun hres hw hswap hstate hlen => ?_, fun hswap hres hcopy => ?_, fun hroom hdemand hfew hswap hstate holdest =>
    autonomousSwap_leads hf hrun hroom hdemand hfew hswap hstate holdest⟩
  · subst hw
    obtain ⟨t, ht, hctx, htable⟩ := contextReadiness_leads hf hrun hres hswap hstate
    refine ⟨t, ht, ?_, fun i hi => ?_, htable⟩
    · rw [hctx, ctxState_setState (by omega) (by split <;> decide)]
    · rw [hctx, word_setWordBits_ne _ hi]
  · obtain ⟨t, ht, hsched⟩ := swapInComplete_leads hf hrun hswap hcopy
    obtain ⟨hst, hused⟩ := s.swappedIn_spec hres
    have htable := congrArg Sched.ctxTable hsched
    refine ⟨t, ht, congrArg Sched.swaps hsched, ?_, ?_, ?_, State.lookup_of_insert htable⟩
    · rw [State.resident, htable, lookup_insertKey_same]
      rfl
    · rw [State.ctx_of_insert htable, hst]
    · rw [State.ctx_of_insert htable, hused]

end Sys2Proof.Machine
end

section

/-! PROOFS of the family "contexts and scheduler": O42, the requests of the KV manager. A request acts on the state in which
SCH_KV_OP was written (`State.requested`), in which every check reads what it read before. -/

namespace Sys2Proof.Machine

/-! ## The end of a request (R267) -/

theorem aSch_ne {o p : Nat} (h : o ≠ p) : aSch o ≠ aSch p := by
  simp only [aSch]; omega

theorem State.kvEnded_kvResult (s : State) {st : Nat} (h : st < 2 ^ 64) : KvEnded (s.kvResult st) st := by
  refine ⟨?_, ?_⟩
  · rw [State.kvResult, State.reg_setFld_ne _ _ _ _ (aSch_ne (by decide)), State.reg_setReg_same, Nat.mod_eq_of_lt h]
  · rw [State.kvResult, State.bit_setFld _ _ _ (by decide)]
    rfl

theorem State.reg_kvResult (s : State) (st : Nat) {a : Nat} (h60 : a ≠ aSch 0x860) (h70 : a ≠ aSch 0x870) :
    (s.kvResult st).reg a = s.reg a := by
  rw [State.kvResult, State.reg_setFld_ne _ _ _ _ h60, State.reg_setReg_ne _ _ h70]

theorem State.kvResult_regsOnly (s : State) (st : Nat) : s.regsOnly (s.kvResult st) :=
  (s.regsOnly_setReg ..).trans (State.regsOnly_setFld ..)

/-! ## Publication (R257, R259) -/

section
variable {s u : State} {c root : Nat}

theorem State.walkStatus_lt (s : State) (root layers : Nat) : s.walkStatus root layers < 2 ^ 64 := by
  unfold State.walkStatus
  dsimp only
  split_ifs <;> decide

theorem mem_failIf {b : Bool} {st x : Nat} (h : x ∈ failIf b st) : x = st := by
  cases b
  · cases h
  · exact List.mem_singleton.1 h

theorem State.publishFails_lt {x : Nat} (h : x ∈ s.publishFails c root) : x < 2 ^ 64 := by
  unfold State.publishFails at h
  dsimp only at h
  split_ifs at h
  · rw [List.mem_singleton.1 h]; decide
  · rw [List.mem_singleton.1 h]; decide
  · simp only [List.mem_append] at h
    obtain (h | h) | h := h <;> rw [mem_failIf h] <;> decide

theorem State.publishFails_congr (h : s.readsAs u) (hk : u.kv = s.kv) : u.publishFails c root = s.publishFails c root := by
  simp only [State.publishFails, h.ctx, h.pdir, hk]

/-- R259 step 2: a copy whose MODS is not that of the old one. -/
theorem State.mods_mem_publishFails (hc : c < 4096) (h0 : ctxState (s.ctx c) ≠ 0) (h5 : ctxState (s.ctx c) ≠ 5)
    (hmods : (s.pdir root).mods ≠ (s.pdir (ctxRoot (s.ctx c))).mods) : 0x0B ∈ s.publishFails c root := by
  simp [State.publishFails, Nat.not_le.2 hc, h0, h5, hmods, failIf]

/-- A publication that waited is no longer waiting. -/
def State.publishTaken (s : State) : State := { s with kv := { s.kv with waitingPublish := none } }

theorem State.publishTaken_of_none (h : s.kv.waitingPublish = none) : s.publishTaken = s := by
  unfold State.publishTaken
  rw [← h]

theorem State.publishTaken_readsAs (s : State) : s.readsAs s.publishTaken := ⟨rfl, rfl, rfl, rfl, rfl, rfl, fun _ _ => rfl⟩

theorem State.publish_refused (h : oneOf (s.publishFails c root) ≠ 0) :
    s.publish c root = s.publishTaken.kvResult (oneOf (s.publishFails c root)) := by
  simp only [State.publish, if_pos h]
  rfl

theorem State.publish_unwalked (h : oneOf (s.publishFails c root) = 0) (hw : s.walkStatus root (ctxLayers (s.ctx c)) ≠ 0) :
    s.publish c root = s.publishTaken.kvResult (s.walkStatus root (ctxLayers (s.ctx c))) := by
  simp only [State.publish, if_neg (not_not.2 h), if_pos hw]
  rfl

/-- R259: a publication that passes its checks: the copy's references, the old table's retirement, and the context's new table. -/
theorem State.publish_passes (h : oneOf (s.publishFails c root) = 0) (hw : s.walkStatus root (ctxLayers (s.ctx c)) = 0) :
    s.publish c root
      = (((if ctxLayers (s.ctx c) = 0 then s.publishTaken.tableAcquire root (ctxLayers (s.ctx c))
          else (s.publishTaken.tableAcquire root (ctxLayers (s.ctx c))).retire (ctxRoot (s.ctx c)) c).setCtx c
        (setWordBits (s.ctx c) 1 47 0 root)).kvResult 0) := by
  simp only [State.publish, if_neg (not_not.2 h), if_neg (not_not.2 hw)]
  rw [← s.publishTaken_readsAs.ctx]
  rfl

theorem State.snapHolders_congr (h : u.sched = s.sched) : u.snapHolders = s.snapHolders := by
  funext r
  simp only [State.snapHolders, State.inFlight, State.curJob, h]

theorem State.publish_published (h : oneOf (s.publishFails c root) = 0) (hw : s.walkStatus root (ctxLayers (s.ctx c)) = 0)
    (hres : s.resident c = true) : Published s (s.publish c root) c root := by
  rw [State.publish_passes h hw]
  let new := setWordBits (s.ctx c) 1 47 0 root
  let t := s.publishTaken.tableAcquire root (ctxLayers (s.ctx c))
  have ht : s.publishTaken.framesOnly t := State.tableAcquire_framesOnly ..
  let v := if ctxLayers (s.ctx c) = 0 then t else t.retire (ctxRoot (s.ctx c)) c
  have hsched : v.sched = s.sched := by
    refine Eq.trans ?_ ht.sched
    show (if _ then t else _).sched = _
    split <;> rfl
  have hwait : v.kv.waitingPublish = none := by
    refine Eq.trans ?_ ht.waiting
    show (if _ then t else _).kv.waitingPublish = _
    split <;> rfl
  have hresv : v.resident c = true := by rw [State.resident, hsched]; exact hres
  have hkv : (v.setCtx c new).kv = v.kv := by rw [State.setCtx, if_pos hresv]
  refine ⟨State.kvEnded_kvResult _ (by decide), State.ctx_of_insert (State.table_setCtx hresv new), ?_, fun hlayers => ?_⟩
  · exact (congrArg Kv.waitingPublish hkv).trans hwait
  · show (v.setCtx c new).kv.retired = _
    rw [hkv, show v = t.retire (ctxRoot (s.ctx c)) c from if_neg hlayers]
    show t.kv.retired ++ [Retired.mk _ _ (t.snapHolders _)] = _
    rw [ht.retired, State.snapHolders_congr (s := s) ht.sched]
    rfl

end

/-! ## Eviction (R265) -/

theorem State.nodeEvict_framesOnly (s : State) (x : Nat) :
    ∃ u, s.framesOnly u ∧ s.nodeEvict x = u.setFld (aSch 0x844) 20 0 (u.fld (aSch 0x844) 20 0 - 1) := by
  unfold State.nodeEvict
  extract_lets k w1 w2 ext n frames t u v y
  have ht : s.framesOnly t := by
    unfold t
    split
    · exact s.store_framesOnly ..
    · exact s.framesOnly_refl
  have hv : s.framesOnly v := (ht.trans (State.store_framesOnly ..)).trans (State.framesOnly_foldl State.frameRelease_framesOnly ..)
  refine ⟨y, ?_, rfl⟩
  unfold y
  split
  · exact hv.trans (State.store_framesOnly ..)
  · exact hv

/-- R265: an eviction lowers the count of nodes. -/
theorem State.fld_nodeEvict (s : State) (x : Nat) : (s.nodeEvict x).fld (aSch 0x844) 20 0 = s.fld (aSch 0x844) 20 0 - 1 := by
  obtain ⟨u, hu, he⟩ := s.nodeEvict_framesOnly x
  have hfld : u.fld (aSch 0x844) 20 0 = s.fld (aSch 0x844) 20 0 := by
    rw [State.fld, State.fld, hu.2 _ (aSch_ne (by decide))]
  rw [he, State.fld_setFld_same _ _ (by decide) (by decide), hfld]
  exact Nat.mod_eq_of_lt ((Nat.sub_le _ _).trans_lt (bits_lt ..))

/-! ## Requests (R265 to R267) -/

/-- R267: SCH_KV_OP as a request writes it. -/
def State.requested (s : State) (v : Nat) : State :=
  (s.setFld (aSch 0x860) 4 0 (bits v 4 0)).setFld (aSch 0x860) 31 31 (bits v 31 31)

/-- R259 step 1: a publication that waits. -/
def State.publishWaiting (s : State) (c root : Nat) : State := { s with kv := { s.kv with waitingPublish := some (c, root) } }

/-- R265, R266: ARG of a request. -/
def State.kvArg (s : State) : Nat := s.fld (aSch 0x864) 19 0
/-- R266: the new table of a request. -/
def State.kvRoot (s : State) : Nat := bits (s.reg (aSch 0x868)) 47 0

section
variable {s : State} {v : Nat}

theorem State.requested_regsOnly (s : State) (v : Nat) : s.regsOnly (s.requested v) :=
  (s.regsOnly_setFld ..).trans (State.regsOnly_setFld ..)

theorem State.requested_readsAs (s : State) (v : Nat) : s.readsAs (s.requested v) :=
  (s.readsAs_setReg (.inl rfl) _).trans (State.readsAs_setReg _ (.inl rfl) _)

theorem State.reg_requested (s : State) (v : Nat) {a : Nat} (h : a ≠ aSch 0x860) : (s.requested v).reg a = s.reg a := by
  rw [State.requested, State.reg_setFld_ne _ _ _ _ h, State.reg_setFld_ne _ _ _ _ h]

/-- R267: GO stands in a request until it ends. -/
theorem State.go_requested (hv : bit v 31 = true) : bit ((s.requested v).reg (aSch 0x860)) 31 = true := by
  have hone : bits v 31 31 = 1 := by simpa [bit_eq_bits] using hv
  rw [State.requested, State.bit_setFld _ _ _ (by decide), if_pos rfl, hone]
  rfl

theorem State.publishWaiting_spec (s : State) (c root : Nat) :
    (s.publishWaiting c root).kv = { s.kv with waitingPublish := some (c, root) } ∧ (s.publishWaiting c root).mem = s.mem
      ∧ ∀ a, (s.publishWaiting c root).reg a = s.reg a :=
  ⟨by simp only [State.publishWaiting], by simp only [State.publishWaiting], fun a => by simp only [State.publishWaiting, State.reg]⟩

theorem State.kvArg_requested (s : State) (v : Nat) : (s.requested v).kvArg = s.kvArg := by
  rw [State.kvArg, State.fld, s.reg_requested v (aSch_ne (by decide)), ← State.fld, State.kvArg]

theorem State.kvRoot_requested (s : State) (v : Nat) : (s.requested v).kvRoot = s.kvRoot := by
  rw [State.kvRoot, s.reg_requested v (aSch_ne (by decide)), State.kvRoot]

theorem State.appending_congr {u : State} (h : u.sched = s.sched) : u.appending = s.appending := by
  funext c
  simp only [State.appending, State.inFlight, State.curJob, h]

/-- R267: while GO stands a write of SCH_KV_OP is discarded. -/
theorem State.kvRequest_busy (hgo : bit (s.reg (aSch 0x860)) 31 = true) : s.kvRequest v = s := by
  simp only [State.kvRequest, hgo, if_true]

variable (hidle : bit (s.reg (aSch 0x860)) 31 = false) (hv : bit v 31 = true)
include hidle hv

/-- R259: what a PUBLISH request does. -/
theorem State.kvRequest_publish (hop : bits v 3 0 = 1) :
    s.kvRequest v
      = if s.kv.waitingPublish.isSome then (s.requested v).kvResult 0x10
        else if bit v 4 ∧ s.appending s.kvArg then
          (s.requested v).publishWaiting s.kvArg s.kvRoot
        else (s.requested v).publish s.kvArg s.kvRoot := by
  have hkv : (s.requested v).kv = s.kv := (s.requested_regsOnly v).kv
  rw [← s.kvArg_requested v, ← s.kvRoot_requested v, ← hkv, ← State.appending_congr (s.requested_regsOnly v).sched]
  simp only [State.kvRequest, hidle, hv, hop, Bool.false_eq_true, if_false, Bool.not_true]
  rfl

/-- R265: what an EVICT request does. -/
theorem State.kvRequest_evict (hop : bits v 3 0 = 2) : s.kvRequest v = (s.requested v).evictNode s.kvArg := by
  rw [← s.kvArg_requested v]
  simp only [State.kvRequest, hidle, hv, hop, Bool.false_eq_true, if_false, Bool.not_true]
  rfl

end

/-- R267: a request that ends with `st` changes nothing but its registers. -/
theorem State.kvResult_requested (s : State) (v : Nat) {st : Nat} (hst : st < 2 ^ 64) :
    let s' := (s.requested v).kvResult st
    KvEnded s' st ∧ s'.mem = s.mem ∧ s'.sched = s.sched ∧ s'.kv = s.kv ∧ ∀ a, a ≠ aSch 0x860 → a ≠ aSch 0x870 → s'.reg a = s.reg a := by
  intro s'
  have honly := (s.requested_regsOnly v).trans (State.kvResult_regsOnly _ st)
  refine ⟨State.kvEnded_kvResult _ hst, honly.mem, honly.sched, honly.kv, fun a h60 h70 => ?_⟩
  exact (State.reg_kvResult _ _ h60 h70).trans (s.reg_requested v h60)

theorem State.publishTaken_requested (s : State) (v : Nat) (h : s.kv.waitingPublish = none) : (s.requested v).publishTaken = s.requested v :=
  State.publishTaken_of_none (by rw [(s.requested_regsOnly v).kv, h])

/-- R259: what was published to the state of a request was published to the state before it. -/
theorem published_of_requested {s s' : State} {v c root : Nat} (h : Published (s.requested v) s' c root) : Published s s' c root := by
  obtain ⟨hend, hctx, hwait, hretired⟩ := h
  have hregs := s.requested_regsOnly v
  simp only [(s.requested_readsAs v).ctx, State.snapHolders_congr hregs.sched, hregs.kv] at hctx hretired
  exact ⟨hend, hctx, hwait, hretired⟩

section
variable {s : State} {init : Init} {value : Word32} (hf : s.frozen = false)
include hf

/-- R266, R267: a request while GO stands, or of another initiator, changes nothing. -/
theorem exec_kvRequest_discarded (h : kvOpOk init.toNat = false ∨ bit (s.reg (aSch 0x860)) 31 = true) :
    exec (.kvPublish init value) s = .next s ∧ exec (.kvEvict init value) s = .next s := by
  have hsame : ∀ (p : Prop) [Decidable p], (if kvOpOk init.toNat = true ∧ p then s.kvRequest value.toNat else s) = s := fun p _ => by
    obtain h | h := h
    · rw [if_neg fun hp => by rw [h] at hp; cases hp.1]
    · rw [State.kvRequest_busy h, ite_self]
  refine ⟨?_, ?_⟩
  · show execKvPublish init value s = _
    rw [execKvPublish, State.live_of_running hf, hsame]
  · show execKvEvict init value s = _
    rw [execKvEvict, State.live_of_running hf, hsame]

section
variable (hok : kvOpOk init.toNat = true) (hv : bit value.toNat 31 = true) (hidle : bit (s.reg (aSch 0x860)) 31 = false)
include hok hv hidle

theorem exec_kvPublish (hop : bits value.toNat 3 0 = 1) :
    exec (.kvPublish init value) s
      = .next (if s.kv.waitingPublish.isSome then (s.requested value.toNat).kvResult 0x10
        else if bit value.toNat 4 ∧ s.appending s.kvArg then
          (s.requested value.toNat).publishWaiting s.kvArg s.kvRoot
        else (s.requested value.toNat).publish s.kvArg s.kvRoot) := by
  show execKvPublish init value s = _
  rw [execKvPublish, State.live_of_running hf, if_pos ⟨hok, by omega⟩, State.kvRequest_publish hidle hv hop]

theorem exec_kvEvict (hop : bits value.toNat 3 0 = 2) :
    exec (.kvEvict init value) s = .next ((s.requested value.toNat).evictNode s.kvArg) := by
  show execKvEvict init value s = _
  rw [execKvEvict, State.live_of_running hf, if_pos ⟨hok, by omega⟩, State.kvRequest_evict hidle hv hop]

/-- R259: a PUBLISH request beside another that waits is refused. -/
theorem kvPublish_second (hop : bits value.toNat 3 0 = 1) (hwait : s.kv.waitingPublish ≠ none) :
    Leads (.kvPublish init value) s fun s' => KvEnded s' 0x10 ∧ s'.kv = s.kv ∧ s'.mem = s.mem := by
  obtain ⟨hend, hmem, -, hkv, -⟩ := s.kvResult_requested value.toNat (st := 0x10) (by decide)
  exact ⟨_, by rw [exec_kvPublish hf hok hv hidle hop, if_pos (Option.isSome_iff_ne_none.2 hwait)],
    hend, hkv, hmem⟩

/-- R259 step 1: a publication waits for the appending commands. -/
theorem kvPublish_waits (hop : bits value.toNat 3 0 = 1) (hwait : s.kv.waitingPublish = none) (hask : bit value.toNat 4 = true)
    (happ : s.appending s.kvArg = true) :
    Leads (.kvPublish init value) s fun s' => s'.kv = { s.kv with waitingPublish := some (s.kvArg, s.kvRoot) }
      ∧ bit (s'.reg (aSch 0x860)) 31 = true ∧ s'.mem = s.mem := by
  obtain ⟨hkv, hmem, hreg⟩ := (s.requested value.toNat).publishWaiting_spec s.kvArg s.kvRoot
  have hreq := s.requested_regsOnly value.toNat
  refine ⟨_, ?_, hkv.trans (by rw [hreq.kv]), ?_, hmem.trans hreq.mem⟩
  · rw [exec_kvPublish hf hok hv hidle hop, hwait, if_neg (by simp), if_pos ⟨hask, happ⟩]
  · rw [hreg, State.go_requested hv]

/-- R259: a PUBLISH request that need not wait is applied or refused. -/
theorem exec_kvPublish_now (hop : bits value.toNat 3 0 = 1) (hwait : s.kv.waitingPublish = none)
    (hnow : bit value.toNat 4 = false ∨ s.appending s.kvArg = false) :
    exec (.kvPublish init value) s = .next ((s.requested value.toNat).publish s.kvArg s.kvRoot) := by
  have hgo : ¬ (bit value.toNat 4 = true ∧ s.appending s.kvArg = true) := fun ⟨h4, ha⟩ => by
    obtain h | h := hnow
    · rw [h] at h4; cases h4
    · rw [h] at ha; cases ha
  rw [exec_kvPublish hf hok hv hidle hop, hwait, if_neg (by simp), if_neg hgo]

end

end

/-! ### Publication as a request -/

section
variable {s : State} {init : Init} {value : Word32} {v c root : Nat}

theorem State.publish_requested_published (h : oneOf (s.publishFails c root) = 0) (hw : s.walkStatus root (ctxLayers (s.ctx c)) = 0)
    (hres : s.resident c = true) : Published s ((s.requested v).publish c root) c root := by
  have hreads := s.requested_readsAs v
  refine published_of_requested (v := v) (State.publish_published ?_ ?_ ?_)
  · rw [State.publishFails_congr hreads (s.requested_regsOnly v).kv, h]
  · rw [hreads.walkStatus, hreads.ctx, hw]
  · rw [hreads.resident, hres]

theorem State.publish_requested_unwalked (hwait : s.kv.waitingPublish = none) (h : oneOf (s.publishFails c root) = 0)
    (hw : s.walkStatus root (ctxLayers (s.ctx c)) ≠ 0) :
    let s' := (s.requested v).publish c root
    KvEnded s' (s.walkStatus root (ctxLayers (s.ctx c))) ∧ s'.mem = s.mem ∧ s'.sched = s.sched ∧ s'.kv = s.kv := by
  have hreads := s.requested_readsAs v
  have hwalk : (s.requested v).walkStatus root (ctxLayers ((s.requested v).ctx c)) = s.walkStatus root (ctxLayers (s.ctx c)) := by
    rw [hreads.walkStatus, hreads.ctx]
  obtain ⟨hend, hmem, hsched, hkv, -⟩ := s.kvResult_requested v (s.walkStatus_lt root (ctxLayers (s.ctx c)))
  rw [State.publish_unwalked (by rw [State.publishFails_congr hreads (s.requested_regsOnly v).kv, h]) (by rw [hwalk]; exact hw), hwalk,
    s.publishTaken_requested v hwait]
  exact ⟨hend, hmem, hsched, hkv⟩

theorem State.publish_requested_refused (hwait : s.kv.waitingPublish = none) (h : oneOf (s.publishFails c root) ≠ 0) :
    let s' := (s.requested v).publish c root
    ∃ st ∈ s.publishFails c root, st ≠ 0 ∧ KvEnded s' st ∧ s'.mem = s.mem ∧ s'.sched = s.sched
      ∧ ∀ a, a ≠ aSch 0x860 → a ≠ aSch 0x870 → s'.reg a = s.reg a := by
  have hfails : (s.requested v).publishFails c root = s.publishFails c root :=
    State.publishFails_congr (s.requested_readsAs v) (s.requested_regsOnly v).kv
  obtain ⟨hmem, hne⟩ := mem_of_oneOf h
  obtain ⟨hend, hm, hsched, -, hreg⟩ := s.kvResult_requested v (State.publishFails_lt hmem)
  rw [State.publish_refused (by rw [hfails]; exact h), hfails, s.publishTaken_requested v hwait]
  exact ⟨_, hmem, hne, hend, hm, hsched, hreg⟩

/-- R259 step 1: the publication that waits goes on once no appending command uses the context. -/
theorem exec_kvPublishResume (hf : s.frozen = false) (hwait : s.kv.waitingPublish = some (c, root)) :
    exec .kvPublishResume s = .next (if s.appending c then s else s.publish c root) := by
  show execKvPublishResume s = _
  simp only [execKvPublishResume, State.live_of_running hf, hwait]

/-! ### Eviction as a request -/

theorem State.evictNode_refused (s : State) (x : Nat) {st : Nat} (hst : st < 2 ^ 64) (h : (s.requested v).evictNode x = (s.requested v).kvResult st) :
    KvEnded ((s.requested v).evictNode x) st ∧ ((s.requested v).evictNode x).mem = s.mem := by
  rw [h]
  exact ⟨State.kvEnded_kvResult _ hst, ((s.requested_regsOnly v).trans (State.kvResult_regsOnly ..)).mem⟩

theorem State.evictNode_requested (s : State) (v x : Nat) :
    let s' := (s.requested v).evictNode x
    (s.nodeMax ≤ x → KvEnded s' 2 ∧ s'.mem = s.mem)
      ∧ (x < s.nodeMax → s.nodeValid x = false → KvEnded s' 0x0F ∧ s'.mem = s.mem)
      ∧ (x < s.nodeMax → s.nodeValid x = true → s.nodeWord x 3 ≠ 0 → KvEnded s' 0x10 ∧ s'.mem = s.mem)
      ∧ (x < s.nodeMax → s.nodeValid x = true → s.nodeWord x 3 = 0 →
          KvEnded s' 0 ∧ s'.fld (aSch 0x844) 20 0 = s.fld (aSch 0x844) 20 0 - 1) := by
  have hreads := s.requested_readsAs v
  have heq : (s.requested v).evictNode x = if s.nodeMax ≤ x then (s.requested v).kvResult 2
      else if !s.nodeValid x then (s.requested v).kvResult 0x0F
      else if s.nodeWord x 3 ≠ 0 then (s.requested v).kvResult 0x10
      else ((s.requested v).nodeEvict x).kvResult 0 := by
    simp only [State.evictNode, hreads.nodeMax, hreads.nodeValid, hreads.nodeWord]
  refine ⟨fun hmax => ?_, fun hx hvalid => ?_, fun hx hvalid huse => ?_, fun hx hvalid huse => ?_⟩
  · exact s.evictNode_refused x (by decide) (by rw [heq, if_pos hmax])
  · exact s.evictNode_refused x (by decide) (by simp [heq, Nat.not_le.2 hx, hvalid])
  · exact s.evictNode_refused x (by decide) (by simp [heq, Nat.not_le.2 hx, hvalid, huse])
  · have hdone : (s.requested v).evictNode x = ((s.requested v).nodeEvict x).kvResult 0 := by
      simp [heq, Nat.not_le.2 hx, hvalid, huse]
    rw [hdone]
    refine ⟨State.kvEnded_kvResult _ (by decide), ?_⟩
    rw [State.fld, State.reg_kvResult _ _ (aSch_ne (by decide)) (aSch_ne (by decide)), ← State.fld, State.fld_nodeEvict, State.fld,
      s.reg_requested v (aSch_ne (by decide)), ← State.fld]

end

/-! ## Releases (R256, R260, R268) -/

section
variable {s t : State}

/-- R206: an event leaves the registers of the page store alone. -/
theorem State.eventOnly.reg_kv (h : s.eventOnly t) {o : Nat} (ho : 0x800 ≤ o) : t.reg (aSch o) = s.reg (aSch o) :=
  h.2 _ (aSch_ne (by omega)) fun set hs => aSch_ne (by omega)

/-- R260, R268: the release of a copy's references is reported and leaves the retire list alone. -/
theorem State.kvRetired_spec (s : State) (root layers c : Nat) :
    (s.kvRetired root layers c).kv.retired = s.kv.retired ∧ (s.kvRetired root layers c).reported 4 "KV_RETIRED" root c := by
  have hevent := (s.tableRelease root layers).raise_only 4 0 0x1F "KV_RETIRED" root c
  refine ⟨?_, State.raise_reported _ le_rfl ..⟩
  exact (congrArg (·.kv.retired) hevent.1).trans (s.tableRelease_framesOnly root layers).retired

/-- R260, R268: the oldest copy of a directory that no command uses is released. -/
theorem kvRetireRelease_leads {addr : Addr} {x : Retired} (hf : s.frozen = false)
    (hfind : s.kv.retired.find? (fun y => decide (y.root = addr.toNat) && y.cmds.isEmpty) = some x) :
    Leads (.kvRetireRelease addr) s fun s' =>
      s'.kv.retired = s.kv.retired.erase x ∧ s'.reported 4 "KV_RETIRED" addr.toNat x.ctx := by
  have hroot : x.root = addr.toNat := by
    have hx := List.find?_some hfind
    simp only [Bool.and_eq_true, decide_eq_true_eq] at hx
    exact hx.1
  let t : State := { s with kv := { s.kv with retired := s.kv.retired.erase x } }
  obtain ⟨hretired, hreported⟩ := t.kvRetired_spec x.root (s.pdir x.root).layers x.ctx
  refine ⟨t.kvRetired x.root (s.pdir x.root).layers x.ctx, ?_, hretired, hroot ▸ hreported⟩
  · show execKvRetireRelease addr s = _
    simp only [execKvRetireRelease, State.live_of_running hf, hfind]
    rfl

theorem exec_kvRetireRelease_none {addr : Addr} (hf : s.frozen = false)
    (h : ∀ y ∈ s.kv.retired, y.root = addr.toNat → y.cmds ≠ []) : exec (.kvRetireRelease addr) s = .next s := by
  have hfind : s.kv.retired.find? (fun y => decide (y.root = addr.toNat) && y.cmds.isEmpty) = none := by
    simpa [List.find?_eq_none] using h
  show execKvRetireRelease addr s = _
  simp only [execKvRetireRelease, State.live_of_running hf, hfind]

/-- R268: the quarantine and the registers of the page store are the same. -/
def State.sameStore (s t : State) : Prop :=
  t.kv.quarantine = s.kv.quarantine ∧ ∀ o, 0x800 ≤ o → t.reg (aSch o) = s.reg (aSch o)

/-- EVT_KV_LOW can, or cannot, be raised again (R268). -/
def State.lowMarked (s : State) (b : Bool) : State := { s with kv := { s.kv with lowPending := b } }

theorem State.sameStore_lowMarked (s : State) (b : Bool) : s.sameStore (s.lowMarked b) :=
  ⟨by simp only [State.lowMarked], fun _ _ => by simp only [State.lowMarked, State.reg]⟩

theorem State.sameStore_kvLow (s : State) : s.sameStore s.kvLow := by
  unfold State.kvLow
  split
  · exact ⟨rfl, fun _ _ => rfl⟩
  · obtain ⟨hq, hr⟩ := s.sameStore_lowMarked true
    have hevent := (s.lowMarked true).raise_only 4 0 0x1F "KV_LOW" 0 0
    exact ⟨(congrArg (·.kv.quarantine) hevent.1).trans hq, fun o ho => (hevent.reg_kv ho).trans (hr o ho)⟩

/-- R268: a new SCH_KV_FREE changes that register alone in the page store. -/
theorem State.sameStore_setKvFree (s : State) (n : Nat) : (s.setFld (aSch 0x80C) 22 0 n).sameStore (s.setKvFree n) := by
  unfold State.setKvFree
  extract_lets t
  split
  · exact t.sameStore_kvLow
  · split
    · exact t.sameStore_lowMarked false
    · exact ⟨rfl, fun _ _ => rfl⟩

theorem State.setKvFree_spec (s : State) (n : Nat) :
    (s.setKvFree n).kv.quarantine = s.kv.quarantine ∧ (s.setKvFree n).kvFree = n % 2 ^ 23
      ∧ ∀ o, 0x800 ≤ o → o ≠ 0x80C → (s.setKvFree n).reg (aSch o) = s.reg (aSch o) := by
  obtain ⟨hq, hr⟩ := s.sameStore_setKvFree n
  refine ⟨hq.trans (by rw [State.setFld_kv]), ?_, fun o ho hne => (hr o ho).trans (s.reg_setFld_ne _ _ _ (aSch_ne hne))⟩
  rw [State.kvFree, State.fld, hr _ (by decide)]
  exact s.fld_setFld_same n (by decide) (by decide)

/-- R256: a quarantined frame returns to the free list. -/
theorem kvQuarantineRelease_leads {frame : Nat} {f : Quarantined} (hf : s.frozen = false)
    (hfind : s.kv.quarantine.find? (fun y => decide (y.frame = frame) && y.cmds.isEmpty) = some f) (hfree : s.kvFree < 2 ^ 23 - 1) :
    Leads (.kvQuarantineRelease frame) s fun s' => s'.kv.quarantine = s.kv.quarantine.erase f ∧ s'.kvFree = s.kvFree + 1
      ∧ s'.fld (aSch 0x814) 22 0 = s.fld (aSch 0x814) 22 0 - 1 := by
  let t : State := { s with kv := { s.kv with quarantine := s.kv.quarantine.erase f } }
  let u := t.setFld (aSch 0x814) 22 0 (s.fld (aSch 0x814) 22 0 - 1)
  have hcount : u.kvFree = s.kvFree := t.fld_setFld_ne _ _ _ _ _ (aSch_ne (by decide))
  let p := u.store (bits (u.reg (aSch 0x828)) 47 0 + 4 * u.kvFree) (leBytes 4 f.frame)
  have hp : u.memOnly p := u.store_only ..
  obtain ⟨hquar, hkv, hreg⟩ := p.setKvFree_spec (u.kvFree + 1)
  refine ⟨p.setKvFree (u.kvFree + 1), ?_, hquar.trans (congrArg (·.kv.quarantine) hp), ?_, ?_⟩
  · show execKvQuarantineRelease frame s = _
    simp only [execKvQuarantineRelease, State.live_of_running hf, hfind]
    rfl
  · rw [hkv, hcount]
    exact Nat.mod_eq_of_lt (by omega)
  · rw [State.fld, hreg _ (by decide) (by decide), State.reg_congr (u.store_regs ..), ← State.fld,
      t.fld_setFld_same _ (by decide) (by decide)]
    exact Nat.mod_eq_of_lt ((Nat.sub_le _ _).trans_lt (bits_lt ..))

theorem exec_kvQuarantineRelease_none {frame : Nat} (hf : s.frozen = false)
    (h : ∀ y ∈ s.kv.quarantine, y.frame = frame → y.cmds ≠ []) : exec (.kvQuarantineRelease frame) s = .next s := by
  have hfind : s.kv.quarantine.find? (fun y => decide (y.frame = frame) && y.cmds.isEmpty) = none := by
    simpa [List.find?_eq_none] using h
  show execKvQuarantineRelease frame s = _
  simp only [execKvQuarantineRelease, State.live_of_running hf, hfind]

end

/-! ## The statement -/

theorem pageRequests : PageRequests := by
  intro s init value c root addr frame x f v arg to_ idle hf
  refine ⟨fun ⟨hok, hv, hidle⟩ hop => ⟨fun hwait hnow => ?_, fun hwait hask happ => kvPublish_waits hf hok hv hidle hop hwait hask happ,
      fun hwait => kvPublish_second hf hok hv hidle hop hwait⟩,
    fun hc h0 h5 hmods => State.mods_mem_publishFails hc h0 h5 hmods, fun ⟨hok, hv, hidle⟩ hop => ?_,
    fun h => exec_kvRequest_discarded hf h, fun hwait => ⟨fun happ hfails hwalk hres => ?_, fun happ => ?_⟩,
    fun hfind => kvRetireRelease_leads hf hfind, fun h => exec_kvRetireRelease_none hf h,
    fun hfind hfree => kvQuarantineRelease_leads hf hfind hfree, fun h => exec_kvQuarantineRelease_none hf h⟩
  · have hexec := exec_kvPublish_now hf hok hv hidle hop hwait hnow
    exact ⟨fun hfails hwalk hres => ⟨_, hexec, State.publish_requested_published hfails hwalk hres⟩,
      fun hfails hwalk => ⟨_, hexec, State.publish_requested_unwalked hwait hfails hwalk⟩,
      fun hfails => ⟨_, hexec, State.publish_requested_refused hwait hfails⟩⟩
  · have hexec := exec_kvEvict hf hok hv hidle hop
    obtain ⟨hbeyond, hinvalid, hused, hdone⟩ := s.evictNode_requested value.toNat s.kvArg
    exact ⟨fun h => ⟨_, hexec, hbeyond h⟩, fun h h' => ⟨_, hexec, hinvalid h h'⟩, fun h h' h'' => ⟨_, hexec, hused h h' h''⟩,
      fun h h' h'' => ⟨_, hexec, hdone h h' h''⟩⟩
  · exact ⟨_, by rw [exec_kvPublishResume hf hwait, happ]; rfl, State.publish_published hfails hwalk hres⟩
  · rw [exec_kvPublishResume hf hwait, if_pos happ]

/-- Settles O42: the swaps by the context table they leave, the requests by `State.requested` and the publication it submits. -/
theorem contextsAndPages : Obligations.ContextsAndPages := ⟨contextResidency, pageRequests⟩

end Sys2Proof.Machine
end
